-- ==== Sys2Proof/Word.lean ====
section
/-! DEFINITION. Machine words and the plainest field arithmetic (R5). -/

namespace Sys2Proof

/-- A 64-bit word: scalar registers, control registers, instruction words (R66, R178). -/
abbrev W64 := BitVec 64
/-- A 32-bit word: one lane of a vector register (R66). -/
abbrev W32 := BitVec 32
/-- A byte of memory. -/
abbrev Byte := BitVec 8

/-- Bits [lo+len-1 : lo] of a natural number. -/
def fld (w lo len : Nat) : Nat := w / 2 ^ lo % 2 ^ len

/-- The 0/1 number of a truth value. -/
def b2n (b : Bool) : Nat := if b then 1 else 0

/-- A number read as a signed value of `w` bits (two's complement, R83). -/
def toSigned (w n : Nat) : Int :=
  if n % 2 ^ w < 2 ^ (w - 1) then (n % 2 ^ w : Nat) else ((n % 2 ^ w : Nat) : Int) - 2 ^ w

/-- An exact integer wrapped to `w` bits (R83). -/
def wrap (w : Nat) (x : Int) : Nat := (x % (2 ^ w : Nat)).toNat

end Sys2Proof
end

