-- ==== Sys2Proof/Syntax.lean ====
section
/-! DEFINITION. The one inductive of instructions and machine events: a constructor for every row of the opcode table.
Operands stand in records, one record a shape of encoding (R178 to R182). Register fields are numbers; WellFormed checks their ranges. -/

namespace Sys2Proof

/-- TYPE codes of R181. -/
inductive Ty where
  | s32 | n32 | s64 | n64 | f32 | f64 | h16 | b16 | e4m3 | e5m2 | s8 | n8 | s16 | n16
deriving DecidableEq, Repr

/-- Rounding modes of R88. -/
inductive Rnd where
  | rne | rtz | rup | rdn | rsto
deriving DecidableEq, Repr

/-- Orders of R145, R182. -/
inductive Ord where
  | rlx | acq | rel | ar | sc
deriving DecidableEq, Repr

/-- Scopes of R140, R182. -/
inductive Scope where
  | cr | cl | di | dv | sy | grp
deriving DecidableEq, Repr

/-- Compare conditions of R207. -/
inductive Cond where
  | eq | ne | lt | le | gt | ge
deriving DecidableEq, Repr

/-- Reduction operations of R242. -/
inductive RedOp where
  | add | min | max | and | or | xor
deriving DecidableEq, Repr

/-- The predicate field (R180): a mask register and the inversion bit. -/
structure Pred where
  m : Nat
  inv : Bool
deriving DecidableEq, Repr

/-- An agent that fetches and issues: a slot (global index 16 × core + slot) or the matrix sequencer of a cluster. -/
inductive Agent where
  | slot (i : Nat)
  | seq (cl : Nat)
deriving DecidableEq, Repr

/-! Scalar shapes. -/

/-- sD, sA, sB, type, saturation (R203). -/
structure RTS where (d a b : Nat) (ty : Ty) (sat : Bool)
deriving DecidableEq, Repr
/-- sD, sA, sB, type (R203, R206). -/
structure RT where (d a b : Nat) (ty : Ty)
deriving DecidableEq, Repr
/-- sD, sA, type (R203, R207). -/
structure RT1 where (d a : Nat) (ty : Ty)
deriving DecidableEq, Repr
/-- Three register fields (R203, R217, R218, R263). -/
structure R3 where (d a b : Nat)
deriving DecidableEq, Repr
/-- Two register fields. -/
structure R2 where (d a : Nat)
deriving DecidableEq, Repr
/-- Two registers and a bit count in XMOD (R203). -/
structure R2N where (d a n : Nat)
deriving DecidableEq, Repr
/-- I format with saturation (R204). -/
structure ITS where (d a : Nat) (imm : BitVec 28) (ty : Ty) (sat : Bool)
deriving DecidableEq, Repr
/-- I format with a type (R204). -/
structure IT where (d a : Nat) (imm : BitVec 28) (ty : Ty)
deriving DecidableEq, Repr
/-- I format (R204). -/
structure I2 where (d a : Nat) (imm : BitVec 28)
deriving DecidableEq, Repr
/-- `lih`: the 28 bits go to position 4 × `pos` (R204). -/
structure IPos where (d a : Nat) (imm : BitVec 28) (pos : Nat)
deriving DecidableEq, Repr
/-- Scalar floating point with rounding (R205). -/
structure F3 where (d a b : Nat) (ty : Ty) (rnd : Rnd)
deriving DecidableEq, Repr
/-- Fused multiply-add (R206). -/
structure F4 where (d a b c : Nat) (ty : Ty) (rnd : Rnd)
deriving DecidableEq, Repr
/-- One source with rounding (R206). -/
structure F2 where (d a : Nat) (ty : Ty) (rnd : Rnd)
deriving DecidableEq, Repr
/-- `fcmp` (R207). -/
structure FCmp where (d a b : Nat) (ty : Ty) (cond : Cond)
deriving DecidableEq, Repr
/-- `fcvt` (R207). -/
structure FCvt where (d a : Nat) (dty sty : Ty) (rnd : Rnd)
deriving DecidableEq, Repr
/-- Branch on one register (R208). -/
structure B1 where (a : Nat) (off : BitVec 32)
deriving DecidableEq, Repr
/-- Branch on two registers (R208). -/
structure B2 where (a b : Nat) (off : BitVec 32)
deriving DecidableEq, Repr

/-! Mask and lane shapes. -/

/-- `vcmp`, `vfcmp` (R213). -/
structure VCmp where (d a b : Nat) (ty : Ty) (cond : Cond) (p : Pred)
deriving DecidableEq, Repr
/-- vD, vA, vB or sB, type, saturation (R231). -/
structure VTS where (d a b : Nat) (ty : Ty) (sat sbs : Bool) (p : Pred)
deriving DecidableEq, Repr
/-- vD, vA, vB or sB, type (R231, R235). -/
structure VT where (d a b : Nat) (ty : Ty) (sbs : Bool) (p : Pred)
deriving DecidableEq, Repr
/-- `vmad` (R232). -/
structure VMad where (d a b c : Nat) (ty : Ty) (sat sbs : Bool) (p : Pred)
deriving DecidableEq, Repr
/-- One vector source (R232). -/
structure VT1 where (d a : Nat) (ty : Ty) (p : Pred)
deriving DecidableEq, Repr
/-- `vabs` (R232). -/
structure VT1S where (d a : Nat) (ty : Ty) (sat : Bool) (p : Pred)
deriving DecidableEq, Repr
/-- `vsel` (R232): `c` is a mask register. -/
structure VSel where (d a b c : Nat) (ty : Ty) (p : Pred)
deriving DecidableEq, Repr
/-- `vsext`, `vzext` (R232). -/
structure VTN where (d a n : Nat) (ty : Ty) (p : Pred)
deriving DecidableEq, Repr
/-- `vext` (R233). -/
structure VExt where (d a b : Nat) (ty : Ty) (live : Bool)
deriving DecidableEq, Repr
/-- `vins` (R234). -/
structure VIns where (d a b : Nat) (ty : Ty) (p : Pred)
deriving DecidableEq, Repr
/-- Lane floating point, two sources and rounding (R235, R238). -/
structure VF3 where (d a b : Nat) (ty : Ty) (rnd : Rnd) (sbs : Bool) (p : Pred)
deriving DecidableEq, Repr
/-- Lane fused multiply-add (R235, R238). -/
structure VF4 where (d a b c : Nat) (ty : Ty) (rnd : Rnd) (sbs : Bool) (p : Pred)
deriving DecidableEq, Repr
/-- Lane floating point, one source (R235). -/
structure VF2 where (d a : Nat) (ty : Ty) (rnd : Rnd) (p : Pred)
deriving DecidableEq, Repr
/-- `vfcvt` (R237). -/
structure VFCvt where (d a : Nat) (dty sty : Ty) (hi sat : Bool) (rnd : Rnd) (p : Pred)
deriving DecidableEq, Repr
/-- `vqblk.exp` (R239). -/
structure VQExp where (d a slot : Nat) (p : Pred)
deriving DecidableEq, Repr
/-- `vqblk.man` (R239). -/
structure VQMan where (d a b slot : Nat) (p : Pred)
deriving DecidableEq, Repr
/-- `vbpt` (R240). -/
structure V2 where (d a : Nat) (p : Pred)
deriving DecidableEq, Repr
/-- `vshuf`, `vbcast`, `vrot` (R242); `mm` is the member mask register. -/
structure VX3 where (d a b : Nat) (ty : Ty) (live : Bool) (mm : Nat) (p : Pred)
deriving DecidableEq, Repr
/-- `vred` (R242). -/
structure VRed where (d a : Nat) (op : RedOp) (ty : Ty) (rnd : Rnd) (live : Bool) (mm : Nat) (p : Pred)
deriving DecidableEq, Repr
/-- `vscan` (R242). -/
structure VScan where (d a : Nat) (op : RedOp) (excl : Bool) (ty : Ty) (rnd : Rnd) (live : Bool) (mm : Nat) (p : Pred)
deriving DecidableEq, Repr
/-- `vmatch` (R242). -/
structure VX2 where (d a : Nat) (ty : Ty) (live : Bool) (mm : Nat) (p : Pred)
deriving DecidableEq, Repr
/-- Lane loads (R243); `x = none` is the field value 0xFF; `sz` is SIZE, `2 ^ sz` bytes. -/
structure VLoad where (d p : Nat) (x : Option Nat) (sz : Nat) (sgn : Bool) (off : BitVec 16) (poll : Bool) (pr : Pred)
deriving DecidableEq, Repr
/-- Lane stores (R243). -/
structure VStore where (d p : Nat) (x : Option Nat) (sz : Nat) (off : BitVec 16) (pr : Pred)
deriving DecidableEq, Repr
/-- `vldacc` (R247). -/
structure VAcc where (d p : Nat) (x : Option Nat) (off : BitVec 16) (pr : Pred)
deriving DecidableEq, Repr
/-- Lane atomics (R248); `c` is read by `vacas` only. -/
structure VAtom where (d p : Nat) (x : Option Nat) (c : Nat) (ord : Ord) (scope : Scope) (ty : Ty) (pr : Pred)
deriving DecidableEq, Repr

/-! Scalar memory and system shapes. -/

/-- `ld`, `lds` (R251). -/
structure Load where (d p : Nat) (x : Option Nat) (sz : Nat) (sgn : Bool) (off : BitVec 16) (poll : Bool)
deriving DecidableEq, Repr
/-- `st`, `sts` (R251). -/
structure Store where (d p : Nat) (x : Option Nat) (sz : Nat) (off : BitVec 16)
deriving DecidableEq, Repr
/-- Full/empty word instructions (R254): FORM 0 (pointer) or 1 (`ls`). -/
structure FE where (ls : Bool) (d p : Nat) (x : Option Nat) (off : BitVec 16)
deriving DecidableEq, Repr
/-- `rput` (R256). -/
structure RPut where (s r n : Nat)
deriving DecidableEq, Repr
/-- `sputfe` (R257). -/
structure SPutFE where (s r : Nat) (x : Option Nat) (off : BitVec 16)
deriving DecidableEq, Repr
/-- Scalar atomics (R259). -/
structure Atom where (d p : Nat) (x : Option Nat) (c : Nat) (ord : Ord) (scope : Scope) (ty : Ty)
deriving DecidableEq, Repr
/-- `fence` (R260). -/
structure FenceOp where (ord : Ord) (scope : Scope) (grp : Nat)
deriving DecidableEq, Repr
/-- `ptest` (R263). -/
structure PTest where (d a b perms : Nat)
deriving DecidableEq, Repr
/-- Barriers (R265): `nb` selects a numbered barrier. -/
structure Bar where (nb : Bool) (n a : Nat)
deriving DecidableEq, Repr
/-- What `expect` binds (R268). -/
inductive ExpTarget where
  | reg (d : Nat)
  | ls (b : Nat)
  | inbox
deriving DecidableEq, Repr
/-- `expect` (R268). -/
structure Expect where (t : ExpTarget) (a : Nat)
deriving DecidableEq, Repr
/-- Copy commands (R283): `bp` is the element type of `.bp`, `on` the term of `.on`. -/
structure Cpy where (d a b c : Nat) (mc : Bool) (bp : Option Ty) (on : Option Nat)
deriving DecidableEq, Repr
/-- `xlda`, `xldb` (R311); the offset is 16 × `off16`. -/
structure XLoad where (slot : Nat) (half : Bool) (core off16 chunk step0 step1 : Nat)
deriving DecidableEq, Repr
/-- `xmul` (R311). -/
structure XMul where (tile aslot : Nat) (ahalf : Bool) (bslot : Nat) (bhalf : Bool)
deriving DecidableEq, Repr
/-- `xfold` (R311). -/
structure XFold where (tile slot : Nat) (ahalf bhalf : Bool)
deriving DecidableEq, Repr
/-- `xcvt` (R311); offsets are 16 × `off16` and 1,024 × `soff`. -/
structure XCvt where (tile slot core off16 score soff : Nat)
deriving DecidableEq, Repr
/-- What a CXL.mem write of the host carries beside its data (R171): MetaValue (0 for I, 1 S, 2 A, 3 none) and the poison mark. -/
structure MemMeta where (mf : Nat) (pois : Bool)
deriving DecidableEq, Repr

/-- Every instruction of the strands and of the matrix stream, and every event of the machine, in the order of the opcode table.
Event arguments: `slot` is 16 × core + slot; `core` is 384 × die + 16 × cluster + core; `cl` is 24 × die + cluster; `blk` is a physical address div 128;
`id` numbers a message in flight. -/
inductive Instr where
  -- scalar integer (R203, R204)
  | add (o : RTS) | sub (o : RTS) | mul (o : RTS) | mulh (o : RT) | div (o : RT) | rem (o : RT)
  | and (o : R3) | or (o : R3) | xor (o : R3)
  | shl (o : RT) | shr (o : RT) | sra (o : RT) | slt (o : RT) | sltn (o : RT) | min (o : RT) | max (o : RT)
  | clz (o : RT1) | ctz (o : RT1) | popc (o : RT1) | bext (o : RT) | bdep (o : RT)
  | sext (o : R2N) | zext (o : R2N) | mov (o : R2)
  | addi (o : ITS) | andi (o : I2) | ori (o : I2) | xori (o : I2) | shli (o : IT) | shri (o : IT) | srai (o : IT)
  | li (d : Nat) (imm : BitVec 28) | lih (o : IPos)
  -- scalar floating point (R206, R207)
  | fadd (o : F3) | fsub (o : F3) | fmul (o : F3) | ffma (o : F4) | fdiv (o : F3) | fsqrt (o : F2) | fmin (o : RT) | fmax (o : RT)
  | fcmp (o : FCmp) | fcvt (o : FCvt) | fclass (o : RT1)
  -- branches, calls, retirement (R208 to R212)
  | br (off : BitVec 32) | bz (o : B1) | bnz (o : B1) | beq (o : B2) | bne (o : B2) | blt (o : B2) | bge (o : B2) | bltn (o : B2) | bgen (o : B2)
  | call (off : BitVec 32) | callr (a : Nat) | ret | jr (a : Nat) | halt | haltKeep (a : Nat) | nop
  -- masks (R213 to R222)
  | vcmp (o : VCmp) | vfcmp (o : VCmp) | mdiv (o : B1) | melse (o : B1) | mjoin
  | mpush (a : Nat) | mpop (d : Nat) | mpeek (o : R2) | mpeekDepth (d : Nat) | mpoke (a b : Nat)
  | mset (o : R2) | mand (o : R3) | mor (o : R3) | mxor (o : R3) | mnot (o : R2) | mpopc (o : R2) | mpopcBits (o : R2) | mfirst (o : R2)
  | mspill (a : Nat) | mfill (a : Nat) | lexit (p : Pred) | refill | sow (a : Nat) (p : Pred) | vcall (a : Nat) (p : Pred)
  -- lane integer (R232 to R234)
  | vadd (o : VTS) | vsub (o : VTS) | vmul (o : VTS) | vmulh (o : VT) | vmad (o : VMad) | vand (o : VT) | vor (o : VT) | vxor (o : VT)
  | vnot (o : VT1) | vshl (o : VT) | vshr (o : VT) | vsra (o : VT) | vmin (o : VT) | vmax (o : VT) | vabs (o : VT1S) | vsel (o : VSel)
  | vclz (o : VT1) | vpopc (o : VT1) | vsext (o : VTN) | vzext (o : VTN) | vbs (o : VT1) | vext (o : VExt) | vins (o : VIns)
  -- lane floating point (R235 to R240)
  | vfadd (o : VF3) | vfsub (o : VF3) | vfmul (o : VF3) | vffma (o : VF4) | vfdiv (o : VF3) | vfsqrt (o : VF2) | vfrcp (o : VF2) | vfrsq (o : VF2)
  | vfexp2 (o : VF2) | vflog2 (o : VF2) | vfmin (o : VT) | vfmax (o : VT) | vfround (o : VF2) | vfcvt (o : VFCvt)
  | vqblkExp (o : VQExp) | vqblkMan (o : VQMan) | vbpt (o : V2) | vhadd (o : VF3) | vhmul (o : VF3) | vhfma (o : VF4)
  -- cross-lane (R242)
  | vshuf (o : VX3) | vbcast (o : VX3) | vrot (o : VX3) | vred (o : VRed) | vscan (o : VScan) | vmatch (o : VX2)
  -- lane memory (R243 to R249)
  | vld (o : VLoad) | vst (o : VStore) | vldu (o : VLoad) | lld (o : VLoad) | lst (o : VStore) | vldacc (o : VAcc)
  | vaadd (o : VAtom) | vamin (o : VAtom) | vamax (o : VAtom) | vaand (o : VAtom) | vaor (o : VAtom) | vaxor (o : VAtom) | vaxch (o : VAtom) | vacas (o : VAtom)
  -- scalar memory, full/empty, messages (R251 to R258)
  | ld (o : Load) | st (o : Store) | lds (o : Load) | sts (o : Store) | ldf (o : FE) | ldff (o : FE) | stf (o : FE) | ste (o : FE)
  | steScalar (d : Nat) | steVector (d : Nat) | rput (o : RPut) | sputfe (o : SPutFE) | amsg (o : R3)
  -- atomics, fences, caches (R259 to R262)
  | aadd (o : Atom) | amin (o : Atom) | amax (o : Atom) | aand (o : Atom) | aor (o : Atom) | axor (o : Atom) | axch (o : Atom) | acas (o : Atom)
  | fence (o : FenceOp) | l1wb (o : R2) | l1inv (o : R2) | l1wbi (o : R2) | cdcf (o : R2)
  | l1wbAll | l1invAll | l1wbiAll | cdcfAll | fenceI
  -- pointers (R263, R264)
  | pld (d b : Nat) (n : BitVec 16) | pmov (o : R2) | padd (o : R3) | pnarrow (o : R3) | pperm (o : R3) | pget (o : R2N) | ptest (o : PTest)
  -- barriers, counters, tasks, launch (R265 to R272)
  | barArrive (o : Bar) | barWait (o : Bar) | barSync (o : Bar) | gbar | expect (o : Expect)
  | cntDec (a b : Nat) | cntWait (o : R2) | tsendNew (o : R2) | tsend (a b : Nat) | launch (a : Nat)
  -- slots and queues (R273 to R275)
  | rqPush (a : Nat) | rqPop (o : R2) | slotStart (o : R3) | slotStartTask (o : R3) | slotReap (o : R2) | slotSpill (o : R3) | slotLoad (o : R2)
  | yield | wfi
  -- system (R276 to R279)
  | sys (n : BitVec 16) | trap (a : Nat) (n : BitVec 16) | ebreak (n : BitVec 16) | eret
  | cget (d : Nat) (c : BitVec 12) | cput (c : BitVec 12) (a : Nat) | cswap (d : Nat) (c : BitVec 12) (a : Nat) | cfq (d n : Nat)
  | tlbInvPage (a b : Nat) | tlbInvSpace (a b : Nat) | tlbInvAll (a b : Nat) | hhDsc (a b : Nat) | hhZero (a b : Nat)
  -- engines (R283 to R302)
  | cpyMl (o : Cpy) | cpyLm (o : Cpy) | cpyLl (o : Cpy) | cpyMr (o : Cpy) | cpyWait (a : Nat)
  | fwTake (d f : Nat) | fwGive (f a : Nat) | fwRes (d f : Nat) | fwResDef (f a : Nat) | fwPub (f a : Nat)
  | trlSetCounter (n a : Nat) | trlSetTerm (n a b : Nat) | trlClrCounter (n : Nat) | trlClrTerm (n : Nat)
  -- matrix stream (R311)
  | xlda (o : XLoad) | xldb (o : XLoad) | xmul (o : XMul) | xfold (o : XFold) | xcvt (o : XCvt) | xzero (tile : Nat)
  | xrow (first count : Nat) | xcol (first count : Nat) | xfmt (ka kb : Nat) | xwait (n : Nat) | xpost (n : Nat)
  | xloopBegin (count : Nat) | xloop (off : BitVec 16) | xend
  -- events of strands and slots
  | clauseFetch (a : Agent) | parkResume (slot : Nat) | waitLimitExpiry (slot : Nat) | timerPending (slot : Nat) | interruptEntry (slot : Nat)
  | spill (slot : Nat) | slotFreed (slot : Nat)
  -- events of the message network
  | rputDelivery (id : Nat) | sputfeDelivery (id : Nat) | remoteWriteRelease (id : Nat) | amsgDelivery (id : Nat)
  | activeMessageHandlerStart (core : Nat) | messageDelivery (id : Nat) | withdrawalRequest (id : Nat) | counterDecrement (id : Nat) | taskDecrement (id : Nat)
  -- events of the kernel and the fault ring
  | loadBalanceExchange | longWaitSpill (slot : Nat) | faultRingRetry (die part : Nat) | frreply (die part : Nat) (v : W64)
  | watchdogExpiry (core : Nat) | coreReturnToService (core : Nat)
  -- queues, launch, signals
  | notifyKick (part q : Nat) (v : W64) | queueRegister (part q : Nat) (ring ctl : W64) | queueMap (part q : Nat)
  | gang (part q : Nat) | wait (part q : Nat) | signal (part q : Nat) | edge (part q : Nat) | mark (part q : Nat)
  | edgeFlushComplete (part q : Nat) | seedTrayDrain (core : Nat) | gangRelease (g : Nat)
  | signalWindowSet (part idx : Nat) (v : W64) | signalWindowAdd (part idx : Nat) (v : W64) | doorbell (part : Nat)
  -- engines, walks, lane L1
  | commandAcceptance (cl : Nat) | commandStart (cl seq : Nat) | commandCompletion (cl seq : Nat) | combiningWindowClose (cl : Nat) | engineStateError (cl : Nat)
  | pageTableWalk (core part asid : Nat) (va : Nat) (write user fetch : Bool) | l1ReplacementWriteback (core sector : Nat) | peek (core blk : Nat)
  -- tokens within a die
  | treq (core blk : Nat) | treqx (core blk : Nat) | tcoll (id : Nat) | tokdata (id : Nat) | transientRequestReissue (core blk : Nat)
  | persistentRequest (core blk : Nat) | persistentActivation (die blk : Nat) | deactivation (core blk : Nat) | tokenRecount (die blk : Nat)
  -- the directory between dies
  | rds (die blk : Nat) | rdx (die blk : Nat) | upg (die blk : Nat) | fwds (id : Nat) | fwdx (id : Nat) | inv (id : Nat) | invAck (id : Nat) | fwdAck (id : Nat)
  | datas (id : Nat) | datax (id : Nat) | upgack (id : Nat) | cmp (id : Nat) | notei (id : Nat) | notedat (id : Nat) | noteack (id : Nat) | gone (id : Nat)
  | binv (id : Nat) | binvack (id : Nat) | binvdata (id : Nat) | wrhh (id : Nat) | wrack (id : Nat)
  | noticeAnomalyTimeout (blk : Nat) | transactionOverdue (blk : Nat)
  -- host and peers
  | bisnpdata (line : Nat) | bisnpinv (line : Nat) | birsp (line : Nat) (shared : Bool) | biconflict (line : Nat) | backInvalidationTimeout (line : Nat)
  | hostMemRead (die port line : Nat) (mf : Nat) | hostMemWrite (die port line : Nat) (mask : W64) (data : BitVec 512) (md : MemMeta) | hostBlockFill (blk : Nat) (write pois : Bool)
  | h2dSnoop (line : Nat) (invalidate : Bool) | peerUioWrite (die port addr : Nat) (len : Nat) (data : BitVec 512) (pois : Bool)
  | peerUioRead (die port addr len : Nat) | uioTimeout (a : Agent)
  -- migration, hothouse, hot rows
  | migctlGo (die : Nat) (v : W64) | migrationPart (die : Nat) | redirectForward (core pa : Nat) | redirectEntryFree (die idx : Nat)
  | hhresWrite (die part : Nat) (v : W64) | hhfbWrite (die part : Nat) (v : W64) | rowCapture (die row : Nat) | hotRowWindowEnd (die : Nat) | hbmScrub (die : Nat)
  -- checkpoint, snapshot, race log
  | ckctlGo (v : W64) | checkpointCut (die : Nat) | checkpointPartCopy (die unit : Nat) | checkpointEnd
  | snapctlArm (die : Nat) | snapctlNow (die : Nat) | snapctlDoneClear (die : Nat) | snapshotLatch (die : Nat) | rlogctlWrapClear (core : Nat)
  -- partitions
  | pctlLiveSet (die part : Nat) | pctlLiveClear (die part : Nat) | prstctlGo (die part : Nat) | prstctlDoneClear (die part : Nat) | partitionResetComplete (part : Nat)
  | pswctlSwapOut (die part : Nat) (v : W64) | pswctlResume (die part : Nat) (v : W64) | swapComplete (part : Nat) | mgmtRegisterWrite (die off : Nat) (v : W64)
  -- links and ports
  | dieLinkModuleRetire (die link mod : Nat) | dieLinkFailure (die link : Nat) | dieIsolation (die : Nat)
  | cxlLinkDown (die port : Nat) | cxlLinkUp (die port speed width : Nat) | cxlViralEntry (die port : Nat) (err : Bool) | cxlpsViralClear (die port : Nat)
  -- thermal, boot, time
  | thermalClockStep (die : Nat) | thermalCritical (die : Nat) | powerLimitInput (on : Bool) | thermalTrip (die : Nat)
  | deviceReset | bootRom (die : Nat) | gtcStart | gtcTick | clusterEnableStep | spdmMeasurementRequest (die : Nat) (nonce : BitVec 256)
  | dieLinkCrcError (die link mod : Nat) | dieLinkRetrainDone (die link : Nat) | linkLayerRetry (die port : Nat)
  | acceptanceOrRefusal (id : Nat) | queueRemove (part q : Nat)
deriving DecidableEq, Repr

end Sys2Proof
end

