-- ==== Sys2Proof/Config.lean ====
section
/-! DEFINITION. What an implementation fixes and the spec does not number, and the free values (opaque constants: nothing in Lean knows a value of them). -/

namespace Sys2Proof.Config

/-- Free value (R73): whether the n-th open read of a k-register returns the value after the write (log entry 8). -/
opaque freeChoice : Nat → Bool

/-- Free value (R13): whether the copy of the GTC on a die other than the master lags by one tick at the n-th reading (log entry 7). -/
opaque gtcLag : Nat → Nat → Bool

/-- Messages that a link takes for one core beyond the first (R67, R280), not numbered by the spec: free (log entry 77). -/
opaque netCredits : Nat

/-- Free value: the n-th result that the spec does not state (log entry 17). -/
opaque openWord : Nat → W64

/-- SHAKE256 with a 512-bit output (R352), named by standard only: free (log entry 14). -/
opaque shake256 : List Byte → BitVec 512

/-- The secret of a die from which its identity key pair is derived (R353): free (log entry 14). -/
opaque identitySecret : Nat → BitVec 512
/-- The public key of 64 bytes of the pair that a secret gives (R353): free (log entry 14). -/
opaque slhPublic : BitVec 512 → BitVec 512
/-- SLH-DSA-SHAKE-256f signatures of 49,856 bytes (R353), named by standard only: free (log entry 14). -/
opaque slhSign : BitVec 512 → List Byte → BitVec 398848

/-- What the signed firmware tables name (R352), whose layout the spec does not give: the die of the primary host port, fabric decoder entry n, and the
number of capture ways of R12: free (log entry 14). -/
opaque tablePrimary : List Byte → Option Nat
opaque tableFabric : List Byte → Nat → Option W64
opaque tableWays : List Byte → Option Nat

/-- Number of MSI-X vectors of a virtual function (R473), not given by the spec: free (log entry 13). -/
opaque msixVectors : Nat

/-- Bytes of a cluster's context at the n-th swap (R338, R339), of which the spec gives only the upper bound: free (log entry 32). -/
opaque swapBytes : Nat → Nat

/-- Ticks beyond the 1,000 of R354 after which firmware chooses to release the clusters: free (log entry 35). -/
opaque releaseDelay : Nat

/-- The Sloem kernel's code pointer (R81), not numbered by the spec: free (log entry 10). -/
opaque kernelCode : BitVec 128

/-- Trap entry of the Sloem kernel in its code (R76), not numbered by the spec: DESIGN CHOICE 0 (log entry 10). -/
def kernelTvec : Nat := 0

/-- Capacity of the instruction TLB, data TLB and second-level TLB (R116). -/
def itlbSize : Nat := 32
def dtlbSize : Nat := 64
def l2tlbSize : Nat := 8192

end Sys2Proof.Config
end

