-- ==== Sys2Proof/WellFormed.lean ====
section
/-! DEFINITION. Which terms of Instr are instructions of the machine: register ranges, port directions, types and field limits (R66 to R71, R179 to R183, and the entries R202 to R311). -/

namespace Sys2Proof

/-- A scalar field that is read: 0 to 71, not the write-only port `out` (R67, R179). -/
def rdS (n : Nat) : Bool := n < 72 && n != 61
/-- A scalar field that is written: 0 to 71, not a read-only port (R67, R179). -/
def wrS (n : Nat) : Bool := n < 72 && n != 60 && n != 62 && n != 63
/-- A vector field (R179). -/
def okV (n : Nat) : Bool := n < 128
/-- A vector field that holds a value of `ty`: 64-bit values name an even register (R68). -/
def Ty.is64 : Ty → Bool
  | .s64 | .n64 | .f64 => true
  | _ => false
/-- A vector field of a 32-bit or 64-bit value (R68, R179). -/
def okVT (ty : Ty) (n : Nat) : Bool := n < 128 && (!ty.is64 || n % 2 == 0)
/-- A mask field that is read. -/
def okM (n : Nat) : Bool := n < 8
/-- A mask field that is written: m7 is read-only (R70). -/
def wrM (n : Nat) : Bool := n < 7
/-- A pointer field. -/
def okP (n : Nat) : Bool := n < 16
/-- A pointer destination: not p0 (R71). -/
def wrP (n : Nat) : Bool := n < 16 && n != 0
/-- A predicate: 0b1000 is reserved (R180). -/
def Pred.ok (p : Pred) : Bool := p.m < 8 && !(p.m == 0 && p.inv)
/-- The typed integer class (R202, R231). -/
def Ty.typed : Ty → Bool
  | .s32 | .n32 | .s64 | .n64 => true
  | _ => false
/-- The bits class (R231). -/
def Ty.bits : Ty → Bool
  | .s32 | .n32 | .s64 | .n64 | .f32 | .f64 => true
  | _ => false
/-- Binary32 and binary64. -/
def Ty.fp : Ty → Bool
  | .f32 | .f64 => true
  | _ => false
/-- The 16-bit floating types. -/
def Ty.half : Ty → Bool
  | .h16 | .b16 => true
  | _ => false
/-- Any floating type. -/
def Ty.float : Ty → Bool
  | .f32 | .f64 | .h16 | .b16 | .e4m3 | .e5m2 => true
  | _ => false
/-- Signed integer types. -/
def Ty.signed : Ty → Bool
  | .s8 | .s16 | .s32 | .s64 => true
  | _ => false
/-- `.s32`, `.s64` (R203). -/
def Ty.sOnly : Ty → Bool
  | .s32 | .s64 => true
  | _ => false
/-- `.n32`, `.n64` (R203). -/
def Ty.nOnly : Ty → Bool
  | .n32 | .n64 => true
  | _ => false
/-- Rounding codes 0 to 3: not stochastic (R205). -/
def Rnd.det : Rnd → Bool
  | .rsto => false
  | _ => true
/-- An optional scalar index. -/
def okXS : Option Nat → Bool
  | none => true
  | some n => rdS n
/-- An optional vector index. -/
def okXV : Option Nat → Bool
  | none => true
  | some n => okV n
/-- Width of an integer or lane type in bits. -/
def Ty.width : Ty → Nat
  | .s64 | .n64 | .f64 => 64
  | .s32 | .n32 | .f32 => 32
  | .h16 | .b16 | .s16 | .n16 => 16
  | .e4m3 | .e5m2 | .s8 | .n8 => 8
/-- Reduction operations 3 to 5 are integer only (R242). -/
def RedOp.bitwise : RedOp → Bool
  | .and | .or | .xor => true
  | _ => false

def RTS.ok (o : RTS) : Bool := wrS o.d && rdS o.a && rdS o.b && o.ty.typed
def RT.ok (tys : Ty → Bool) (o : RT) : Bool := wrS o.d && rdS o.a && rdS o.b && tys o.ty
def RT1.ok (tys : Ty → Bool) (o : RT1) : Bool := wrS o.d && rdS o.a && tys o.ty
def R3.okS (o : R3) : Bool := wrS o.d && rdS o.a && rdS o.b
def R2.okS (o : R2) : Bool := wrS o.d && rdS o.a
def R2N.okB (o : R2N) : Bool := wrS o.d && rdS o.a && 1 ≤ o.n && o.n ≤ 64
def ITS.ok (o : ITS) : Bool := wrS o.d && rdS o.a && o.ty.typed
def IT.ok (o : IT) : Bool := wrS o.d && rdS o.a && o.ty.typed && o.imm.toNat < o.ty.width
def I2.ok (o : I2) : Bool := wrS o.d && rdS o.a
def F3.ok (o : F3) : Bool := wrS o.d && rdS o.a && rdS o.b && o.ty.fp && o.rnd.det
def F4.ok (o : F4) : Bool := wrS o.d && rdS o.a && rdS o.b && rdS o.c && o.ty.fp && o.rnd.det
def F2.ok (o : F2) : Bool := wrS o.d && rdS o.a && o.ty.fp && o.rnd.det
def FCmp.ok (o : FCmp) : Bool := wrS o.d && rdS o.a && rdS o.b && o.ty.fp
/-- Types 0 to 5, different, at least one floating point (R207). -/
def FCvt.ok (o : FCvt) : Bool :=
  wrS o.d && rdS o.a && o.dty.bits && o.sty.bits && o.dty != o.sty && (o.dty.fp || o.sty.fp) && o.rnd.det
def VCmp.ok (tys : Ty → Bool) (o : VCmp) : Bool := wrM o.d && okVT o.ty o.a && okVT o.ty o.b && tys o.ty && o.p.ok
/-- The second source: vector, or scalar with SBS (R228). -/
def okB2 (sbs : Bool) (ty : Ty) (b : Nat) : Bool := if sbs then rdS b else okVT ty b
def VTS.ok (o : VTS) : Bool := okVT o.ty o.d && okVT o.ty o.a && okB2 o.sbs o.ty o.b && o.ty.typed && o.p.ok
def VT.ok (tys : Ty → Bool) (o : VT) : Bool := okVT o.ty o.d && okVT o.ty o.a && okB2 o.sbs o.ty o.b && tys o.ty && o.p.ok
def VMad.ok (o : VMad) : Bool :=
  okVT o.ty o.d && okVT o.ty o.a && okB2 o.sbs o.ty o.b && okVT o.ty o.c && o.ty.typed && o.p.ok
def VT1.ok (o : VT1) : Bool := okVT o.ty o.d && okVT o.ty o.a && o.ty.bits && o.p.ok
/-- `vclz`, `vpopc` write one register at every width (R232). -/
def VT1.okCount (o : VT1) : Bool := okV o.d && okVT o.ty o.a && o.ty.bits && o.p.ok
def VT1.okBs (o : VT1) : Bool := okVT o.ty o.d && rdS o.a && o.ty.bits && o.p.ok
def VT1S.ok (o : VT1S) : Bool := okVT o.ty o.d && okVT o.ty o.a && o.ty.sOnly && o.p.ok
def VSel.ok (o : VSel) : Bool := okVT o.ty o.d && okVT o.ty o.a && okVT o.ty o.b && okM o.c && o.ty.bits && o.p.ok
def VTN.ok (o : VTN) : Bool := okVT o.ty o.d && okVT o.ty o.a && 1 ≤ o.n && o.n ≤ o.ty.width && o.ty.bits && o.p.ok
def VExt.ok (o : VExt) : Bool := wrS o.d && okVT o.ty o.a && rdS o.b && o.ty.typed
def VIns.ok (o : VIns) : Bool := okVT o.ty o.d && rdS o.a && rdS o.b && o.ty.bits && o.p.ok
def VF3.ok (tys : Ty → Bool) (o : VF3) : Bool := okVT o.ty o.d && okVT o.ty o.a && okB2 o.sbs o.ty o.b && tys o.ty && o.p.ok
def VF4.ok (tys : Ty → Bool) (o : VF4) : Bool :=
  okVT o.ty o.d && okVT o.ty o.a && okB2 o.sbs o.ty o.b && okVT o.ty o.c && tys o.ty && o.p.ok
def VF2.ok (tys : Ty → Bool) (rs : Rnd → Bool) (o : VF2) : Bool := okVT o.ty o.d && okVT o.ty o.a && tys o.ty && rs o.rnd && o.p.ok
/-- The conversions of R237. -/
def VFCvt.ok (o : VFCvt) : Bool :=
  okVT o.dty o.d && okVT o.sty o.a && o.dty != o.sty && (o.dty.float || o.sty.float)
    && (!o.hi || o.dty.half || o.sty.half) && (!o.sat || o.dty.half || o.dty == .e4m3 || o.dty == .e5m2) && o.p.ok
def VX3.ok (scalarB : Bool) (o : VX3) : Bool :=
  okVT o.ty o.d && okVT o.ty o.a && (if scalarB then rdS o.b else okV o.b) && o.ty.bits && okM o.mm && o.p.ok
/-- Integer types round with code 0 only; floating types with 0 to 3 (R242). -/
def redRnd (ty : Ty) (r : Rnd) : Bool := if ty.fp then r.det else r == .rne
def VRed.ok (o : VRed) : Bool :=
  okVT o.ty o.d && okVT o.ty o.a && (o.ty.typed || (o.ty.fp && !o.op.bitwise)) && redRnd o.ty o.rnd && okM o.mm && o.p.ok
def VScan.ok (o : VScan) : Bool :=
  okVT o.ty o.d && okVT o.ty o.a && (o.ty.typed || o.ty.fp) && !o.op.bitwise && redRnd o.ty o.rnd && okM o.mm && o.p.ok
def VX2.ok (o : VX2) : Bool := okV o.d && okVT o.ty o.a && o.ty.bits && okM o.mm && o.p.ok
/-- A data register of 2 ^ sz bytes: 64-bit accesses name a pair (R243). -/
def okVSz (sz n : Nat) : Bool := n < 128 && (sz != 3 || n % 2 == 0)
def VLoad.ok (ptr sx poll : Bool) (o : VLoad) : Bool :=
  okVSz o.sz o.d && (if ptr then okP o.p else rdS o.p) && (if sx then okXS o.x else okXV o.x)
    && o.sz < 4 && !(o.sgn && o.sz == 3) && (poll || !o.poll) && o.pr.ok
def VStore.ok (ptr : Bool) (o : VStore) : Bool :=
  okVSz o.sz o.d && (if ptr then okP o.p else rdS o.p) && okXV o.x && o.sz < 4 && o.pr.ok
def VAcc.ok (o : VAcc) : Bool := okV o.d && rdS o.p && okXV o.x && o.pr.ok
def VAtom.ok (tys : Ty → Bool) (cas : Bool) (o : VAtom) : Bool :=
  okVT o.ty o.d && okP o.p && okXV o.x && (if cas then okVT o.ty o.c else o.c == 0) && tys o.ty && o.scope != .grp && o.pr.ok
/-- Types of `vaadd` and `aadd` (R248). -/
def Ty.addable (t : Ty) : Bool := t.typed || t == .f32
def Load.ok (ptr : Bool) (o : Load) : Bool :=
  wrS o.d && (if ptr then okP o.p && okXS o.x else rdS o.p && o.x == none) && o.sz < 4 && !(o.sgn && o.sz == 3)
def Store.ok (ptr : Bool) (o : Store) : Bool :=
  rdS o.d && (if ptr then okP o.p && okXS o.x else rdS o.p && o.x == none) && o.sz < 4
def FE.ok (rd : Nat → Bool) (o : FE) : Bool := rd o.d && (if o.ls then rdS o.p && o.x == none else okP o.p && okXS o.x)
/-- A register with a full/empty bit: s1 to s59 (R66). -/
def feReg (n : Nat) : Bool := 1 ≤ n && n ≤ 59
def Atom.ok (tys : Ty → Bool) (cas : Bool) (o : Atom) : Bool :=
  rdS o.d && wrS o.d && okP o.p && okXS o.x && (if cas then rdS o.c else o.c == 0) && tys o.ty && o.scope != .grp
/-- A fence is never relaxed, and only `.grp` names a group (R182, R260). -/
def FenceOp.ok (o : FenceOp) : Bool := o.ord != .rlx && (if o.scope == .grp then o.grp < 256 else o.grp == 0)
def Bar.ok (o : Bar) : Bool := if o.nb then o.n < 16 && rdS o.a else o.n < 256 && o.a == 0
def Expect.ok (o : Expect) : Bool :=
  rdS o.a && (match o.t with | .reg d => feReg d | .ls b => rdS b | .inbox => true)
/-- Element types of `.bp` (R283). -/
def Ty.bpOk : Ty → Bool
  | .s8 | .s16 | .s32 => true
  | _ => false
def okOn : Option Nat → Bool
  | none => true
  | some t => t < 32
def okBp : Option Ty → Bool
  | none => true
  | some t => t.bpOk
def Cpy.ok (sp mc bp : Bool) (o : Cpy) : Bool :=
  wrS o.d && (if sp then rdS o.a else okP o.a) && rdS o.b && rdS o.c && (mc || !o.mc) && (if bp then okBp o.bp else o.bp == none) && okOn o.on
def XLoad.ok (o : XLoad) : Bool :=
  o.slot < 8 && o.core < 16 && o.off16 < 16384 && o.chunk < 256 && o.step0 < 16 && o.step1 < 16
def XCvt.ok (o : XCvt) : Bool := o.tile < 4 && o.slot < 8 && o.core < 16 && o.off16 < 65536 && o.score < 16 && o.soff < 256

/-- Numbers of the machine's parts (R10, R14, R15, R340). -/
def okDie (n : Nat) : Bool := n < 4
def okPart (n : Nat) : Bool := n < 16
def okCl (n : Nat) : Bool := n < 96
def okCore (n : Nat) : Bool := n < 1536
def okSlot (n : Nat) : Bool := n < 24576
def okQ (n : Nat) : Bool := n < 4096
/-- A block number of the 52-bit physical space (R110). -/
def okBlk (n : Nat) : Bool := n < 2 ^ 45 || (2 ^ 53 ≤ n && n < 2 ^ 53 + 2 ^ 20)
/-- A 64-byte line number of the 52-bit physical space. -/
def okLine (n : Nat) : Bool := n < 2 ^ 46 || (2 ^ 54 ≤ n && n < 2 ^ 54 + 2 ^ 21)

/-- The well-formed terms: those an encoding of the spec names (instructions), or whose parts exist (events). -/
def WellFormed : Instr → Bool
  | .add o | .sub o | .mul o => o.ok
  | .mulh o | .div o | .rem o | .shl o | .shr o | .sra o | .min o | .max o | .bext o | .bdep o => o.ok Ty.typed
  | .and o | .or o | .xor o => o.okS
  | .slt o => o.ok Ty.sOnly
  | .sltn o => o.ok Ty.nOnly
  | .clz o | .ctz o | .popc o => o.ok Ty.typed
  | .sext o | .zext o => o.okB
  | .mov o => o.okS
  | .addi o => o.ok
  | .andi o | .ori o | .xori o => o.ok
  | .shli o | .shri o | .srai o => o.ok
  | .li d _ => wrS d
  | .lih o => wrS o.d && rdS o.a && o.pos < 10
  | .fadd o | .fsub o | .fmul o | .fdiv o => o.ok
  | .ffma o => o.ok
  | .fsqrt o => o.ok
  | .fmin o | .fmax o => o.ok Ty.fp
  | .fcmp o => o.ok
  | .fcvt o => o.ok
  | .fclass o => o.ok Ty.fp
  | .br _ | .call _ => true
  | .bz o | .bnz o => rdS o.a
  | .beq o | .bne o | .blt o | .bge o | .bltn o | .bgen o => rdS o.a && rdS o.b
  | .callr a | .jr a | .haltKeep a => rdS a
  | .ret | .halt | .nop => true
  | .vcmp o => o.ok Ty.typed
  | .vfcmp o => o.ok Ty.fp
  | .mdiv o | .melse o => okM o.a
  | .mjoin | .refill => true
  | .mpush a | .mspill a | .mfill a => rdS a
  | .mpop d | .mpeekDepth d => wrS d
  | .mpeek o => o.okS
  | .mpoke a b => rdS a && rdS b
  | .mset o => wrM o.d && rdS o.a
  | .mand o | .mor o | .mxor o => wrM o.d && okM o.a && okM o.b
  | .mnot o => wrM o.d && okM o.a
  | .mpopc o | .mpopcBits o | .mfirst o => wrS o.d && okM o.a
  | .lexit p => p.ok
  | .sow a p | .vcall a p => okVT .s64 a && p.ok
  | .vadd o | .vsub o | .vmul o => o.ok
  | .vmulh o | .vshl o | .vshr o | .vsra o | .vmin o | .vmax o => o.ok Ty.typed
  | .vmad o => o.ok
  | .vand o | .vor o | .vxor o => o.ok Ty.bits
  | .vnot o => o.ok
  | .vabs o => o.ok
  | .vsel o => o.ok
  | .vclz o | .vpopc o => o.okCount
  | .vsext o | .vzext o => o.ok
  | .vbs o => o.okBs
  | .vext o => o.ok
  | .vins o => o.ok
  | .vfadd o | .vfsub o | .vfmul o | .vfdiv o => o.ok Ty.fp
  | .vffma o => o.ok Ty.fp
  | .vfsqrt o => o.ok Ty.fp (fun _ => true)
  | .vfrcp o | .vfrsq o | .vfexp2 o | .vflog2 o => o.ok (· == .f32) (fun _ => true)
  | .vfmin o | .vfmax o => o.ok Ty.fp
  | .vfround o => o.ok Ty.fp Rnd.det
  | .vfcvt o => o.ok
  | .vqblkExp o => okV o.d && okV o.a && o.slot < 8 && o.p.ok
  | .vqblkMan o => okV o.d && okV o.a && okV o.b && o.slot < 8 && o.p.ok
  | .vbpt o => okV o.d && okV o.a && o.p.ok
  | .vhadd o | .vhmul o => o.ok Ty.half
  | .vhfma o => o.ok Ty.half
  | .vshuf o => o.ok false
  | .vbcast o | .vrot o => o.ok true
  | .vred o => o.ok
  | .vscan o => o.ok
  | .vmatch o => o.ok
  | .vld o => o.ok true false true
  | .vldu o => o.ok true true true
  | .lld o => o.ok false false true
  | .vst o => o.ok true
  | .lst o => o.ok false
  | .vldacc o => o.ok
  | .vaadd o => o.ok Ty.addable false
  | .vamin o | .vamax o => o.ok Ty.typed false
  | .vaand o | .vaor o | .vaxor o | .vaxch o => o.ok Ty.bits false
  | .vacas o => o.ok Ty.bits true
  | .ld o => o.ok true
  | .lds o => o.ok false
  | .st o => o.ok true
  | .sts o => o.ok false
  | .ldf o | .ldff o => o.ok wrS
  | .stf o => o.ok rdS
  | .ste o => o.ok (· == 0)
  | .steScalar d => feReg d
  | .steVector d => okV d
  | .rput o => rdS o.s && rdS o.r && feReg o.n
  | .sputfe o => rdS o.s && rdS o.r && okXS o.x
  | .amsg o => rdS o.d && rdS o.a && rdS o.b
  | .aadd o => o.ok Ty.addable false
  | .amin o | .amax o => o.ok Ty.typed false
  | .aand o | .aor o | .axor o | .axch o => o.ok Ty.bits false
  | .acas o => o.ok Ty.bits true
  | .fence o => o.ok
  | .l1wb o | .l1inv o | .l1wbi o | .cdcf o => okP o.d && rdS o.a
  | .l1wbAll | .l1invAll | .l1wbiAll | .cdcfAll | .fenceI => true
  | .pld d b _ => wrP d && rdS b
  | .pmov o => wrP o.d && okP o.a
  | .padd o | .pnarrow o | .pperm o => wrP o.d && okP o.a && rdS o.b
  | .pget o => wrS o.d && okP o.a && o.n < 4
  | .ptest o => wrS o.d && okP o.a && rdS o.b && o.perms < 32
  | .barArrive o | .barWait o | .barSync o => o.ok
  | .gbar => true
  | .expect o => o.ok
  | .cntDec a b | .tsend a b => rdS a && rdS b
  | .cntWait o => feReg o.d && rdS o.a
  | .tsendNew o => wrS o.d && rdS o.a
  | .launch a | .rqPush a => rdS a
  | .rqPop o | .slotReap o | .slotLoad o => wrS o.d && rdS o.a
  | .slotStart o | .slotStartTask o | .slotSpill o => o.okS
  | .yield | .wfi | .eret => true
  | .sys _ | .ebreak _ => true
  | .trap a _ => rdS a
  | .cget d _ => wrS d
  | .cput _ a => rdS a
  | .cswap d _ a => wrS d && rdS a
  | .cfq d n => wrS d && n < 8
  | .tlbInvPage a b | .tlbInvSpace a b | .tlbInvAll a b => rdS a && rdS b
  | .hhDsc a b | .hhZero a b => okP a && rdS b
  | .cpyMl o => o.ok false true true
  | .cpyLm o => o.ok false false false
  | .cpyLl o => o.ok true false true
  | .cpyMr o => o.ok false false false
  | .cpyWait a => rdS a
  | .fwTake d f | .fwRes d f => wrS d && f < 16
  | .fwGive f a | .fwResDef f a | .fwPub f a => rdS a && f < 16
  | .trlSetCounter n a => n < 16 && rdS a
  | .trlSetTerm n a b => n < 32 && rdS a && rdS b
  | .trlClrCounter n => n < 16
  | .trlClrTerm n => n < 32
  | .xlda o | .xldb o => o.ok
  | .xmul o => o.tile < 4 && o.aslot < 8 && o.bslot < 8
  | .xfold o => o.tile < 4 && o.slot < 8
  | .xcvt o => o.ok
  | .xzero t => t < 4
  | .xrow f c | .xcol f c => f < 128 && c ≤ 128 && f + c ≤ 128
  | .xfmt ka kb => 1 ≤ ka && ka ≤ 256 && 1 ≤ kb && kb ≤ 256
  | .xwait n | .xpost n => n < 16
  | .xloopBegin c => 1 ≤ c && c ≤ 65536
  | .xloop _ | .xend => true
  | .clauseFetch (.slot i) => okSlot i
  | .clauseFetch (.seq c) => okCl c
  | .parkResume s | .waitLimitExpiry s | .timerPending s | .interruptEntry s | .spill s | .slotFreed s | .longWaitSpill s => okSlot s
  | .rputDelivery _ | .sputfeDelivery _ | .remoteWriteRelease _ | .amsgDelivery _ | .messageDelivery _ | .withdrawalRequest _
  | .counterDecrement _ | .taskDecrement _ | .acceptanceOrRefusal _ => true
  | .activeMessageHandlerStart c | .watchdogExpiry c | .coreReturnToService c | .seedTrayDrain c | .rlogctlWrapClear c => okCore c
  | .loadBalanceExchange => true
  | .faultRingRetry d p => okDie d && okPart p
  | .frreply d p _ => okDie d && okPart p
  | .notifyKick p q _ => okPart p && okQ q
  | .queueRegister p q _ _ => okPart p && okQ q
  | .queueMap p q | .gang p q | .wait p q | .signal p q | .edge p q | .mark p q | .edgeFlushComplete p q | .queueRemove p q => okPart p && okQ q
  | .gangRelease _ => true
  | .signalWindowSet p i _ | .signalWindowAdd p i _ => okPart p && i < 4096
  | .doorbell p => okPart p
  | .commandAcceptance c | .combiningWindowClose c | .engineStateError c => okCl c
  | .commandStart c _ | .commandCompletion c _ => okCl c
  | .pageTableWalk c p a va _ _ _ => okCore c && okPart p && okQ a && va < 2 ^ 56
  | .l1ReplacementWriteback c s => okCore c && okLine s
  | .peek c b | .treq c b | .treqx c b | .transientRequestReissue c b | .persistentRequest c b | .deactivation c b => okCore c && okBlk b
  | .tcoll _ | .tokdata _ | .fwds _ | .fwdx _ | .inv _ | .invAck _ | .fwdAck _ | .datas _ | .datax _ | .upgack _ | .cmp _ | .notei _ | .notedat _
  | .noteack _ | .gone _ | .binv _ | .binvack _ | .binvdata _ | .wrhh _ | .wrack _ => true
  | .persistentActivation d b | .tokenRecount d b | .rds d b | .rdx d b | .upg d b => okDie d && okBlk b
  | .noticeAnomalyTimeout b | .transactionOverdue b => okBlk b
  | .bisnpdata l | .bisnpinv l | .biconflict l | .backInvalidationTimeout l => okLine l
  | .birsp l _ => okLine l
  | .hostMemRead d p l m => okDie d && p < 3 && okLine l && m < 4
  | .hostMemWrite d p l _ _ m => okDie d && p < 3 && okLine l && m.mf < 4
  | .hostBlockFill b _ _ => okBlk b
  | .h2dSnoop l _ => okLine l
  | .peerUioWrite d p a n _ _ => okDie d && p < 3 && a < 2 ^ 52 && n ≤ 64
  | .peerUioRead d p a n => okDie d && p < 3 && a < 2 ^ 52 && n ≤ 64
  | .uioTimeout (.slot i) => okSlot i
  | .uioTimeout (.seq c) => okCl c
  | .migctlGo d _ | .migrationPart d | .hotRowWindowEnd d | .hbmScrub d => okDie d
  | .redirectForward c a => okCore c && a < 2 ^ 61
  | .redirectEntryFree d i => okDie d && i < 64
  | .hhresWrite d p _ | .hhfbWrite d p _ => okDie d && okPart p
  | .rowCapture d _ => okDie d
  | .ckctlGo _ | .checkpointEnd => true
  | .checkpointCut d => okDie d
  | .checkpointPartCopy d _ => okDie d
  | .snapctlArm d | .snapctlNow d | .snapctlDoneClear d | .snapshotLatch d => okDie d
  | .pctlLiveSet d p | .pctlLiveClear d p | .prstctlGo d p | .prstctlDoneClear d p => okDie d && okPart p
  | .partitionResetComplete p | .swapComplete p => okPart p
  | .pswctlSwapOut d p _ | .pswctlResume d p _ => okDie d && okPart p
  | .mgmtRegisterWrite d o _ => okDie d && o < 2 ^ 24
  | .dieLinkModuleRetire d l m | .dieLinkCrcError d l m => okDie d && l < 2 && m < 48
  | .dieLinkFailure d l | .dieLinkRetrainDone d l => okDie d && l < 2
  | .dieIsolation d | .thermalClockStep d | .thermalCritical d | .thermalTrip d | .bootRom d => okDie d
  | .cxlLinkUp d p sp w => okDie d && p < 3 && (sp == 1 || sp == 2) && (w == 8 || w == 16)
  | .cxlViralEntry d p _ => okDie d && p < 3
  | .cxlLinkDown d p | .cxlpsViralClear d p | .linkLayerRetry d p => okDie d && p < 3
  | .powerLimitInput _ | .deviceReset | .gtcStart | .gtcTick | .clusterEnableStep => true
  | .spdmMeasurementRequest d _ => okDie d

end Sys2Proof
end

