-- ==== Sys2Proof/Decode.lean ====
section
/-! DEFINITION. The decoder of 64-bit instruction words (R178 to R182, R190, R191 check 1) and the encoder written from the same tables.
Matrix-stream words (0xF0 to 0xFC) decode too: which stream may issue an opcode is R188's, in the meanings. -/

namespace Sys2Proof

/-- Why a word is no instruction: every one is "illegal encoding" (0x01). -/
inductive Illegal where
  /-- reserved opcode, 0x00 or 0xFF (R190) -/
  | opcode
  /-- reserved FN value (R190) -/
  | fn
  /-- the predicate field (R180) -/
  | pred
  /-- a register field out of range or a port used against its direction (R67, R179) -/
  | reg
  /-- a nonzero unused field (R179) -/
  | zero
  /-- a TYPE, rounding code, order, scope or another subfield outside its entry's list (R181, R182) -/
  | mod
deriving DecidableEq, Repr

/-- The fields every format shares, by the positions of R178: `d` [51:44], `a` [43:36], `b` [35:28], `c` [27:20], `p` [19:16], `m` [15:0]. -/
structure Fields where (op fn d a b c p m : Nat)
deriving DecidableEq, Repr

/-- The fields of a word (R178). -/
def Fields.ofWord (w : Nat) : Fields :=
  { op := w / 2 ^ 56 % 256, fn := w / 2 ^ 52 % 16, d := w / 2 ^ 44 % 256, a := w / 2 ^ 36 % 256,
    b := w / 2 ^ 28 % 256, c := w / 2 ^ 20 % 256, p := w / 2 ^ 16 % 16, m := w % 65536 }

/-- The word of the fields (R178). -/
def Fields.word (f : Fields) : Nat :=
  f.op * 2 ^ 56 + f.fn * 2 ^ 52 + f.d * 2 ^ 44 + f.a * 2 ^ 36 + f.b * 2 ^ 28 + f.c * 2 ^ 20 + f.p * 2 ^ 16 + f.m

/-- Every field within its width. -/
def Fields.ok (f : Fields) : Bool :=
  f.op < 256 && f.fn < 16 && f.d < 256 && f.a < 256 && f.b < 256 && f.c < 256 && f.p < 16 && f.m < 65536

def Ty.ofCode : Nat → Option Ty
  | 0 => some .s32 | 1 => some .n32 | 2 => some .s64 | 3 => some .n64 | 4 => some .f32 | 5 => some .f64 | 6 => some .h16 | 7 => some .b16
  | 8 => some .e4m3 | 9 => some .e5m2 | 10 => some .s8 | 11 => some .n8 | 12 => some .s16 | 13 => some .n16 | _ => none
def Ty.code : Ty → Nat
  | .s32 => 0 | .n32 => 1 | .s64 => 2 | .n64 => 3 | .f32 => 4 | .f64 => 5 | .h16 => 6 | .b16 => 7
  | .e4m3 => 8 | .e5m2 => 9 | .s8 => 10 | .n8 => 11 | .s16 => 12 | .n16 => 13
def Rnd.ofCode : Nat → Option Rnd
  | 0 => some .rne | 1 => some .rtz | 2 => some .rup | 3 => some .rdn | 4 => some .rsto | _ => none
def Rnd.code : Rnd → Nat
  | .rne => 0 | .rtz => 1 | .rup => 2 | .rdn => 3 | .rsto => 4
def Ord.ofCode : Nat → Option Ord
  | 0 => some .rlx | 1 => some .acq | 2 => some .rel | 3 => some .ar | 4 => some .sc | _ => none
def Ord.code : Ord → Nat
  | .rlx => 0 | .acq => 1 | .rel => 2 | .ar => 3 | .sc => 4
def Scope.ofCode : Nat → Option Scope
  | 0 => some .cr | 1 => some .cl | 2 => some .di | 3 => some .dv | 4 => some .sy | 5 => some .grp | _ => none
def Scope.code : Scope → Nat
  | .cr => 0 | .cl => 1 | .di => 2 | .dv => 3 | .sy => 4 | .grp => 5
def Cond.ofCode : Nat → Option Cond
  | 0 => some .eq | 1 => some .ne | 2 => some .lt | 3 => some .le | 4 => some .gt | 5 => some .ge | _ => none
def Cond.code : Cond → Nat
  | .eq => 0 | .ne => 1 | .lt => 2 | .le => 3 | .gt => 4 | .ge => 5
def RedOp.ofCode : Nat → Option RedOp
  | 0 => some .add | 1 => some .min | 2 => some .max | 3 => some .and | 4 => some .or | 5 => some .xor | _ => none
def RedOp.code : RedOp → Nat
  | .add => 0 | .min => 1 | .max => 2 | .and => 3 | .or => 4 | .xor => 5

/-- The I-format types (R204): 0 `.s64`, 1 `.n64`, 2 `.s32`, 3 `.n32`. -/
def Ty.ofI : Nat → Ty
  | 0 => .s64 | 1 => .n64 | 2 => .s32 | _ => .n32
def Ty.codeI : Ty → Nat
  | .n64 => 1 | .s32 => 2 | .n32 => 3 | _ => 0

/-- A predicate from its four bits; 0b1000 is reserved (R180). -/
def Pred.ofCode (n : Nat) : Option Pred := if n = 8 then none else some ⟨n % 8, 8 ≤ n⟩
def Pred.code (p : Pred) : Nat := p.m + 8 * b2n p.inv
/-- Field X: 0xFF is no index (R179). -/
def xOf (n : Nat) : Option Nat := if n = 255 then none else some n
def xCode : Option Nat → Nat
  | none => 255
  | some n => n

/-- MOD of the R format (R181). -/
def mkMod (xmod ty sat rnd : Nat) : Nat := xmod * 256 + ty * 16 + sat * 8 + rnd
def Fields.xmod (f : Fields) : Nat := f.m / 256
def Fields.tyc (f : Fields) : Nat := f.m / 16 % 16
def Fields.satb (f : Fields) : Nat := f.m / 8 % 2
def Fields.rndc (f : Fields) : Nat := f.m % 8

abbrev Dec := Except Illegal

def need (b : Bool) (e : Illegal) : Dec Unit := if b then .ok () else .error e
def opt {α : Type} (o : Option α) (e : Illegal) : Dec α :=
  match o with
  | some a => .ok a
  | none => .error e
/-- The instruction, when it is well-formed. -/
def wfOr (i : Instr) : Dec Instr := if WellFormed i then .ok i else .error .reg
/-- The fields that must be zero in this shape (R179). -/
def zeros (l : List Nat) : Dec Unit := if l.all (· == 0) then .ok () else .error .zero
def noPred (f : Fields) : Dec Unit := if f.p = 0 then .ok () else .error .pred
def predOf (f : Fields) : Dec Pred := opt (Pred.ofCode f.p) .pred
def tyOf (f : Fields) : Dec Ty := opt (Ty.ofCode f.tyc) .mod
def rndOf (f : Fields) : Dec Rnd := opt (Rnd.ofCode f.rndc) .mod

/-! One decoder for each shape. -/

def decRTS (f : Fields) (k : RTS → Instr) : Dec Instr := do
  zeros [f.fn, f.c, f.xmod, f.rndc]; noPred f
  let ty ← tyOf f
  wfOr (k ⟨f.d, f.a, f.b, ty, f.satb == 1⟩)
def decRT (f : Fields) (k : RT → Instr) : Dec Instr := do
  zeros [f.fn, f.c, f.xmod, f.satb, f.rndc]; noPred f
  let ty ← tyOf f
  wfOr (k ⟨f.d, f.a, f.b, ty⟩)
def decRT1 (f : Fields) (k : RT1 → Instr) : Dec Instr := do
  zeros [f.fn, f.b, f.c, f.xmod, f.satb, f.rndc]; noPred f
  let ty ← tyOf f
  wfOr (k ⟨f.d, f.a, ty⟩)
/-- DST, SA, SB with MOD zero; FN fixed by the caller. -/
def dec3 (f : Fields) (k : R3 → Instr) : Dec Instr := do
  zeros [f.c, f.m]; noPred f
  wfOr (k ⟨f.d, f.a, f.b⟩)
def dec2 (f : Fields) (k : R2 → Instr) : Dec Instr := do
  zeros [f.b, f.c, f.m]; noPred f
  wfOr (k ⟨f.d, f.a⟩)
def decD (f : Fields) (k : Nat → Instr) : Dec Instr := do
  zeros [f.a, f.b, f.c, f.m]; noPred f
  wfOr (k f.d)
def decA (f : Fields) (k : Nat → Instr) : Dec Instr := do
  zeros [f.d, f.b, f.c, f.m]; noPred f
  wfOr (k f.a)
def decAB (f : Fields) (k : Nat → Nat → Instr) : Dec Instr := do
  zeros [f.d, f.c, f.m]; noPred f
  wfOr (k f.a f.b)
def dec0 (f : Fields) (i : Instr) : Dec Instr := do
  zeros [f.d, f.a, f.b, f.c, f.m]; noPred f
  .ok i
def decR2N (f : Fields) (k : R2N → Instr) : Dec Instr := do
  zeros [f.fn, f.b, f.c, f.m % 256]; noPred f
  wfOr (k ⟨f.d, f.a, f.xmod⟩)
/-- IMM of the I format (R178). -/
def immOf (f : Fields) : BitVec 28 := BitVec.ofNat 28 (f.b * 2 ^ 20 + f.c * 2 ^ 12 + f.m / 16)
def decITS (f : Fields) (k : ITS → Instr) : Dec Instr := do
  zeros [f.fn, f.m / 4 % 2]; noPred f
  wfOr (k ⟨f.d, f.a, immOf f, Ty.ofI (f.m % 4), f.m / 8 % 2 == 1⟩)
def decIT (f : Fields) (k : IT → Instr) : Dec Instr := do
  zeros [f.fn, f.m / 4 % 4]; noPred f
  wfOr (k ⟨f.d, f.a, immOf f, Ty.ofI (f.m % 4)⟩)
def decI2 (f : Fields) (k : I2 → Instr) : Dec Instr := do
  zeros [f.fn, f.m % 16]; noPred f
  wfOr (k ⟨f.d, f.a, immOf f⟩)
def decLi (f : Fields) : Dec Instr := do
  zeros [f.fn, f.a, f.m % 16]; noPred f
  wfOr (.li f.d (immOf f))
def decLih (f : Fields) : Dec Instr := do
  zeros [f.fn]; noPred f
  wfOr (.lih ⟨f.d, f.a, immOf f, f.m % 16⟩)
def decF3 (f : Fields) (k : F3 → Instr) : Dec Instr := do
  zeros [f.fn, f.c, f.xmod, f.satb]; noPred f
  let ty ← tyOf f
  let r ← rndOf f
  wfOr (k ⟨f.d, f.a, f.b, ty, r⟩)
def decF4 (f : Fields) (k : F4 → Instr) : Dec Instr := do
  zeros [f.fn, f.xmod, f.satb]; noPred f
  let ty ← tyOf f
  let r ← rndOf f
  wfOr (k ⟨f.d, f.a, f.b, f.c, ty, r⟩)
def decF2 (f : Fields) (k : F2 → Instr) : Dec Instr := do
  zeros [f.fn, f.b, f.c, f.xmod, f.satb]; noPred f
  let ty ← tyOf f
  let r ← rndOf f
  wfOr (k ⟨f.d, f.a, ty, r⟩)
def decFCmp (f : Fields) : Dec Instr := do
  zeros [f.fn, f.c, f.xmod / 8, f.satb, f.rndc]; noPred f
  let ty ← tyOf f
  let c ← opt (Cond.ofCode (f.xmod % 8)) .mod
  wfOr (.fcmp ⟨f.d, f.a, f.b, ty, c⟩)
def decFCvt (f : Fields) : Dec Instr := do
  zeros [f.fn, f.b, f.c, f.xmod / 16, f.satb]; noPred f
  let dty ← tyOf f
  let sty ← opt (Ty.ofCode (f.xmod % 16)) .mod
  let r ← rndOf f
  wfOr (.fcvt ⟨f.d, f.a, dty, sty, r⟩)

/-- OFF of the B format (R178, R183); SA is field `d`, SB field `a`. -/
def off32 (f : Fields) : BitVec 32 := BitVec.ofNat 32 (f.b * 2 ^ 24 + f.c * 2 ^ 16 + f.m)
def decB0 (f : Fields) (k : BitVec 32 → Instr) : Dec Instr := do
  zeros [f.fn, f.d, f.a]; noPred f
  .ok (k (off32 f))
def decB1 (f : Fields) (k : B1 → Instr) : Dec Instr := do
  zeros [f.fn, f.a]; noPred f
  wfOr (k ⟨f.d, off32 f⟩)
def decB2 (f : Fields) (k : B2 → Instr) : Dec Instr := do
  zeros [f.fn]; noPred f
  wfOr (k ⟨f.d, f.a, off32 f⟩)

def decVCmp (f : Fields) (k : VCmp → Instr) : Dec Instr := do
  zeros [f.fn, f.c, f.xmod / 8, f.satb, f.rndc]
  let p ← predOf f
  let ty ← tyOf f
  let c ← opt (Cond.ofCode (f.xmod % 8)) .mod
  wfOr (k ⟨f.d, f.a, f.b, ty, c, p⟩)
def decAP (f : Fields) (k : Nat → Pred → Instr) : Dec Instr := do
  zeros [f.fn, f.d, f.b, f.c, f.m]
  let p ← predOf f
  wfOr (k f.a p)
/-- XMOD[15] is SBS (R228). -/
def sbsOf (f : Fields) : Bool := f.m / 32768 == 1
def decVTS (f : Fields) (k : VTS → Instr) : Dec Instr := do
  zeros [f.fn, f.c, f.xmod % 128, f.rndc]
  let p ← predOf f
  let ty ← tyOf f
  wfOr (k ⟨f.d, f.a, f.b, ty, f.satb == 1, sbsOf f, p⟩)
def decVT (f : Fields) (k : VT → Instr) : Dec Instr := do
  zeros [f.fn, f.c, f.xmod % 128, f.satb, f.rndc]
  let p ← predOf f
  let ty ← tyOf f
  wfOr (k ⟨f.d, f.a, f.b, ty, sbsOf f, p⟩)
def decVMad (f : Fields) : Dec Instr := do
  zeros [f.fn, f.xmod % 128, f.rndc]
  let p ← predOf f
  let ty ← tyOf f
  wfOr (.vmad ⟨f.d, f.a, f.b, f.c, ty, f.satb == 1, sbsOf f, p⟩)
def decVT1 (f : Fields) (k : VT1 → Instr) : Dec Instr := do
  zeros [f.fn, f.b, f.c, f.xmod, f.satb, f.rndc]
  let p ← predOf f
  let ty ← tyOf f
  wfOr (k ⟨f.d, f.a, ty, p⟩)
def decVabs (f : Fields) : Dec Instr := do
  zeros [f.fn, f.b, f.c, f.xmod, f.rndc]
  let p ← predOf f
  let ty ← tyOf f
  wfOr (.vabs ⟨f.d, f.a, ty, f.satb == 1, p⟩)
def decVSel (f : Fields) : Dec Instr := do
  zeros [f.fn, f.xmod, f.satb, f.rndc]
  let p ← predOf f
  let ty ← tyOf f
  wfOr (.vsel ⟨f.d, f.a, f.b, f.c, ty, p⟩)
def decVTN (f : Fields) (k : VTN → Instr) : Dec Instr := do
  zeros [f.fn, f.b, f.c, f.m / 32768, f.satb, f.rndc]
  let p ← predOf f
  let ty ← tyOf f
  wfOr (k ⟨f.d, f.a, f.xmod % 128, ty, p⟩)
def decVExt (f : Fields) : Dec Instr := do
  zeros [f.fn, f.c, f.xmod % 128, f.satb, f.rndc]; noPred f
  let ty ← tyOf f
  wfOr (.vext ⟨f.d, f.a, f.b, ty, sbsOf f⟩)
def decVIns (f : Fields) : Dec Instr := do
  zeros [f.fn, f.c, f.xmod, f.satb, f.rndc]
  let p ← predOf f
  let ty ← tyOf f
  wfOr (.vins ⟨f.d, f.a, f.b, ty, p⟩)
def decVF3 (f : Fields) (k : VF3 → Instr) : Dec Instr := do
  zeros [f.fn, f.c, f.xmod % 128, f.satb]
  let p ← predOf f
  let ty ← tyOf f
  let r ← rndOf f
  wfOr (k ⟨f.d, f.a, f.b, ty, r, sbsOf f, p⟩)
def decVF4 (f : Fields) (k : VF4 → Instr) : Dec Instr := do
  zeros [f.fn, f.xmod % 128, f.satb]
  let p ← predOf f
  let ty ← tyOf f
  let r ← rndOf f
  wfOr (k ⟨f.d, f.a, f.b, f.c, ty, r, sbsOf f, p⟩)
def decVF2 (f : Fields) (k : VF2 → Instr) : Dec Instr := do
  zeros [f.fn, f.b, f.c, f.xmod, f.satb]
  let p ← predOf f
  let ty ← tyOf f
  let r ← rndOf f
  wfOr (k ⟨f.d, f.a, ty, r, p⟩)
def decVFCvt (f : Fields) : Dec Instr := do
  zeros [f.fn, f.b, f.c, f.xmod / 32]
  let p ← predOf f
  let dty ← tyOf f
  let sty ← opt (Ty.ofCode (f.xmod % 16)) .mod
  let r ← rndOf f
  wfOr (.vfcvt ⟨f.d, f.a, dty, sty, f.xmod / 16 % 2 == 1, f.satb == 1, r, p⟩)
/-- `vqblk` (R239): XMOD[11] MAN, XMOD[10:8] slot, TYPE 4. -/
def decVQ (f : Fields) : Dec Instr := do
  zeros [f.fn, f.c, f.xmod / 16, f.satb, f.rndc]
  need (f.tyc == 4) .mod
  let p ← predOf f
  if f.xmod / 8 % 2 = 1 then wfOr (.vqblkMan ⟨f.d, f.a, f.b, f.xmod % 8, p⟩)
  else do
    zeros [f.b]
    wfOr (.vqblkExp ⟨f.d, f.a, f.xmod % 8, p⟩)
def decVbpt (f : Fields) : Dec Instr := do
  zeros [f.fn, f.b, f.c, f.m]
  let p ← predOf f
  wfOr (.vbpt ⟨f.d, f.a, p⟩)
/-- XMOD[14:12], the member mask register (R241). -/
def mmOf (f : Fields) : Nat := f.xmod / 16 % 8
def decVX3 (f : Fields) (k : VX3 → Instr) : Dec Instr := do
  zeros [f.fn, f.c, f.xmod % 16, f.satb, f.rndc]
  let p ← predOf f
  let ty ← tyOf f
  wfOr (k ⟨f.d, f.a, f.b, ty, sbsOf f, mmOf f, p⟩)
def decVRed (f : Fields) : Dec Instr := do
  zeros [f.fn, f.b, f.c, f.xmod / 8 % 2, f.satb]
  let p ← predOf f
  let ty ← tyOf f
  let r ← rndOf f
  let op ← opt (RedOp.ofCode (f.xmod % 8)) .mod
  wfOr (.vred ⟨f.d, f.a, op, ty, r, sbsOf f, mmOf f, p⟩)
def decVScan (f : Fields) : Dec Instr := do
  zeros [f.fn, f.b, f.c, f.satb]
  let p ← predOf f
  let ty ← tyOf f
  let r ← rndOf f
  let op ← opt (RedOp.ofCode (f.xmod % 8)) .mod
  wfOr (.vscan ⟨f.d, f.a, op, f.xmod / 8 % 2 == 1, ty, r, sbsOf f, mmOf f, p⟩)
def decVX2 (f : Fields) (k : VX2 → Instr) : Dec Instr := do
  zeros [f.fn, f.b, f.c, f.xmod % 16, f.satb, f.rndc]
  let p ← predOf f
  let ty ← tyOf f
  wfOr (k ⟨f.d, f.a, ty, sbsOf f, mmOf f, p⟩)

/-- FN of the M and MA formats (R182): SIZE in [53:52], SGN in [54], [55] zero. -/
def szOf (f : Fields) : Nat := f.fn % 4
def sgnOf (f : Fields) : Bool := f.fn / 4 % 2 == 1
def decVLoad (f : Fields) (k : VLoad → Instr) : Dec Instr := do
  zeros [f.fn / 8, f.c / 2]
  let p ← predOf f
  wfOr (k ⟨f.d, f.a, xOf f.b, szOf f, sgnOf f, BitVec.ofNat 16 f.m, f.c % 2 == 1, p⟩)
def decVStore (f : Fields) (k : VStore → Instr) : Dec Instr := do
  zeros [f.fn / 4, f.c]
  let p ← predOf f
  wfOr (k ⟨f.d, f.a, xOf f.b, szOf f, BitVec.ofNat 16 f.m, p⟩)
def decVAcc (f : Fields) : Dec Instr := do
  need (f.fn == 2) .mod
  zeros [f.c]
  let p ← predOf f
  wfOr (.vldacc ⟨f.d, f.a, xOf f.b, BitVec.ofNat 16 f.m, p⟩)
/-- The MA fields (R182): ORD [15:13], SCOPE [12:10], [9:8] zero, TYPE [7:4], [3:0] zero; SIZE follows TYPE. -/
def maOk (f : Fields) : Dec (Ord × Scope × Ty) := do
  zeros [f.fn / 4, f.m / 256 % 4, f.m % 16]
  let o ← opt (Ord.ofCode (f.m / 8192)) .mod
  let s ← opt (Scope.ofCode (f.m / 1024 % 8)) .mod
  let t ← tyOf f
  need (f.fn == if t.is64 then 3 else 2) .mod
  .ok (o, s, t)
def decVAtom (f : Fields) (k : VAtom → Instr) : Dec Instr := do
  let (o, s, t) ← maOk f
  let p ← predOf f
  wfOr (k ⟨f.d, f.a, xOf f.b, f.c, o, s, t, p⟩)
def decAtom (f : Fields) (k : Atom → Instr) : Dec Instr := do
  let (o, s, t) ← maOk f
  noPred f
  wfOr (k ⟨f.d, f.a, xOf f.b, f.c, o, s, t⟩)
def decFence (f : Fields) : Dec Instr := do
  zeros [f.fn, f.d, f.a, f.b, f.m % 1024]; noPred f
  let o ← opt (Ord.ofCode (f.m / 8192)) .mod
  let s ← opt (Scope.ofCode (f.m / 1024 % 8)) .mod
  wfOr (.fence ⟨o, s, f.c⟩)
def decLoad (f : Fields) (k : Load → Instr) : Dec Instr := do
  zeros [f.fn / 8, f.c / 2]; noPred f
  wfOr (k ⟨f.d, f.a, xOf f.b, szOf f, sgnOf f, BitVec.ofNat 16 f.m, f.c % 2 == 1⟩)
def decStore (f : Fields) (k : Store → Instr) : Dec Instr := do
  zeros [f.fn / 4, f.c]; noPred f
  wfOr (k ⟨f.d, f.a, xOf f.b, szOf f, BitVec.ofNat 16 f.m⟩)
/-- Full/empty forms (R254): SIZE 3, SGN 0, C[22:21] FORM, POLL zero. -/
def decFE (f : Fields) (k : FE → Instr) : Dec Instr := do
  need (f.fn == 3) .mod
  noPred f
  match f.c with
  | 0 => wfOr (k ⟨false, f.d, f.a, xOf f.b, BitVec.ofNat 16 f.m⟩)
  | 2 => wfOr (k ⟨true, f.d, f.a, xOf f.b, BitVec.ofNat 16 f.m⟩)
  | _ => .error .mod
/-- `ste` also names a register (FORM 2, 3). -/
def decSte (f : Fields) : Dec Instr :=
  if f.c = 4 ∨ f.c = 6 then do
    need (f.fn == 3 && f.b == 255) .mod
    noPred f
    zeros [f.a, f.m]
    wfOr (if f.c = 4 then .steScalar f.d else .steVector f.d)
  else decFE f .ste
def decRPut (f : Fields) : Dec Instr := do
  need (f.fn == 3 && f.b == 255) .mod
  noPred f
  zeros [f.c, f.m / 64]
  wfOr (.rput ⟨f.d, f.a, f.m⟩)
def decSPut (f : Fields) : Dec Instr := do
  need (f.fn == 3) .mod
  noPred f
  zeros [f.c]
  wfOr (.sputfe ⟨f.d, f.a, xOf f.b, BitVec.ofNat 16 f.m⟩)
def decAmsg (f : Fields) : Dec Instr := do
  noPred f
  zeros [f.fn, f.d, f.m]
  wfOr (.amsg ⟨f.a, f.b, f.c⟩)
/-- Cache maintenance (R261): XMOD[8] is ALL. -/
def decCache (f : Fields) (k : R2 → Instr) (all : Instr) : Dec Instr := do
  noPred f
  if f.m = 256 then do
    zeros [f.fn, f.d, f.a, f.b, f.c]
    .ok all
  else do
    zeros [f.fn, f.d, f.c, f.m]
    wfOr (k ⟨f.a, f.b⟩)
def decPld (f : Fields) : Dec Instr := do
  noPred f
  zeros [f.fn, f.a, f.c]
  wfOr (.pld f.d f.b (BitVec.ofNat 16 f.m))
def decPget (f : Fields) : Dec Instr := do
  noPred f
  zeros [f.fn, f.b, f.c, f.m % 256]
  wfOr (.pget ⟨f.d, f.a, f.xmod⟩)
def decPtest (f : Fields) : Dec Instr := do
  noPred f
  zeros [f.fn, f.c, f.m % 256]
  wfOr (.ptest ⟨f.d, f.a, f.b, f.xmod⟩)
/-- Barriers (R265): XMOD holds n, MOD[0] is NB. -/
def decBar (f : Fields) : Dec Instr := do
  noPred f
  zeros [f.d, f.b, f.c, f.m % 256 / 2]
  let o : Bar := ⟨f.m % 2 == 1, f.xmod, f.a⟩
  match f.fn with
  | 0 => wfOr (.barArrive o)
  | 1 => wfOr (.barWait o)
  | 2 => wfOr (.barSync o)
  | _ => .error .fn
def decExpect (f : Fields) : Dec Instr := do
  noPred f
  zeros [f.fn, f.c, f.m % 256, f.xmod / 4]
  match f.xmod with
  | 0 => do zeros [f.b]; wfOr (.expect ⟨.reg f.d, f.a⟩)
  | 1 => do zeros [f.d]; wfOr (.expect ⟨.ls f.b, f.a⟩)
  | 2 => do zeros [f.d, f.b]; wfOr (.expect ⟨.inbox, f.a⟩)
  | _ => .error .mod
/-- `slot.start`: XMOD[8] is KIND (R273). -/
def decSlotStart (f : Fields) : Dec Instr := do
  noPred f
  zeros [f.fn, f.c]
  match f.m with
  | 0 => wfOr (.slotStart ⟨f.d, f.a, f.b⟩)
  | 256 => wfOr (.slotStartTask ⟨f.d, f.a, f.b⟩)
  | _ => .error .mod
def decImm16 (f : Fields) (k : BitVec 16 → Instr) : Dec Instr := do
  noPred f
  zeros [f.fn, f.d, f.a, f.b, f.c]
  .ok (k (BitVec.ofNat 16 f.m))
def decTrap (f : Fields) : Dec Instr := do
  noPred f
  zeros [f.fn, f.d, f.b, f.c]
  wfOr (.trap f.a (BitVec.ofNat 16 f.m))
def decCtl (f : Fields) : Dec Instr := do
  noPred f
  zeros [f.fn, f.b, f.c, f.m / 4096]
  let c := BitVec.ofNat 12 f.m
  match f.op with
  | 0xD3 => do zeros [f.a]; wfOr (.cget f.d c)
  | 0xD4 => do zeros [f.d]; wfOr (.cput c f.a)
  | _ => wfOr (.cswap f.d c f.a)
def decCfq (f : Fields) : Dec Instr := do
  noPred f
  zeros [f.fn, f.a, f.b, f.c]
  wfOr (.cfq f.d f.m)
/-- `tlb.inv`: XMOD[9:8] is the kind (R278). -/
def decTlb (f : Fields) : Dec Instr := do
  noPred f
  zeros [f.fn, f.d, f.c, f.m % 256]
  match f.xmod with
  | 0 => wfOr (.tlbInvPage f.a f.b)
  | 1 => wfOr (.tlbInvSpace f.a f.b)
  | 2 => wfOr (.tlbInvAll f.a f.b)
  | _ => .error .mod
/-- Copy commands (R283): XMOD[15] MC, [14] BP, [13] ON, [12:8] TERM; FN is the direction. -/
def decCpy (f : Fields) : Dec Instr := do
  noPred f
  zeros [f.satb, f.rndc]
  let ty ← tyOf f
  let bp := f.xmod / 64 % 2 == 1
  let on := f.xmod / 32 % 2 == 1
  need (bp || f.tyc == 0) .mod
  need (on || f.xmod % 32 == 0) .mod
  let o : Cpy := ⟨f.d, f.a, f.b, f.c, sbsOf f, if bp then some ty else none, if on then some (f.xmod % 32) else none⟩
  match f.fn with
  | 0 => wfOr (.cpyMl o)
  | 1 => wfOr (.cpyLm o)
  | 2 => wfOr (.cpyLl o)
  | 3 => wfOr (.cpyMr o)
  | _ => .error .fn
/-- Furrow instructions (R296): XMOD[11:8] is the furrow; MOD's other bits are zero. -/
def decFwD (f : Fields) (k : Nat → Nat → Instr) : Dec Instr := do
  noPred f
  zeros [f.a, f.b, f.c, f.m % 256]
  wfOr (k f.d f.xmod)
def decFwA (f : Fields) (k : Nat → Nat → Instr) : Dec Instr := do
  noPred f
  zeros [f.d, f.b, f.c, f.m % 256]
  wfOr (k f.xmod f.a)
def decTrl (f : Fields) (k : Nat → Instr) : Dec Instr := do
  noPred f
  zeros [f.d, f.a, f.b, f.c, f.m % 256]
  wfOr (k f.xmod)
def decTrlT (f : Fields) : Dec Instr := do
  noPred f
  zeros [f.d, f.c, f.m % 256]
  wfOr (.trlSetTerm f.xmod f.a f.b)

/-! The matrix stream (R311): XA is field `d`, XB `a`, XC `b`, XD `c`, XIMM `m`. -/

def decXLoad (f : Fields) (k : XLoad → Instr) : Dec Instr := do
  noPred f
  zeros [f.fn / 8, f.d % 8, f.a, f.m % 4]
  wfOr (k ⟨f.fn % 8, f.d / 8 % 2 == 1, f.d / 16, f.m / 4, f.b, f.c / 16, f.c % 16⟩)
def decXMul (f : Fields) : Dec Instr := do
  noPred f
  zeros [f.fn, f.d / 16, f.a / 16, f.b / 4, f.c, f.m]
  wfOr (.xmul ⟨f.b, f.d % 8, f.d / 8 == 1, f.a % 8, f.a / 8 == 1⟩)
def decXFold (f : Fields) : Dec Instr := do
  noPred f
  zeros [f.fn / 8, f.d / 16, f.d % 8, f.a / 16, f.a % 8, f.b / 4, f.c, f.m]
  wfOr (.xfold ⟨f.b, f.fn % 8, f.d / 8 == 1, f.a / 8 == 1⟩)
def decXCvt (f : Fields) : Dec Instr := do
  noPred f
  zeros [f.fn / 8, f.d % 16, f.a % 16, f.b / 4]
  wfOr (.xcvt ⟨f.b, f.fn % 8, f.d / 16, f.m, f.a / 16, f.c⟩)
def decXzero (f : Fields) : Dec Instr := do
  noPred f
  zeros [f.fn, f.d, f.a, f.b / 4, f.c, f.m]
  wfOr (.xzero f.b)
def decX2 (f : Fields) (k : Nat → Nat → Instr) : Dec Instr := do
  noPred f
  zeros [f.fn, f.b, f.c, f.m]
  wfOr (k f.d f.a)
def decX1 (f : Fields) (k : Nat → Instr) : Dec Instr := do
  noPred f
  zeros [f.fn, f.a, f.b, f.c, f.m]
  wfOr (k f.d)
def decXloop (f : Fields) : Dec Instr := do
  noPred f
  match f.fn with
  | 1 => do zeros [f.d, f.a, f.b, f.c]; .ok (.xloopBegin (f.m + 1))
  | 0 => do zeros [f.d, f.a, f.m]; .ok (.xloop (BitVec.ofNat 16 (f.b * 256 + f.c)))
  | _ => .error .fn

/-- Opcodes 0x01 to 0x2F (R203 to R207). -/
def decScalar (f : Fields) : Dec Instr :=
  match f.op with
  | 0x01 => decRTS f .add | 0x02 => decRTS f .sub | 0x03 => decRTS f .mul
  | 0x04 => decRT f .mulh | 0x05 => decRT f .div | 0x06 => decRT f .rem
  | 0x07 => do zeros [f.fn]; dec3 f .and
  | 0x08 => do zeros [f.fn]; dec3 f .or
  | 0x09 => do zeros [f.fn]; dec3 f .xor
  | 0x0A => decRT f .shl | 0x0B => decRT f .shr | 0x0C => decRT f .sra | 0x0D => decRT f .slt | 0x0E => decRT f .sltn
  | 0x0F => decRT f .min | 0x10 => decRT f .max
  | 0x11 => decRT1 f .clz | 0x12 => decRT1 f .ctz | 0x13 => decRT1 f .popc
  | 0x14 => decRT f .bext | 0x15 => decRT f .bdep | 0x16 => decR2N f .sext | 0x17 => decR2N f .zext
  | 0x18 => do zeros [f.fn]; dec2 f .mov
  | 0x19 => decITS f .addi | 0x1A => decI2 f .andi | 0x1B => decI2 f .ori | 0x1C => decI2 f .xori
  | 0x1D => decIT f .shli | 0x1E => decIT f .shri | 0x1F => decIT f .srai | 0x20 => decLi f | 0x21 => decLih f
  | 0x22 => decF3 f .fadd | 0x23 => decF3 f .fsub | 0x24 => decF3 f .fmul | 0x25 => decF4 f .ffma | 0x26 => decF3 f .fdiv
  | 0x27 => decF2 f .fsqrt | 0x28 => decRT f .fmin | 0x29 => decRT f .fmax | 0x2A => decFCmp f | 0x2B => decFCvt f | 0x2C => decRT1 f .fclass
  | _ => .error .opcode

/-- Opcodes 0x30 to 0x4F (R208 to R223). -/
def decControl (f : Fields) : Dec Instr :=
  match f.op with
  | 0x30 => decB0 f .br | 0x31 => decB1 f .bz | 0x32 => decB1 f .bnz | 0x33 => decB2 f .beq | 0x34 => decB2 f .bne
  | 0x35 => decB2 f .blt | 0x36 => decB2 f .bge | 0x37 => decB2 f .bltn | 0x38 => decB2 f .bgen | 0x39 => decB0 f .call
  | 0x3A => do zeros [f.fn]; decA f .callr
  | 0x3B => do zeros [f.fn]; dec0 f .ret
  | 0x3C => do zeros [f.fn]; decA f .jr
  | 0x3D => match f.fn with
    | 0 => dec0 f .halt
    | 1 => decA f .haltKeep
    | _ => .error .fn
  | 0x3E => do zeros [f.fn]; dec0 f .nop
  | 0x40 => decVCmp f .vcmp | 0x41 => decVCmp f .vfcmp | 0x42 => decB1 f .mdiv | 0x43 => decB1 f .melse
  | 0x44 => do zeros [f.fn]; dec0 f .mjoin
  | 0x45 => match f.fn with
    | 0 => decA f .mpush
    | 1 => decD f .mpop
    | 2 => if f.m = 256 then do zeros [f.a, f.b, f.c]; noPred f; wfOr (.mpeekDepth f.d) else dec2 f .mpeek
    | 3 => decAB f .mpoke
    | _ => .error .fn
  | 0x46 => do zeros [f.fn]; dec2 f .mset
  | 0x47 => match f.fn with
    | 0 => dec3 f .mand
    | 1 => dec3 f .mor
    | 2 => dec3 f .mxor
    | 3 => dec2 f .mnot
    | _ => .error .fn
  | 0x48 => match f.fn with
    | 0 => if f.m = 256 then do zeros [f.b, f.c]; noPred f; wfOr (.mpopcBits ⟨f.d, f.a⟩) else dec2 f .mpopc
    | 1 => dec2 f .mfirst
    | _ => .error .fn
  | 0x49 => match f.fn with
    | 0 => decA f .mspill
    | 1 => decA f .mfill
    | _ => .error .fn
  | 0x4A => do
    zeros [f.fn, f.d, f.a, f.b, f.c, f.m]
    let p ← predOf f
    wfOr (.lexit p)
  | 0x4B => do zeros [f.fn]; dec0 f .refill
  | 0x4C => decAP f .sow | 0x4D => decAP f .vcall
  | _ => .error .opcode

/-- Opcodes 0x50 to 0x66 (R231 to R234). -/
def decLaneInt (f : Fields) : Dec Instr :=
  match f.op with
  | 0x50 => decVTS f .vadd | 0x51 => decVTS f .vsub | 0x52 => decVTS f .vmul | 0x53 => decVT f .vmulh | 0x54 => decVMad f
  | 0x55 => decVT f .vand | 0x56 => decVT f .vor | 0x57 => decVT f .vxor | 0x58 => decVT1 f .vnot
  | 0x59 => decVT f .vshl | 0x5A => decVT f .vshr | 0x5B => decVT f .vsra | 0x5C => decVT f .vmin | 0x5D => decVT f .vmax
  | 0x5E => decVabs f | 0x5F => decVSel f | 0x60 => decVT1 f .vclz | 0x61 => decVT1 f .vpopc | 0x62 => decVTN f .vsext | 0x63 => decVTN f .vzext
  | 0x64 => decVT1 f .vbs | 0x65 => decVExt f | 0x66 => decVIns f
  | _ => .error .opcode

/-- Opcodes 0x68 to 0x81 (R235 to R242). -/
def decLaneFp (f : Fields) : Dec Instr :=
  match f.op with
  | 0x68 => decVF3 f .vfadd | 0x69 => decVF3 f .vfsub | 0x6A => decVF3 f .vfmul | 0x6B => decVF4 f .vffma | 0x6C => decVF3 f .vfdiv
  | 0x6D => decVF2 f .vfsqrt | 0x6E => decVF2 f .vfrcp | 0x6F => decVF2 f .vfrsq | 0x70 => decVF2 f .vfexp2 | 0x71 => decVF2 f .vflog2
  | 0x72 => decVT f .vfmin | 0x73 => decVT f .vfmax | 0x74 => decVF2 f .vfround | 0x75 => decVFCvt f | 0x76 => decVQ f | 0x77 => decVbpt f
  | 0x78 => decVF3 f .vhadd | 0x79 => decVF3 f .vhmul | 0x7A => decVF4 f .vhfma
  | 0x7C => decVX3 f .vshuf | 0x7D => decVX3 f .vbcast | 0x7E => decVX3 f .vrot | 0x7F => decVRed f | 0x80 => decVScan f | 0x81 => decVX2 f .vmatch
  | _ => .error .opcode

/-- Opcodes 0x90 to 0xB8 (R243 to R262). -/
def decMem (f : Fields) : Dec Instr :=
  match f.op with
  | 0x90 => decVLoad f .vld | 0x91 => decVStore f .vst | 0x92 => decVLoad f .vldu | 0x93 => decVLoad f .lld | 0x94 => decVStore f .lst | 0x95 => decVAcc f
  | 0x96 => decVAtom f .vaadd | 0x97 => decVAtom f .vamin | 0x98 => decVAtom f .vamax | 0x99 => decVAtom f .vaand | 0x9A => decVAtom f .vaor
  | 0x9B => decVAtom f .vaxor | 0x9C => decVAtom f .vaxch | 0x9D => decVAtom f .vacas
  | 0xA0 => decLoad f .ld | 0xA1 => decStore f .st | 0xA2 => decLoad f .lds | 0xA3 => decStore f .sts
  | 0xA4 => decFE f .ldf | 0xA5 => decFE f .ldff | 0xA6 => decFE f .stf | 0xA7 => decSte f
  | 0xA8 => decRPut f | 0xA9 => decSPut f | 0xAA => decAmsg f
  | 0xAB => decAtom f .aadd | 0xAC => decAtom f .amin | 0xAD => decAtom f .amax | 0xAE => decAtom f .aand | 0xAF => decAtom f .aor
  | 0xB0 => decAtom f .axor | 0xB1 => decAtom f .axch | 0xB2 => decAtom f .acas | 0xB3 => decFence f
  | 0xB4 => decCache f .l1wb .l1wbAll | 0xB5 => decCache f .l1inv .l1invAll | 0xB6 => decCache f .l1wbi .l1wbiAll | 0xB7 => decCache f .cdcf .cdcfAll
  | 0xB8 => do zeros [f.fn]; dec0 f .fenceI
  | _ => .error .opcode

/-- Opcodes 0xB9 to 0xDA (R263 to R279). -/
def decSystem (f : Fields) : Dec Instr :=
  match f.op with
  | 0xB9 => decPld f
  | 0xBA => do zeros [f.fn]; dec2 f .pmov
  | 0xBB => do zeros [f.fn]; dec3 f .padd
  | 0xBC => do zeros [f.fn]; dec3 f .pnarrow
  | 0xBD => do zeros [f.fn]; dec3 f .pperm
  | 0xBE => decPget f | 0xBF => decPtest f | 0xC0 => decBar f
  | 0xC1 => do zeros [f.fn]; dec0 f .gbar
  | 0xC2 => decExpect f
  | 0xC3 => do zeros [f.fn]; decAB f .cntDec
  | 0xC4 => do zeros [f.fn]; dec2 f .cntWait
  | 0xC5 => match f.fn with
    | 0 => decAB f .tsend
    | 1 => dec2 f .tsendNew
    | _ => .error .fn
  | 0xC6 => do zeros [f.fn]; decA f .launch
  | 0xC7 => do zeros [f.fn]; decA f .rqPush
  | 0xC8 => do zeros [f.fn]; dec2 f .rqPop
  | 0xC9 => decSlotStart f
  | 0xCA => do zeros [f.fn]; dec2 f .slotReap
  | 0xCB => do zeros [f.fn]; dec3 f .slotSpill
  | 0xCC => do zeros [f.fn]; dec2 f .slotLoad
  | 0xCD => do zeros [f.fn]; dec0 f .yield
  | 0xCE => do zeros [f.fn]; dec0 f .wfi
  | 0xD0 => decImm16 f .sys
  | 0xD1 => decTrap f
  | 0xD2 => do zeros [f.fn]; dec0 f .eret
  | 0xD3 => decCtl f | 0xD4 => decCtl f | 0xD5 => decCtl f
  | 0xD6 => decTlb f
  | 0xD7 => decCfq f
  | 0xD8 => decImm16 f .ebreak
  | 0xD9 => do zeros [f.fn]; decAB f .hhDsc
  | 0xDA => do zeros [f.fn]; decAB f .hhZero
  | _ => .error .opcode

/-- Opcodes 0xE0 to 0xFE (R283 to R311). -/
def decEngine (f : Fields) : Dec Instr :=
  match f.op with
  | 0xE0 => decCpy f
  | 0xE1 => do zeros [f.fn]; decA f .cpyWait
  | 0xE2 => do zeros [f.fn]; decFwD f .fwTake
  | 0xE3 => do zeros [f.fn]; decFwA f .fwGive
  | 0xE4 => match f.fn with
    | 0 => decFwD f .fwRes
    | 1 => decFwA f .fwResDef
    | _ => .error .fn
  | 0xE5 => do zeros [f.fn]; decFwA f .fwPub
  | 0xE6 => match f.fn with
    | 0 => decFwA f .trlSetCounter
    | 1 => decTrlT f
    | _ => .error .fn
  | 0xE7 => match f.fn with
    | 0 => decTrl f .trlClrCounter
    | 1 => decTrl f .trlClrTerm
    | _ => .error .fn
  | 0xF0 => decXLoad f .xlda | 0xF1 => decXLoad f .xldb | 0xF2 => decXMul f | 0xF3 => decXFold f | 0xF4 => decXCvt f | 0xF5 => decXzero f
  | 0xF6 => decX2 f .xrow | 0xF7 => decX2 f .xcol
  | 0xF8 => decX2 f (fun ka kb => .xfmt (ka + 1) (kb + 1))
  | 0xF9 => decX1 f .xwait | 0xFA => decX1 f .xpost | 0xFB => decXloop f
  | 0xFC => do zeros [f.fn]; dec0 f .xend
  | _ => .error .opcode

/-- The decoder over the fields (R190). -/
def decodeFields (f : Fields) : Dec Instr :=
  if f.op < 0x30 then decScalar f
  else if f.op < 0x50 then decControl f
  else if f.op < 0x68 then decLaneInt f
  else if f.op < 0x90 then decLaneFp f
  else if f.op < 0xB9 then decMem f
  else if f.op < 0xE0 then decSystem f
  else decEngine f

/-- The instruction of a 64-bit word, or why there is none (R191 check 1). -/
def decode (w : Nat) : Dec Instr := decodeFields (Fields.ofWord w)

/-- A little-endian list of bytes as a number (R5, R177). -/
def leNat : List Byte → Nat
  | [] => 0
  | b :: bs => b.toNat + 256 * leNat bs

/-- Decoding eight stored bytes (R177). -/
def decodeBytes (bs : List Byte) : Dec Instr := decode (leNat (bs.take 8))

/-- The host's reading of one table word: bit 0 is the least significant bit of the 64-bit word, shorter words padded with zeros above. -/
def decodeTableWord (nbits w : Nat) : Option Instr :=
  match decode (w % 2 ^ nbits % 2 ^ 64) with
  | .ok i => some i
  | .error _ => none

/-- Opcodes that may be sown (R190). -/
def sowable (op : Nat) : Bool :=
  (0x50 ≤ op && op ≤ 0x64) || op == 0x66 || (0x68 ≤ op && op ≤ 0x7A) || (0x7C ≤ op && op ≤ 0x81) || (0x90 ≤ op && op ≤ 0x9D)

/-! The encoder, from the same tables. -/

def eR (op fn d a b c m : Nat) : Option Fields := some ⟨op, fn, d, a, b, c, 0, m⟩
def eP (op fn d a b c : Nat) (p : Pred) (m : Nat) : Option Fields := some ⟨op, fn, d, a, b, c, p.code, m⟩
def eRTS (op : Nat) (o : RTS) := eR op 0 o.d o.a o.b 0 (mkMod 0 o.ty.code (b2n o.sat) 0)
def eRT (op : Nat) (o : RT) := eR op 0 o.d o.a o.b 0 (mkMod 0 o.ty.code 0 0)
def eRT1 (op : Nat) (o : RT1) := eR op 0 o.d o.a 0 0 (mkMod 0 o.ty.code 0 0)
def e3 (op fn : Nat) (o : R3) := eR op fn o.d o.a o.b 0 0
def e2 (op fn : Nat) (o : R2) := eR op fn o.d o.a 0 0 0
def eR2N (op : Nat) (o : R2N) := eR op 0 o.d o.a 0 0 (o.n * 256)
def eI (op d a : Nat) (imm : BitVec 28) (imod : Nat) : Option Fields :=
  some ⟨op, 0, d, a, imm.toNat / 2 ^ 20, imm.toNat / 2 ^ 12 % 256, 0, imm.toNat % 4096 * 16 + imod⟩
def eIT (op : Nat) (o : IT) := eI op o.d o.a o.imm o.ty.codeI
def eI2 (op : Nat) (o : I2) := eI op o.d o.a o.imm 0
def eF3 (op : Nat) (o : F3) := eR op 0 o.d o.a o.b 0 (mkMod 0 o.ty.code 0 o.rnd.code)
def eB (op s1 s2 : Nat) (off : BitVec 32) : Option Fields :=
  some ⟨op, 0, s1, s2, off.toNat / 2 ^ 24, off.toNat / 2 ^ 16 % 256, 0, off.toNat % 65536⟩
def eB1 (op : Nat) (o : B1) := eB op o.a 0 o.off
def eB2 (op : Nat) (o : B2) := eB op o.a o.b o.off
def eVCmp (op : Nat) (o : VCmp) := eP op 0 o.d o.a o.b 0 o.p (mkMod o.cond.code o.ty.code 0 0)
def eVTS (op : Nat) (o : VTS) := eP op 0 o.d o.a o.b 0 o.p (mkMod (128 * b2n o.sbs) o.ty.code (b2n o.sat) 0)
def eVT (op : Nat) (o : VT) := eP op 0 o.d o.a o.b 0 o.p (mkMod (128 * b2n o.sbs) o.ty.code 0 0)
def eVT1 (op : Nat) (o : VT1) := eP op 0 o.d o.a 0 0 o.p (mkMod 0 o.ty.code 0 0)
def eVTN (op : Nat) (o : VTN) := eP op 0 o.d o.a 0 0 o.p (mkMod o.n o.ty.code 0 0)
def eVF3 (op : Nat) (o : VF3) := eP op 0 o.d o.a o.b 0 o.p (mkMod (128 * b2n o.sbs) o.ty.code 0 o.rnd.code)
def eVF4 (op : Nat) (o : VF4) := eP op 0 o.d o.a o.b o.c o.p (mkMod (128 * b2n o.sbs) o.ty.code 0 o.rnd.code)
def eVF2 (op : Nat) (o : VF2) := eP op 0 o.d o.a 0 0 o.p (mkMod 0 o.ty.code 0 o.rnd.code)
def eVX3 (op : Nat) (o : VX3) := eP op 0 o.d o.a o.b 0 o.p (mkMod (128 * b2n o.live + 16 * o.mm) o.ty.code 0 0)
def eVLoad (op : Nat) (o : VLoad) := eP op (o.sz + 4 * b2n o.sgn) o.d o.p (xCode o.x) (b2n o.poll) o.pr o.off.toNat
def eVStore (op : Nat) (o : VStore) := eP op o.sz o.d o.p (xCode o.x) 0 o.pr o.off.toNat
def maMod (o : Ord) (s : Scope) (t : Ty) : Nat := o.code * 8192 + s.code * 1024 + t.code * 16
def maFn (t : Ty) : Nat := if t.is64 then 3 else 2
def eVAtom (op : Nat) (o : VAtom) := eP op (maFn o.ty) o.d o.p (xCode o.x) o.c o.pr (maMod o.ord o.scope o.ty)
def eAtom (op : Nat) (o : Atom) := eR op (maFn o.ty) o.d o.p (xCode o.x) o.c (maMod o.ord o.scope o.ty)
def eLoad (op : Nat) (o : Load) := eR op (o.sz + 4 * b2n o.sgn) o.d o.p (xCode o.x) (b2n o.poll) o.off.toNat
def eStore (op : Nat) (o : Store) := eR op o.sz o.d o.p (xCode o.x) 0 o.off.toNat
def eFE (op : Nat) (o : FE) := eR op 3 o.d o.p (xCode o.x) (2 * b2n o.ls) o.off.toNat
def eCache (op : Nat) (o : R2) := eR op 0 0 o.d o.a 0 0
def eBar (fn : Nat) (o : Bar) := eR 0xC0 fn 0 o.a 0 0 (o.n * 256 + b2n o.nb)
def eCpy (fn : Nat) (o : Cpy) :=
  eR 0xE0 fn o.d o.a o.b o.c
    (mkMod (128 * b2n o.mc + (match o.bp with | some _ => 64 | none => 0) + (match o.on with | some t => 32 + t | none => 0))
      (match o.bp with | some t => t.code | none => 0) 0 0)
def eXLoad (op : Nat) (o : XLoad) := eR op o.slot (o.core * 16 + 8 * b2n o.half) 0 o.chunk (o.step0 * 16 + o.step1) (o.off16 * 4)

/-- The fields of an instruction's word; none for an event. -/
def encodeFields : Instr → Option Fields
  | .add o => eRTS 0x01 o | .sub o => eRTS 0x02 o | .mul o => eRTS 0x03 o
  | .mulh o => eRT 0x04 o | .div o => eRT 0x05 o | .rem o => eRT 0x06 o
  | .and o => e3 0x07 0 o | .or o => e3 0x08 0 o | .xor o => e3 0x09 0 o
  | .shl o => eRT 0x0A o | .shr o => eRT 0x0B o | .sra o => eRT 0x0C o | .slt o => eRT 0x0D o | .sltn o => eRT 0x0E o
  | .min o => eRT 0x0F o | .max o => eRT 0x10 o
  | .clz o => eRT1 0x11 o | .ctz o => eRT1 0x12 o | .popc o => eRT1 0x13 o
  | .bext o => eRT 0x14 o | .bdep o => eRT 0x15 o | .sext o => eR2N 0x16 o | .zext o => eR2N 0x17 o | .mov o => e2 0x18 0 o
  | .addi o => eI 0x19 o.d o.a o.imm (8 * b2n o.sat + o.ty.codeI)
  | .andi o => eI2 0x1A o | .ori o => eI2 0x1B o | .xori o => eI2 0x1C o
  | .shli o => eIT 0x1D o | .shri o => eIT 0x1E o | .srai o => eIT 0x1F o
  | .li d imm => eI 0x20 d 0 imm 0
  | .lih o => eI 0x21 o.d o.a o.imm o.pos
  | .fadd o => eF3 0x22 o | .fsub o => eF3 0x23 o | .fmul o => eF3 0x24 o
  | .ffma o => eR 0x25 0 o.d o.a o.b o.c (mkMod 0 o.ty.code 0 o.rnd.code)
  | .fdiv o => eF3 0x26 o
  | .fsqrt o => eR 0x27 0 o.d o.a 0 0 (mkMod 0 o.ty.code 0 o.rnd.code)
  | .fmin o => eRT 0x28 o | .fmax o => eRT 0x29 o
  | .fcmp o => eR 0x2A 0 o.d o.a o.b 0 (mkMod o.cond.code o.ty.code 0 0)
  | .fcvt o => eR 0x2B 0 o.d o.a 0 0 (mkMod o.sty.code o.dty.code 0 o.rnd.code)
  | .fclass o => eRT1 0x2C o
  | .br off => eB 0x30 0 0 off
  | .bz o => eB1 0x31 o | .bnz o => eB1 0x32 o
  | .beq o => eB2 0x33 o | .bne o => eB2 0x34 o | .blt o => eB2 0x35 o | .bge o => eB2 0x36 o | .bltn o => eB2 0x37 o | .bgen o => eB2 0x38 o
  | .call off => eB 0x39 0 0 off
  | .callr a => eR 0x3A 0 0 a 0 0 0
  | .ret => eR 0x3B 0 0 0 0 0 0
  | .jr a => eR 0x3C 0 0 a 0 0 0
  | .halt => eR 0x3D 0 0 0 0 0 0
  | .haltKeep a => eR 0x3D 1 0 a 0 0 0
  | .nop => eR 0x3E 0 0 0 0 0 0
  | .vcmp o => eVCmp 0x40 o | .vfcmp o => eVCmp 0x41 o | .mdiv o => eB1 0x42 o | .melse o => eB1 0x43 o
  | .mjoin => eR 0x44 0 0 0 0 0 0
  | .mpush a => eR 0x45 0 0 a 0 0 0
  | .mpop d => eR 0x45 1 d 0 0 0 0
  | .mpeek o => e2 0x45 2 o
  | .mpeekDepth d => eR 0x45 2 d 0 0 0 256
  | .mpoke a b => eR 0x45 3 0 a b 0 0
  | .mset o => e2 0x46 0 o
  | .mand o => e3 0x47 0 o | .mor o => e3 0x47 1 o | .mxor o => e3 0x47 2 o | .mnot o => e2 0x47 3 o
  | .mpopc o => e2 0x48 0 o
  | .mpopcBits o => eR 0x48 0 o.d o.a 0 0 256
  | .mfirst o => e2 0x48 1 o
  | .mspill a => eR 0x49 0 0 a 0 0 0
  | .mfill a => eR 0x49 1 0 a 0 0 0
  | .lexit p => eP 0x4A 0 0 0 0 0 p 0
  | .refill => eR 0x4B 0 0 0 0 0 0
  | .sow a p => eP 0x4C 0 0 a 0 0 p 0
  | .vcall a p => eP 0x4D 0 0 a 0 0 p 0
  | .vadd o => eVTS 0x50 o | .vsub o => eVTS 0x51 o | .vmul o => eVTS 0x52 o | .vmulh o => eVT 0x53 o
  | .vmad o => eP 0x54 0 o.d o.a o.b o.c o.p (mkMod (128 * b2n o.sbs) o.ty.code (b2n o.sat) 0)
  | .vand o => eVT 0x55 o | .vor o => eVT 0x56 o | .vxor o => eVT 0x57 o | .vnot o => eVT1 0x58 o
  | .vshl o => eVT 0x59 o | .vshr o => eVT 0x5A o | .vsra o => eVT 0x5B o | .vmin o => eVT 0x5C o | .vmax o => eVT 0x5D o
  | .vabs o => eP 0x5E 0 o.d o.a 0 0 o.p (mkMod 0 o.ty.code (b2n o.sat) 0)
  | .vsel o => eP 0x5F 0 o.d o.a o.b o.c o.p (mkMod 0 o.ty.code 0 0)
  | .vclz o => eVT1 0x60 o | .vpopc o => eVT1 0x61 o | .vsext o => eVTN 0x62 o | .vzext o => eVTN 0x63 o | .vbs o => eVT1 0x64 o
  | .vext o => eR 0x65 0 o.d o.a o.b 0 (mkMod (128 * b2n o.live) o.ty.code 0 0)
  | .vins o => eP 0x66 0 o.d o.a o.b 0 o.p (mkMod 0 o.ty.code 0 0)
  | .vfadd o => eVF3 0x68 o | .vfsub o => eVF3 0x69 o | .vfmul o => eVF3 0x6A o | .vffma o => eVF4 0x6B o | .vfdiv o => eVF3 0x6C o
  | .vfsqrt o => eVF2 0x6D o | .vfrcp o => eVF2 0x6E o | .vfrsq o => eVF2 0x6F o | .vfexp2 o => eVF2 0x70 o | .vflog2 o => eVF2 0x71 o
  | .vfmin o => eVT 0x72 o | .vfmax o => eVT 0x73 o | .vfround o => eVF2 0x74 o
  | .vfcvt o => eP 0x75 0 o.d o.a 0 0 o.p (mkMod (16 * b2n o.hi + o.sty.code) o.dty.code (b2n o.sat) o.rnd.code)
  | .vqblkExp o => eP 0x76 0 o.d o.a 0 0 o.p (mkMod o.slot 4 0 0)
  | .vqblkMan o => eP 0x76 0 o.d o.a o.b 0 o.p (mkMod (8 + o.slot) 4 0 0)
  | .vbpt o => eP 0x77 0 o.d o.a 0 0 o.p 0
  | .vhadd o => eVF3 0x78 o | .vhmul o => eVF3 0x79 o | .vhfma o => eVF4 0x7A o
  | .vshuf o => eVX3 0x7C o | .vbcast o => eVX3 0x7D o | .vrot o => eVX3 0x7E o
  | .vred o => eP 0x7F 0 o.d o.a 0 0 o.p (mkMod (128 * b2n o.live + 16 * o.mm + o.op.code) o.ty.code 0 o.rnd.code)
  | .vscan o => eP 0x80 0 o.d o.a 0 0 o.p (mkMod (128 * b2n o.live + 16 * o.mm + 8 * b2n o.excl + o.op.code) o.ty.code 0 o.rnd.code)
  | .vmatch o => eP 0x81 0 o.d o.a 0 0 o.p (mkMod (128 * b2n o.live + 16 * o.mm) o.ty.code 0 0)
  | .vld o => eVLoad 0x90 o | .vst o => eVStore 0x91 o | .vldu o => eVLoad 0x92 o | .lld o => eVLoad 0x93 o | .lst o => eVStore 0x94 o
  | .vldacc o => eP 0x95 2 o.d o.p (xCode o.x) 0 o.pr o.off.toNat
  | .vaadd o => eVAtom 0x96 o | .vamin o => eVAtom 0x97 o | .vamax o => eVAtom 0x98 o | .vaand o => eVAtom 0x99 o | .vaor o => eVAtom 0x9A o
  | .vaxor o => eVAtom 0x9B o | .vaxch o => eVAtom 0x9C o | .vacas o => eVAtom 0x9D o
  | .ld o => eLoad 0xA0 o | .st o => eStore 0xA1 o | .lds o => eLoad 0xA2 o | .sts o => eStore 0xA3 o
  | .ldf o => eFE 0xA4 o | .ldff o => eFE 0xA5 o | .stf o => eFE 0xA6 o | .ste o => eFE 0xA7 o
  | .steScalar d => eR 0xA7 3 d 0 255 4 0
  | .steVector d => eR 0xA7 3 d 0 255 6 0
  | .rput o => eR 0xA8 3 o.s o.r 255 0 o.n
  | .sputfe o => eR 0xA9 3 o.s o.r (xCode o.x) 0 o.off.toNat
  | .amsg o => eR 0xAA 0 0 o.d o.a o.b 0
  | .aadd o => eAtom 0xAB o | .amin o => eAtom 0xAC o | .amax o => eAtom 0xAD o | .aand o => eAtom 0xAE o | .aor o => eAtom 0xAF o
  | .axor o => eAtom 0xB0 o | .axch o => eAtom 0xB1 o | .acas o => eAtom 0xB2 o
  | .fence o => eR 0xB3 0 0 0 0 o.grp (o.ord.code * 8192 + o.scope.code * 1024)
  | .l1wb o => eCache 0xB4 o | .l1inv o => eCache 0xB5 o | .l1wbi o => eCache 0xB6 o | .cdcf o => eCache 0xB7 o
  | .l1wbAll => eR 0xB4 0 0 0 0 0 256 | .l1invAll => eR 0xB5 0 0 0 0 0 256 | .l1wbiAll => eR 0xB6 0 0 0 0 0 256 | .cdcfAll => eR 0xB7 0 0 0 0 0 256
  | .fenceI => eR 0xB8 0 0 0 0 0 0
  | .pld d b n => eR 0xB9 0 d 0 b 0 n.toNat
  | .pmov o => e2 0xBA 0 o | .padd o => e3 0xBB 0 o | .pnarrow o => e3 0xBC 0 o | .pperm o => e3 0xBD 0 o
  | .pget o => eR2N 0xBE o
  | .ptest o => eR 0xBF 0 o.d o.a o.b 0 (o.perms * 256)
  | .barArrive o => eBar 0 o | .barWait o => eBar 1 o | .barSync o => eBar 2 o
  | .gbar => eR 0xC1 0 0 0 0 0 0
  | .expect o => match o.t with
    | .reg d => eR 0xC2 0 d o.a 0 0 0
    | .ls b => eR 0xC2 0 0 o.a b 0 256
    | .inbox => eR 0xC2 0 0 o.a 0 0 512
  | .cntDec a b => eR 0xC3 0 0 a b 0 0
  | .cntWait o => e2 0xC4 0 o
  | .tsendNew o => e2 0xC5 1 o
  | .tsend a b => eR 0xC5 0 0 a b 0 0
  | .launch a => eR 0xC6 0 0 a 0 0 0
  | .rqPush a => eR 0xC7 0 0 a 0 0 0
  | .rqPop o => e2 0xC8 0 o
  | .slotStart o => e3 0xC9 0 o
  | .slotStartTask o => eR 0xC9 0 o.d o.a o.b 0 256
  | .slotReap o => e2 0xCA 0 o | .slotSpill o => e3 0xCB 0 o | .slotLoad o => e2 0xCC 0 o
  | .yield => eR 0xCD 0 0 0 0 0 0
  | .wfi => eR 0xCE 0 0 0 0 0 0
  | .sys n => eR 0xD0 0 0 0 0 0 n.toNat
  | .trap a n => eR 0xD1 0 0 a 0 0 n.toNat
  | .eret => eR 0xD2 0 0 0 0 0 0
  | .cget d c => eR 0xD3 0 d 0 0 0 c.toNat
  | .cput c a => eR 0xD4 0 0 a 0 0 c.toNat
  | .cswap d c a => eR 0xD5 0 d a 0 0 c.toNat
  | .tlbInvPage a b => eR 0xD6 0 0 a b 0 0
  | .tlbInvSpace a b => eR 0xD6 0 0 a b 0 256
  | .tlbInvAll a b => eR 0xD6 0 0 a b 0 512
  | .cfq d n => eR 0xD7 0 d 0 0 0 n
  | .ebreak n => eR 0xD8 0 0 0 0 0 n.toNat
  | .hhDsc a b => eR 0xD9 0 0 a b 0 0
  | .hhZero a b => eR 0xDA 0 0 a b 0 0
  | .cpyMl o => eCpy 0 o | .cpyLm o => eCpy 1 o | .cpyLl o => eCpy 2 o | .cpyMr o => eCpy 3 o
  | .cpyWait a => eR 0xE1 0 0 a 0 0 0
  | .fwTake d f => eR 0xE2 0 d 0 0 0 (f * 256)
  | .fwGive f a => eR 0xE3 0 0 a 0 0 (f * 256)
  | .fwRes d f => eR 0xE4 0 d 0 0 0 (f * 256)
  | .fwResDef f a => eR 0xE4 1 0 a 0 0 (f * 256)
  | .fwPub f a => eR 0xE5 0 0 a 0 0 (f * 256)
  | .trlSetCounter n a => eR 0xE6 0 0 a 0 0 (n * 256)
  | .trlSetTerm n a b => eR 0xE6 1 0 a b 0 (n * 256)
  | .trlClrCounter n => eR 0xE7 0 0 0 0 0 (n * 256)
  | .trlClrTerm n => eR 0xE7 1 0 0 0 0 (n * 256)
  | .xlda o => eXLoad 0xF0 o | .xldb o => eXLoad 0xF1 o
  | .xmul o => eR 0xF2 0 (8 * b2n o.ahalf + o.aslot) (8 * b2n o.bhalf + o.bslot) o.tile 0 0
  | .xfold o => eR 0xF3 o.slot (8 * b2n o.ahalf) (8 * b2n o.bhalf) o.tile 0 0
  | .xcvt o => eR 0xF4 o.slot (16 * o.core) (16 * o.score) o.tile o.soff o.off16
  | .xzero t => eR 0xF5 0 0 0 t 0 0
  | .xrow f c => eR 0xF6 0 f c 0 0 0 | .xcol f c => eR 0xF7 0 f c 0 0 0
  | .xfmt ka kb => eR 0xF8 0 (ka - 1) (kb - 1) 0 0 0
  | .xwait n => eR 0xF9 0 n 0 0 0 0 | .xpost n => eR 0xFA 0 n 0 0 0 0
  | .xloopBegin c => eR 0xFB 1 0 0 0 0 (c - 1)
  | .xloop off => eR 0xFB 0 0 0 (off.toNat / 256) (off.toNat % 256) 0
  | .xend => eR 0xFC 0 0 0 0 0 0
  | _ => none

/-- The word of an instruction; none for an event. -/
def encode (i : Instr) : Option W64 := (encodeFields i).map (fun f => BitVec.ofNat 64 f.word)

end Sys2Proof
end

