-- ==== Sys2Proof/Machine/Map.lean ====
section
/-! DEFINITION. Sparse maps as plain data: lists of (key, value) with strictly rising keys. Two forms: `put` keeps every written entry;
`set` is canonical against a value that an unlisted key reads as, and lists no entry equal to it. -/

namespace Sys2Proof.Machine

/-- A sparse map by natural keys. -/
abbrev SMap (α : Type) := List (Nat × α)

/-- The value at `k`, or `d` where nothing is listed. -/
def mget {α : Type} (d : α) : SMap α → Nat → α
  | [], _ => d
  | (k', v) :: t, k => if k = k' then v else mget d t k

/-- Writes `v` at `k`, keeping the keys rising. -/
def mput {α : Type} : SMap α → Nat → α → SMap α
  | [], k, v => [(k, v)]
  | (k', v') :: t, k, v =>
    if k < k' then (k, v) :: (k', v') :: t
    else if k = k' then (k, v) :: t
    else (k', v') :: mput t k v

/-- Removes the entry at `k`. -/
def mdel {α : Type} : SMap α → Nat → SMap α
  | [], _ => []
  | (k', v) :: t, k => if k = k' then mdel t k else (k', v) :: mdel t k

/-- Writes `v` at `k` in the canonical form whose unlisted keys read `d`. -/
def mset {α : Type} [DecidableEq α] (d : α) (m : SMap α) (k : Nat) (v : α) : SMap α :=
  if v = d then mdel m k else mput m k v

/-- The keys listed. -/
def mkeys {α : Type} (m : SMap α) : List Nat := m.map (·.1)

/-- The canonical form: keys strictly rising and no entry equal to `d`. -/
def mwf {α : Type} [DecidableEq α] (d : α) : SMap α → Bool
  | [] => true
  | [(_, v)] => decide (v ≠ d)
  | (k, v) :: (k', v') :: t => decide (k < k') && decide (v ≠ d) && mwf d ((k', v') :: t)

/-- Is `k` listed. -/
def mhas {α : Type} (m : SMap α) (k : Nat) : Bool := m.any (fun e => e.1 == k)

/-- The `i`-th element of a list with a default. -/
def nth {α : Type} (d : α) : List α → Nat → α
  | [], _ => d
  | a :: _, 0 => a
  | _ :: t, n + 1 => nth d t n

/-- Replaces the `i`-th element. -/
def setNth {α : Type} : List α → Nat → α → List α
  | [], _, _ => []
  | _ :: t, 0, x => x :: t
  | a :: t, n + 1, x => a :: setNth t n x

end Sys2Proof.Machine
end

