-- ==== Sys2Proof/Machine/State.lean ====
section
/-! DEFINITION. The state of the machine as plain data, every piece the spec names (INVENTORY.md, State), and the state after reset. -/

namespace Sys2Proof.Machine

/-- Slot states of R37. -/
inductive Phase where
  | free | running | parked | spilled | halted
deriving DecidableEq, Repr

/-- A scalar register with its full/empty bit (R66) and poison mark (R432). -/
structure SReg where
  val : W64
  full : Bool
  pois : Bool
deriving DecidableEq, Repr

/-- One lane of a vector register (R66, R432). -/
structure VReg where
  val : W32
  full : Bool
  pois : Bool
deriving DecidableEq, Repr

/-- What a park awaits (R409). -/
inductive Await where
  /-- a full scalar register (WKIND 0) -/
  | sreg (r : Nat)
  /-- a message at `in` (WKIND 0) -/
  | inbox
  /-- full vector register `r` in the lanes of a mask (WKIND 1) -/
  | lanes (r : Nat) (mask : W64)
  /-- local-store words full (WKIND 2): the word number (offset div 8) -/
  | lsFull (w : Nat)
  /-- a local-store word full, to be taken by this reader: those that wait are served in order (WKIND 2, R254) -/
  | lsTake (w : Nat)
  /-- a local-store word empty, for this writer: the oldest that waits comes first (WKIND 2, R51, R254) -/
  | lsEmpty (w : Nat)
  /-- acceptance of remote operation `id` (WKIND 3); `ack` for an `out` that asked for an acknowledgement (WKIND 11) -/
  | remote (id : Nat) (ack : Bool) (peer what : Nat)
  /-- a free seed-tray entry (WKIND 4) -/
  | tray
  /-- a filled slot of furrow f (WKIND 5) -/
  | furrowFilled (f : Nat)
  /-- a free slot of furrow f (WKIND 5) -/
  | furrowFree (f : Nat)
  /-- acceptance of the engine command with this ticket (WKIND 6) -/
  | accept (ticket : Nat)
  /-- nothing more of the engine: it has taken the command, and register `d` takes its number when the strand goes on (WKIND 6, R288) -/
  | accepted (d n : Nat)
  /-- SEQ0 to cover a number (WKIND 7) -/
  | seq0 (n : W32)
  /-- SEQ1 to cover a number (WKIND 7) -/
  | seq1 (n : W32)
  /-- trellis counter to reach a threshold (WKIND 8) -/
  | counter (c thr : Nat)
  /-- register-pool entries (WKIND 9) -/
  | pool (n : Nat)
  /-- room in the held-message area of core (WKIND 10) -/
  | heldRoom (core : Nat)
  /-- phase `ph` of group barrier `g` of a gang (no WKIND) -/
  | group (gang g ph : Nat)
  /-- phase `ph` of numbered barrier `n` of the cluster (no WKIND) -/
  | numbered (n ph : Nat)
  /-- a coherent block in the CDC with one token, or all 512 to write (memory reply) -/
  | cdc (blk : Nat) (write : Bool)
  /-- a network credit for a message to core (WKIND 0 at `out`, else WKIND 3) -/
  | credit (core : Nat) (out : Bool) (what : Nat)
  /-- the outstanding memory reply of the strand in slot `k`, before its spill begins (R45) -/
  | reply (k : Nat)
  /-- the host's answer for a line of device memory that an access needs: given up for a write, no longer A for a read (memory reply, R171) -/
  | hostLine (line : Nat) (inv : Bool)
  /-- a GTC tick (completion of an SC operation, R150; memory reply) -/
  | tick (t : Nat)
  /-- the answer to fault record `idx` (replayable page fault) -/
  | fault (idx : Nat)
  /-- a free place in the fault ring (replayable page fault) -/
  | faultRing
  /-- the host die's answer to write `id` of a hothouse line (R170; memory reply) -/
  | wrack (id : Nat)
  /-- an enabled pending interrupt or a task entering a ready queue (`wfi`) -/
  | irq
deriving DecidableEq, Repr

/-- A park: what is awaited, the WLIM it took and the resident ticks it has counted (R411), its position, and its place in the order in which accesses
came to wait (R254). -/
structure Park where
  on : Await
  limit : Nat
  ticks : Nat
  header : Bool
  since : Nat
deriving DecidableEq, Repr

/-- A fetched clause (R186): header offset, header word and instruction words. -/
structure Clause where
  off : Nat
  hdr : W64
  words : List W64
deriving DecidableEq, Repr

/-- A link record (R210), bound to the entry at `depth` entries from the bottom. -/
structure Link where
  depth : Nat
  p0 : BitVec 128
  p1 : BitVec 128
deriving DecidableEq, Repr

/-- Who a strand runs for (R29, R33, R258). -/
inductive Job where
  | none
  | root
  | gang (g : Nat) (k : Nat)
  | handler (g : Nat)
  | task (core idx : Nat) (gen : W32)
deriving DecidableEq, Repr

/-- A location an `expect` binds (R268). -/
inductive ExpLoc where
  | reg (n : Nat)
  | ls (w : Nat)
  | inbox
deriving DecidableEq, Repr

/-- A producer binding (R268). -/
structure Bind where
  loc : ExpLoc
  rank : Nat
  orphaned : Bool
deriving DecidableEq, Repr

/-- An arrival the strand made (R265, R419): barrier, phase joined, offset of the instruction. -/
structure Mark where
  nb : Bool
  num : Nat
  phase : Nat
  off : Nat
deriving DecidableEq, Repr

/-- A forced reconvergence (R50): the barrier's offset and kind, lanes set aside there, the running path's lanes and stack depth, the stack entries
above it (top first) with their link records (depth counted from the lowest of them), and whether the strand has come back to the barrier. -/
structure Reconv where
  off : Nat
  nb : Bool
  lanes : W64
  cur : W64
  d0 : Nat
  above : List W64
  links : List Link
  done : Bool
deriving DecidableEq, Repr

/-- What the native Sloem kernel owes a slot whose trap reached S (R332 to R337, R386, R488). -/
inductive Kern where
  | abort
  | resume
  | fault (acc : Nat)
  | preempt
  /-- delivers "page protection" as the host answered (R336) -/
  | deny
  /-- the strand is the kernel itself, whose instructions are the model's kernel events (R33, log entry 10) -/
  | self
deriving DecidableEq, Repr

/-- Answer to an outstanding remote operation (R280): none yet, accepted, or refused. -/
structure Remote where
  id : Nat
  done : Option Bool
deriving DecidableEq, Repr

/-- A checked access of a lane (R117): a local-store offset, or a physical address with the virtual one; `direct` bypasses the caches. -/
structure Ref where
  lane : Nat
  ls : Bool
  addr : Nat
  va : Nat
  direct : Bool
deriving DecidableEq, Repr

/-- An SC operation that has left its slot (R150, R249): the tick of its completion, the accesses it performs, and the scalar operands it took. -/
structure ScOp where
  tick : Nat
  refs : List Ref
  ops : List W64
deriving DecidableEq, Repr

/-- A strand's state (R36, R45, R66 to R78). -/
structure Slot where
  phase : Phase
  park : Option Park
  pc : Nat
  clause : Option Clause
  /-- the header's waits are still to be evaluated (R185) -/
  hdrWait : Bool
  /-- the next fetch is a resumption (R187) -/
  resuming : Bool
  s : SMap SReg
  v : SMap VReg
  m : SMap W64
  p : SMap (BitVec 128)
  shadow0 : BitVec 128
  shadow1 : BitVec 128
  /-- hardware mask stack, top first, one word a hardware entry (R74) -/
  stack : List W64
  links : List Link
  rcnt : SMap W32
  budget : Nat
  width : Nat
  /-- one bit a held slice (R34) -/
  slices : Nat
  job : Job
  /-- count of strand starts (R335) -/
  gen : Nat
  segs : Nat
  fmt : List W64
  asid : Nat
  status : W64
  cause : W64
  epc : W64
  tval : W64
  fmask : W64
  lfm : W64
  sowst : W64
  sowsth : W64
  tvec : Nat
  utvec : Nat
  udeleg : W64
  ie : W64
  /-- latched bits of IP: PREQ, ISLOT, PEXT (R79) -/
  ip : W64
  escr : W64
  uscr : W64
  timecmp : W64
  wlim : W64
  outdst : W64
  msbase : W64
  savea : W64
  gseed : W64
  ranks : W64
  fflags : W64
  replv : SMap W64
  binds : List Bind
  marks : List Mark
  seqRep : Option (Nat × W64)
  remote : Option Remote
  reconv : Option Reconv
  /-- lanes to which the next issue is restricted after `eret` (R397) -/
  replay : Option W64
  /-- a restriction that an interrupt came before, with the offset it belongs to (R79, R397) -/
  replayHeld : Option (Nat × W64)
  /-- the trap in progress is a report of the sequencer, whose FMASK is no lane mask (R309, R378) -/
  reported : Bool
  /-- the next `sow` resumes (R77) -/
  resumed : Bool
  /-- a group of the `sow` in progress met a demotion point (R49, R223) -/
  sowDem : Bool
  /-- save-area address and generation of the held strand of a lent slot (R364) -/
  held : Option (W64 × Nat)
  /-- the slot is the upper half of a width-64 strand in this slot of the core (R58) -/
  pairOf : Option Nat
  kern : Option Kern
  /-- SC operation in progress (R150) -/
  sc : Option ScOp
  /-- first cycle in which the slot may issue again (R32, R59) -/
  ready : Nat
  /-- program counter of an instruction that has met a demotion point in some lanes and still has lanes to complete (R49) -/
  demAt : Option Nat
  /-- slot and generation by which fills and messages name the strand, where these are not the slot's own: a task that was pre-empted and reloaded into
  another slot keeps those of its start, and the borrower of a lent slot has none (R46, R289, R335, R364) -/
  born : Option (Nat × Nat)
deriving DecidableEq, Repr

/-- A slot in which no strand has started: start values of R36 and R76, DESIGN CHOICE elsewhere (log entry 1). -/
def Slot.reset : Slot :=
  { phase := .free, park := none, pc := 0, clause := none, hdrWait := false, resuming := false, s := [], v := [], m := [], p := [],
    shadow0 := 0, shadow1 := 0, stack := [], links := [], rcnt := [], budget := 8, width := 32, slices := 0, job := .none, gen := 0,
    segs := 0, fmt := List.replicate 8 0, asid := 0, status := 0x10, cause := 0, epc := 0, tval := 0, fmask := 0, lfm := 0,
    sowst := 0, sowsth := 0, tvec := 0, utvec := 0, udeleg := 0, ie := 0x1C, ip := 0, escr := 0, uscr := 0,
    timecmp := 0xFFFFFFFFFFFFFFFF, wlim := 0, outdst := 0, msbase := 0, savea := 0, gseed := 0, ranks := 0, fflags := 0, replv := [],
    binds := [], marks := [], seqRep := none, remote := none, reconv := none, replay := none, replayHeld := none, reported := false, resumed := false, sowDem := false, held := none,
    pairOf := none, kern := none, sc := none, ready := 0, demAt := none, born := none }

/-- A spilled strand's image in its save area, keyed by partition and SAVEA (R45; layout internal, log entry 12). -/
structure Save where
  part : Nat
  addr : W64
  slot : Nat
  img : Slot
deriving DecidableEq, Repr

/-- A lane L1 sector: valid and dirty byte masks, data, poison (R148, R432). -/
structure L1Sec where
  valid : W64
  dirty : W64
  data : BitVec 512
  pois : Bool
deriving DecidableEq, Repr

/-- Tokens of a block in one place (R156). -/
structure Tok where
  n : Nat
  owner : Bool
  dirty : Bool
deriving DecidableEq, Repr

/-- A TLB entry (R116): one leaf, its page size and its address space. -/
structure Tlb where
  part : Nat
  asid : Nat
  base : Nat
  level : Nat
  pte : W64
deriving DecidableEq, Repr

/-- A message at or for a core (R258, R335). -/
structure Msg where
  src : Nat
  slot : Nat
  task : Option Nat
  gen : Nat
  val : W64
  /-- KIND 0: to the core's kernel or runtime -/
  core0 : Bool
deriving DecidableEq, Repr

/-- A queued active message (R258). -/
structure AMsg where
  entry : Nat
  b : W64
  c : W64
  rank : Nat
deriving DecidableEq, Repr

/-- A task context (R62). -/
structure TaskCtx where
  code : BitVec 128
  p1 : BitVec 128
  p14 : BitVec 128
  gseed : W64
  ranks : W64
  utvec : Nat
  udeleg : W64
  fmt : List W64
  asid : Nat
  /-- the record is registered and not exited -/
  live : Bool
  /-- save-area address the kernel uses for the task (R337) -/
  save : W64
deriving DecidableEq, Repr

/-- An entry of the forward table (R334). -/
structure Fwd where
  idx : Nat
  gen : W32
  core : Nat
  idx2 : Nat
deriving DecidableEq, Repr

/-- A seed-tray entry (R63): the record's 32 words, its group table, the issuing slot. -/
structure Tray where
  lrec : List W64
  gtab : List W64
  slot : Nat
  ls : Nat
  p1 : BitVec 128
  asid : Nat
  prio : Nat
  /-- passed over until a gang of the die retires (R325) -/
  blocked : Bool
  /-- the stored entry no longer passes its check (R475) -/
  bad : Bool
deriving DecidableEq, Repr

/-- A delegated core (R368): code pointer for S traps and WTV. -/
structure Deleg where
  p0 : BitVec 128
  wtv : Nat
deriving DecidableEq, Repr

/-- A page-fault record waiting for, or standing in, the fault ring (R336, R445). -/
structure FaultRec where
  slot : Nat
  gen : Nat
  idx : Nat
  acc : Nat
  va : W64
  fmask : W64
  /-- tick of the fault -/
  at_ : Nat
deriving DecidableEq, Repr

/-- A core (R22, R43, R61, R72, R332). -/
structure Core where
  k : SMap W64
  /-- values overwritten by the latest writes and the cycles of those writes (R73) -/
  kold : SMap (List (W64 × Nat))
  poolUsed : Nat
  segsOn : Nat
  l1 : SMap L1Sec
  cdc : SMap Tok
  /-- cached code words by physical address div 8 (R189) -/
  icache : SMap W64
  itlb : List Tlb
  dtlb : List Tlb
  inbox : List Msg
  heldq : List Msg
  amq : List AMsg
  tctx : SMap TaskCtx
  rq : List (List W64)
  rpend : List (Nat × W64)
  fwd : List Fwd
  tray : List Tray
  gang : Option Nat
  quarantined : Bool
  fails : List Nat
  deleg : Option Deleg
  wdog : Nat
  /-- a work-queue item or kernel duty tick of the load exchange (R334) -/
  lbTick : Nat
  rlogctl : W64
  rlogRead : Nat
  pwctl : W64
  started : Bool
  /-- tasks have entered a ready queue since the last `wfi` looked (R275) -/
  rqEvent : Bool
  /-- cycle of the core's last reset (R20) -/
  cyc0 : Nat
  /-- how often the next propagation-tree flit for the core fails its check (R475) -/
  flitBad : Nat
  /-- k-registers whose entry is poisoned (R430, R432) -/
  kpois : List Nat
deriving DecidableEq, Repr

/-- A core at its reset (R43, R72): the kernel's strand on slot 0 holds 64 entries of the pool (R34). -/
def Core.reset : Core :=
  { k := [], kold := [], poolUsed := 64, segsOn := 1, l1 := [], cdc := [], icache := [], itlb := [], dtlb := [], inbox := [], heldq := [],
    amq := [], tctx := [], rq := [[], [], [], []], rpend := [], fwd := [], tray := [], gang := none, quarantined := false, fails := [],
    deleg := none, wdog := 0, lbTick := 0, rlogctl := 0, rlogRead := 0, pwctl := 0, started := false, rqEvent := false, cyc0 := 0, flitBad := 0, kpois := [] }

/-- Owner of a cluster resource (R282): a gang block, a task (record and generation), or another strand of no gang (slot index, generation). -/
inductive Owner where
  | gang (g : Nat)
  | task (core idx : Nat) (gen : W32)
  | strand (slot gen : Nat)
deriving DecidableEq, Repr

/-- The side of a command in a local store (R284). -/
inductive Side where
  | ls (core off : Nat)
  | furrow (f : Nat) (ix : Option Nat)
deriving DecidableEq, Repr

/-- Directions of R283. -/
inductive Dir where
  | ml | lm | ll | mr
deriving DecidableEq, Repr

/-- A 64 KiB page of a command's memory footprint: virtual page number, physical address of its first byte, whether accesses bypass the caches,
and whether the translation still stands (R116, R288, R469). -/
structure CPage where
  vp : Nat
  pa : Option Nat
  direct : Bool
  ok : Bool
deriving DecidableEq, Repr

/-- An engine command (R283 to R292): `base` is its first virtual byte, `pages` its memory footprint as translated, `seq` its number counted without
wrapping, `dst` register of the number, `es`, `prec` and `fslot` the element bytes, precision and format slot of `.bp`, `grp` the first command of
its multicast group, `term` armed until it has been true. -/
structure Cmd where
  ticket : Nat
  seq : Nat
  numReg : Nat
  dir : Dir
  slot : Nat
  gen : Nat
  owner : Owner
  part : Nat
  asid : Nat
  user : Bool
  base : Nat
  mstr : Nat
  rows : Nat
  len : Nat
  tag : Nat
  src : Option Side
  dst : Option Side
  reg : Option (Bool × Bool × Nat)
  mc : Bool
  es : Nat
  prec : Nat
  fslot : Nat
  term : Option Nat
  /-- the term has been true since acceptance (R301) -/
  startable : Bool
  started : Bool
  grp : Option Nat
  /-- the merged fetch of its group has delivered its data (R19) -/
  moved : Bool
  pages : List CPage
  /-- failing address and reason of R467 of a command that completes in error (R469) -/
  err : Option (Nat × Nat)
deriving DecidableEq, Repr

/-- An open combining window (R19): the number of its first command, the numbers merged, and the cycle in which it opened. -/
structure Win where
  first : Nat
  seqs : List Nat
  opened : Nat
deriving DecidableEq, Repr

/-- Who waits at a furrow (R295): a strand, or the command of a number. -/
inductive Waiter where
  | strand (slot gen : Nat)
  | cmd (seq : Nat)
deriving DecidableEq, Repr

/-- A furrow (R294, R295): definition, indices and marks. -/
structure Furrow where
  owner : Owner
  core : Nat
  base : Nat
  ssz : Nat
  nsl : Nat
  res : Nat
  pub : Nat
  tak : Nat
  giv : Nat
  done : List Nat
  returned : List Nat
  /-- reservers and takers in order of arrival -/
  resq : List Waiter
  takq : List Waiter
deriving DecidableEq, Repr

def Furrow.zero : Furrow := ⟨.gang 0, 0, 0, 0, 0, 0, 0, 0, 0, [], [], [], []⟩

/-- A trellis counter (R299). -/
structure Counter where
  owner : Owner
  src : Nat
  sel : Nat
  val : BitVec 16
deriving DecidableEq, Repr

/-- A trellis literal (R300): counter and threshold. -/
structure Lit where
  cnt : Nat
  thr : BitVec 16
deriving DecidableEq, Repr

/-- A trellis term (R300). -/
structure Term where
  owner : Owner
  l0 : Option Lit
  l1 : Option Lit
  l2 : Option Lit
  l3 : Option Lit
deriving DecidableEq, Repr

/-- A numbered barrier (R266, R308). -/
structure NBar where
  phase : Nat
  /-- strand arrivals of the current phase -/
  arr : List Nat
  sa : Nat
  seq : Bool
  /-- arrivals counted in the next phase -/
  arr2 : List Nat
  sa2 : Nat
deriving DecidableEq, Repr

def NBar.reset : NBar := { phase := 0, arr := [], sa := 0, seq := false, arr2 := [], sa2 := 0 }

/-- Sequencer states (R306, R309, R310). -/
inductive SeqPhase where
  | idle | running | waiting (n ph : Nat) | posting (n ph : Nat) | hdrWait | stopped
deriving DecidableEq, Repr

/-- Half of an operand buffer (R303): planes as rows of 128 bits, exponents, slot, poison. -/
structure Half where
  slot : Nat
  planes : List (List Nat)
  exps : List (BitVec 8)
  pois : Bool
deriving DecidableEq, Repr

/-- An accumulator cell (R106). -/
structure Cell where
  fold : W32
  pois : Bool
  r49 : Nat
  r48 : Nat
  r47 : Nat
deriving DecidableEq, Repr

def Cell.reset : Cell := { fold := 0, pois := false, r49 := 0, r48 := 0, r47 := 0 }

/-- A cluster (R15 to R19, R294 to R318). -/
structure Cluster where
  clwgt0 : W64
  clwgt1 : W64
  deficit : SMap Nat
  l2tlb : List Tlb
  /-- commands that wait for acceptance, in order of arrival -/
  pend : List Cmd
  /-- accepted, incomplete commands -/
  cmds : List Cmd
  nextSeq : Nat
  nextTicket : Nat
  seq0 : W32
  seq1 : W32
  wins : List Win
  furrows : SMap Furrow
  counters : SMap Counter
  terms : SMap Term
  lease : Option Nat
  nbars : SMap NBar
  seqPhase : SeqPhase
  seqPc : Nat
  seqClause : Option Clause
  seqHdr : Bool
  seqGang : Nat
  loops : List (Nat × Nat)
  rowp : BitVec 128
  colp : BitVec 128
  ka : Nat
  kb : Nat
  halves : SMap Half
  acc : SMap Cell
  folds : SMap Nat
  /-- a matrix instruction in the hazard unit: the number that the next command had when it arrived, and its read and write footprints (R318) -/
  matHaz : Option (Nat × List (Nat × Nat × Nat) × List (Nat × Nat × Nat))
  enabled : Bool
  ramp : Nat
deriving DecidableEq, Repr

/-- A cluster at its reset (R18, R151, R304, R306). -/
def Cluster.reset : Cluster :=
  { clwgt0 := 0x1111111111111111, clwgt1 := 1, deficit := [], l2tlb := [], pend := [], cmds := [], nextSeq := 1, nextTicket := 0,
    seq0 := 0, seq1 := 0, wins := [], furrows := [], counters := [], terms := [], lease := none, nbars := [], seqPhase := .idle,
    seqPc := 0, seqClause := none, seqHdr := false, seqGang := 0, loops := [], rowp := BitVec.allOnes 128, colp := BitVec.allOnes 128,
    ka := 1, kb := 1, halves := [], acc := [], folds := [], matHaz := none, enabled := false, ramp := 0 }

/-- A queue that the front end has read from its descriptor (R319, R322, R324): `asked` orders requests to map it (0 none), `idle` orders the moments
at which queues last took a packet, `wait` is the signal, COND and value it is parked on, `met` that the signal has met them, `edge` that it is parked
on an EDGE packet, `flushing` that the packet's write-backs run, `edgeR` the ranges of that packet, `ranges` those of earlier EDGE packets for the next
gang, `blocked` that its head is passed over until a gang retires (R325). -/
structure Queue where
  part : Nat
  q : Nat
  mapped : Bool
  asked : Nat
  idle : Nat
  /-- gangs launched from earlier packets that have not retired -/
  gangs : List Nat
  producer : Option Nat
  wait : Option (Nat × Nat × W64)
  met : Bool
  edge : Bool
  flushing : Bool
  edgeR : List (Nat × Nat)
  ranges : List (Nat × Nat)
  blocked : Bool
deriving DecidableEq, Repr

/-- A gang (R52 to R57, R326). -/
structure Gang where
  id : Nat
  die : Nat
  part : Nat
  lrec : List W64
  groups : List W64
  row0 : Nat
  col0 : Nat
  p0 : BitVec 128
  p1 : BitVec 128
  p14 : BitVec 128
  asid : Nat
  prio : Nat
  released : Bool
  retired : Bool
  work : Nat
  /-- strand ranks that have not halted -/
  live : List Nat
  halted : List Nat
  /-- group barrier phases and arrivals: keyed by group -/
  phases : SMap Nat
  arrivals : SMap (List Nat)
  /-- from a queue (part, q) or a tray (core) -/
  queue : Option Nat
  tray : Option Nat
  ranges : List (Nat × Nat)
  /-- local-store image, little-endian (R200) -/
  img : Nat
  /-- clusters of the rectangle by number, with the clusters that hold them after a resume (R338) -/
  cl : SMap Nat
deriving DecidableEq, Repr

/-- A directory entry (R163, R164): states of the four dies (codes of R163), allocation order. -/
structure DirEnt where
  st : List Nat
  hh : Bool
  order : Nat
deriving DecidableEq, Repr

/-- Kinds of coherence message (R154 to R170). -/
inductive CohKind where
  | tcoll | tokdata | fwds | fwdx | inv | invAck | fwdAck | datas | datax | upgack | cmp
  | notei | notedat | noteack | gone | binv | binvack | binvdata | wrhh | wrack
  | rds | rdx | upg
deriving DecidableEq, Repr

/-- A coherence message in flight to die `die`. `src` is the sender (a die, a core, or the cluster that a collection asks), `req` the requesting core
(tokens) or die (directory), `n` the tokens carried or asked for. The data of a block stands in memory (log entry 3): a message carries the dirty flag;
only a write of a hothouse line carries bytes. -/
structure Coh where
  id : Nat
  kind : CohKind
  die : Nat
  src : Nat
  blk : Nat
  req : Nat
  n : Nat
  owner : Bool
  dirty : Bool
  data : BitVec 1024
  mask : BitVec 128
deriving DecidableEq, Repr

/-- Requests of R165. -/
inductive TxKind where
  | rds | rdx | upg | binv
deriving DecidableEq, Repr

/-- A transaction in progress at a home (R155, R165, R457): `waiting` are the dies whose answer is awaited, `fwd` that an owner was asked to send the
data, `since` the cycle of its start or of the last action of R457, `gone` the dies that answered Gone before their notice with the cycle (R167, R456),
`granted` that data or permission has been sent, `filled` that the host has supplied a host-homed block, `lost` that R457 has sent poisoned data. -/
structure Txn where
  kind : TxKind
  req : Nat
  waiting : List Nat
  fwd : Bool
  since : Nat
  resent : Bool
  gone : List (Nat × Nat)
  granted : Bool
  filled : Bool
  lost : Bool
deriving DecidableEq, Repr

/-- A transient or persistent request of a core (R159, R160): `since` is the cycle of its issue or activation, `table` that it has a place in the
persistent table, `batch` that it belongs to the batch served, `sent` that the slice has acted on it since its issue. -/
structure TReq where
  core : Nat
  blk : Nat
  write : Bool
  issues : Nat
  since : Nat
  persistent : Bool
  table : Bool
  batch : Bool
  active : Bool
  sent : Bool
deriving DecidableEq, Repr

/-- A migration in progress (R120, R446): the entry's address, the new ADDR, the old frame as the model addresses it and the new one, 64 KiB parts in
all and parts moved. -/
structure Migr where
  pte : Nat
  dst : Nat
  old : Nat
  new : Nat
  parts : Nat
  moved : Nat
deriving DecidableEq, Repr

/-- A redirect table entry (R121): old frame, new frame, bytes moved. -/
structure Redir where
  old : Nat
  new : Nat
  len : Nat
deriving DecidableEq, Repr

/-- A checkpoint in progress (R355, R356). -/
structure Ckpt where
  cut : Nat
  gen : Nat
  cutDone : List Nat
  copied : List (Nat × Nat)
  active : Bool
deriving DecidableEq, Repr

/-- A snapshot's latched values of a die (R358): the tick, the registers of its management space, its directory entries in the layout of R164 by block, and
the blocks of its clusters: engines and sequencers, cores, and slots. -/
structure Snap where
  tick : Nat
  regs : SMap W64
  dir : SMap W64
  clusters : SMap Cluster
  cores : SMap Core
  slots : SMap Slot
deriving DecidableEq, Repr

/-- A request from outside that waits at its home for a back-invalidation (R171, R350): CXL.mem reads and writes, UIO reads and writes of peers. -/
inductive HReq where
  | read (die port line mf : Nat)
  | write (die port line mf : Nat) (mask : W64) (data : BitVec 512) (pois : Bool)
  | peerRead (die port addr len : Nat)
  | peerWrite (die port addr len : Nat) (data : BitVec 512) (pois : Bool)
deriving DecidableEq, Repr

/-- Kinds of message in the message network (R256 to R258, R270, R271, R335). -/
inductive NetKind where
  | rput | sputfe | amsg | out | cntdec | taskdec
deriving DecidableEq, Repr

/-- A message in the network. -/
structure Net where
  id : Nat
  kind : NetKind
  src : Nat
  core : Nat
  slot : Nat
  gen : Nat
  /-- register, local-store offset, handler entry or task index -/
  at_ : Nat
  val : W64
  val2 : W64
  rank : Nat
  ack : Bool
  toTask : Bool
  /-- reached the target and waits at a full location (R51) -/
  waiting : Bool
  withdraw : Bool
  pois : Bool
  /-- its place in the order in which accesses came to wait at the location (R51, R254) -/
  since : Nat
deriving DecidableEq, Repr

/-- An answer on its way to a sender (R280, R412). -/
structure Ans where
  id : Nat
  slot : Nat
  gen : Nat
  ok : Bool
  withdrawn : Bool
deriving DecidableEq, Repr

/-- A swapped-out partition's context on a die (R338): everything under the numbers of the clusters that it was taken from, with the hothouse lines
that the cold-frame share holds and the messages in flight to its cores. -/
structure Swap where
  part : Nat
  cls : List Nat
  slots : SMap Slot
  cores : SMap Core
  clusters : SMap Cluster
  ls : SMap Byte
  lsEmpty : List Nat
  lsPois : List Nat
  hot : SMap Byte
  hotLines : List Nat
  hotPois : List Nat
  net : List Net
  answers : List Ans
deriving DecidableEq, Repr

/-- A die (R10 to R13, R319 to R331, R346 to R358, R441 to R447). -/
structure Die where
  signals : SMap W64
  queues : List Queue
  arb : SMap Nat
  cfg : SMap W64
  mgmt : SMap W64
  meas : SMap (BitVec 512)
  /-- tokens at the slices, by block -/
  slice : SMap Tok
  /-- hint of clusters, by block -/
  hint : SMap W32
  treqs : List TReq
  dir : SMap DirEnt
  dirNext : Nat
  txns : SMap Txn
  waitq : List (Nat × TxKind × Nat)
  /-- snoop filter by 64-byte line: 1 S or 2 A, plus 4 × the die of the host port that took it (R171, R465) -/
  filter : SMap Nat
  /-- back-invalidations in flight: line, invalidate, tick sent, conflict -/
  bisnp : List (Nat × Bool × Nat × Bool)
  /-- host-block directory (R173): states of the four dies -/
  hostdir : SMap DirEnt
  notes : List Nat
  redir : List Redir
  migr : Option Migr
  /-- hothouse lines present: index × 512 + line -/
  hotLines : List Nat
  /-- stranded indices: 512 × partition + index (R449) -/
  stranded : List Nat
  /-- entries of a partition's fallback list already taken (R133) -/
  fbHead : SMap Nat
  rows : SMap Nat
  captured : List Nat
  refreshed : List Nat
  rowStart : Nat
  /-- CAPW as the current window took it (R441) -/
  capW : Nat
  faults : SMap (List FaultRec)
  faultq : SMap (List FaultRec)
  frNext : SMap Nat
  snap : Option Snap
  swaps : List Swap
  isolated : Bool
  /-- its isolation is due (R457, R462) -/
  isoReq : Bool
  stopped : Bool
  temp : Nat
  power : Nat
  plim : Bool
  clkTick : Nat
  links : SMap Nat
  /-- CRC failures per link × 48 + module in the last millisecond window, and retired modules -/
  crc : SMap Nat
  retiredMods : List Nat
  training : List Nat
  /-- image slots of the boot flash: outcome the ROM finds for A and B (0 good, else a reason of R482) -/
  imgA : Nat
  imgB : Nat
  fwFail : Nat
  idkBad : Bool
  /-- bytes measured at boot: the ROM under 0; firmware, kernel and tables under 1 to 3 for slot A and 5 to 7 for slot B -/
  flash : SMap (List Byte)
  booted : Bool
  resetPart : SMap Nat
  /-- clusters that a partition holds while CLMASK has been written since the GO of its resume (R347, R479) -/
  heldMask : SMap W64
  /-- port 0 is attached through a switch that reaches the pool (R355) -/
  hostSwitch : Bool
  /-- requests from outside that wait at this home, in order of arrival (R155, R171) -/
  hostq : List HReq
  /-- tick in which the snapshot was armed or its tick set (R358) -/
  armAt : Nat
deriving DecidableEq, Repr

/-- A die at reset (R346, R347): registers not listed read their own reset values (Ops). -/
def Die.reset : Die :=
  { signals := [], queues := [], arb := [], cfg := [], mgmt := [], meas := [], slice := [], hint := [], treqs := [], dir := [], dirNext := 0, txns := [],
    waitq := [], filter := [], bisnp := [], hostdir := [], notes := [], redir := [], migr := none, hotLines := [], stranded := [], fbHead := [], rows := [],
    captured := [], refreshed := [], rowStart := 0, capW := 2, faults := [], faultq := [], frNext := [], snap := none, swaps := [], isolated := false, isoReq := false, stopped := false,
    temp := 0, power := 0, plim := false, clkTick := 0, links := [], crc := [], retiredMods := [], training := [], imgA := 0, imgB := 0, fwFail := 0,
    idkBad := false, flash := [], booted := false, resetPart := [], heldMask := [], hostSwitch := false, hostq := [], armAt := 0 }

/-- What leaves the device: MSI-X vectors, CXL.io errors, responses (log entry 13). -/
inductive Output where
  | msix (part vec : Nat)
  | cxlError (die : Nat)
  | spdm (die : Nat) (meas : List (BitVec 512)) (nonce : BitVec 256) (sig : BitVec 398848)
  | spdmError (die : Nat)
  | hostData (line : Nat) (data : BitVec 512) (pois : Bool)
  | peerData (addr : Nat) (data : BitVec 512) (pois : Bool)
  | snoopAnswer (line : Nat) (dirty : Bool)
  | backInval (line : Nat) (inv : Bool)
  | evict (line : Nat) (dirty : Bool)
  | hostRead (line : Nat) (own : Bool)
  | refresh (die row : Nat)
deriving DecidableEq, Repr

/-- A protected unit of a register file, a local store or a lane L1 (R430): registers of a slot, k-registers of a core, lanes of a vector register, words,
sectors. -/
inductive HwUnit where
  | sreg (slot r : Nat)
  | kreg (core i : Nat)
  | vreg (slot r lane : Nat)
  | lsw (core w : Nat)
  | l1s (core sector : Nat)
deriving DecidableEq, Repr

/-- Faults of the hardware that no row of the opcode table stands for (R430, R453, R475). -/
inductive HwFault where
  /-- a corrected error in store `row` of the table of R430 (R433) -/
  | corrected (die row : Nat)
  /-- an uncorrectable error in a register, a local-store word or a sector of a lane L1 -/
  | unit (u : HwUnit)
  /-- in a mask register, the mask stack or a control register of a slot -/
  | control (slot : Nat)
  /-- in a block of a CDC -/
  | cdc (core blk : Nat)
  /-- in a 64-byte sector of the L2, the MSC or HBM -/
  | sector (sec : Nat)
  /-- in an entry of a TLB of a core, which is dropped -/
  | tlb (core : Nat)
  /-- in a line of an instruction cache, which is fetched again -/
  | code (core : Nat)
  /-- in a tile of the accumulator store -/
  | tile (cl t : Nat)
  /-- in a half of the operand buffers -/
  | operand (cl key : Nat)
  /-- in one copy, or in both, of an entry of a coherence structure: 0 home directory, 1 snoop filter, 2 host-block directory; its set and way (R453, R454) -/
  | coherence (die : Nat) (at_ : Nat × Nat × Nat) (both : Bool)
  /-- in an entry of a slice's persistent table (R453) -/
  | request (core blk : Nat)
  /-- in a coherence message, whose flit is dropped (R453) -/
  | flit (id : Nat)
  /-- in the oldest entry of a core's seed tray (R475) -/
  | tray (core : Nat)
  /-- the next `n` propagation-tree flits for a core fail their check (R475) -/
  | launch (core n : Nat)
deriving DecidableEq, Repr

/-- The machine. -/
structure State where
  /-- strands by 16 × core + slot -/
  slots : SMap Slot
  /-- cores by 384 × die + 16 × cluster + core -/
  cores : SMap Core
  /-- clusters by 24 × die + cluster -/
  clusters : SMap Cluster
  dies : SMap Die
  /-- device memory and CXL windows by physical address; an unlisted byte reads 0x00 (log entry 2) -/
  mem : List Host.Cell
  /-- hothouse lines' bytes by (die × 512 + index) × 65,536 + offset; unlisted reads zero (R132) -/
  hot : SMap Byte
  /-- local stores by core × 2^18 + offset; unlisted reads zero (R43) -/
  ls : SMap Byte
  /-- empty local-store words by core × 32,768 + offset div 8 (R22) -/
  lsEmpty : List Nat
  /-- poisoned local-store words (R432) -/
  lsPois : List Nat
  /-- poisoned 64-byte sectors by physical address div 64 (R432) -/
  pois : List Nat
  /-- sectors whose stored data no longer passes its check, not yet detected (R430, R432) -/
  bad : List Nat
  saves : List Save
  gangs : List Gang
  nextGang : Nat
  net : List Net
  answers : List Ans
  nextMsg : Nat
  /-- count of accesses that have come to wait (R254) -/
  nextWait : Nat
  coh : List Coh
  ckpt : Option Ckpt
  /-- die whose port 0 is the primary host port (R9) -/
  primary : Nat
  deviceFault : Bool
  powerLimit : Bool
  gtc : Nat
  gtcOn : Bool
  relTick : Nat
  relStep : Nat
  cycle : Nat
  /-- the model's own fields: current agent, schedule position, time not yet counted, free-value counter, inputs and outputs (log entries 5, 6, 8, 11, 13) -/
  cur : Agent
  turn : Nat
  acc : Nat
  free : Nat
  inputs : List (Nat × Instr)
  /-- writes of management registers made at F: die, offset, value (R346) -/
  mgmtq : List (Nat × Nat × W64)
  /-- fabric accesses of agents' current instructions that have timed out; true when they complete as unreachable (R440) -/
  uio : List (Agent × Bool)
  outputs : List Output
  /-- hardware faults to come, by tick (R430, R453, R475; log entry 13) -/
  hw : List (Nat × HwFault)
  /-- units whose uncorrectable error no read has found yet (R435) -/
  undet : List HwUnit
deriving DecidableEq, Repr

/-- Why a step stops: never where the spec gives an effect. -/
inductive Fault where
  /-- raised by nothing: kept so that the type has a value to print; safe -/
  | none
deriving DecidableEq, Repr

/-- Why a step is refused. -/
inductive Refusal where
  /-- raised by an arm of `exec` whose instruction has no meaning yet; safe -/
  | notModelled (mnemonic : String)
deriving DecidableEq, Repr

/-- The machine right after reset: no strand has started, no cluster is enabled, memory lists nothing, the GTC has not started (R354, R482). -/
def State.reset : State :=
  { slots := [], cores := [], clusters := [], dies := [], mem := [], hot := [], ls := [], lsEmpty := [], lsPois := [], pois := [], bad := [],
    saves := [], gangs := [], nextGang := 1, net := [], answers := [], nextMsg := 0, nextWait := 0, coh := [], ckpt := none, primary := 0, deviceFault := false,
    powerLimit := false, gtc := 0, gtcOn := false, relTick := 0, relStep := 0, cycle := 0, cur := .slot 0, turn := 0, acc := 0, free := 0,
    inputs := [], mgmtq := [], uio := [], outputs := [], hw := [], undet := [] }

end Sys2Proof.Machine
end

