-- ==== Sys2Proof/Machine/Base.lean ====
section
/-! DEFINITION. The plainest operations over State: parts of the machine by number, registers' raw access, local stores, bytes of physical memory,
pointers, error logs, gangs and messages. -/

namespace Sys2Proof.Machine

/-! ### The parts of the machine by number (R10, R14, R24) -/

def State.slot (s : State) (i : Nat) : Slot := mget Slot.reset s.slots i
def State.core (s : State) (c : Nat) : Core := mget Core.reset s.cores c
def State.cluster (s : State) (c : Nat) : Cluster := mget Cluster.reset s.clusters c
def State.die (s : State) (d : Nat) : Die := mget Die.reset s.dies d
def State.setSlot (s : State) (i : Nat) (x : Slot) : State := { s with slots := mput s.slots i x }
def State.setCore (s : State) (c : Nat) (x : Core) : State := { s with cores := mput s.cores c x }
def State.setCluster (s : State) (c : Nat) (x : Cluster) : State := { s with clusters := mput s.clusters c x }
def State.setDie (s : State) (d : Nat) (x : Die) : State := { s with dies := mput s.dies d x }
def State.modSlot (s : State) (i : Nat) (f : Slot → Slot) : State := s.setSlot i (f (s.slot i))
def State.modCore (s : State) (c : Nat) (f : Core → Core) : State := s.setCore c (f (s.core c))
def State.modCluster (s : State) (c : Nat) (f : Cluster → Cluster) : State := s.setCluster c (f (s.cluster c))
def State.modDie (s : State) (d : Nat) (f : Die → Die) : State := s.setDie d (f (s.die d))

/-- The core of a slot index, its slot number, the cluster of a core, the die of a cluster. -/
def coreOf (i : Nat) : Nat := i / 16
def slotNo (i : Nat) : Nat := i % 16
def clOfCore (c : Nat) : Nat := c / 16
def dieOfCl (c : Nat) : Nat := c / 24
def dieOfCore (c : Nat) : Nat := c / 384
def clOfSlot (i : Nat) : Nat := i / 256
def dieOfSlot (i : Nat) : Nat := i / 6144

/-- Source number of a slot (R24). -/
def srcOfSlot (i : Nat) : Nat :=
  (dieOfSlot i) * 16384 + (clOfSlot i % 24) * 512 + (coreOf i % 16) * 16 + slotNo i
/-- Source number of a unit of a die, with cluster value 31 (R24). -/
def srcOfUnit (die unit sub : Nat) : Nat := die * 16384 + 31 * 512 + unit * 16 + sub
/-- Source number of a cluster unit (R24). -/
def srcOfCl (cl unit : Nat) : Nat := dieOfCl cl * 16384 + (cl % 24) * 512 + unit * 16
/-- The core that a source number of a core names, if it names one (R24). -/
def coreOfSrc (n : Nat) : Option Nat :=
  let cl := n / 512 % 32
  let u := n / 16 % 32
  if cl < 24 ∧ u < 16 ∧ n < 65536 then some ((n / 16384 * 24 + cl) * 16 + u) else none

/-- Bit `i` of a word. -/
def bitAt (x : W64) (i : Nat) : Bool := x.toNat / 2 ^ i % 2 == 1
/-- A word with bit `i` set or cleared. -/
def setBit (x : W64) (i : Nat) (b : Bool) : W64 :=
  if b then x ||| BitVec.ofNat 64 (2 ^ i) else x &&& ~~~ (BitVec.ofNat 64 (2 ^ i))
/-- Field [lo+len-1 : lo] of a word. -/
def wf (x : W64) (lo len : Nat) : Nat := x.toNat / 2 ^ lo % 2 ^ len
/-- A word with field [lo+len-1 : lo] replaced. -/
def setF (x : W64) (lo len v : Nat) : W64 :=
  BitVec.ofNat 64 (x.toNat - wf x lo len * 2 ^ lo + v % 2 ^ len * 2 ^ lo)

/-- Number of lanes of a strand, from its width (R58). -/
def Slot.lanes (x : Slot) : Nat := if x.width = 64 then 64 else 32
/-- Declared width W: lanes that exist (R58, R41), and the width of reductions and scans also below 32 (R92; DESIGN CHOICE, log entry 92). -/
def Slot.W (x : Slot) : Nat := x.width
/-- The lanes below `n`, as a mask. -/
def laneMask (n : Nat) : W64 := BitVec.ofNat 64 (2 ^ n - 1)
/-- The slot and generation that name the strand of slot `k` (R46, R335). -/
def Slot.bornAt (x : Slot) (k : Nat) : Nat × Nat := x.born.getD (k, x.gen)
/-- Lanes of a mask in ascending order. -/
def lanesOf (m : W64) : List Nat := (List.range 64).filter (bitAt m)
def maskOf (l : List Nat) : W64 := l.foldl (fun m i => setBit m i true) 0
/-- Lowest lane of a mask. -/
def lowest (m : W64) : Option Nat := (List.range 64).find? (bitAt m)
def popcount (m : W64) : Nat := (lanesOf m).length

/-! ### Registers, raw (R66 to R72) -/

def sDef : SReg := ⟨0, true, false⟩
def vDef : VReg := ⟨0, true, false⟩
def Slot.sreg (x : Slot) (n : Nat) : SReg := mget sDef x.s n
def Slot.vreg (x : Slot) (r l : Nat) : VReg := mget vDef x.v (r * 64 + l)
def Slot.mreg (x : Slot) (n : Nat) : W64 := mget 0 x.m n
def Slot.preg (x : Slot) (n : Nat) : BitVec 128 := mget 0 x.p n
/-- Writes a scalar register s1 to s59 and makes it full (R67). -/
def Slot.setS (x : Slot) (n : Nat) (v : W64) : Slot := { x with s := mset sDef x.s n ⟨v, true, false⟩ }
def Slot.setSReg (x : Slot) (n : Nat) (v : SReg) : Slot := { x with s := mset sDef x.s n v }
/-- Writes one lane of a vector register and makes it full (R69). -/
def Slot.setV (x : Slot) (r l : Nat) (v : W32) : Slot := { x with v := mset vDef x.v (r * 64 + l) ⟨v, true, false⟩ }
def Slot.setVReg (x : Slot) (r l : Nat) (v : VReg) : Slot := { x with v := mset vDef x.v (r * 64 + l) v }
def Slot.setP (x : Slot) (n : Nat) (v : BitVec 128) : Slot := { x with p := mset 0 x.p n v }
/-- Writes a mask register of 32 bits, 64 at width 64 (R58, R66): m0 is ANDed with m7 (R70). -/
def Slot.setM (x : Slot) (n : Nat) (v : W64) : Slot :=
  let v := v &&& laneMask x.lanes
  { x with m := mset 0 x.m n (if n = 0 then v &&& x.mreg 7 else v) }
def Slot.m0 (x : Slot) : W64 := x.mreg 0
def Slot.m7 (x : Slot) : W64 := x.mreg 7

/-! ### STATUS, CAUSE, IP (R76 to R79) -/

/-- 0 U, 1 S, 2 F. -/
def Slot.priv (x : Slot) : Nat := wf x.status 0 2
def Slot.th (x : Slot) : Bool := bitAt x.status 6
def Slot.ien (x : Slot) : Bool := bitAt x.status 4
/-- The predicate mask of an instruction (R180). -/
def Slot.predMask (x : Slot) (p : Pred) : W64 :=
  let m := x.mreg p.m
  (if p.inv then ~~~ m else m) &&& laneMask x.lanes

/-! ### Configuration registers (R345 to R347) -/

/-- Reset values of a partition configuration block (R347, R80): FEAT0 holds MAXB, MAXW and LEVEL. -/
def cfgReset (off : Nat) : W64 := if off = 0x0C0 then 0x804001 else 0
/-- Register at `off` of partition `p`'s block on a die. -/
def State.cfg (s : State) (d p off : Nat) : W64 := mget (cfgReset off) (s.die d).cfg (p * 4096 + off)
def State.setCfg (s : State) (d p off : Nat) (v : W64) : State :=
  s.modDie d (fun x => { x with cfg := mput x.cfg (p * 4096 + off) v })
/-- Reset values of the die management registers (R346, R441, R459, R484, R355). -/
def mgmtReset (off : Nat) : W64 :=
  if off = 0x8 then 0x73695F0001F40000
  else if off = 0x10 then 0x0000096000000000
  else if off = 0x18 then 0x8000200004000002
  else if off = 0x58 ∨ off = 0x60 then 0x0030000000000000
  else if off = 0x180 then 0x7000
  else 0
def State.mg (s : State) (d off : Nat) : W64 := mget (mgmtReset off) (s.die d).mgmt off
def State.setMg (s : State) (d off : Nat) (v : W64) : State := s.modDie d (fun x => { x with mgmt := mput x.mgmt off v })

/-- Is a partition swapped out on a die (R479). -/
def State.swappedOut (s : State) (d p : Nat) : Bool := bitAt (s.cfg d p 0x090) 4
/-- Does a reset, a swap or a resume of a partition run, or is it swapped out (R338, R343). -/
def State.paused (s : State) (d p : Nat) : Bool := bitAt (s.cfg d p 0x088) 1 || bitAt (s.cfg d p 0x090) 3 || s.swappedOut d p
/-- The clusters that a partition holds on a die: those of CLMASK, or those it had when CLMASK was rewritten after the GO of its resume (R347, R479). -/
def State.partMask (s : State) (d p : Nat) : W64 := mget (s.cfg d p 8) (s.die d).heldMask p
/-- A partition that is swapped out, and whose resume has not begun, holds no cluster (R479). -/
def State.away (s : State) (d p : Nat) : Bool := s.swappedOut d p && !bitAt (s.cfg d p 0x090) 3
/-- The live partition that holds a cluster (R340, R347). -/
def State.partOf (s : State) (cl : Nat) : Option Nat :=
  (List.range 16).find? (fun p => bitAt (s.cfg (dieOfCl cl) p 0) 0 && bitAt (s.partMask (dieOfCl cl) p) (cl % 24) && !s.away (dieOfCl cl) p)
def State.partOfSlot (s : State) (i : Nat) : Nat := (s.partOf (clOfSlot i)).getD 16
/-- Dies on which a partition lives, isolated ones apart (R462). -/
def State.diesOf (s : State) (p : Nat) : List Nat := (List.range 4).filter (fun d => bitAt (s.cfg d p 0) 0 && !(s.die d).isolated)
/-- Clusters of a partition in cluster-mask order, die by die (R342). -/
def State.clustersOf (s : State) (p : Nat) : List Nat := (List.range 96).filter (fun c => s.partOf c == some p)

/-! ### Local stores (R22, R23, R43) -/

def lsKey (core off : Nat) : Nat := core * 262144 + off
def wKey (core w : Nat) : Nat := core * 32768 + w
def State.lsByte (s : State) (core off : Nat) : Byte := mget 0 s.ls (lsKey core off)
def State.setLsByte (s : State) (core off : Nat) (b : Byte) : State := { s with ls := mset 0 s.ls (lsKey core off) b }
/-- `n` bytes of a local store, little-endian (R5). -/
def State.lsRead (s : State) (core off : Nat) : Nat → Nat
  | 0 => 0
  | n + 1 => (s.lsByte core off).toNat + 256 * s.lsRead core (off + 1) n
def insertSorted (l : List Nat) (k : Nat) : List Nat :=
  match l with
  | [] => [k]
  | a :: t => if k < a then k :: a :: t else if k = a then a :: t else a :: insertSorted t k
def State.wordEmpty (s : State) (core w : Nat) : Bool := s.lsEmpty.contains (wKey core w)
def State.wordPois (s : State) (core w : Nat) : Bool := s.lsPois.contains (wKey core w)
def State.setEmpty (s : State) (core w : Nat) (b : Bool) : State :=
  { s with lsEmpty := if b then insertSorted s.lsEmpty (wKey core w) else s.lsEmpty.filter (· != wKey core w) }
def State.setPoisW (s : State) (core w : Nat) (b : Bool) : State :=
  { s with lsPois := if b then insertSorted s.lsPois (wKey core w) else s.lsPois.filter (· != wKey core w) }
/-- Writes `n` bytes of `v`, changing no attribute. -/
def State.lsPut (s : State) (core off : Nat) (v : Nat) : Nat → State
  | 0 => s
  | n + 1 => (s.setLsByte core off (BitVec.ofNat 8 v)).lsPut core (off + 1) (v / 256) n
/-- The words that [off, off+n) touches. -/
def wordsOf (off n : Nat) : List Nat := if n = 0 then [] else (List.range ((off + n - 1) / 8 - off / 8 + 1)).map (· + off / 8)
/-- A local-store word becomes full: bindings of the core's strands on it end (R268). -/
def State.endLs (s : State) (core w : Nat) : State :=
  let hit (x : Slot) : Bool := x.binds.any (fun b => b.loc == .ls w)
  let cut (x : Slot) : Slot := { x with binds := x.binds.filter (fun b => b.loc != .ls w) }
  let s1 := ((List.range 16).filter (fun j => hit (s.slot (16 * core + j)))).foldl (fun t j => t.modSlot (16 * core + j) cut) s
  { s1 with saves := s1.saves.map (fun v => if v.slot / 16 == core && hit v.img then { v with img := cut v.img } else v) }
/-- A write of `n` bytes at the LS port: every touched word becomes full; a wholly written word is no longer poisoned, a partly written one
stays as it was (R245, R432). -/
def State.lsWrite (s : State) (core off n v : Nat) : State :=
  let s1 := s.lsPut core off v n
  (wordsOf off n).foldl (fun t w =>
    let t := (t.setEmpty core w false).endLs core w
    if off ≤ 8 * w ∧ 8 * w + 8 ≤ off + n then t.setPoisW core w false else t) s1
def State.lsWord (s : State) (core w : Nat) : W64 := BitVec.ofNat 64 (s.lsRead core (8 * w) 8)
/-- A segment powered up reads zero and full in every word (R43). -/
def State.zeroSeg (s : State) (core j : Nat) : State :=
  let lo := lsKey core (j * 32768)
  let hi := lo + 32768
  let wlo := wKey core (j * 4096)
  let whi := wlo + 4096
  { s with ls := s.ls.filter (fun e => e.1 < lo || hi ≤ e.1)
           lsEmpty := s.lsEmpty.filter (fun k => k < wlo || whi ≤ k)
           lsPois := s.lsPois.filter (fun k => k < wlo || whi ≤ k) }
/-- Powers a segment (R43): one that is powered up reads zero and full. What it held stands until then (R360, R361; log entry 88). -/
def State.powerSeg (s : State) (core j : Nat) (on : Bool) : State :=
  let c := s.core core
  let isOn := c.segsOn / 2 ^ j % 2 == 1
  if isOn == on then s
  else if on then (s.zeroSeg core j).setCore core { c with segsOn := c.segsOn + 2 ^ j }
  else s.setCore core { c with segsOn := c.segsOn - 2 ^ j }
/-- Powers up every segment of a mask. -/
def State.powerSegs (s : State) (core mask : Nat) : State :=
  (List.range 8).foldl (fun t j => if mask / 2 ^ j % 2 = 1 then t.powerSeg core j true else t) s

/-! ### Physical memory (R111, R431, R432) -/

/-- What a byte that nothing has written reads as (log entry 2). -/
def memDefault : Byte := 0
/-- The canonical form of memory: addresses strictly rising, and no entry equal to what an unlisted address reads as. -/
abbrev Memory.wf (m : List Host.Cell) : Bool := mwf memDefault m
/-- Hothouse bytes have no physical address (R130): the model addresses byte `off` of index `idx` of a die at this base and above. -/
def hotBase : Nat := 2 ^ 70
/-- Fabric-attached memory by pool shelf and offset within the shelf's HDM, which the decoder of the die that issues an access yields (R349): the model
addresses byte `off` of shelf `b` at 2^63 + b × 2^53 + off. -/
def shelfAddr (b off : Nat) : Nat := 2 ^ 63 + b * 2 ^ 53 + off
def hotAddr (die idx off : Nat) : Nat := hotBase + (die * 512 + idx) * 65536 + off
def isHot (pa : Nat) : Bool := hotBase ≤ pa
def State.rb (s : State) (pa : Nat) : Byte :=
  if hotBase ≤ pa then mget 0 s.hot (pa - hotBase) else mget memDefault s.mem pa
def State.wb (s : State) (pa : Nat) (b : Byte) : State :=
  if hotBase ≤ pa then { s with hot := mset 0 s.hot (pa - hotBase) b } else { s with mem := mset memDefault s.mem pa b }
/-- `n` bytes of memory, little-endian (R5). -/
def State.rdN (s : State) (pa : Nat) : Nat → Nat
  | 0 => 0
  | n + 1 => (s.rb pa).toNat + 256 * s.rdN (pa + 1) n
def State.wrN (s : State) (pa v : Nat) : Nat → State
  | 0 => s
  | n + 1 => (s.wb pa (BitVec.ofNat 8 v)).wrN (pa + 1) (v / 256) n
def State.rd64 (s : State) (pa : Nat) : W64 := BitVec.ofNat 64 (s.rdN pa 8)
def State.wr64 (s : State) (pa : Nat) (v : W64) : State := s.wrN pa v.toNat 8
def sectorsOf (pa n : Nat) : List Nat := if n = 0 then [] else (List.range ((pa + n - 1) / 64 - pa / 64 + 1)).map (· + pa / 64)
def State.poisonSector (s : State) (sec : Nat) : State := { s with pois := insertSorted s.pois sec, bad := s.bad.filter (· != sec) }
def State.cleanSector (s : State) (sec : Nat) : State := { s with pois := s.pois.filter (· != sec), bad := s.bad.filter (· != sec) }
/-- Poisons the two sectors of a block (R455). -/
def State.poisonBlock (s : State) (blk : Nat) : State := (s.poisonSector (2 * blk)).poisonSector (2 * blk + 1)

/-- The home die of an HBM address or hothouse line (R111, R170); other memory is homed on the primary die (R173). -/
def State.homeOf (s : State) (pa : Nat) : Nat :=
  if hotBase ≤ pa then (pa - hotBase) / 33554432 % 4
  else if pa < 0x9000000000 then pa / 0x2400000000
  else s.primary
/-- Address classes of R111, R349. -/
inductive Region where
  | hbm (die : Nat) | mgmt (die : Nat) | host | fabric | reserved
deriving DecidableEq, Repr
def regionOf (pa : Nat) : Region :=
  if pa < 0x9000000000 then .hbm (pa / 0x2400000000)
  else if 0x7FFFF00000000 ≤ pa ∧ pa < 0x7FFFF04000000 then .mgmt ((pa - 0x7FFFF00000000) / 0x1000000)
  else if 2 ^ 63 ≤ pa then .fabric
  else if 0x8000000000000 ≤ pa ∧ pa < 0x10000000000000 then (if pa / 2 ^ 50 % 4 = 2 then .host else .fabric)
  else .reserved
/-- SliceHash (R122). -/
def sliceHash (pa : Nat) : Nat :=
  (fld pa 7 8) ^^^ (fld pa 15 8) ^^^ (fld pa 23 8) ^^^ (fld pa 31 8) ^^^ (fld pa 39 8) ^^^ (fld pa 47 5)
/-- HothouseSlot (R131): slice, set, way. -/
def hothouseSlot (h off : Nat) : Nat × Nat × Nat :=
  let b := fld off 7 9
  ((b % 256) ^^^ (h % 256), h % 128, 8 + 4 * (b / 256) + h / 128 % 4)

/-! ### Pointers (R134, R135) -/

def pfld (p : BitVec 128) (lo len : Nat) : Nat := p.toNat / 2 ^ lo % 2 ^ len
def pTag (p : BitVec 128) : Bool := pfld p 63 1 == 1
def pSP (p : BitVec 128) : Bool := pfld p 61 1 == 1
/-- RD, W, X, A, N as a number: bits 0 to 4. -/
def pPerm (p : BitVec 128) : Nat := pfld p 56 5
def pCur (p : BitVec 128) : Nat := pfld p 0 56
def pBase (p : BitVec 128) : Nat := pfld p 64 50 * 64
def pLen (p : BitVec 128) : Nat := pfld p 114 9 * 2 ^ (pfld p 123 5 + 6)
def pLim (p : BitVec 128) : Nat := pBase p + pLen p
/-- Does the pointer hold every permission of a mask. -/
def pHas (p : BitVec 128) (m : Nat) : Bool := pPerm p &&& m == m
/-- A pointer from its fields. -/
def mkPtr (le lm base tag sp perm cur : Nat) : BitVec 128 :=
  BitVec.ofNat 128 (le * 2 ^ 123 + lm * 2 ^ 114 + base / 64 * 2 ^ 64 + tag * 2 ^ 63 + sp * 2 ^ 61 + perm * 2 ^ 56 + cur)
/-- CheckAccess (R135): permission mask 1 RD, 2 W, 4 X, 8 A. -/
def checkAccess (p : BitVec 128) (off : Int) (n perm : Nat) : Option Nat :=
  let a : Int := pCur p + off
  if !(pTag p) || !(pHas p perm) then none
  else if a < (pBase p : Int) ∨ a + n > (pLim p : Int) then none
  else if pSP p ∧ a + n > 262144 then none
  else some (a.toNat % 2 ^ 56)

/-! ### Stops inside an instruction -/

/-- A trap: cause, TVAL (`none`: the instruction word, R389) and FMASK (`none`: m0 ANDed with the predicate, R81). -/
structure Trap where
  code : Nat
  tval : Option W64
  lanes : Option W64
  /-- DETAIL of the log entry (R382) -/
  detail : W64
deriving DecidableEq, Repr
/-- Why an instruction does not complete: a trap or a park, each with or without effects performed before it (R118, R389). -/
inductive Stop where
  | trap (t : Trap)
  | trapWith (s : State) (t : Trap)
  | park (a : Await)
  | parkWith (s : State) (a : Await)
abbrev Res := Except Stop
def Trap.mk1 (code : Nat) (tval : Option W64 := none) (lanes : Option W64 := none) : Trap := ⟨code, tval, lanes, 0⟩
/-- A trap whose TVAL is the instruction word. -/
def raise {α : Type} (code : Nat) : Res α := .error (.trap (Trap.mk1 code))
def raiseV {α : Type} (code : Nat) (v : W64) : Res α := .error (.trap (Trap.mk1 code (some v)))
def raiseL {α : Type} (code : Nat) (v lanes : W64) : Res α := .error (.trap (Trap.mk1 code (some v) (some lanes)))
def parkOn {α : Type} (a : Await) : Res α := .error (.park a)
def ensure (b : Bool) (code : Nat) : Res Unit := if b then .ok () else raise code
def ensureV (b : Bool) (code : Nat) (v : W64) : Res Unit := if b then .ok () else raiseV code v
def intW (x : Int) : W64 := BitVec.ofInt 64 x
def natW (x : Nat) : W64 := BitVec.ofNat 64 x

/-- A die's copy of the GTC: the master's, or one tick behind it by a free value (R13, log entry 7). -/
def State.gtcOf (s : State) (d : Nat) : Nat := if d = s.primary then s.gtc else s.gtc - b2n (Config.gtcLag d s.gtc)
def State.gtcCore (s : State) (c : Nat) : Nat := s.gtcOf (dieOfCore c)

/-! ### Error logs (R381 to R383, R433) -/

/-- A log entry's words (R382). -/
structure LogEntry where
  src : Nat
  code : Nat
  dom : Nat
  dlg : Bool
  kind : Nat
  nest : Bool
  gang : Nat
  epc : Nat
  tval : W64
  fmask : W64
  detail : W64
deriving DecidableEq, Repr
def LogEntry.word8 (e : LogEntry) : Nat :=
  e.src + e.code * 2 ^ 16 + e.dom * 2 ^ 24 + b2n e.dlg * 2 ^ 27 + e.kind * 2 ^ 28 + b2n e.nest * 2 ^ 31 + e.gang * 2 ^ 32
/-- Records an output to the outside; no vector of a partition is raised while its reset runs (R478). -/
def State.emit (s : State) (o : Output) : State :=
  match o with
  | .msix p _ => if (List.range 4).any (fun d => bitAt (s.cfg d p 0x088) 1) then s else { s with outputs := s.outputs ++ [o] }
  | _ => { s with outputs := s.outputs ++ [o] }
/-- An asynchronous event's entry (R434, R454, R467). -/
def evEntry (src code kind dom : Nat) (tval detail : W64) : LogEntry :=
  { src := src, code := code, dom := dom, dlg := false, kind := kind, nest := false, gang := 65535, epc := 0, tval := tval, fmask := 0, detail := detail }
/-- Counts a dead letter on a die (R425). -/
def State.deadLetter (s : State) (d p : Nat) : State :=
  let v := s.cfg d p 0x080
  s.setCfg d p 0x080 (setF v 0 48 (Nat.min (2 ^ 48 - 1) (wf v 0 48 + 1)))

/-! ### Gangs -/

def State.gang? (s : State) (g : Nat) : Option Gang := s.gangs.find? (fun x => x.id == g)
def State.modGang (s : State) (g : Nat) (f : Gang → Gang) : State :=
  { s with gangs := s.gangs.map (fun x => if x.id == g then f x else x) }
def Job.gangOf : Job → Option Nat
  | .gang g _ => some g
  | .handler g => some g
  | _ => Option.none
def State.gangNo (s : State) (i : Nat) : Nat :=
  match (s.slot i).job.gangOf with
  | some g => g % 65536
  | none => 65535
def lrw (l : List W64) (i : Nat) : W64 := nth 0 l i
def Gang.rows (g : Gang) : Nat := wf (lrw g.lrec 0) 0 5
def Gang.cols (g : Gang) : Nat := wf (lrw g.lrec 0) 8 5
def Gang.S (g : Gang) : Nat := wf (lrw g.lrec 0) 16 4
def Gang.msg (g : Gang) : Bool := bitAt (lrw g.lrec 0) 29
def Gang.mlease (g : Gang) : Bool := bitAt (lrw g.lrec 0) 28
/-- Number of strands (R54). -/
def Gang.nStrands (g : Gang) : Nat := g.rows * g.cols * g.S
/-- The core (device number) of core rank `r` (R14, R54). -/
def gridCore (die row col : Nat) : Nat :=
  die * 384 + ((row / 4) * 6 + col / 4) * 16 + (row % 4) * 4 + col % 4
def gridRow (core : Nat) : Nat := 4 * (core / 16 % 24 / 6) + core % 16 / 4
def gridCol (core : Nat) : Nat := 4 * (core / 16 % 24 % 6) + core % 4
def Gang.coreAt (g : Gang) (r : Nat) : Nat :=
  let c := gridCore g.die (g.row0 + r / g.cols) (g.col0 + r % g.cols)
  mget (c / 16) g.cl (c / 16) * 16 + c % 16
def Gang.cores (g : Gang) : List Nat := (List.range (g.rows * g.cols)).map g.coreAt
def Gang.rankOf (g : Gang) (core : Nat) : Nat :=
  let c := ((g.cl.find? (fun e => e.2 == core / 16)).map (·.1)).getD (core / 16) * 16 + core % 16
  (gridRow c - g.row0) * g.cols + (gridCol c - g.col0)
/-- The slot of strand rank `r` (R54). -/
def Gang.slotAt (g : Gang) (r : Nat) : Nat := g.coreAt (r / g.S) * 16 + r % g.S + 1
/-- Clusters of the gang's rectangle. -/
def Gang.clusters (g : Gang) : List Nat := (g.cores.map clOfCore).eraseDups
/-- The owner of resources that a slot's strand defines (R282): a task keeps what it owns while another slot holds its strand or none does. -/
def State.ownerOf (s : State) (i : Nat) : Owner :=
  match (s.slot i).job with
  | .gang g _ => .gang g
  | .handler g => .gang g
  | .task c j g => .task c j g
  | _ => .strand i (s.slot i).gen

/-! ### Messages between cores -/

def State.sendNet (s : State) (n : Net) : State × Nat :=
  ({ s with net := s.net ++ [{ n with id := s.nextMsg }], nextMsg := s.nextMsg + 1 }, s.nextMsg)
def State.net? (s : State) (id : Nat) : Option Net := s.net.find? (fun n => n.id == id)
def State.dropNet (s : State) (id : Nat) : State := { s with net := s.net.filter (fun n => n.id != id) }

/-- Sets a latched interrupt bit (R79). -/
def State.raiseIp (s : State) (i bit : Nat) : State := s.modSlot i (fun x => { x with ip := setBit x.ip bit true })

/-- The clock of a die in MHz (R484, R485). -/
def State.clk (s : State) (d : Nat) : Nat := wf (s.mg d 0x10) 32 16

end Sys2Proof.Machine
end

