-- ==== Sys2Proof/Machine/Phys.lean ====
section
/-! DEFINITION. Physical memory below its caches: the fabric decoder, error logs, poison, reachability, a checkpoint's hold, notify lines, and the bytes that
a write reaches. -/

namespace Sys2Proof.Machine

/-- Source number of the L2 slice of an address on a die (R24, R122). -/
def srcOfSlice (die slice : Nat) : Nat := die * 16384 + (24 + slice / 64) * 512 + (slice % 64) / 2 * 16 + slice % 2
def blkOf (pa : Nat) : Nat := pa / 128
def sliceOf (pa : Nat) : Nat :=
  if hotBase ≤ pa then (hothouseSlot ((pa - hotBase) / 65536 % 512) (pa % 65536)).1 else sliceHash pa

/-! ### Ports and the fabric decoder (R349, R440, R463) -/

def State.portUp (s : State) (d n : Nat) : Bool := bitAt (s.mg d (0x68 + 8 * n)) 62
def State.portViral (s : State) (d n : Nat) : Bool := bitAt (s.mg d (0x68 + 8 * n)) 63
/-- The fabric decoder: identifier and offset, entry of the lowest number first (R349). -/
def State.fabDecode (s : State) (d pa : Nat) : Option (Nat × Nat) :=
  (List.range 16).findSome? (fun n =>
    let e := s.mg d (0x100 + 8 * n)
    let base := wf e 30 22 * 2 ^ 30
    let size := (wf e 8 22 + 1) * 2 ^ 30
    if bitAt e 0 ∧ base ≤ pa ∧ pa < base + size then some (wf e 52 12, pa - base) else none)
/-- The fabric port of an address (R349). -/
def State.fabPort (s : State) (d pa : Nat) : Option Nat :=
  match s.portUp d 1, s.portUp d 2 with
  | true, true => some (1 + pa / 4096 % 2)
  | true, false => some 1
  | false, true => some 2
  | false, false => none
/-- Where an agent of die `d` finds the bytes of a physical address: a fabric address is decoded by its die's decoder (R349). -/
def State.phys (s : State) (d pa : Nat) : Nat :=
  if 0xC000000000000 ≤ pa ∧ pa < 0x10000000000000 then
    match s.fabDecode d pa with
    | some (b, off) => shelfAddr b off
    | none => pa
  else pa

/-! ### Error logs (R381, R433) -/

/-- Address of the entry that a log's ring takes next. -/
def ringAddr (ctl idx : W64) : Nat := wf ctl 12 40 * 4096 + 64 * (wf idx 0 16 % (64 * 2 ^ (Nat.min (wf ctl 8 3) 4)))
/-- Writes an entry, stamped with die `d`'s copy of the GTC, into the ring controlled by `ctl` and `idx`, or drops it. Yields the new index register and
whether VEC is raised. -/
def ringWrite (s : State) (d : Nat) (ctl idx : W64) (e : LogEntry) : State × W64 × Bool :=
  let used := (wf idx 0 16 + 65536 - wf idx 16 16) % 65536
  if bitAt ctl 11 ∧ used < 64 * 2 ^ (Nat.min (wf ctl 8 3) 4) then
    let a := s.phys d (ringAddr ctl idx)
    let s1 := (s.wrN a 0 64).cleanSector (a / 64)
    let s2 := ((((s1.wr64 a (natW (s.gtcOf d))).wr64 (a + 8) (natW e.word8)).wr64 (a + 16) (natW e.epc)).wr64 (a + 24) e.tval)
    ((s2.wr64 (a + 32) e.fmask).wr64 (a + 40) e.detail, setF idx 0 16 (wf idx 0 16 + 1), used == 0)
  else (s, setF idx 48 16 (Nat.min 65535 (wf idx 48 16 + 1)), false)
/-- Appends to a die's device error log (R433), beside a checkpoint's copy. -/
def State.rawLog (s : State) (d : Nat) (e : LogEntry) : State :=
  let (s1, idx, _) := ringWrite s d (s.mg d 0x20) (s.mg d 0x28) e
  s1.setMg d 0x28 idx

/-! ### Copies of whole ranges (R356) -/

/-- Copies the bytes and the poison of [src, src+n) onto [dst, dst+n). -/
def State.copyRange (s : State) (src dst n : Nat) : State :=
  let cells : List (Nat × Byte) :=
    if hotBase ≤ src then (s.hot.filter (fun e => src - hotBase ≤ e.1 && e.1 < src - hotBase + n)).map (fun e => (e.1 + hotBase - src, e.2))
    else (s.mem.filter (fun e => src ≤ e.1 && e.1 < src + n)).map (fun e => (e.1 - src, e.2))
  let s1 : State := if hotBase ≤ dst then { s with hot := s.hot.filter (fun e => e.1 < dst - hotBase || dst - hotBase + n ≤ e.1) }
    else { s with mem := s.mem.filter (fun e => e.1 < dst || dst + n ≤ e.1) }
  let s2 := cells.foldl (fun t e => t.wb (dst + e.1) e.2) s1
  let inSrc := fun x => src / 64 ≤ x && x < (src + n) / 64
  let inDst := fun x => dst / 64 ≤ x && x < (dst + n) / 64
  let ps := (s.pois ++ s.bad).filter inSrc
  let s3 := { s2 with pois := s2.pois.filter (fun x => !inDst x), bad := s2.bad.filter (fun x => !inDst x) }
  ps.foldl (fun t x => { t with pois := insertSorted t.pois (x - src / 64 + dst / 64) }) s3
/-- Image address of unit `u` of a die: 64 KiB parts of HBM, then hothouse indices (R355). -/
def State.imageAddr (s : State) (d u : Nat) : Nat := s.phys d (wf (s.mg s.primary (0x188 + 8 * d)) 12 40 * 4096 + 4096 + 65536 * u)
def hbmUnits : Nat := 2359296
/-- Does a die reach its image, through a port that PORTS names, up and not viral: a fabric port, or a host port that a switch attaches to the pool
(R344, R355). -/
def State.ckReach (s : State) (d : Nat) : Bool :=
  !(s.die d).isolated && (List.range 3).any (fun n => bitAt (s.mg s.primary 0x180) (12 + n) && s.portUp d n && !s.portViral d n && (n != 0 || (s.die d).hostSwitch))
/-- Writes a word of an image header (R355), while the image can be reached. -/
def State.putHeader (s : State) (d off : Nat) (v : W64) : State :=
  let a := s.phys d (wf (s.mg s.primary (0x188 + 8 * d)) 12 40 * 4096 + off)
  if s.ckReach d then s.wr64 a v else s
/-- The checkpoint ends incomplete (R452): status 2 in every header that can be reached, INC, event 0x48, BUSY cleared. -/
def State.ckptFail (s : State) (d off : Nat) : State :=
  let s1 := (List.range 4).foldl (fun t e => t.putHeader e 24 2) { s with ckpt := none }
  let s2 := s1.setMg s.primary 0x180 (setBit (setBit (s1.mg s.primary 0x180) 2 true) 1 false)
  s2.rawLog s.primary (evEntry (srcOfUnit s.primary 24 0) 0x48 2 0 (natW d) (natW off))
/-- Copies one unit to its image and records it (R356); an image that cannot be reached ends the checkpoint. -/
def State.copyUnit (s : State) (d u : Nat) : State :=
  let src := if u < hbmUnits then d * 0x2400000000 + 65536 * u else hotAddr d (u - hbmUnits) 0
  if !s.ckReach d then s.ckptFail d (4096 + 65536 * u)
  else
    let s1 := s.copyRange src (s.imageAddr d u) 65536
    { s1 with ckpt := s1.ckpt.map (fun c => { c with copied := c.copied ++ [(d, u)] }) }
/-- Every die that is not isolated has written its lane L1 back at the cut. -/
def State.cutOver (s : State) (c : Ckpt) : Bool := (List.range 4).all (fun d => (s.die d).isolated || c.cutDone.contains d)
/-- Before a write to a part that a checkpoint in its copy phase has not copied, the engine copies the part (R356). -/
def State.ckptHold (s : State) (pa : Nat) : State :=
  match s.ckpt with
  | some c =>
    if c.active && s.cutOver c && (decide (hotBase ≤ pa) || decide (pa < 0x9000000000)) then
      let d := s.homeOf pa
      let u := if hotBase ≤ pa then hbmUnits + (pa - hotBase) / 65536 % 512 else pa % 0x2400000000 / 65536
      if c.copied.contains (d, u) then s else s.copyUnit d u
    else s
  | none => s

/-! ### Entries of the error logs (R356, R381, R433) -/

/-- Appends to a partition's error log on a die (R381); the part that holds the ring is copied first (R356). -/
def State.logPart (s : State) (d p : Nat) (e : LogEntry) : State :=
  let ctl := s.cfg d p 0x070
  let s0 := s.ckptHold (ringAddr ctl (s.cfg d p 0x078))
  let (s1, idx, vec) := ringWrite s0 d ctl (s0.cfg d p 0x078) e
  let s2 := s1.setCfg d p 0x078 idx
  if vec then s2.emit (.msix p (wf ctl 0 8)) else s2
/-- Appends to a die's device error log (R433); the part that holds the ring is copied first (R356). -/
def State.logDie (s : State) (d : Nat) (e : LogEntry) : State := (s.ckptHold (ringAddr (s.mg d 0x20) (s.mg d 0x28))).rawLog d e
/-- To the partition's log when there is one, else to the device log. -/
def State.logTo (s : State) (d : Nat) (p : Option Nat) (e : LogEntry) : State :=
  match p with
  | some p => s.logPart d p e
  | none => s.logDie d e

/-! ### Events of memory (R434) -/

/-- Gang number of the agent at work, or 0xFFFF (R382). -/
def State.curGang (s : State) : Nat :=
  match s.cur with
  | .slot k => s.gangNo k
  | .seq l => if l < 96 ∧ (s.cluster l).seqPhase ≠ .idle then (s.cluster l).seqGang % 65536 else 65535
/-- Writes event `code` of KIND 2 to the partition's log, or the device log. -/
def State.memEvent (s : State) (part : Option Nat) (d src code dom : Nat) (tval detail : W64) : State :=
  s.logTo d part { evEntry src code 2 dom tval detail with gang := if part.isSome then s.curGang else 65535 }
/-- The detecting unit of a memory unit: the L2 slice of a hothouse line, the MSC part of an HBM address (R24). -/
def State.unitOf (s : State) (pa : Nat) : Nat :=
  let d := s.homeOf pa
  if hotBase ≤ pa then srcOfSlice d (sliceOf pa) else srcOfUnit d 23 (pa / 4096 % 4)

/-! ### Reachability (R349, R440, R462, R464, R465) -/

/-- Does an access from die `d` reach its target, or complete as unreachable. -/
def State.reach (s : State) (d pa : Nat) : Bool :=
  if hotBase ≤ pa ∨ pa < 0x9000000000 then !(s.die (s.homeOf pa)).isolated
  else match regionOf pa with
    | .host => s.portUp s.primary 0 && !s.portViral s.primary 0
    | .fabric => (s.fabDecode d pa).isSome && (match s.fabPort d pa with
      | some p => !s.portViral d p && !s.uio.contains (s.cur, true)
      | none => false)
    | .mgmt m => !(s.die m).isolated
    | _ => false
/-- Event 0x43 for a fabric access (R434, R440). -/
def State.unreachEvent (s : State) (part : Option Nat) (d pa : Nat) : State :=
  if hotBase ≤ pa then s else
  match regionOf pa with
  | .fabric => s.memEvent part d (srcOfUnit d 25 ((s.fabPort d pa).getD 1)) 0x43 0 (natW ((s.fabDecode d pa).getD (0, 0)).1) (natW pa)
  | _ => s

/-! ### Reads and poison (R431, R432, R435) -/

/-- The check of a read of [pa, pa+n) by an agent of die `d`: 0 good, 0x11 poisoned or unreachable, 0x10 an uncorrectable error found now,
which is marked poisoned in the same action with event 0x41. -/
def State.readChk (s : State) (part : Option Nat) (d pa n : Nat) : Nat × State :=
  if !s.reach d pa then (0x11, s.unreachEvent part d pa)
  else
    let secs := sectorsOf (s.phys d pa) n
    let bad := secs.filter (fun x => s.bad.contains x)
    if bad.isEmpty then (if secs.any (fun x => s.pois.contains x) then 0x11 else 0, s)
    else (0x10, bad.foldl (fun t x =>
      (t.poisonSector x).memEvent part (t.homeOf (64 * x)) (t.unitOf (64 * x)) 0x41 0 0 (natW (64 * x / 128 * 128))) s)
/-- A hothouse line that an access touches becomes present (R132). -/
def State.touchLine (s : State) (pa : Nat) : State :=
  if hotBase ≤ pa then
    s.modDie (s.homeOf pa) (fun x => { x with hotLines := insertSorted x.hotLines ((pa - hotBase) / 65536 % 512 * 512 + pa % 65536 / 128) })
  else s

/-! ### Notify lines (R321, R324) -/

/-- The partition and the line of its notify page that hold an address, on the home's die (R324, R347). -/
def State.notifyOf (s : State) (pa : Nat) : Option (Nat × Nat) :=
  if hotBase ≤ pa then none else
  (List.range 16).findSome? (fun p =>
    let r := s.cfg (s.homeOf pa) p 0x020
    let base := wf r 18 34 * 262144
    if bitAt r 0 ∧ base ≤ pa ∧ pa < base + 262144 then some (p, (pa - base) / 64) else none)
/-- Address of a queue's descriptor on a die (R319). -/
def State.qdesc (s : State) (d p q : Nat) : Nat := wf (s.cfg d p 0x010) 6 46 * 64 + 64 * q
/-- A request to map a queue at the front end of die `d`; an earlier request keeps its place. -/
def State.askQueue (s : State) (d p q : Nat) : State :=
  let n := s.nextMsg + 1
  let t := s.modDie d (fun x =>
    if x.queues.any (fun e => e.part == p && e.q == q) then
      { x with queues := x.queues.map (fun e => if e.part == p && e.q == q && !e.mapped && e.asked == 0 then { e with asked := n } else e) }
    else
      { x with queues := x.queues ++ [⟨p, q, false, n, 0, [], none, none, false, false, false, [], [], false⟩] })
  { t with nextMsg := n }
/-- Asks the front end of a queue's affinity die to map it, when it is registered and not stopped (R324, R474). -/
def State.askMap (s : State) (d p q : Nat) : State :=
  let a := s.qdesc d p q
  let w1 := s.rd64 (a + 8)
  if !bitAt w1 0 ∨ bitAt (s.rd64 (a + 24)) 1 then s else s.askQueue (wf w1 8 2) p q
/-- The registered queues of a partition whose notify line is line `n` of its page (R319). -/
def State.lineQueues (s : State) (d p n : Nat) : List Nat :=
  (List.range 4096).filter (fun q => let w1 := s.rd64 (s.qdesc d p q + 8)
    bitAt w1 0 && wf w1 22 12 == n)
/-- A write to a notify line, with die `d`'s copy of the registers: the kick value keeps the largest value, the other bytes keep theirs (R321). -/
def State.notifyWrite (s : State) (d p i pa n v mask : Nat) : State :=
  let line := pa / 64 * 64
  let old := s.rdN line 8
  let new := (List.range n).foldl (fun acc i =>
    if mask / 2 ^ i % 2 = 1 ∧ pa + i < line + 8 then
      let sh := 256 ^ (pa + i - line)
      acc - acc / sh % 256 * sh + v / 256 ^ i % 256 * sh
    else acc) old
  if old < new then
    (s.lineQueues d p i).foldl (fun t q => t.askMap d p q) (s.wrN line new 8)
  else s

/-- The queues whose descriptors an access touches, with a live die of their partition (R319). -/
def State.queuesAt (s : State) (pa n : Nat) : List (Nat × Nat × Nat) :=
  (List.range 16).flatMap (fun p => match s.diesOf p with
    | [] => []
    | d :: _ =>
      let base := s.qdesc d p 0
      if pa < base + 262144 ∧ base < pa + n then
        (List.range ((Nat.min (pa + n) (base + 262144) - 1 - base) / 64 + 1 - (pa - base) / 64)).map (fun i => (d, p, (pa - base) / 64 + i))
      else [])
/-- The V bit of a descriptor changes: set, it registers the queue, clears PARKED and ERR and asks for a slot when the kick value exceeds RDIDX;
cleared, it removes the queue (R319, R474). -/
def State.queueSet (s : State) (d p q : Nat) (v : Bool) : State :=
  let s1 := (List.range 4).foldl (fun t e => t.modDie e (fun x => { x with queues := x.queues.filter (fun z => !(z.part == p && z.q == q)) })) s
  if !v then s1
  else
    let a := s.qdesc d p q
    let s2 := s1.wr64 (a + 24) (setBit (setBit (s1.rd64 (a + 24)) 0 false) 1 false)
    let kick := s2.rd64 (wf (s.cfg d p 0x020) 18 34 * 262144 + 64 * wf (s2.rd64 (a + 8)) 22 12)
    if (s2.rd64 (a + 16)).toNat < kick.toNat then s2.askMap d p q else s2

/-! ### Management registers (R346, R347) -/

/-- Indices of a partition stranded on a die, as HHPEND reports them (R449). -/
def State.hhpend (s : State) (d p : Nat) : W64 :=
  let l := ((s.die d).stranded.filter (fun e => e / 512 == p)).map (· % 512)
  natW (l.length * 65536 + l.headD 0)
/-- What a register of a die's management space reads as (R346, R347): write-only fields read zero, and a die that has stopped in its boot ROM exposes
only BOOTST. -/
def State.mgmtRead (s : State) (d off : Nat) : W64 :=
  let x := s.die d
  if off = 0 then s.mg d 0
  else if x.stopped ∨ off % 8 ≠ 0 then 0
  else if off = 0x10 then setF (s.mg d off) 56 8 x.temp
  else if off < 0x180 then s.mg d off
  else if off ≤ 0x1A0 then (if d = s.primary then s.mg d off else 0)
  else if off < 0x200 then 0
  else if off < 0x300 then natW ((mget 0 x.meas ((off - 0x200) / 64)).toNat / 2 ^ (8 * (off % 64)))
  else if 0x10000 ≤ off ∧ off < 0x20000 then
    let p := (off - 0x10000) / 0x1000
    let o := off % 0x1000
    if o = 0x030 then 0 else if o = 0x060 then s.hhpend d p else s.cfg d p o
  else if 0x20000 ≤ off ∧ off < 0x21800 then
    let c := s.cluster (24 * d + (off - 0x20000) / 0x100)
    if off % 0x100 = 0 then c.clwgt0 else if off % 0x100 = 8 then c.clwgt1 else 0
  else if 0x30000 ≤ off ∧ off < 0x48000 then
    let c := s.core (384 * d + (off - 0x30000) / 0x100)
    if off % 0x100 = 0 then c.rlogctl else if off % 0x100 = 8 then c.pwctl else 0
  else 0

/-! ### Writes (R432) -/

/-- Writes the bytes of `v` that `mask` selects at [pa, pa+n): a management register takes an aligned write of 8 bytes (the next step performs its effect),
and elsewhere the checkpoint's hold, notify lines, and the poison rule of a merge come first; a descriptor's V bit registers or removes its queue. -/
def State.commitMask (s : State) (part : Option Nat) (d pa n v mask : Nat) : State :=
  if !s.reach d pa then s.unreachEvent part d pa
  else match regionOf pa with
  | .mgmt m => if n = 8 ∧ pa % 8 = 0 ∧ mask % 256 = 255 then { s with mgmtq := s.mgmtq ++ [(m, pa % 0x1000000, natW v)] } else s
  | _ =>
    let s0 := (s.ckptHold pa).touchLine pa
    match s0.notifyOf pa with
    | some (p, q) => s0.notifyWrite (s.homeOf pa) p q pa n v mask
    | none =>
      let pa := s.phys d pa
      let s1 := (sectorsOf pa n).foldl (fun t x =>
        if (List.range 64).all (fun i => decide (pa ≤ 64 * x + i) && decide (64 * x + i < pa + n) && mask / 2 ^ (64 * x + i - pa) % 2 == 1) then
          t.cleanSector x
        else if t.bad.contains x then
          (t.poisonSector x).memEvent part (t.homeOf (64 * x)) (t.unitOf (64 * x)) 0x41 0 0 (natW (64 * x / 128 * 128))
        else t) s0
      let s2 := (List.range n).foldl (fun t i => if mask / 2 ^ i % 2 = 1 then t.wb (pa + i) (BitVec.ofNat 8 (v / 256 ^ i)) else t) s1
      (s.queuesAt pa n).foldl (fun (t : State) e =>
        let valid (u : State) : Bool := bitAt (u.rd64 (s.qdesc e.1 e.2.1 e.2.2 + 8)) 0
        if valid s == valid s2 then t else t.queueSet e.1 e.2.1 e.2.2 (valid s2)) s2
def State.commit (s : State) (part : Option Nat) (d pa n v : Nat) : State := s.commitMask part d pa n v (2 ^ n - 1)

/-! ### Errors of register files, local stores and L1 sectors (R430, R435) -/

/-- DETAIL of a unit's event: the block of memory data, and 0 for registers and local stores (R434). -/
def HwUnit.detail : HwUnit → W64
  | .l1s _ sec => natW (sec / 2 * 128)
  | _ => 0
/-- A strand finds units that fail their check: the errors no read had found before are reported as 0x10, with event 0x41 for each (R435). -/
def State.findErr (s : State) (k : Nat) (us : List HwUnit) : Nat × State :=
  let new := us.filter s.undet.contains
  if new.isEmpty then (0x11, s)
  else (0x10, new.foldl (fun t u => t.memEvent (t.partOf (clOfSlot k)) (dieOfSlot k) (srcOfSlot k) 0x41 0 0 u.detail)
    { s with undet := s.undet.filter (fun u => !new.contains u) })
/-- The stop of an instruction of a strand that reads poisoned units before it has any effect. -/
def State.poisStop {α : Type} (s : State) (k : Nat) (us : List HwUnit) (t : Trap) : Res α :=
  .error (match s.findErr k us with
    | (0x10, s1) => .trapWith s1 { t with code := 0x10 }
    | _ => .trap t)
/-- The units of vector registers in lanes of a mask. -/
def vUnits (k : Nat) (e : W64) (regs : List Nat) : List HwUnit := (lanesOf e).flatMap (fun l => regs.map (fun r => .vreg k r l))

end Sys2Proof.Machine
end

