-- ==== Sys2Proof/Machine/Coh.lean ====
section
/-! DEFINITION. The coherence protocols at the places where a block is held: tokens within a die, the directory between dies, messages in their classes, and
what an agent that needs a block within one step makes of what is in flight (R154 to R175, R455 to R457). The data of a block stands in memory (log entry
3), so a message carries tokens and flags. -/

namespace Sys2Proof.Machine

/-! ### Blocks, their homes and their tokens (R156, R157, R163, R170) -/

/-- Memory that the device keeps coherent: HBM, hothouse lines, host memory (R163, R170, R173). -/
def coherent (pa : Nat) : Bool := decide (hotBase ≤ pa) || decide (pa < 0x9000000000) || (match regionOf pa with | .host => true | _ => false)
def State.homed (s : State) (d blk : Nat) : Bool := s.homeOf (128 * blk) == d && (decide (hotBase ≤ 128 * blk) || decide (128 * blk < 0x9000000000))
def noTok : Tok := ⟨0, false, false⟩
/-- Tokens at a slice before anything is listed: the home die's slice holds all (R156, R163). -/
def State.tokDef (s : State) (d blk : Nat) : Tok := if s.homed d blk then ⟨512, true, false⟩ else noTok
def State.sliceTok (s : State) (d blk : Nat) : Tok := mget (s.tokDef d blk) (s.die d).slice blk
def State.setSliceTok (s : State) (d blk : Nat) (t : Tok) : State := s.modDie d (fun x => { x with slice := mset (s.tokDef d blk) x.slice blk t })
def State.cdcTok (s : State) (c blk : Nat) : Tok := mget noTok (s.core c).cdc blk
def State.setCdcTok (s : State) (c blk : Nat) (t : Tok) : State := s.modCore c (fun x => { x with cdc := mset noTok x.cdc blk t })
/-- Cores whose CDC holds tokens of a block, on one die. -/
def State.cdcHolders (s : State) (d blk : Nat) : List Nat := (mkeys s.cores).filter (fun c => dieOfCore c == d && mhas (s.core c).cdc blk)
/-- All tokens of one CDC go to the slice of its die (R157). -/
def State.cdcFlush (s : State) (c blk : Nat) : State :=
  let k := s.cdcTok c blk
  let sl := s.sliceTok (dieOfCore c) blk
  (s.setCdcTok c blk noTok).setSliceTok (dieOfCore c) blk ⟨sl.n + k.n, sl.owner || k.owner, sl.dirty || k.dirty⟩
/-- All CDC tokens of a die go back to its slice (R157, R161). -/
def State.collectDie (s : State) (d blk : Nat) : State := (s.cdcHolders d blk).foldl (fun t c => t.cdcFlush c blk) s
/-- A slice without a token takes one back from a CDC of its die, so that no CDC there may write (R157, R158). -/
def State.takeOne (s : State) (d blk : Nat) : State :=
  if 1 ≤ (s.sliceTok d blk).n then s
  else
    let cs := s.cdcHolders d blk
    match (cs.find? (fun c => decide (2 ≤ (s.cdcTok c blk).n))).orElse (fun _ => cs.head?) with
    | none => s
    | some c =>
      let k := s.cdcTok c blk
      if 2 ≤ k.n then (s.setCdcTok c blk { k with n := k.n - 1 }).setSliceTok d blk ⟨1, false, false⟩
      else (s.setCdcTok c blk noTok).setSliceTok d blk k
/-- Every token of a die: slice, CDCs and messages. -/
def State.tokens (s : State) (d blk : Nat) : List Tok :=
  (s.sliceTok d blk :: (s.cdcHolders d blk).map (fun c => s.cdcTok c blk)) ++
    (s.coh.filter (fun m : Coh => m.kind == .tokdata && m.die == d && m.blk == blk)).map (fun m : Coh => ⟨m.n, m.owner, m.dirty⟩)
/-- Is any copy on a die dirty. -/
def State.dieDirty (s : State) (d blk : Nat) : Bool := (s.tokens d blk).any (·.dirty)
/-- The slice of a die holds all 512 tokens, and no CDC or message holds one. -/
def State.fullSlice (s : State) (d blk : Nat) (dirty : Bool) : State :=
  let s1 := (s.cdcHolders d blk).foldl (fun t c => t.setCdcTok c blk noTok) s
  let t : State := { s1 with coh := s1.coh.filter (fun m : Coh => !(m.kind == CohKind.tokdata && m.die == d && m.blk == blk)) }
  t.setSliceTok d blk ⟨512, true, dirty⟩
/-- The requests of a die for a block are to be served again. -/
def State.askAgain (s : State) (d blk : Nat) : State :=
  s.modDie d (fun x => { x with treqs := x.treqs.map (fun r => if r.blk == blk then { r with sent := false } else r) })
/-- A die drops its copy with every token. -/
def State.loseDie (s : State) (d blk : Nat) : State := ((s.fullSlice d blk false).setSliceTok d blk noTok).askAgain d blk

/-! ### The directory (R163, R164, R173) -/

/-- The directory that records a block: the home die's, or the host-block directory (R163, R173). -/
def State.dirSt (s : State) (blk d : Nat) : Nat :=
  let h := s.homeOf (128 * blk)
  if s.homed h blk then nth 0 (mget ⟨[0, 0, 0, 0], false, 0⟩ (s.die h).dir blk).st d
  else nth 0 (mget ⟨[0, 0, 0, 0], false, 0⟩ (s.die h).hostdir blk).st d
def State.dirSts (s : State) (blk : Nat) : List Nat := (List.range 4).map (s.dirSt blk)
/-- Directory set of a block (R164). -/
def dirSet (blk : Nat) : Nat :=
  let pa := 128 * blk
  if hotBase ≤ pa then ((pa - hotBase) / 65536 % 128) * 512 + pa % 65536 / 128 else fld pa 7 16 ^^^ fld pa 23 16
/-- Records the states of the four dies; an entry with every state I leaves the directory (R163). -/
def State.setDirSts (s : State) (blk : Nat) (st : List Nat) : State :=
  let h := s.homeOf (128 * blk)
  s.modDie h (fun x =>
    if s.homed h blk then
      if st.all (· == 0) then { x with dir := mdel x.dir blk }
      else if mhas x.dir blk then { x with dir := mput x.dir blk { mget ⟨st, false, 0⟩ x.dir blk with st := st } }
      else { x with dir := mput x.dir blk ⟨st, decide (hotBase ≤ 128 * blk), x.dirNext⟩, dirNext := x.dirNext + 1 }
    else if st.all (· == 0) then { x with hostdir := mdel x.hostdir blk }
    else if mhas x.hostdir blk then { x with hostdir := mput x.hostdir blk { mget ⟨st, false, 0⟩ x.hostdir blk with st := st } }
    else { x with hostdir := mput x.hostdir blk ⟨st, false, x.dirNext⟩, dirNext := x.dirNext + 1 })
def State.setSt (s : State) (blk d v : Nat) : State :=
  if s.homed d blk then s else s.setDirSts blk (setNth (s.dirSts blk) d v)
/-- An entry as a snapshot reads it (R164). -/
def State.dirWord (s : State) (h blk : Nat) (e : DirEnt) : W64 :=
  let pa := 128 * blk
  let tag := if e.hh then (pa - hotBase) / 65536 % 512 / 128 else pa / 2 ^ 23 % 2 ^ 29
  natW (b2n e.hh * 2 ^ 63 + tag * 2 ^ 34 + b2n (mhas (s.die h).txns blk) * 2 ^ 33 + 2 ^ 32 + nth 0 e.st 3 * 512 + nth 0 e.st 2 * 64 + nth 0 e.st 1 * 8 + nth 0 e.st 0)
/-- The state that a die itself is in: I while its eviction notice is on its way (R166). -/
def State.ownSt (s : State) (d blk : Nat) : Nat := if (s.die d).notes.contains blk then 0 else s.dirSt blk d
def State.othersIn (s : State) (d blk : Nat) (p : Nat → Bool) : Bool := (List.range 4).any (fun e => e != d && p (s.dirSt blk e))
/-- May the slice of a die grant read tokens, as far as the directory goes. -/
def State.permRead (s : State) (d blk : Nat) : Bool := if s.homed d blk then !s.othersIn d blk (fun x => x == 2 || x == 4) else s.ownSt d blk != 0
/-- May it grant all 512 tokens, as far as the directory goes (R158). -/
def State.permWrite (s : State) (d blk : Nat) : Bool :=
  if s.homed d blk then !s.othersIn d blk (fun x => x != 0) else s.ownSt d blk == 2 || s.ownSt d blk == 4
/-- May a core read, or write, a block in its CDC (R157, R158). -/
def State.cdcOk (s : State) (c blk : Nat) (write : Bool) : Bool :=
  let t := s.cdcTok c blk
  if write then t.n == 512 && s.permWrite (dieOfCore c) blk else decide (1 ≤ t.n)

/-! ### Lines that the host holds (R171) -/

/-- The state in which the host holds a line of a block: 0 I, 1 S, 2 A; A when either line is held so. -/
def State.hostHolds (s : State) (blk : Nat) : Nat :=
  let f := (s.die (s.homeOf (128 * blk))).filter
  Nat.max (mget 0 f (2 * blk) % 4) (mget 0 f (2 * blk + 1) % 4)
/-- The block's lines leave the snoop filter: what an access needs of the host, which has to answer first (R171, `hostOwes`). -/
def State.backInval (s : State) (blk : Nat) : State :=
  if s.hostHolds blk = 0 then s
  else s.modDie (s.homeOf (128 * blk)) (fun x => { x with filter := mdel (mdel x.filter (2 * blk)) (2 * blk + 1) })
/-- Lines held in A go to S: what a read needs of the host. -/
def State.backShare (s : State) (blk : Nat) : State :=
  if s.hostHolds blk ≠ 2 then s
  else s.modDie (s.homeOf (128 * blk)) (fun x => { x with filter := x.filter.map (fun e => if e.1 / 2 = blk ∧ e.2 % 4 = 2 then (e.1, e.2 - 1) else e) })
/-- Are back-invalidations answered inside the device (R458, R464). -/
def State.hostGone (s : State) : Bool := s.portViral s.primary 0 || !s.portUp s.primary 0
/-- The first line of the host's that an action from `s` to `t` has taken without its answer, and whether it was to be given up (R171). -/
def State.hostOwes (s t : State) : Option (Nat × Bool) :=
  if t.hostGone then none
  else (List.range 4).findSome? (fun d =>
    if (s.die d).filter == (t.die d).filter then none
    else ((s.die d).filter.find? (fun e => decide (mget 0 (t.die d).filter e.1 % 4 < e.2 % 4))).map (fun e => (e.1, !mhas (t.die d).filter e.1)))
def State.snooped (s : State) (line : Nat) : Bool := (s.die (s.homeOf (64 * line))).bisnp.any (fun e => e.1 == line)
/-- A snoop leaves through the primary host port (R171). -/
def State.sendSnoop (s : State) (line : Nat) (inv : Bool) : State :=
  let h := s.homeOf (64 * line)
  if s.snooped line then s else (s.modDie h (fun x => { x with bisnp := x.bisnp ++ [(line, inv, s.gtcOf h, false)] })).emit (.backInval line inv)

/-! ### Messages in their classes (R154) -/

/-- 0 Request, 1 Forward, 2 Response. -/
def CohKind.cls : CohKind → Nat
  | .rds | .rdx | .upg | .notei | .notedat | .wrhh => 0
  | .tcoll | .fwds | .fwdx | .inv | .binv => 1
  | .tokdata | .invAck | .fwdAck | .datas | .datax | .upgack | .cmp | .noteack | .gone | .binvack | .binvdata | .wrack => 2
/-- The die that a message leaves from. -/
def Coh.from_ (m : Coh) : Nat := match m.kind with
  | .tcoll | .tokdata => m.die
  | .wrhh => dieOfSlot m.src
  | _ => m.src
/-- Two messages of one class between one ordered pair of dies, which arrive in the order they left. -/
def Coh.sameLane (m n : Coh) : Bool := m.from_ != m.die && m.kind.cls == n.kind.cls && m.die == n.die && m.from_ == n.from_
def State.sendCoh (s : State) (m : Coh) : State := { s with coh := s.coh ++ [{ m with id := s.nextMsg }], nextMsg := s.nextMsg + 1 }
/-- A message of a kind that may arrive now. -/
def State.coh? (s : State) (id : Nat) (kd : CohKind) : Option Coh :=
  (s.coh.find? (fun m => m.id == id && m.kind == kd)).bind (fun m => if (s.coh.find? m.sameLane).all (fun n => n.id == id) then some m else none)
def State.dropCoh (s : State) (id : Nat) : State := { s with coh := s.coh.filter (fun m => m.id != id) }
/-- A message without data bytes. -/
def cohMsg (kd : CohKind) (die src blk req n : Nat) (owner dirty : Bool) : Coh := ⟨0, kd, die, src, blk, req, n, owner, dirty, 0, 0⟩
/-- A message arrives. -/
def State.onCoh (s : State) (id : Nat) (kd : CohKind) (f : Coh → State → State) : State :=
  match s.coh? id kd with
  | some m => f m (s.dropCoh id)
  | none => s
/-- The partition whose core first asked for a block on a die. -/
def State.askerPart (s : State) (d blk : Nat) : Option Nat := ((s.die d).treqs.find? (fun r => r.blk == blk)).bind (fun r => s.partOf (clOfCore r.core))

/-! ### The slice serves requests (R158 to R160) -/

def State.treq? (s : State) (c blk : Nat) : Option TReq := (s.die (dieOfCore c)).treqs.find? (fun r => r.core == c && r.blk == blk)
def State.modTreq (s : State) (c blk : Nat) (f : TReq → TReq) : State :=
  s.modDie (dieOfCore c) (fun x => { x with treqs := x.treqs.map (fun r => if r.core == c && r.blk == blk then f r else r) })
def State.dropTreq (s : State) (c blk : Nat) : State :=
  s.modDie (dieOfCore c) (fun x => { x with treqs := x.treqs.filter (fun r => !(r.core == c && r.blk == blk)) })
/-- Clusters of a die that the hint names. -/
def State.hinted (s : State) (d blk : Nat) : List Nat := ((List.range 24).filter (fun i => (mget (0 : W32) (s.die d).hint blk).toNat / 2 ^ i % 2 == 1)).map (· + 24 * d)
def State.addHint (s : State) (d blk c : Nat) : State :=
  s.modDie d (fun x => { x with hint := mset 0 x.hint blk (mget (0 : W32) x.hint blk ||| BitVec.ofNat 32 (2 ^ (clOfCore c % 24))) })
/-- Sends tokens of the slice to a core. -/
def State.sliceSend (s : State) (d blk c n : Nat) : State :=
  let t := s.sliceTok d blk
  if n = 0 ∨ t.n < n then s
  else
    let own := t.owner && t.n == n
    let rest : Tok := if own then noTok else { t with n := t.n - n }
    ((s.setSliceTok d blk rest).addHint d blk c).sendCoh (cohMsg .tokdata d d blk c n own (own && t.dirty))
/-- Sends every token of a core's CDC to a requester. -/
def State.cdcSend (s : State) (d blk h c : Nat) : State :=
  let t := s.cdcTok h blk
  if t.n = 0 then s else ((s.setCdcTok h blk noTok).addHint d blk c).sendCoh (cohMsg .tokdata d h blk c t.n t.owner t.dirty)
/-- Asks the CDC that holds the owner token for one token and a copy of the data. -/
def State.askOwner (s : State) (d blk c : Nat) : State :=
  match (s.cdcHolders d blk).find? (fun h => (s.cdcTok h blk).owner) with
  | some h => s.sendCoh (cohMsg .tcoll d h blk c 1 false false)
  | none => s
/-- The slice acts on a transient request, when the die and the host allow it; otherwise the request waits for them. While a persistent request for the block
is active, whose requester every token goes to, it waits for the deactivation (DESIGN CHOICE, log entry 84). -/
def State.serveReq (s : State) (r : TReq) : State :=
  let d := dieOfCore r.core
  if (s.die d).treqs.any (fun q => q.blk == r.blk && q.active) then s
  else if r.write then
    if s.permWrite d r.blk && s.hostHolds r.blk == 0 then
      let s1 := s.sliceSend d r.blk r.core (s.sliceTok d r.blk).n
      ((s1.hinted d r.blk).foldl (fun t l => t.sendCoh (cohMsg .tcoll d l r.blk r.core 512 false false)) s1).modTreq r.core r.blk (fun q => { q with sent := true })
    else s
  else if s.permRead d r.blk && s.hostHolds r.blk != 2 then
    (if 1 ≤ (s.sliceTok d r.blk).n then s.sliceSend d r.blk r.core 1 else s.askOwner d r.blk r.core).modTreq r.core r.blk (fun q => { q with sent := true })
  else s
/-- The active request of a batch: every holder sends all its tokens to it, within the die's permission: beyond read permission the slice keeps one (R158). -/
def State.serveActive (s : State) (r : TReq) : State :=
  let d := dieOfCore r.core
  let w := s.permWrite d r.blk && s.hostHolds r.blk == 0
  if (if r.write then w else s.permRead d r.blk && s.hostHolds r.blk != 2) then
    let s0 := if w then s else s.takeOne d r.blk
    let t := s0.sliceTok d r.blk
    let s1 := if w ∨ t.owner ∧ t.n = 1 then s0.sliceSend d r.blk r.core t.n else s0.sliceSend d r.blk r.core (t.n - 1)
    (((s1.cdcHolders d r.blk).filter (· != r.core)).foldl (fun u h => u.cdcSend d r.blk h r.core) s1).modTreq r.core r.blk (fun q => { q with sent := true })
  else s
/-- The slice of a die acts on every request for a block that waits for its permission. -/
def State.serveBlk (s : State) (d blk : Nat) : State :=
  ((s.die d).treqs.filter (fun r => r.blk == blk && !r.sent)).foldl (fun t r => if r.active then t.serveActive r else if r.persistent then t else t.serveReq r) s
/-- TColl: the owner-token holder sends one token and a copy, or every CDC of a cluster sends all it holds. -/
def State.takeTcoll (m : Coh) (t : State) : State :=
  if m.n = 1 then
    let k := t.cdcTok m.src m.blk
    if !k.owner then t
    else if k.n = 1 then t.cdcSend m.die m.blk m.src m.req
    else ((t.setCdcTok m.src m.blk { k with n := k.n - 1 }).addHint m.die m.blk m.req).sendCoh (cohMsg .tokdata m.die m.src m.blk m.req 1 false false)
  else ((t.cdcHolders m.die m.blk).filter (fun h => clOfCore h == m.src && h != m.req)).foldl (fun u h => u.cdcSend m.die m.blk h m.req) t
/-- The oldest entry of a full CDC of 256 blocks, apart from the block that comes in, gives its tokens to the slice (R22, R157; which one leaves is the
model's choice, log entry 9). -/
def State.cdcRoom (s : State) (c blk : Nat) : State :=
  if mhas (s.core c).cdc blk ∨ (s.core c).cdc.length < 256 then s
  else match (mkeys (s.core c).cdc).head? with
    | some b => s.cdcFlush c b
    | none => s
/-- Tokens arrive at a CDC; while a persistent request for the block is active at another, they are passed on to it. -/
def State.takeTok (m : Coh) (t : State) : State :=
  match (t.die m.die).treqs.find? (fun r => r.blk == m.blk && r.active && r.core != m.req) with
  | some r => (t.addHint m.die m.blk r.core).sendCoh { m with src := m.req, req := r.core }
  | none =>
    let t := t.cdcRoom m.req m.blk
    let k := t.cdcTok m.req m.blk
    let u := t.setCdcTok m.req m.blk ⟨k.n + m.n, k.owner || m.owner, k.dirty || m.dirty⟩
    match u.treq? m.req m.blk with
    | some r => if !r.persistent && u.cdcOk m.req m.blk r.write then u.dropTreq m.req m.blk else u
    | none => u

/-! ### Transactions at a home (R155, R165, R168, R173) -/

def srcOfHome (h : Nat) : Nat := srcOfUnit h 21 0
def State.txn? (s : State) (h blk : Nat) : Option Txn := ((s.die h).txns.find? (fun e => e.1 == blk)).map (·.2)
def State.setTxn (s : State) (h blk : Nat) (t : Txn) : State := s.modDie h (fun x => { x with txns := mput x.txns blk t })
/-- Evicts both lines of a host-homed block to the host: DirtyEvict or CleanEvict (R173). -/
def State.evictHost (s : State) (blk : Nat) (dirty : Bool) : State := (s.emit (.evict (2 * blk) dirty)).emit (.evict (2 * blk + 1) dirty)
/-- Data of a die that gives a block up comes to the home: the slice marks it dirty, takes the block back when it holds no token and no other die owns it, and
sends a host-homed block on to the host (R166, R168, R173). -/
def State.regain (s : State) (h blk : Nat) (dirty : Bool) : State :=
  if !s.homed h blk then (if dirty then s.evictHost blk true else s)
  else if (s.tokens h blk).all (fun t => t.n == 0) then
    (if s.othersIn h blk (fun x => decide (2 ≤ x)) then s else s.fullSlice h blk dirty)
  else if dirty then s.setSliceTok h blk { s.sliceTok h blk with dirty := true }
  else s
/-- Event 0x53 (R456). -/
def State.anomaly (s : State) (h blk code : Nat) : State :=
  s.logTo h (s.askerPart h blk) (evEntry (srcOfHome h) 0x53 3 0 (natW code) (natW (128 * blk)))
/-- Does a transaction for a host-homed block need the host's data or ownership first (R173, R174). -/
def State.needsHost (s : State) (h blk : Nat) (t : Txn) : Bool :=
  !s.homed h blk && !t.filled && !t.fwd && (t.kind != .rds || s.dirSt blk h == 0)
/-- A home serves its requester when every answer has arrived and the host has been asked (R165, R171, R173). E needs a host that holds neither line, because
it lets the die write (DEDUCED, log entry 85). -/
def State.tryGrant (s : State) (h blk : Nat) : State :=
  match s.txn? h blk with
  | none => s
  | some t =>
    let dev := s.homed h blk
    let away (u : State) : State := if dev ∧ t.req ≠ h then u.loseDie h blk else u
    if !t.waiting.isEmpty || !t.gone.isEmpty || t.granted || t.kind == .binv then s
    else if t.fwd then (if t.kind = .rdx then away s else s).setTxn h blk { t with granted := true }
    else if dev && (if t.kind = .rds then s.hostHolds blk == 2 else s.hostHolds blk != 0) then s
    else if s.needsHost h blk t then s
    else
      let s1 := s.setTxn h blk { t with granted := true }
      let dirty := s.dieDirty h blk
      match t.kind with
      | .rds =>
        let alone := dev && (s.dirSts blk).all (· == 0) && (s.cdcHolders h blk).isEmpty && (s.coh.all (fun m : Coh => !(m.kind == .tokdata && m.die == h && m.blk == blk))) &&
          !isHot (128 * blk) && t.req != h && s.hostHolds blk == 0
        let s2 := if alone then s1.loseDie h blk else if dev then s1.takeOne h blk else s1
        s2.sendCoh (cohMsg .datas t.req h blk t.req (if alone then 2 else 1) false (alone && dirty))
      | .rdx => (away s1).sendCoh (cohMsg .datax t.req h blk t.req 4 false (dev && dirty))
      | .upg => (away s1).sendCoh (cohMsg .upgack t.req h blk t.req 4 false (dev && dirty))
      | .binv => s
/-- Begins a transaction: forwards, invalidations or recalls go out (R165, R168). An Upg of a die that is no longer in S is an RdX. -/
def State.startTxn (s : State) (h d blk : Nat) (kd : TxKind) : State :=
  let kd := if kd = .upg ∧ s.dirSt blk d ≠ 1 then .rdx else kd
  let dev := s.homed h blk
  let others := (List.range 4).filter (fun e => e != d && e != h || e != d && !dev || kd == .binv && (e != h || !dev))
  let sharers := others.filter (fun e => s.dirSt blk e == 1)
  let owners := others.filter (fun e => decide (2 ≤ s.dirSt blk e))
  let ask (k : CohKind) (es : List Nat) (t : State) : State := es.foldl (fun u e => u.sendCoh (cohMsg k e h blk d 0 false false)) t
  let mk (w : List Nat) (f : Bool) : Txn := ⟨kd, d, w, f, s.cycle, false, [], false, false, false⟩
  let s0 := if dev && d != h && !mhas (s.die h).dir blk && kd != .binv then
      s.modDie h (fun x => { x with dir := mput x.dir blk ⟨[0, 0, 0, 0], isHot (128 * blk), x.dirNext⟩, dirNext := x.dirNext + 1 })
    else s
  match kd with
  | .rds => ask .fwds owners ((s0.setTxn h blk (mk owners (!owners.isEmpty))).tryGrant h blk)
  | .rdx => ask .fwdx owners (ask .inv sharers ((s0.setTxn h blk (mk (sharers ++ owners) (!owners.isEmpty))).tryGrant h blk))
  | .upg => ask .inv sharers ((s0.setTxn h blk (mk sharers false)).tryGrant h blk)
  | .binv => ask .binv (sharers ++ owners) (s0.setTxn h blk (mk (sharers ++ owners) false))
/-- The entries that a request shares its place with: a set of 16 ways, or the 256 K entries of the host-block directory, whose organisation the spec does not
give (R164, R173). -/
def State.dirPeers (s : State) (h blk : Nat) : SMap DirEnt :=
  if s.homed h blk then (s.die h).dir.filter (fun e => dirSet e.1 == dirSet blk) else (s.die h).hostdir
def State.dirFull (s : State) (h d blk : Nat) : Bool :=
  !(s.homed d blk) && s.dirSt blk d == 0 && (s.dirPeers h blk).all (fun e => e.1 != blk) &&
    decide ((if s.homed h blk then 16 else 262144) ≤ (s.dirPeers h blk).length)
/-- The entry that a new one displaces: the least recently allocated that is not BUSY (R168). -/
def State.dirVictim (s : State) (h blk : Nat) : Option Nat :=
  ((s.dirPeers h blk).filter (fun e => !mhas (s.die h).txns e.1)).foldl (fun b e => match b with
    | none => some e
    | some x => if e.2.order < x.2.order then some e else b) none |>.map (·.1)
/-- A displacement that makes room for a block and has not ended. -/
def State.displacing (s : State) (h blk : Nat) : Option Nat :=
  ((s.dirPeers h blk).find? (fun e => (s.txn? h e.1).any (fun t => t.kind == .binv))).map (·.1)
/-- A displacement ends when every holder has given the block up. -/
def State.endBinv (s : State) (h blk : Nat) : State :=
  match s.txn? h blk with
  | some t =>
    if t.kind = .binv ∧ t.waiting.isEmpty ∧ t.gone.isEmpty then
      ((s.modDie h (fun x => { x with txns := mdel x.txns blk })).setDirSts blk [0, 0, 0, 0]).regain h blk false
    else s
  | none => s
/-- A request at the home: it waits for a busy block, or for the displacement of an entry of a full set, one at a time (R155, R168). -/
def State.request (s : State) (h d blk : Nat) (kd : TxKind) : State :=
  let wait (t : State) : State := t.modDie h (fun x => { x with waitq := x.waitq ++ [(blk, kd, d)] })
  if mhas (s.die h).txns blk then wait s
  else if s.dirFull h d blk then
    match s.displacing h blk, s.dirVictim h blk with
    | none, some v => ((wait s).startTxn h h v .binv).endBinv h v
    | _, _ => wait s
  else s.startTxn h d blk kd
/-- Requests that waited at a home are tried again in order of arrival. -/
def State.retryWaiting (s : State) (h : Nat) : State :=
  let q := (s.die h).waitq
  if q.isEmpty then s else q.foldl (fun t e => t.request h e.2.2 e.1 e.2.1) (s.modDie h (fun x => { x with waitq := [] }))
/-- A displacement may have ended: then the requests that waited for it go on. -/
def State.goOn (s : State) (h blk : Nat) : State :=
  let t := s.endBinv h blk
  if mhas (s.die h).txns blk && !mhas (t.die h).txns blk then t.retryWaiting h else t

/-! ### Forwards and invalidations at a holder (R165, R167, R168) -/

/-- A forward-class message at a die: in I it answers Gone (R167), else `f` acts. -/
def State.atHolder (f : Coh → State → State) (m : Coh) (t : State) : State :=
  if t.ownSt m.die m.blk = 0 then t.sendCoh (cohMsg .gone m.src m.die m.blk m.req 0 false false) else f m t
/-- No token of a die is dirty any more. -/
def State.cleanDie (s : State) (d blk : Nat) : State :=
  let s1 := (s.cdcHolders d blk).foldl (fun t c => t.setCdcTok c blk { t.cdcTok c blk with dirty := false }) s
  let s2 := s1.setSliceTok d blk { s1.sliceTok d blk with dirty := false }
  { s2 with coh := s2.coh.map (fun m : Coh => if m.kind = .tokdata ∧ m.die = d ∧ m.blk = blk then { m with dirty := false } else m) }
/-- FwdS: the owner sends the data to the requester and the acknowledgement home; it stays in O when dirty, else in S. Dirty data of a host-homed block goes
to the host (R173). -/
def State.takeFwds (m : Coh) (t : State) : State :=
  let dirty := t.dieDirty m.die m.blk || decide (3 ≤ t.ownSt m.die m.blk)
  let dev := t.homed m.src m.blk
  let st := if dev && dirty then 3 else 1
  let t0 := if !dev && dirty then (t.evictHost m.blk true).cleanDie m.die m.blk else t
  let t1 := ((t0.takeOne m.die m.blk).setSt m.blk m.die st).askAgain m.die m.blk
  (t1.sendCoh (cohMsg .datas m.req m.die m.blk m.req 1 false false)).sendCoh (cohMsg .fwdAck m.src m.die m.blk m.req 0 false dirty)
/-- FwdX: the owner drops its copy and sends the data to the writer. -/
def State.takeFwdx (m : Coh) (t : State) : State :=
  let dirty := t.dieDirty m.die m.blk || decide (3 ≤ t.ownSt m.die m.blk)
  let t1 := (t.loseDie m.die m.blk).setSt m.blk m.die 0
  (t1.sendCoh (cohMsg .datax m.req m.die m.blk m.req 4 false dirty)).sendCoh (cohMsg .fwdAck m.src m.die m.blk m.req 0 false dirty)
/-- Inv: a sharer drops its copy. -/
def State.takeInv (m : Coh) (t : State) : State :=
  ((t.loseDie m.die m.blk).setSt m.blk m.die 0).sendCoh (cohMsg .invAck m.src m.die m.blk m.req 0 false false)
/-- BInv: a die gives a displaced block up, with its data from O or M. -/
def State.takeBinv (m : Coh) (t : State) : State :=
  let dirty := t.dieDirty m.die m.blk || decide (3 ≤ t.ownSt m.die m.blk)
  ((t.loseDie m.die m.blk).setSt m.blk m.die 0).sendCoh (cohMsg (if dirty then .binvdata else .binvack) m.src m.die m.blk m.req 0 false dirty)

/-! ### Answers at the home (R165 to R168, R456) -/

/-- An answer to a transaction; one that nothing asked for is discarded (R456). -/
def State.atHome (f : Coh → Txn → State → State) (m : Coh) (t : State) : State :=
  match t.txn? m.die m.blk with
  | some x => if x.waiting.contains m.src then f m x t else t.anomaly m.die m.blk 4
  | none => t.anomaly m.die m.blk 4
def State.answered (m : Coh) (x : Txn) (s : State) : State := (s.setTxn m.die m.blk { x with waiting := x.waiting.erase m.src }).tryGrant m.die m.blk
def State.takeBinvack (m : Coh) (x : Txn) (t : State) : State := (t.answered m x).goOn m.die m.blk
/-- BInvData: the data goes into the home slice as dirty data. -/
def State.takeBinvdata (m : Coh) (x : Txn) (t : State) : State := ((t.answered m x).regain m.die m.blk true).goOn m.die m.blk
/-- Gone: the home waits for the notice when the die is still recorded, and then serves the requester itself (R167). -/
def State.takeGone (m : Coh) (x : Txn) (t : State) : State :=
  let st := t.dirSt m.blk m.src
  let y := { x with waiting := x.waiting.erase m.src, gone := if st = 0 then x.gone else x.gone ++ [(m.src, t.cycle)]
                    fwd := x.fwd && (x.waiting.erase m.src).any (fun e => decide (2 ≤ t.dirSt m.blk e)) }
  ((t.setTxn m.die m.blk y).tryGrant m.die m.blk).goOn m.die m.blk
/-- Cmp: the transaction ends, and waiting requests follow. -/
def State.takeCmp (m : Coh) (t : State) : State :=
  match t.txn? m.die m.blk with
  | some x =>
    if x.req = m.src ∧ x.kind ≠ .binv then
      let t1 := t.modDie m.die (fun y => { y with txns := mdel y.txns m.blk })
      let t2 := if (t1.dirSts m.blk).all (· == 0) then t1.setDirSts m.blk [0, 0, 0, 0] else t1
      (t2.serveBlk m.die m.blk).retryWaiting m.die
    else t.anomaly m.die m.blk 4
  | none => t.anomaly m.die m.blk 4
/-- A notice at the home: the die becomes I, NoteAck goes back, and a transaction that waited for it continues. -/
def State.takeNote (data : Bool) (m : Coh) (s0 : State) : State :=
  let h := m.die
  let st := s0.dirSt m.blk m.src
  let ack (t : State) : State := t.sendCoh (cohMsg .noteack m.src h m.blk m.src 0 false false)
  let asked := (s0.txn? h m.blk).any (fun x => x.waiting.contains m.src || x.gone.any (fun g => g.1 == m.src))
  if st = 0 ∧ !asked then ack (s0.anomaly h m.blk 1)
  else
    let s1 := if data && st == 1 then s0.anomaly h m.blk 2 else s0
    let s2 := s1.setSt m.blk m.src 0
    let s3 := s2.regain h m.blk (data && st != 1)
    ack (match s3.txn? h m.blk with
      | some x => ((s3.setTxn h m.blk { x with gone := x.gone.filter (fun g => g.1 != m.src) }).tryGrant h m.blk).goOn h m.blk
      | none => s3)
/-- NoteAck: the die may ask for the block again. -/
def State.takeNoteack (m : Coh) (t : State) : State := t.modDie m.die (fun x => { x with notes := x.notes.filter (· != m.blk) })

/-! ### Grants at a requester (R165, R166), and the ways of an L2 set (R122, R131) -/

/-- Slice and set of a block (R122, R131). -/
def setOf (blk : Nat) : Nat × Nat :=
  let pa := 128 * blk
  if hotBase ≤ pa then
    let p := hothouseSlot ((pa - hotBase) / 65536 % 512) (pa % 65536)
    (p.1, p.2.1)
  else (sliceHash pa, fld pa 15 7)
def sameSet (a b : Nat) : Bool := setOf a == setOf b
/-- Has a partition reserved a hothouse index of a die (R130). -/
def State.reserved (s : State) (d idx : Nat) : Bool :=
  (List.range 16).any (fun p => let r := s.cfg d p 0x050
    bitAt (s.cfg d p 0) 0 && decide (wf r 0 9 ≤ idx) && decide (idx < wf r 0 9 + wf r 16 10))
/-- Ways of a set that ordinary lines may use: ways 8 to 15 only at locations whose index no partition has reserved (R131). -/
def State.waysOf (s : State) (d blk : Nat) : Nat :=
  8 + 2 * ((List.range 4).filter (fun hi => !s.reserved d (128 * hi + (setOf blk).2))).length
/-- Blocks of other homes that a die holds. -/
def State.remotes (s : State) (d : Nat) : List (Nat × Nat) :=
  (List.range 4).flatMap (fun h => (((s.die h).dir ++ (s.die h).hostdir).filter (fun e => !s.homed d e.1 && s.ownSt d e.1 != 0)).map (fun e => (e.1, e.2.order)))
/-- A die whose set is full evicts its oldest block and sends a notice (R166; the choice is the model's, log entry 9). -/
def State.evictOver (s : State) (d blk : Nat) : State :=
  let es := (s.remotes d).filter (fun e => sameSet e.1 blk)
  if es.length ≤ s.waysOf d blk then s
  else match (es.filter (fun e => e.1 != blk && !(s.die d).treqs.any (fun r => r.blk == e.1))).foldl (fun b e => match b with
      | none => some e
      | some x => if e.2 < x.2 then some e else b) (none : Option (Nat × Nat)) with
    | none => s
    | some (v, _) =>
      let dirty := s.dieDirty d v || decide (3 ≤ s.ownSt d v)
      let s1 := (s.loseDie d v).modDie d (fun x => { x with notes := x.notes ++ [v] })
      s1.sendCoh (cohMsg (if dirty then .notedat else .notei) (s.homeOf (128 * v)) d v d 0 false dirty)
/-- Data or permission has arrived; the die takes its state, tells the home, and serves its cores. -/
def State.atRequester (m : Coh) (t : State) : State :=
  let u := (t.setSt m.blk m.die m.n).sendCoh (cohMsg .cmp (t.homeOf (128 * m.blk)) m.die m.blk m.die 0 false false)
  (u.serveBlk m.die m.blk).evictOver m.die m.blk
def State.takeData (m : Coh) (t : State) : State := (t.fullSlice m.die m.blk m.dirty).atRequester m
/-- UpgAck: the die keeps its data, and takes over the duty to write the home's dirty data back. -/
def State.takeUpgack (m : Coh) (t : State) : State :=
  (if m.dirty then t.setSliceTok m.die m.blk { t.sliceTok m.die m.blk with dirty := true } else t).atRequester m
/-- A request of a die arrives at its home. -/
def State.takeReq (m : Coh) (t : State) : State := t.request m.die m.src m.blk (if m.kind = .rds then .rds else if m.kind = .rdx then .rdx else .upg)

/-! ### Overdue transactions (R457) -/

/-- The first action of R457 that applies to a transaction: unanswered messages are sent again once; then the silent die's isolation is requested; a lost
response becomes poison. -/
def State.overdueAct (s : State) (blk : Nat) (x : Txn) : State :=
  let h := s.homeOf (128 * blk)
  let isolate (d : Nat) (t : State) : State :=
    (t.logTo h (t.askerPart h blk) (evEntry (srcOfHome h) 0x55 3 0 (natW d) (natW (128 * blk)))).modDie d (fun y => { y with isoReq := true })
  match x.waiting with
  | d :: _ =>
    if x.resent then isolate d (s.setTxn h blk { x with since := s.cycle })
    else
      let kind (e : Nat) : CohKind := match x.kind with
        | .rds => .fwds
        | .rdx => if 2 ≤ s.dirSt blk e then .fwdx else .inv
        | .upg => .inv
        | .binv => .binv
      let fwdMsg (m : Coh) (e : Nat) : Bool := m.blk == blk && m.die == e && (m.kind == .fwds || m.kind == .fwdx || m.kind == .inv || m.kind == .binv)
      x.waiting.foldl (fun t e => if t.coh.any (fun m => fwdMsg m e) then t else t.sendCoh (cohMsg (kind e) e h blk x.req 0 false false))
        (s.setTxn h blk { x with resent := true, since := s.cycle })
  | [] =>
    if !x.granted then s
    else if x.lost then isolate x.req (s.setTxn h blk { x with since := s.cycle })
    else
      let s1 := ((s.setTxn h blk { x with lost := true, since := s.cycle }).regain h blk true).poisonBlock blk
      let s2 := s1.logTo h (s1.askerPart x.req blk) (evEntry (srcOfHome h) 0x54 3 0 (natW (srcOfUnit x.req 22 0)) (natW (128 * blk)))
      let clean : State := { s2 with coh := s2.coh.filter (fun m : Coh => !(m.blk == blk && m.die == x.req && (m.kind == CohKind.datas || m.kind == CohKind.datax || m.kind == CohKind.upgack))) }
      clean.sendCoh (cohMsg (if x.kind = .rds then .datas else .datax) x.req h blk x.req (if x.kind = .rds then 1 else 4) false true)

/-! ### An access that is performed at its coherence point within one step (log entry 4) -/

/-- A message arrives, whichever it is. The two messages of a write of a hothouse line merge its bytes (R170) and end at its writer. -/
def State.deliverCoh (s : State) (m : Coh) : State :=
  let t := s.dropCoh m.id
  match m.kind with
  | .tcoll => t.takeTcoll m
  | .tokdata => t.takeTok m
  | .fwds => t.atHolder State.takeFwds m
  | .fwdx => t.atHolder State.takeFwdx m
  | .inv => t.atHolder State.takeInv m
  | .binv => t.atHolder State.takeBinv m
  | .invAck | .fwdAck => t.atHome State.answered m
  | .binvack => t.atHome State.takeBinvack m
  | .binvdata => t.atHome State.takeBinvdata m
  | .gone => t.atHome State.takeGone m
  | .datas | .datax => t.takeData m
  | .upgack => t.takeUpgack m
  | .cmp => t.takeCmp m
  | .notei => t.takeNote false m
  | .notedat => t.takeNote true m
  | .noteack => t.takeNoteack m
  | .rds | .rdx | .upg => t.takeReq m
  | .wrhh | .wrack => s
/-- What a transaction waits for from the host is taken to be given; the step that rests on it is held back until the host has answered (R171, `hostOwes`).
The reads of a host-homed block complete (R174). -/
def State.pushTxn (s : State) (h blk : Nat) (t : Txn) : State :=
  let s1 := if !s.homed h blk then s else if t.kind = .rds then s.backShare blk else s.backInval blk
  let s2 := if s1.needsHost h blk t then
      ((s1.setTxn h blk { t with filled := true }).emit (.hostRead (2 * blk) (t.kind != .rds))).emit (.hostRead (2 * blk + 1) (t.kind != .rds))
    else s1
  s2.tryGrant h blk
/-- One step towards the end of what is in flight for a block: its next message, after those of its class that left before it (R154), the host's answer to its transaction, a lost answer, or the next request
that waits for it; `none` when nothing is. -/
def State.cohAdvance (s : State) (blk : Nat) : Option State :=
  let h := s.homeOf (128 * blk)
  match s.coh.find? (fun m => m.blk == blk && m.kind != .wrhh && m.kind != .wrack) with
  | some m => some (s.deliverCoh ((s.coh.find? (fun n => n.sameLane m && n.kind != .wrhh && n.kind != .wrack)).getD m))
  | none => match s.txn? h blk with
    | some t =>
      if t.waiting.isEmpty && t.gone.isEmpty && !t.granted then some (s.pushTxn h blk t)
      else if t.gone.isEmpty && (if t.granted then !t.lost else !t.resent) then some (s.overdueAct blk t)
      else some (s.modDie h (fun x => { x with txns := mdel x.txns blk }))
    | none => match (s.die h).waitq.find? (fun e => e.1 == blk) with
      | some e =>
        if s.dirFull h e.2.2 blk then none
        else some ((s.modDie h (fun x => { x with waitq := x.waitq.erase e })).request h e.2.2 blk e.2.1)
      | none => none
/-- The same with the entry that has to leave a full set first (R168). -/
def State.settleStep (s : State) (blk : Nat) : Option State :=
  match s.cohAdvance blk with
  | some t => some t
  | none =>
    let h := s.homeOf (128 * blk)
    if (s.die h).waitq.any (fun e => e.1 == blk) then
      match s.displacing h blk, s.dirVictim h blk with
      | some v, _ => s.cohAdvance v
      | none, some v => some ((s.startTxn h h v .binv).goOn h v)
      | none, none => ((s.dirPeers h blk).head?).bind (fun e => s.cohAdvance e.1)
    else none
def State.settleN (s : State) (blk : Nat) : Nat → State
  | 0 => s
  | n + 1 => match s.settleStep blk with
    | some t => t.settleN blk n
    | none => s
/-- Everything in flight for a block arrives, and every request that came before is served, in order (R155): at most 1,024 messages. -/
def State.settle (s : State) (blk : Nat) : State := s.settleN blk 1024
/-- A request of die `d` for a block is served to its end. -/
def State.obtain (s : State) (d blk : Nat) (kd : TxKind) : State :=
  (s.modDie (s.homeOf (128 * blk)) (fun x => { x with waitq := x.waitq ++ [(blk, kd, d)] })).settle blk
/-- Every other die gives a block up, and the home's slice holds all its tokens (R168, R169, R172). -/
def State.recallAll (s : State) (blk : Nat) : State :=
  let h := s.homeOf (128 * blk)
  let s1 := s.settle blk
  let s2 := if (s1.dirSts blk).all (· == 0) then s1 else ((s1.startTxn h h blk .binv).goOn h blk).settle blk
  if s2.homed h blk then (s2.collectDie h blk).askAgain h blk else s2
/-- Die `d` obtains every right to write a block at its slice: all 512 tokens and the permission (R158, R161, R162, R171); a hothouse line is written at its
home (R170). -/
def State.grabBlk (s : State) (d blk : Nat) : State :=
  if !coherent (128 * blk) then s
  else
    let d := if hotBase ≤ 128 * blk then s.homeOf (128 * blk) else d
    let s1 := s.settle blk
    let s2 := if s1.permWrite d blk then s1 else s1.obtain d blk (if s1.dirSt blk d = 1 ∧ !s1.homed d blk then .upg else .rdx)
    let s3 := ((s2.backInval blk).collectDie d blk).askAgain d blk
    s3.setSliceTok d blk { s3.sliceTok d blk with dirty := true }
/-- Die `d` obtains a readable copy at its slice, as far as the device goes (R158, R161). -/
def State.shareDev (s : State) (d blk : Nat) : State :=
  if s.permRead d blk then s
  else
    let t := s.settle blk
    if t.permRead d blk then t else t.obtain d blk .rds
/-- Die `d` obtains a readable copy, and the host holds no line of it in A (R158, R161, R171). -/
def State.shareBlk (s : State) (d blk : Nat) : State :=
  if !coherent (128 * blk) then s else (s.shareDev d blk).backShare blk
/-- The home alone holds a block, with every token, and no other die a copy (R162, R172). -/
def State.homeTakes (s : State) (blk : Nat) : State := s.recallAll blk

end Sys2Proof.Machine
end

