-- ==== Sys2Proof/Machine/Mem.lean ====
section
/-! DEFINITION. Memory as every agent performs its accesses within a step: coherent and uncached reads and writes, the lane L1, and translation with its
TLBs. -/

namespace Sys2Proof.Machine

/-! ### Coherent access by an agent of a die, within a step -/

/-- What a read of a block first obtains: a copy for the slice of the die that reads, or, for an uncached access, every right at the home (R161, R162). -/
def State.beforeRead (s : State) (home : Bool) (d pa : Nat) : State :=
  if !s.reach d pa then s
  else (if home && coherent pa then (s.homeTakes (blkOf pa)).backShare (blkOf pa) else s.shareBlk d (blkOf pa)).touchLine pa
/-- A read of `n` bytes within a block: status of the check, value, state; `home` for an uncached access. -/
def State.readAt (s : State) (home : Bool) (part : Option Nat) (d pa n : Nat) : Nat × Nat × State :=
  let (st, s1) := (s.beforeRead home d pa).readChk part d pa n
  match regionOf pa with
  | .mgmt m => (st, if n = 8 ∧ pa % 8 = 0 then (s1.mgmtRead m (pa % 0x1000000)).toNat else 0, s1)
  | _ => (st, s1.rdN (s1.phys d pa) n, s1)
/-- A coherent read. -/
def State.cread (s : State) (part : Option Nat) (d pa n : Nat) : Nat × Nat × State := s.readAt false part d pa n
/-- An uncached read, performed at the home (R144, R162). -/
def State.uread (s : State) (part : Option Nat) (d pa n : Nat) : Nat × Nat × State := s.readAt true part d pa n
/-- A coherent write of the bytes that a mask selects. -/
def State.cwriteMask (s : State) (part : Option Nat) (d pa n v mask : Nat) : State :=
  (if s.reach d pa then s.grabBlk d (blkOf pa) else s).commitMask part d pa n v mask
/-- An uncached write, performed at the home. -/
def State.uwrite (s : State) (part : Option Nat) (d pa n v : Nat) : State :=
  (if s.reach d pa ∧ coherent pa then s.grabBlk (s.homeOf pa) (blkOf pa) else s).commitMask part d pa n v (2 ^ n - 1)
def State.cwrite (s : State) (part : Option Nat) (d pa n v : Nat) : State := s.cwriteMask part d pa n v (2 ^ n - 1)
/-- A 64-bit read by a walker or the front end: status and value. -/
def State.cread64 (s : State) (part : Option Nat) (d pa : Nat) : Nat × W64 × State :=
  let (st, v, s1) := s.cread part d pa 8
  (st, natW v, s1)

/-! ### The lane L1 (R148, R244, R246) -/

def l1Empty : L1Sec := ⟨0, 0, 0, false⟩
/-- Writes back the dirty bytes of a sector (R142, R161, R432); the sector stays valid and becomes clean. -/
def State.wbSector (s : State) (c sec : Nat) : State :=
  let e := mget l1Empty (s.core c).l1 sec
  if e.dirty = 0 then s
  else
    let p := s.partOf (clOfCore c)
    let s1 := s.cwriteMask p (dieOfCore c) (64 * sec) 64 e.data.toNat e.dirty.toNat
    let s2 := if e.pois then (s1.poisonSector sec).findErr (16 * c) [.l1s c sec] |>.2 else s1
    s2.modCore c (fun x => { x with l1 := mput x.l1 sec { e with dirty := 0 } })
def State.invSector (s : State) (c sec : Nat) : State := s.modCore c (fun x => { x with l1 := mdel x.l1 sec })
def State.wbAllL1 (s : State) (c : Nat) : State := (mkeys (s.core c).l1).foldl (fun t x => t.wbSector c x) s
def State.invAllL1 (s : State) (c : Nat) : State := s.modCore c (fun x => { x with l1 := [] })
/-- The L1 action of an acquire at cluster scope or wider; a sector may leave the L1 at any time, so one too many is allowed (R148). -/
def State.acqL1 (s : State) (c : Nat) : State := (s.wbAllL1 c).invAllL1 c
/-- A release by slot `k` towards core `c`, at their common scope: within a core it touches no L1 sector (R146, R148, R149, R153). -/
def State.relTo (s : State) (k c : Nat) : State := if coreOf k = c then s else s.wbAllL1 (coreOf k)
/-- An acquire by core `c` of what the agent with a source number released, at their common scope. It is made where the value arrives, which no later read of
it can tell from an acquire at the read (DEDUCED, log entry 89). -/
def State.acqFrom (s : State) (src c : Nat) : State := if coreOfSrc src = some c then s else s.acqL1 c
/-- Writes a sector back and invalidates it (R144, R246). -/
def State.flushSector (s : State) (c sec : Nat) : State := (s.wbSector c sec).invSector c sec
/-- Room for the line of a sector in its set of 8 lines of 256 bytes: the line of the lowest address leaves (R22, R148; set and choice are the model's, log
entry 9). -/
def State.l1Room (s : State) (c sec : Nat) : State :=
  let lines := (((mkeys (s.core c).l1).filter (fun x => x / 4 % 64 == sec / 4 % 64)).map (· / 4)).eraseDups
  if lines.contains (sec / 4) ∨ lines.length < 8 then s
  else match lines.head? with
    | some l => (List.range 4).foldl (fun t i => t.flushSector c (4 * l + i)) s
    | none => s
/-- A lane store into the L1: it allocates without a fill and marks its bytes valid and dirty. -/
def State.l1Store (s : State) (c pa n v : Nat) : State :=
  let sec := pa / 64
  let off := pa % 64
  (s.l1Room c sec).modCore c (fun x =>
    let e := mget l1Empty x.l1 sec
    let m : W64 := BitVec.ofNat 64 ((2 ^ n - 1) * 2 ^ off)
    let dm : BitVec 512 := BitVec.ofNat 512 ((256 ^ n - 1) * 256 ^ off)
    { x with l1 := mput x.l1 sec { e with valid := e.valid ||| m, dirty := e.dirty ||| m
                                          data := (e.data &&& ~~~dm) ||| BitVec.ofNat 512 (v % 256 ^ n * 256 ^ off) } })
/-- A lane load through the L1: bytes not valid are filled by a peek, which keeps the written bytes. Status, value, state. -/
def State.l1Load (s : State) (c pa n : Nat) : Nat × Nat × State :=
  let sec := pa / 64
  let off := pa % 64
  let e := mget l1Empty (s.core c).l1 sec
  let need := (2 ^ n - 1) * 2 ^ off
  if e.valid.toNat &&& need == need then
    let r := if e.pois then s.findErr (16 * c) [.l1s c sec] else (0, s)
    (r.1, e.data.toNat / 256 ^ off % 256 ^ n, r.2)
  else
    let (st, v, s1) := s.cread (s.partOf (clOfCore c)) (dieOfCore c) (64 * sec) 64
    if st ≠ 0 then (st, e.data.toNat / 256 ^ off % 256 ^ n, s1)
    else
      let data := (List.range 64).foldl (fun acc i =>
        if bitAt e.valid i then acc - acc / 256 ^ i % 256 * 256 ^ i + e.data.toNat / 256 ^ i % 256 * 256 ^ i else acc) v
      let s2 := (s1.l1Room c sec).modCore c (fun x => { x with l1 := mput x.l1 sec { e with valid := BitVec.allOnes 64, data := BitVec.ofNat 512 data } })
      let r := if e.pois then s2.findErr (16 * c) [.l1s c sec] else (0, s2)
      (r.1, data / 256 ^ off % 256 ^ n, r.2)

/-! ### Translation (R112 to R118, R436, R448, R450) -/

/-- What an access needs of a page: permissions, privilege, and the page types it accepts (0 ordinary, 1 binding only, 2 any). -/
structure Acc where
  r : Bool
  w : Bool
  x : Bool
  a : Bool
  priv : Nat
  want : Nat
  /-- permission bits are checked (R487: not for EDGE ranges and the spill engine) -/
  perm : Bool
deriving DecidableEq, Repr
/-- A translated address. -/
structure Xl where
  pa : Nat
  attr : Nat
  ty : Nat
deriving DecidableEq, Repr
/-- A translation fails with its cause, plus 256 × the block's address for a poisoned entry (R382), and the state it leaves. -/
abbrev XR (α : Type) := Except (Nat × State) α

def pteV (e : W64) : Bool := bitAt e 0
def pteTy (e : W64) : Nat := wf e 1 2
def pteAddr (e : W64) : Nat := wf e 13 39 * 8192
def pageBits (level : Nat) : Nat := 16 + 10 * level
/-- Is an index in the partition's run on a die (R130, R448). -/
def State.inRun (s : State) (d p idx : Nat) : Bool :=
  let r := s.cfg d p 0x050
  bitAt (s.cfg d p 0) 0 && decide (wf r 0 9 ≤ idx) && decide (idx < wf r 0 9 + wf r 16 10)
/-- The frame of a leaf as the model addresses it. -/
def leafBase (e : W64) : Nat :=
  if pteTy e = 2 then hotAddr (pteAddr e / 33554432 % 4) (pteAddr e / 65536 % 512) 0 else pteAddr e
/-- The checks of a leaf found at a level, in the order of R117: the cause, or the translation. A fetch from a binding page fails as a load does (DEDUCED,
log entry 86). -/
def State.leafCheck (s : State) (d p : Nat) (acc : Acc) (va level : Nat) (e : W64) : Except Nat Xl :=
  let ty := pteTy e
  let ad := pteAddr e
  let off := va % 2 ^ pageBits level
  if wf e 52 12 ≠ 0 ∨ wf e 12 1 ≠ 0 ∨ level = 3 ∨ (ty ≠ 1 ∧ level ≠ 0) ∨ wf e 10 2 ≥ 2 then .error 0x07
  else if ty = 2 ∧ (ad % 65536 ≠ 0 ∨ ad / 2 ^ 27 ≠ 0) ∨ ty ≠ 2 ∧ ad % 2 ^ pageBits level ≠ 0 then .error 0x07
  else if acc.want = 0 ∧ ty = 3 ∨ acc.want = 1 ∧ ty ≠ 3 then .error 0x07
  else if acc.perm && ((acc.r && !bitAt e 3) || (acc.w && !bitAt e 4) || (acc.x && !bitAt e 5) || (acc.a && !bitAt e 6) || (acc.priv == 0 && !bitAt e 7)) then
    .error 0x07
  else if ty = 2 then
    let hd := ad / 33554432 % 4
    let idx := ad / 65536 % 512
    if s.inRun hd p idx then .ok ⟨hotAddr hd idx off, wf e 10 2, 2⟩
    else if bitAt (s.cfg hd p 0) 0 ∧ (s.die hd).stranded.contains (p * 512 + idx) then .error 0x13
    else .error 0x12
  else
    match (if regionOf ad = .reserved then .reserved else regionOf (ad + off)) with
    | .reserved => .error 0x07
    | .mgmt _ => if acc.priv = 2 ∧ wf e 10 2 = 1 then .ok ⟨ad + off, 1, ty⟩ else .error 0x07
    | .fabric => if (s.fabDecode d (ad + off)).isSome then .ok ⟨ad + off, wf e 10 2, ty⟩ else .error 0x07
    | _ => .ok ⟨ad + off, wf e 10 2, ty⟩
/-- Walks from a table at `level`; yields the leaf's address, level and value (R112, R114, R436). -/
def State.walkFrom (s : State) (d p va : Nat) : Nat → Nat → XR (Nat × Nat × W64 × State)
  | level, table =>
    let a := table + 8 * (va / 2 ^ (16 + 10 * level) % 1024)
    let (st, e, s1) := s.cread64 (some p) d a
    if st ≠ 0 then .error (st + 256 * (a / 128 * 128), s1)
    else if !pteV e then .error (0x06, s)
    else if pteTy e = 0 then
      match level with
      | 0 => .error (0x07, s)
      | l + 1 =>
        if wf e 52 12 ≠ 0 ∨ wf e 3 10 ≠ 0 then .error (0x07, s)
        else match regionOf (pteAddr e) with
          | .reserved | .mgmt _ => .error (0x07, s)
          | _ => s1.walkFrom d p va l (pteAddr e)
    else .ok (a, level, e, s1)
/-- Sets AC, and D for a write, at the entry's home (R113, R114). -/
def State.markPte (s : State) (d p a : Nat) (e : W64) (w : Bool) : W64 × State :=
  let e' := setBit (if w then setBit e 9 true else e) 8 true
  (e', if e' = e then s else s.cwrite (some p) d a 8 e'.toNat)
/-- A request at a frame that has moved goes to the new home, with a redirect notice (R121). -/
def State.redirect (s : State) (pa : Nat) : Nat :=
  ((List.range 4).findSome? (fun d => (s.die d).redir.findSome? (fun r =>
    if r.old ≤ pa ∧ pa < r.old + r.len then some (r.new + (pa - r.old)) else none))).getD pa
/-- A full walk (R115): the address-space entry, then the four levels, then the leaf's checks and marks; what has moved already is reached at its new home
(R121). -/
def State.walk (s : State) (d p asid va : Nat) (acc : Acc) : XR (Nat × W64 × Xl × State) := do
  let ra := wf (s.cfg d p 0x018) 13 39 * 8192 + 8 * asid
  let (st, root, s1) := s.cread64 (some p) d ra
  if st ≠ 0 then throw (st + 256 * (ra / 128 * 128), s1)
  if !bitAt root 0 then throw (0x06, s)
  if wf root 52 12 ≠ 0 ∨ wf root 1 12 ≠ 0 then throw (0x07, s)
  let (a, level, e, s2) ← s1.walkFrom d p (va % 2 ^ 56) 3 (wf root 13 39 * 8192)
  match s2.leafCheck d p acc va level e with
  | .error c => throw (c, s)
  | .ok x =>
    let (e', s3) := s2.markPte d p a e acc.w
    pure (level, e', { x with pa := s3.redirect x.pa }, s3)
def Tlb.hit (t : Tlb) (p asid va : Nat) : Bool := t.part == p && t.asid == asid && t.base == va % 2 ^ 56 / 2 ^ pageBits t.level
/-- Translates for core `c` (fetch: instruction TLB, else data TLB), then the second-level TLB, then a walk (R116, R121). -/
def State.xlate (s : State) (c p asid : Nat) (acc : Acc) (va : Nat) : XR (Xl × State) :=
  let d := dieOfCore c
  let cl := clOfCore c
  let l1 := if acc.x then (s.core c).itlb else (s.core c).dtlb
  let cached := (l1.find? (fun t => t.hit p asid va)).orElse (fun _ => (s.cluster cl).l2tlb.find? (fun t => t.hit p asid va))
  let put (s : State) (t : Tlb) : State :=
    let s1 := s.modCore c (fun x =>
      if acc.x then (if x.itlb.contains t then x else { x with itlb := (t :: x.itlb.filter (fun u => !u.hit p asid va)).take Config.itlbSize })
      else if x.dtlb.contains t then x else { x with dtlb := (t :: x.dtlb.filter (fun u => !u.hit p asid va)).take Config.dtlbSize })
    s1.modCluster cl (fun x =>
      if x.l2tlb.contains t then x else { x with l2tlb := (t :: x.l2tlb.filter (fun u => !u.hit p asid va)).take Config.l2tlbSize })
  let fresh : XR (Xl × State) := do
    let (level, e, x, s1) ← s.walk d p asid va acc
    pure (x, if x.pa = leafBase e + va % 2 ^ pageBits level then put s1 ⟨p, asid, va % 2 ^ 56 / 2 ^ pageBits level, level, e⟩ else s1)
  match cached with
  | none => fresh
  | some t =>
    if acc.w && !bitAt t.pte 9 then fresh
    else match s.leafCheck d p acc va t.level t.pte with
      | .error cause => .error (cause, s)
      | .ok x =>
        let pa := s.redirect x.pa
        if pa ≠ x.pa then
          let s1 := s.modCore c (fun y => { y with itlb := y.itlb.filter (fun u => !u.hit p asid va), dtlb := y.dtlb.filter (fun u => !u.hit p asid va) })
          .ok ({ x with pa := pa }, s1.modCluster cl (fun y => { y with l2tlb := y.l2tlb.filter (fun u => !u.hit p asid va) }))
        else .ok (x, put s t)
def accR (priv : Nat) : Acc := ⟨true, false, false, false, priv, 0, true⟩
def accW (priv : Nat) : Acc := ⟨false, true, false, false, priv, 0, true⟩
def accA (priv : Nat) : Acc := ⟨true, true, false, true, priv, 0, true⟩
def accX (priv : Nat) : Acc := ⟨true, false, true, false, priv, 0, true⟩
def accPld (priv : Nat) : Acc := ⟨true, false, false, false, priv, 1, true⟩
/-- The spill engine's accesses: a valid entry of TYPE 3, no permission (R487). -/
def accSave : Acc := ⟨false, false, false, false, 1, 1, false⟩
/-- An EDGE range: validity alone (R487). -/
def accValid : Acc := ⟨false, false, false, false, 1, 2, false⟩
/-- Does the access bypass the caches: ATTR 1 or fabric-attached memory (R244, R252). -/
def Xl.direct (x : Xl) : Bool := x.attr == 1 || !coherent x.pa

end Sys2Proof.Machine
end

