-- ==== Sys2Proof/Machine/Ops.lean ====
section
/-! DEFINITION. The shared operations of strands: time, interrupts pending, parks, taking a trap and returning from one, fetch and resumption,
the mask stack, and the local store as a strand reads it. -/

namespace Sys2Proof.Machine

/-! ### Time (R13, R354) -/

def State.gtcAt (s : State) (k : Nat) : Nat := s.gtcOf (dieOfSlot k)
/-- A sequence number `v` covers `n` (R151, R293). -/
def covers (v n : W32) : Bool := decide (0 ≤ toSigned 32 (v - n).toNat)

/-! ### Interrupts pending (R78, R79) -/

/-- Is a message of the inbox addressed to the strand or task in a slot (R67, R368). -/
def State.msgFor (s : State) (k : Nat) (m : Msg) : Bool :=
  let x := s.slot k
  if m.core0 then slotNo k == 0
  else match m.task, x.job with
    | some t, .task c i g => decide (c = coreOf k) && t == i && g.toNat == m.gen
    | none, _ => decide ((16 * coreOf k + m.slot, m.gen) = x.bornAt k)
    | some _, _ => false
/-- IP as it reads: the latched bits and the two levels. -/
def State.ipOf (s : State) (k : Nat) : W64 :=
  let x := s.slot k
  let a := setBit (x.ip &&& 0x1C) 0 (decide (x.timecmp.toNat ≤ s.gtcAt k))
  setBit a 1 ((s.core (coreOf k)).inbox.any (s.msgFor k))
/-- The interrupt that is taken at the next boundary, if any: order 0x84, 0x82, 0x83, 0x80, 0x81. -/
def State.irqOf (s : State) (k : Nat) : Option Nat :=
  let x := s.slot k
  let p := s.ipOf k &&& x.ie
  if x.th then none
  else if bitAt p 4 then some 0x84
  else if !x.ien then none
  else if bitAt p 2 then some 0x82
  else if bitAt p 3 then some 0x83
  else if bitAt p 0 then some 0x80
  else if bitAt p 1 then some 0x81
  else none

/-! ### Taking a trap and returning from one (R78 to R82, R378 to R383) -/

/-- Delegation bits of UDELEG (R78). -/
def delegBit (code : Nat) : Option Nat :=
  if code = 0x08 then some 0 else if code = 0x0B then some 1 else if code = 0x10 then some 2 else if code = 0x11 then some 3 else none
/-- Causes that R378 marks as logged. -/
def logged (code : Nat) : Bool := (1 ≤ code && code ≤ 0x17 && code != 0x06) || (0x1A ≤ code && code ≤ 0x1C)
def causeDom (code : Nat) : Nat := if code = 0x06 ∨ code = 0x10 ∨ code = 0x11 then 0 else 1
/-- The code pointer that a trap to S places in p0 (R81, R368). -/
def State.kernelPtr (s : State) (c : Nat) : BitVec 128 :=
  match (s.core c).deleg with
  | some d => d.p0
  | none => Config.kernelCode
/-- What the native Sloem kernel does for a trap at S of a core that is not delegated (R336, R337, R386, R488). -/
def kernFor (code : Nat) (tval detail : W64) (task : Bool) : Kern :=
  if code = 0x06 then .fault detail.toNat
  else if code = 0x13 then .fault 4
  else if code = 0x18 then (if tval = 0xFFFF then .abort else .resume)
  else if code = 0x19 then .resume
  else if code ≥ 128 then (if task && (code == 0x80 || code == 0x84) then .preempt else .resume)
  else .abort
def Job.isTask : Job → Bool
  | .task .. => true
  | _ => false
/-- Writes the entry of a trap (R382, R383). -/
def State.logTrap (s : State) (k code : Nat) (dlg nest : Bool) (epc : Nat) (tval lanes detail : W64) : State :=
  s.logTo (dieOfSlot k) (s.partOf (clOfSlot k))
    { src := srcOfSlot k, code := code, dom := causeDom code, dlg := dlg, kind := 0, nest := nest, gang := s.gangNo k, epc := epc, tval := tval,
      fmask := lanes, detail := if code = 0x10 ∨ code = 0x11 ∨ code = 0x1A then detail else 0 }
/-- Entries of the register pool that a strand holds (R34). -/
def Slot.entries (x : Slot) : Nat := 8 * x.budget * popcount (natW x.slices)
def State.freePool (s : State) (c n : Nat) : State := s.modCore c (fun y => { y with poolUsed := y.poolUsed - n })
/-- Moves a strand's state to a save area. -/
def State.spillTo (s : State) (k : Nat) (a : W64) : State :=
  let x := s.slot k
  let s1 := s.freePool (coreOf k) x.entries
  let v : Save := ⟨s.partOfSlot k, a, k, { x with savea := a }⟩
  let s2 : State := { s1 with saves := s1.saves ++ [v] }
  let rest : Slot := { Slot.reset with phase := .spilled, job := x.job, gen := x.gen, savea := a, budget := x.budget, width := x.width, segs := x.segs, asid := x.asid, held := x.held, ip := x.ip }
  let s3 := s2.setSlot k rest
  let s4 := if x.width = 64 then s3.modSlot (k + 8) (fun u => { u with phase := .spilled }) else s3
  let ms := (s4.core (coreOf k)).inbox.filter (fun m => !m.core0 && s.msgFor k m)
  s4.modCore (coreOf k) (fun y => { y with inbox := y.inbox.filter (fun m => !ms.contains m), heldq := y.heldq ++ ms })
/-- A synchronous trap at S or F while TH is 1: the strand stops and the root slot receives 0x83 (R81, R380). -/
def State.stopAndSignal (s : State) (k code epc : Nat) (tval lanes detail : W64) : State :=
  let s1 := s.logTrap k code false true epc tval lanes detail
  let s2 := (s1.spillTo k (s1.slot k).savea).modSlot k (fun x => { x with kern := if (s.core (coreOf k)).deleg.isNone || slotNo k == 0 then some .abort else none })
  s2.raiseIp (coreOf k * 16) 3
/-- TakeTrap (R81). `epc` is the program counter it saves; `detail` the log entry's DETAIL, or the access kind of a page fault (R444). -/
def State.takeTrap (s : State) (k code epc : Nat) (tval lanes detail : W64) : State :=
  let x := s.slot k
  let covered := match delegBit code with
    | some b => decide (x.priv = 0) && bitAt x.udeleg b
    | none => false
  let toU := covered && !x.th
  if !toU && decide (x.priv ≠ 0) && x.th then s.stopAndSignal k code epc tval lanes detail
  else
    let st := setF (setF (setF (setF (setF (setF x.status 2 2 x.priv) 5 1 (b2n x.ien)) 7 1 (b2n x.th)) 4 1 0) 6 1 1) 0 2 (if toU then 0 else 1)
    let y := { x with phase := .running, park := none, clause := none, hdrWait := false, resuming := false, replay := none, resumed := false, sc := none, reported := false
                      epc := natW epc, cause := natW (code + 256 * b2n toU), tval := tval, fmask := lanes, lfm := lanes, status := st }
    let z := if toU then { y with pc := x.utvec }
      else { y with shadow0 := x.preg 0, shadow1 := x.preg 1, pc := x.tvec,
                    kern := if (s.core (coreOf k)).deleg.isNone then some (kernFor code tval detail x.job.isTask) else none }
    let z := if toU then z else z.setP 0 (s.kernelPtr (coreOf k))
    let s1 := s.setSlot k z
    if logged code then s1.logTrap k code toU false epc tval lanes detail else s1
/-- The part of `eret` that restores STATUS and, from S, the pointers (R82, steps 2 and 3). DEDUCED: PPRIV, PIE and PTH then read zero, as in the
example of R82 (log entry 20). -/
def State.eretRestore (s : State) (k : Nat) : State :=
  s.modSlot k (fun x =>
    let st := natW (wf x.status 2 2 + 16 * wf x.status 5 1 + 64 * wf x.status 7 1)
    let y := { x with status := st }
    if bitAt x.cause 8 then y else (y.setP 0 x.shadow0).setP 1 x.shadow1)
/-- Takes an interrupt: EPC names the first instruction not yet issued, and a latched bit is cleared (R79, R81). -/
def State.takeIrq (s : State) (k code : Nat) : State :=
  let s1 := s.modSlot k (fun x =>
    { x with replayHeld := x.replay.map (fun m => (x.pc, m)) <|> x.replayHeld
             ip := if code = 0x84 then setBit x.ip 4 false else if code = 0x82 then setBit x.ip 2 false else if code = 0x83 then setBit x.ip 3 false else x.ip })
  s1.takeTrap k code (s.slot k).pc 0 0 0

/-! ### Lanes of a trap without a lane mask (R81) -/

/-- The word of a clause at a program counter. -/
def Clause.at_ (c : Clause) (pc : Nat) : Option W64 := if c.off < pc then c.words[(pc - c.off) / 2 - 1]? else none
/-- The instruction word that a strand issues next; `none` while it fetches a clause or waits at a header. -/
def Slot.word (x : Slot) : Option W64 := if x.hdrWait || x.resuming then none else x.clause.bind (fun c => c.at_ x.pc)
/-- The predicate that a word reads: that of lane instructions, `vext`, `vcall`, `sow` and the mask instructions of R180; all lanes for any other. -/
def wordPred (w : W64) : Pred :=
  let op := wf w 56 8
  if sowable op || [0x40, 0x41, 0x4A, 0x4C, 0x4D].contains op then (Pred.ofCode (wf w 16 4)).getD ⟨0, false⟩ else ⟨0, false⟩
/-- FMASK of a cause without a lane mask: m0 ANDed with the predicate of the instruction at the program counter (R81, R378, R411). -/
def Slot.trapLanes (x : Slot) : W64 :=
  match x.word with
  | some w => x.m0 &&& x.predMask (wordPred w)
  | none => x.m0

/-! ### Parks (R38, R409 to R411, R415) -/

/-- WKIND of a park; 16 for barriers, 17 for parks with no limit. -/
def Await.wkind : Await → Nat
  | .sreg _ | .inbox => 0
  | .lanes .. => 1
  | .lsFull _ | .lsTake _ | .lsEmpty _ => 2
  | .credit _ out _ => if out then 0 else 3
  | .remote _ ack _ _ => if ack then 11 else 3
  | .tray => 4
  | .furrowFilled _ | .furrowFree _ => 5
  | .accept _ | .accepted .. => 6
  | .seq0 _ | .seq1 _ => 7
  | .counter .. => 8
  | .pool _ => 9
  | .heldRoom _ => 10
  | .group .. | .numbered .. => 16
  | .cdc .. | .reply _ | .hostLine .. | .tick _ | .fault _ | .faultRing | .wrack _ | .irq => 17
/-- Is the awaited event a memory reply: the access itself completes in the cycle of the reply, whatever slot that cycle belongs to (R20, R32). -/
def Await.memReply : Await → Bool
  | .cdc .. | .hostLine .. | .tick _ | .wrack _ => true
  | _ => false
/-- WHAT of the wait descriptor (R410). -/
def Await.what : Await → Nat
  | .sreg r => r
  | .inbox => 60
  | .lanes r _ => r
  | .lsFull w | .lsTake w | .lsEmpty w => 8 * w
  | .credit _ _ w => w
  | .remote _ _ _ w => w
  | .furrowFilled f | .furrowFree f => f
  | .seq0 n | .seq1 n => n.toNat
  | .counter c t => c * 65536 + t
  | _ => 0
def Await.peer : Await → Nat
  | .remote _ _ p _ => p
  | .heldRoom c => srcOfSlot (16 * c)
  | .credit c out _ => if out then 0 else srcOfSlot (16 * c)
  | _ => 0
def waitDesc (a : Await) (peer : Nat) : W64 := natW (a.wkind % 16 * 2 ^ 60 + peer % 65536 * 2 ^ 32 + a.what % 2 ^ 32)
/-- The location whose `expect` binding an awaited event concerns (R268). -/
def Await.loc : Await → Option ExpLoc
  | .sreg r => some (.reg r)
  | .inbox => some .inbox
  | .lsFull w | .lsTake w => some (.ls w)
  | _ => none
/-- The rank of an orphaned producer of an awaited location. -/
def Slot.orphan (x : Slot) (a : Await) : Option Nat :=
  match a.loc with
  | some l => (x.binds.find? (fun b => b.orphaned && decide (b.loc = l))).map (·.rank)
  | none => none
/-- The park on an event: one that goes on keeps its limit, its count and its place, `n` is the place of a new one (R38, R254). -/
def Slot.parkOn (x : Slot) (a : Await) (header : Bool) (n : Nat) : Park :=
  match x.park with
  | some q => if q.on = a then q else ⟨a, x.wlim.toNat % 2 ^ 32, 0, header, n⟩
  | none => ⟨a, x.wlim.toNat % 2 ^ 32, 0, header, n⟩
/-- Parks the strand at its instruction, or traps "orphaned wait" at once (R38, R415). -/
def State.doPark (s : State) (k : Nat) (a : Await) (header : Bool) : State :=
  let x := s.slot k
  match x.orphan a with
  | some r => s.takeTrap k 0x0C x.pc (waitDesc a r) x.trapLanes 0
  | none => { s with nextWait := s.nextWait + 1 }.setSlot k { x with phase := .parked, park := some (x.parkOn a header s.nextWait) }
/-- Is a reply of the memory side outstanding for a strand, before which its spill does not begin (R45, R280). -/
def Slot.replyDue (x : Slot) : Bool := x.sc.isSome || x.park.any (fun p => p.on.memReply)
/-- Does an access that came to wait before place `n` stand at a word of core `c`: a strand parked for the same test, or for a writer a remote write that
has arrived (R51, R254). -/
def State.lsOlder (s : State) (c n w : Nat) (a : Await) : Bool :=
  (List.range 16).any (fun j => (s.slot (16 * c + j)).park.any (fun p => decide (p.on = a) && decide (p.since < n))) ||
    (decide (a = .lsEmpty w) && s.net.any (fun m => m.kind == .sputfe && m.waiting && !m.withdraw && m.core == c && m.at_ == 8 * w && decide (m.since < n)))
/-- The place of an access: that of its park, or the next for one that has not waited. -/
def State.waitPlace (s : State) (k : Nat) (a : Await) : Nat := ((s.slot k).park.bind (fun p => if p.on = a then some p.since else none)).getD s.nextWait
/-- May one more message that nobody awaits be sent to a core: a link has at least one credit for each target, and how many is a free value (R67, R280,
log entry 77). -/
def State.credit (s : State) (c : Nat) : Bool :=
  let n := (s.net.filter (fun m => m.core == c && !m.waiting && (m.kind == .out || m.kind == .cntdec || m.kind == .taskdec))).length
  n == 0 || decide (n ≤ Config.netCredits)
/-- What a message from slot `k` to core `c` waits for before it is sent: room in the held-message area that it needs, or a network credit (R67, R335). -/
def State.outWait (s : State) (k c : Nat) : Option Await :=
  let o := (s.slot k).outdst
  let kind := wf o 16 2
  if 256 ≤ (s.core c).heldq.length ∧ (kind = 1 ∧ (s.slot (16 * c + wf o 0 4)).phase = .spilled ∨ kind = 2 ∧ wf (s.lsWord c (8 * wf o 19 9)) 52 4 ≠ 3) then some (.heldRoom c)
  else if !s.credit c then some (.credit c true 61)
  else none
/-- Counter C has reached T (R300). -/
def reached (c t : BitVec 16) : Bool := decide (0 ≤ toSigned 16 (c - t).toNat)
def Furrow.filled (f : Furrow) : Nat := f.pub - f.tak
def Furrow.free (f : Furrow) : Nat := f.nsl + 1 - (f.res - f.giv)
/-- Does a waiter still wait at its furrow: a resident strand parked there, or a command not yet started. -/
def State.waits (s : State) (cl : Nat) : Waiter → Bool
  | .strand k g => (s.slot k).gen == g && (match (s.slot k).park with
    | some p => (match p.on with
      | .furrowFilled _ | .furrowFree _ => true
      | _ => false)
    | none => false)
  | .cmd n => (s.cluster cl).cmds.any (fun c => c.seq == n && !c.started)
/-- The first of a furrow's waiters (R295). -/
def State.headWaiter (s : State) (cl : Nat) (q : List Waiter) : Option Waiter := q.find? (s.waits cl)
/-- Has the awaited event of a park completed. -/
def State.awaitMet (s : State) (k : Nat) : Await → Bool
  | .sreg r => ((s.slot k).sreg r).full
  | .inbox => (s.core (coreOf k)).inbox.any (s.msgFor k)
  | .lanes r m => (lanesOf m).all (fun l => ((s.slot k).vreg r l).full)
  | .lsFull w => !s.wordEmpty (coreOf k) w
  | .lsTake w => !s.wordEmpty (coreOf k) w && !s.lsOlder (coreOf k) (s.waitPlace k (.lsTake w)) w (.lsTake w)
  | .lsEmpty w => s.wordEmpty (coreOf k) w && !s.lsOlder (coreOf k) (s.waitPlace k (.lsEmpty w)) w (.lsEmpty w)
  | .remote .. => match (s.slot k).remote with
    | some r => r.done.isSome
    | none => true
  | .tray => decide ((s.core (coreOf k)).tray.length < 4)
  | .furrowFilled f =>
    let x := mget Furrow.zero (s.cluster (clOfSlot k)).furrows f
    x.filled != 0 && (s.headWaiter (clOfSlot k) x.takq).getD (.strand k (s.slot k).gen) == .strand k (s.slot k).gen
  | .furrowFree f =>
    let x := mget Furrow.zero (s.cluster (clOfSlot k)).furrows f
    x.free != 0 && (s.headWaiter (clOfSlot k) x.resq).getD (.strand k (s.slot k).gen) == .strand k (s.slot k).gen
  | .accept t => (s.cluster (clOfSlot k)).pend.all (fun c => c.ticket != t)
  | .accepted d _ => d != 61 || (coreOfSrc (wf (s.slot k).outdst 0 16)).all (fun c => (s.outWait k c).isNone)
  | .seq0 n => covers (s.cluster (clOfSlot k)).seq0 n
  | .seq1 n => covers (s.cluster (clOfSlot k)).seq1 n
  | .counter c t => reached (mget ⟨.gang 0, 0, 0, 0⟩ (s.cluster (clOfSlot k)).counters c).val (BitVec.ofNat 16 t)
  | .pool n => decide ((s.core (coreOf k)).poolUsed + n ≤ 65536)
  | .heldRoom c => decide ((s.core c).heldq.length < 256)
  | .credit c _ _ => s.credit c
  | .reply t => !(s.slot t).replyDue
  | .group g n ph => match s.gang? g with
    | some x => decide (ph < mget 0 x.phases n)
    | none => true
  | .numbered n ph => decide (ph < (mget NBar.reset (s.cluster (clOfSlot k)).nbars n).phase)
  | .cdc blk w => s.cdcOk (coreOf k) blk w || !s.reach (dieOfSlot k) (128 * blk)
  | .tick t => decide (t ≤ s.gtcAt k)
  | .wrack id => s.coh.all (fun m => m.id != id)
  | .hostLine l inv => let v := mget 0 (s.die (s.homeOf (64 * l))).filter l % 4
    if inv then v == 0 else v != 2
  | .fault _ | .faultRing => false
  | .irq => (s.irqOf k).isSome || (s.core (coreOf k)).rqEvent

/-! ### The sequencer's report (R309) -/

/-- Is a save area the one in which the Spilled or held strand of its slot stands (R45, R364). -/
def State.current (s : State) (v : Save) : Bool :=
  let x := s.slot v.slot
  x.held.any (fun h => h.1 == v.addr) || (x.phase == .spilled && x.held.isNone && x.savea == v.addr)
/-- The sequencer of a cluster stops; every strand of its gang block takes the cause: at the next boundary, at its parked instruction, or at reload. -/
def State.seqStop (s : State) (cl code tile : Nat) : State :=
  let c := s.cluster cl
  let tv : W64 := natW (2 ^ 63 + (if code = 0x16 then tile * 2 ^ 32 else 0) + c.seqPc % 2 ^ 24)
  let s1 := s.setCluster cl { c with seqPhase := .stopped, matHaz := none }
  let ks := (mkeys s.slots).filter (fun k => clOfSlot k == cl && (s.slot k).job.gangOf == some c.seqGang && (s.slot k).pairOf.isNone)
  let s2 := ks.foldl (fun t k =>
    match (t.slot k).phase with
    | .running => t.modSlot k (fun x => { x with seqRep := some (code, tv) })
    | .parked => (match ((t.slot k).park.map (fun p => p.on) : Option Await) with
      | some (.remote id _ _ _) => { t.modSlot k (fun x => { x with seqRep := some (code, tv) }) with
          net := t.net.map (fun n => if n.id = id then { n with withdraw := true } else n) }
      | some (.accept n) => ((t.modCluster cl (fun x => { x with pend := x.pend.filter (fun m => m.ticket != n) })).takeTrap k code (t.slot k).pc tv 0 0).modSlot k
          (fun x => { x with reported := true })
      | _ => (t.takeTrap k code (t.slot k).pc tv 0 0).modSlot k (fun x => { x with reported := true }))
    | _ => t) s1
  let s2 := { s2 with saves := s2.saves.map (fun v =>
    if clOfSlot v.slot == cl && v.img.job.gangOf == some c.seqGang && s.current v then { v with img := { v.img with seqRep := some (code, tv) } } else v) }
  if code = 0x14 ∨ code = 0x15 ∨ code = 0x16 then
    s2.logTo (dieOfCl cl) (s.partOf cl) { evEntry (srcOfCl cl 17) code 1 2 tv 0 with gang := c.seqGang % 65536, epc := c.seqPc }
  else s2

/-! ### Issue of an instruction (R191, R389) -/

/-- A trap of an instruction: TVAL the word and FMASK the lanes where it names none. FMASK limits a rerun only when the cause carries a lane mask (R82, R397). -/
def State.trapAt (s : State) (k pc : Nat) (word lanes : W64) (t : Trap) : State :=
  (s.takeTrap k t.code pc (t.tval.getD word) (t.lanes.getD lanes) t.detail).modSlot k (fun y => { y with reported := t.lanes.isNone })
/-- A stop of an instruction takes effect: its trap, or its park. -/
def State.stop (s : State) (k : Nat) (word lanes : W64) : Stop → State
  | .trap t => s.trapAt k (s.slot k).pc word lanes t
  | .trapWith s' t => s'.trapAt k (s.slot k).pc word lanes t
  | .park a => s.doPark k a false
  | .parkWith s' a => s'.doPark k a false
/-- Opcodes that take two issues of a width-64 strand: the cross-lane instructions, and `vbs`, `vext` and `vins`, which move values between lanes and
scalar registers (R59). -/
def twoIssues (op : Nat) : Bool := (0x7C ≤ op && op ≤ 0x81) || (0x64 ≤ op && op ≤ 0x66)
/-- After two issues, at n and n + 16, the next instruction issues at n + 32 (R59). -/
def Slot.rested (x : Slot) (op cycle : Nat) : Slot := if x.width == 64 && twoIssues op then { x with ready := cycle + 17 } else x
/-- An instruction completes: the next one of the clause follows, and what restricted its lanes ends (R186, R397). -/
def State.advance (s : State) (k : Nat) : State :=
  (if s.uio.isEmpty then s else { s with uio := s.uio.filter (fun e => e.1 != .slot k) }).modSlot k (fun x =>
    { x.rested (wf (x.word.getD 0) 56 8) s.cycle with pc := x.pc + 2, replay := none, resumed := false, park := none })
/-- Executing lanes of an instruction with a predicate: m0 AND Pred, and after `eret` the lanes it reruns (R180, R227, R397). -/
def Slot.exec (x : Slot) (p : Pred) : W64 := x.m0 &&& x.predMask p &&& x.replay.getD (BitVec.allOnes 64)
def allLanes : Pred := ⟨0, false⟩
/-- The instruction word, TVAL of a trap that names no other (R389). -/
def wordOf (i : Instr) : W64 := (encode i).getD 0

/-! ### Pages and code, as a strand reaches them -/

/-- A translation that fails inside an instruction: 0x10 and 0x11 keep the state they found (R435, R436); `acc` is the access kind of R444. -/
def ofX {α : Type} (acc : Nat) (va : Nat) (lanes : Option W64) : XR α → Res α
  | .ok a => .ok a
  | .error (c, s') =>
    let code := c % 256
    if code = 0x10 ∨ code = 0x11 then .error (.trapWith s' ⟨code, some (natW va), some (lanes.getD 1), natW (c / 256)⟩)
    else .error (.trap ⟨code, some (natW va), lanes, natW acc⟩)
def State.xlateS (s : State) (k : Nat) (acc : Acc) (kind va : Nat) : Res (Xl × State) :=
  ofX kind va none (s.xlate (coreOf k) (s.partOfSlot k) (s.slot k).asid acc va)
/-- The outcome of a data check of a control-thread access: poison is FMASK 1 and DETAIL the block (R435). -/
def okData (st pa : Nat) (va : Nat) (s' : State) : Res Unit :=
  if st = 0 then .ok () else .error (.trapWith s' ⟨st, some (natW va), some 1, natW (pa / 128 * 128)⟩)
/-- Puts a code word into the instruction cache of 8,192 words; when it is full the word of the lowest address leaves (R22; log entry 9). -/
def Core.icPut (x : Core) (at_ : Nat) (v : W64) : Core :=
  { x with icache := mput (if 8192 ≤ x.icache.length then x.icache.drop 1 else x.icache) at_ v }
/-- The code word at a code-word offset of a code pointer, through the instruction cache, which holds no word of an uncached page or of fabric-attached
memory (R135, R144, R175, R177, R189, R393). -/
def State.codeWord (s : State) (k : Nat) (p0 : BitVec 128) (off : Int) : Res (W64 × State) := do
  let t := intW off
  if off < 0 ∨ off ≥ 16777216 ∨ pSP p0 then raiseV 0x03 t
  match checkAccess p0 (4 * off) 8 5 with
  | none => raiseV 0x03 t
  | some va =>
    let (x, s1) ← s.xlateS k (accX (s.slot k).priv) 3 va
    let c := coreOf k
    match if x.direct then none else (s1.core c).icache.find? (fun e => e.1 == x.pa / 8) with
    | some e => pure (e.2, s1)
    | none =>
      let (st, v, s2) := s1.readAt x.direct (s1.partOf (clOfCore c)) (dieOfCore c) x.pa 8
      okData st x.pa va s2
      pure (natW v, if x.direct then s2 else s2.modCore c (fun y => y.icPut (x.pa / 8) (natW v)))
def isHdr (w : W64) : Bool := wf w 56 8 == 0xFF
/-- Checks a control transfer's target, which must be a clause header (R395). -/
def State.checkTarget (s : State) (k : Nat) (p0 : BitVec 128) (t : Int) : Res State := do
  if t % 2 ≠ 0 then raiseV 0x05 (intW t)
  let (w, s1) ← s.codeWord k p0 t
  ensureV (isHdr w) 0x01 (intW t)
  pure s1
/-- Goes to a checked header: the next step fetches its clause. -/
def State.goto (s : State) (k t : Nat) : State :=
  s.modSlot k (fun x => { x with pc := t, clause := none, hdrWait := false, resuming := false, replay := none, resumed := false, park := none })
/-- The words of a clause after its header. -/
def State.clauseWords (s : State) (k : Nat) (p0 : BitVec 128) (off : Nat) : Nat → Res (List W64 × State)
  | 0 => .ok ([], s)
  | n + 1 => do
    let (w, s1) ← s.codeWord k p0 (off + 2)
    let (ws, s2) ← s1.clauseWords k p0 (off + 2) n
    pure (w :: ws, s2)
/-- Reads back from a resume offset to the enclosing header, at most 32 code words (R187). -/
def State.findHdr (s : State) (k : Nat) (p0 : BitVec 128) (t : Int) : Nat → Res (Option (Nat × W64) × State)
  | 0 => .ok (none, s)
  | n + 1 =>
    if t < 0 then .ok (none, s)
    else do
      let (w, s1) ← s.codeWord k p0 t
      if isHdr w then pure (some (t.toNat, w), s1) else s1.findHdr k p0 (t - 2) n
/-- Resumes at a resume point, a return address or EPC (R48, R187, R396): the enclosing clause is fetched and its waits are not evaluated, unless
the offset is a header. A clause of the matrix stream runs no strand (R188); TVAL is the offset, as for the other failures of R187 (log entry 78). -/
def State.resumeAt (s : State) (k : Nat) (t : Int) : Res State := do
  if t % 2 ≠ 0 then raiseV 0x05 (intW t)
  let p0 := (s.slot k).preg 0
  let (w, s1) ← s.codeWord k p0 t
  if isHdr w then pure (s1.goto k t.toNat)
  else
    let (h, s2) ← s1.findHdr k p0 (t - 2) 16
    match h with
    | none => raiseV 0x01 (intW t)
    | some (off, hw) =>
      let n := wf hw 52 4 + 1
      if t.toNat > off + 2 * n ∨ bitAt hw 51 then raiseV 0x01 (intW t)
      let (ws, s3) ← s2.clauseWords k p0 off n
      pure (s3.modSlot k (fun x => { x with pc := t.toNat, clause := some ⟨off, hw, ws⟩, hdrWait := false, resuming := false, replay := none, resumed := false, park := none }))
/-- Entry `j` of the table that a pointer names, with the checks of `pld` (R137, R263). -/
def State.loadPtr (s : State) (k : Nat) (p1 : BitVec 128) (j : Nat) : Res (BitVec 128 × State) := do
  if pSP p1 then raiseV 0x04 (natW (pCur p1 + 16 * j))
  match checkAccess p1 (16 * j) 16 1 with
  | none => raiseV 0x04 (natW (pCur p1 + 16 * j))
  | some va =>
    if va % 16 ≠ 0 then raiseV 0x05 (natW va)
    let (x, s1) ← s.xlateS k (accPld (s.slot k).priv) 0 va
    let (st, v, s2) := s1.cread (s1.partOf (clOfSlot k)) (dieOfSlot k) x.pa 16
    okData st x.pa va s2
    pure (BitVec.ofNat 128 v, s2)

/-! ### The mask stack (R47, R74, R214) -/

structure MsEntry where
  kind : Nat
  resume : Nat
  mask : W64
deriving DecidableEq, Repr
/-- Hardware entries of an entry, top first (R74). -/
def MsEntry.words (e : MsEntry) (wide : Bool) : List W64 :=
  let lo := natW (e.kind * 2 ^ 56 + e.resume % 2 ^ 24 * 2 ^ 32 + e.mask.toNat % 2 ^ 32)
  if wide then [natW (e.mask.toNat / 2 ^ 32), lo] else [lo]
def msEntryOf (up lo : W64) : MsEntry := ⟨wf lo 56 4, wf lo 32 24, natW (wf lo 0 32 + wf up 0 32 * 2 ^ 32)⟩
def Slot.wide (x : Slot) : Bool := x.width == 64
def Slot.msUsed (x : Slot) : Nat := wf x.msbase 48 14
def Slot.msAddr (x : Slot) (i : Nat) : Nat := wf x.msbase 3 15 * 8 + 8 * i
/-- Hardware entries of the whole stack. -/
def Slot.msLen (x : Slot) : Nat := x.stack.length + x.msUsed
/-- Depth in entries. -/
def Slot.depth (x : Slot) : Nat := if x.wide then x.msLen / 2 else x.msLen
/-- The `i`-th hardware entry from the top, spilled ones included. -/
def State.msWord (s : State) (k i : Nat) : W64 :=
  let x := s.slot k
  if i < x.stack.length then nth 0 x.stack i
  else s.lsWord (coreOf k) (x.msAddr (x.msUsed - 1 - (i - x.stack.length)) / 8)
/-- The entry at depth `d`, 0 the top. -/
def State.msEntry (s : State) (k d : Nat) : MsEntry :=
  if (s.slot k).wide then msEntryOf (s.msWord k (2 * d)) (s.msWord k (2 * d + 1)) else msEntryOf 0 (s.msWord k d)
/-- The hardware entry that holds an entry's fields (its TVAL in a trap). -/
def State.msRaw (s : State) (k d : Nat) : W64 := if (s.slot k).wide then s.msWord k (2 * d + 1) else s.msWord k d
/-- Can the stack and its area take `n` more hardware entries (R47, R214). -/
def Slot.msRoom (x : Slot) (n : Nat) : Bool :=
  let spills := x.stack.length + n - 16
  spills == 0 || (let last := x.msUsed + spills
    decide (last ≤ wf x.msbase 32 14) && decide (x.msAddr last ≤ 262144))
/-- Pushes one hardware entry; a full stack first writes its bottom entry to the area. -/
def State.msPush1 (s : State) (k : Nat) (w : W64) : State :=
  let x := s.slot k
  if x.stack.length < 16 then s.setSlot k { x with stack := w :: x.stack }
  else
    let s1 := s.lsWrite (coreOf k) (x.msAddr x.msUsed) 8 (x.stack.getLast?.getD 0).toNat
    s1.setSlot k { x with stack := w :: x.stack.dropLast, msbase := setF x.msbase 48 14 (x.msUsed + 1) }
def State.msPush (s : State) (k : Nat) (e : MsEntry) : State := ((e.words (s.slot k).wide).reverse).foldl (fun t w => t.msPush1 k w) s
/-- Removes the top `n` entries and any link record bound to them. -/
def State.msDrop (s : State) (k n : Nat) : State :=
  s.modSlot k (fun x =>
    let h := if x.wide then 2 * n else n
    let d := x.depth - n
    { x with stack := x.stack.drop h, msbase := setF x.msbase 48 14 (x.msUsed - (h - x.stack.length)), links := x.links.filter (fun l => l.depth ≤ d) })
/-- Replaces the `i`-th hardware entry from the top. -/
def State.msSet1 (s : State) (k i : Nat) (w : W64) : State :=
  let x := s.slot k
  if i < x.stack.length then s.setSlot k { x with stack := setNth x.stack i w }
  else s.lsWrite (coreOf k) (x.msAddr (x.msUsed - 1 - (i - x.stack.length))) 8 w.toNat
def State.msSet (s : State) (k d : Nat) (e : MsEntry) : State :=
  let ws := e.words (s.slot k).wide
  (List.range ws.length).foldl (fun t j => t.msSet1 k (ws.length * d + j) (nth 0 ws j)) s
/-- The words of the area in which the entry at depth `d` stands. -/
def State.msWords (s : State) (k d : Nat) : List Nat :=
  let x := s.slot k
  let n := if x.wide then 2 else 1
  ((List.range n).filter (fun j => decide (x.stack.length ≤ n * d + j))).map (fun j => x.msAddr (x.msUsed - 1 - (n * d + j - x.stack.length)) / 8)
/-- Would reading the entry at depth `d` read a poisoned word of the area (R435). -/
def State.msPois (s : State) (k d : Nat) : Bool := (s.msWords k d).any (s.wordPois (coreOf k))
/-- Reading the entry at depth `d` stops on a poisoned word. -/
def State.msCheck (s : State) (k d : Nat) : Res Unit :=
  if s.msPois k d then s.poisStop k ((s.msWords k d).map (.lsw (coreOf k))) ⟨0x11, some 0, some 1, 0⟩ else .ok ()
/-- Push with the check of R214; a hardware entry count of several pushes is checked first. -/
def State.pushChecked (s : State) (k : Nat) (es : List MsEntry) : Res State := do
  let x := s.slot k
  ensureV (x.msRoom (es.length * if x.wide then 2 else 1)) 0x17 1
  pure (es.foldl (fun t e => t.msPush k e) s)
/-- The top entry, for a pop (R214, R422). -/
def State.topEntry (s : State) (k : Nat) : Res MsEntry := do
  ensureV ((s.slot k).depth != 0) 0x17 0
  s.msCheck k 0
  pure (s.msEntry k 0)
/-- Number of pending paths (KIND 0) at the top of the stack: siblings of the running path (R49). -/
def State.siblings (s : State) (k : Nat) : Nat :=
  let n := (s.slot k).depth
  ((List.range n).takeWhile (fun d => (s.msEntry k d).kind == 0)).length
/-- A path of a forced reconvergence after a demotion beside `n` siblings, of which the top has mask `top`: with no entries of its own the sibling is the
path that runs; where its own entries all belong to the run, the demoted lanes leave it (R49, R50). -/
def Slot.demoted (x : Slot) (n : Nat) (top : W64) (r : Reconv) : Reconv :=
  if n ≤ x.depth - r.d0 then r
  else if x.depth ≤ r.d0 then { r with cur := top &&& x.m7, d0 := x.depth }
  else { r with cur := r.cur &&& ~~~ x.m0, d0 := r.d0 + 1 }
/-- Path demotion (R49): the running path goes beneath its lowest sibling, to resume at `next`, and the topmost sibling runs. -/
def State.demote (s : State) (k next : Nat) : State :=
  let n := s.siblings k
  if n = 0 then s
  else
    let top := s.msEntry k 0
    let s1 := (List.range (n - 1)).foldl (fun t d => t.msSet k d (s.msEntry k (d + 1))) s
    let s2 := s1.msSet k (n - 1) ⟨0, next, (s.slot k).m0⟩
    s2.modSlot k (fun x => { x.setM 0 top.mask with reconv := if x.th then x.reconv else x.reconv.map (fun r => if r.done then r else (s.slot k).demoted n top.mask r), pc := top.resume, clause := none, hdrWait := false, resuming := true, replay := none, resumed := false })

/-! ### The own local store (R245, R251, R254) -/

/-- A read of `n` bytes at the LS port: parks while a word is empty; a poisoned word is consumed as 0x11. -/
def State.lsLoad (s : State) (k off n : Nat) : Res Nat := do
  let c := coreOf k
  match (wordsOf off n).find? (fun w => s.wordEmpty c w) with
  | some w => parkOn (.lsFull w)
  | none =>
    if (wordsOf off n).any (fun w => s.wordPois c w) then s.poisStop k ((wordsOf off n).map (.lsw c)) ⟨0x11, some (natW off), some 1, 0⟩
    pure (s.lsRead c off n)
/-- The checks of a local-store address: range, then alignment (R251); `al` is the alignment. -/
def lsAddr (a : Int) (n al : Nat) : Res Nat := do
  if a < 0 ∨ a + n > 262144 then raiseV 0x04 (intW a)
  if a % al ≠ 0 then raiseV 0x05 (intW a)
  pure a.toNat

end Sys2Proof.Machine
end

