-- ==== Sys2Proof/Machine/Operands.lean ====
section
/-! DEFINITION. Operand forms: scalar registers with their ports, vector registers by lane, messages from `out`, and how an instruction of a strand
or of the matrix stream is issued. -/

namespace Sys2Proof.Machine

/-! ### Scalar operands (R66, R67, R72, R73, R432, R435) -/

/-- Values a k-register read may return: the current one, or one overwritten in the 15 cycles before (R73). -/
def pickK (cyc free : Nat) (cur : W64) : List (W64 × Nat) → Nat → W64
  | [], _ => cur
  | (v, w) :: t, i => if cyc < w + 16 ∧ Config.freeChoice (free + i) then v else pickK cyc free cur t (i + 1)
/-- Reads a scalar source of slot `k`; `fm` is the FMASK of a poisoned source. -/
def rdSc (k : Nat) (fm : W64) (n : Nat) (s : State) : Res (W64 × State) :=
  let x := s.slot k
  if n = 0 then .ok (0, s)
  else if n < 60 then
    let r := x.sreg n
    if !r.full then parkOn (.sreg n)
    else if r.pois then s.poisStop k [.sreg k n] ⟨0x11, none, some fm, 0⟩
    else .ok (r.val, s)
  else if n = 60 then
    let c := s.core (coreOf k)
    match c.inbox.find? (s.msgFor k) with
    | some m => .ok (m.val, s.setCore (coreOf k) { c with inbox := c.inbox.erase m })
    | none => parkOn .inbox
  else if n = 62 then
    match x.job.gangOf.bind s.gang? with
    | some g =>
      if g.work < (lrw g.lrec 1).toNat then .ok (natW g.work, s.modGang g.id (fun y => { y with work := y.work + 1 }))
      else .ok (BitVec.allOnes 64, s)
    | none => .ok (Config.openWord s.free, { s with free := s.free + 1 })
  else if n = 63 then .ok (natW (s.gtcAt k), s)
  else
    let c := s.core (coreOf k)
    let i := n - 64
    let old := mget [] c.kold i
    let v := mget 0 c.k i
    if c.kpois.contains i then s.poisStop k [.kreg (coreOf k) i] ⟨0x11, none, some fm, 0⟩
    else if old.any (fun e => s.cycle < e.2 + 16 && e.1 != v) then
      .ok (pickK s.cycle s.free v old 0, { s with free := s.free + old.length })
    else .ok (v, s)
/-- Reads scalar sources in order. -/
def rdScs (k : Nat) (fm : W64) : List Nat → State → Res (List W64 × State)
  | [], s => .ok ([], s)
  | n :: t, s => do
    let (v, s1) ← rdSc k fm n s
    let (vs, s2) ← rdScs k fm t s1
    pure (v :: vs, s2)
/-- Sends a value by `out` to the destination in OUTDST (R67, R335, R426); it parks while the held-message area that the message needs is full, and
for want of a network credit. -/
def sendOut (k : Nat) (v : W64) (s : State) : Res State :=
  let x := s.slot k
  let o := x.outdst
  let kind := wf o 16 2
  match coreOfSrc (wf o 0 16) with
  | none => raiseV 0x1B o
  | some c =>
    if kind = 3 ∨ s.partOf (clOfCore c) ≠ s.partOf (clOfSlot k) then raiseV 0x1B o
    else match s.outWait k c with
      | some a => parkOn a
      | none =>
        let ack := bitAt o 18
        let (s1, id) := s.sendNet ⟨0, .out, srcOfSlot k, c, wf o 0 4, wf o 32 32, wf o 19 9, v, natW kind, 0, ack, kind == 2, false, false, false, 0⟩
        if ack then
          .error (.parkWith (s1.modSlot k (fun y => { y with remote := some ⟨id, none⟩ })) (.remote id true (srcOfSlot (16 * c)) 0))
        else .ok s1
/-- The latest cycle in which a slot could issue: a register that a reply writes later counts from there, so that the slot's next instruction reads it (R21,
R73). -/
def State.ownCycle (s : State) (k : Nat) : Nat := s.cycle - (s.cycle - (s.core (coreOf k)).cyc0 + 16 - k % 16) % 16
/-- Writes a scalar destination. -/
def wrSc (k n : Nat) (v : W64) (s : State) : Res State :=
  if n = 0 then .ok s
  else if n < 60 then .ok (s.modSlot k (fun x => { x.setS n v with binds := x.binds.filter (fun b => b.loc != .reg n) }))
  else if n = 61 then sendOut k v s
  else
    .ok (s.modCore (coreOf k) (fun c =>
      let i := n - 64
      { c with k := mset 0 c.k i v, kpois := c.kpois.filter (· != i)
               kold := mput c.kold i ((mget 0 c.k i, s.ownCycle k) :: (mget [] c.kold i).filter (fun e => s.cycle < e.2 + 16)) }))

/-! ### Vector operands (R66, R68, R69, R228) -/

/-- The registers of a vector field of a type. -/
def regsOf (wide : Bool) (r : Nat) : List Nat := if wide then [r, r + 1] else [r]
/-- A lane's value in a register or an even/odd pair. -/
def Slot.lane (x : Slot) (wide : Bool) (r l : Nat) : Nat :=
  if wide then (x.vreg r l).val.toNat + 2 ^ 32 * (x.vreg (r + 1) l).val.toNat else (x.vreg r l).val.toNat
/-- Writes a lane of a register or a pair. -/
def Slot.setLane (x : Slot) (wide : Bool) (r l v : Nat) : Slot :=
  let y := x.setV r l (BitVec.ofNat 32 v)
  if wide then y.setV (r + 1) l (BitVec.ofNat 32 (v / 2 ^ 32)) else y
/-- The first register of a list that is empty in a lane of `e`. -/
def Slot.emptyReg (x : Slot) (e : W64) (regs : List Nat) : Option Nat := regs.find? (fun r => (lanesOf e).any (fun l => !(x.vreg r l).full))
/-- Lanes of `e` in which some register of a list is poisoned. -/
def Slot.poisLanes (x : Slot) (e : W64) (regs : List Nat) : W64 := maskOf ((lanesOf e).filter (fun l => regs.any (fun r => (x.vreg r l).pois)))
/-- A lane instruction whose lanes are independent: parks on an empty source; lanes with a poisoned source are reported and the rest complete (R436). -/
def runLanes (k : Nat) (e : W64) (regs : List Nat) (go : W64 → Slot → Slot) (s : State) : Res State :=
  let x := s.slot k
  match x.emptyReg e regs with
  | some r => parkOn (.lanes r e)
  | none =>
    let p := x.poisLanes e regs
    let s' := s.setSlot k (go (e &&& ~~~p) x)
    if p = 0 then .ok s' else
      let r := s'.findErr k (vUnits k p regs)
      .error (.trapWith r.2 ⟨r.1, none, some p, 0⟩)
/-- As `runLanes` for an instruction whose lanes depend on each other: any poisoned source is one of every lane, and nothing is written (R437). -/
def runCross (k : Nat) (e : W64) (regs : List Nat) (go : Slot → Slot) (s : State) : Res State :=
  let x := s.slot k
  match x.emptyReg e regs with
  | some r => parkOn (.lanes r e)
  | none => if x.poisLanes e regs = 0 then .ok (s.setSlot k (go x)) else s.poisStop k (vUnits k e regs) ⟨0x11, none, some e, 0⟩
/-- Reads an SBS operand once, when there is one (R228): the scalar's value for every lane. -/
def rdSbs (k : Nat) (e : W64) (sbs : Bool) (b : Nat) (s : State) : Res (Option W64 × State) :=
  if sbs then do
    let (v, s1) ← rdSc k e b s
    pure (some v, s1)
  else .ok (none, s)
/-- The second operand's value in a lane. -/
def Slot.laneB (x : Slot) (wide : Bool) (sb : Option W64) (b l : Nat) : Nat :=
  match sb with
  | some v => if wide then v.toNat else v.toNat % 2 ^ 32
  | none => x.lane wide b l
def sbRegs (wide sbs : Bool) (b : Nat) : List Nat := if sbs then [] else regsOf wide b

/-! ### Issue (R188, R191, R227) -/

/-- Steps 2 and 3 of R191: privilege, k-register destinations (R392), and the budget. -/
def Slot.refuse (x : Slot) (lvl : Nat) (dsts : List Nat) (vecs : List Nat) : Option Nat :=
  if x.priv < lvl ∨ x.priv = 0 ∧ dsts.any (fun d => 68 ≤ d) then some 0x02
  else if vecs.any (fun r => x.budget ≤ r) then some 0x08
  else none
/-- Issue of an instruction of a strand after its checks; `adv`: the next instruction of the clause follows. -/
def strandIf (i : Instr) (refuse : Slot → Option Nat) (p : Pred) (adv : Bool) (body : Nat → State → Res State) (s : State) :
    Host.Outcome State Fault Refusal :=
  match s.cur with
  | .seq c => .next (s.seqStop c 0x01 0)
  | .slot k =>
    let x := s.slot k
    let lanes := x.m0 &&& x.predMask p
    match refuse x with
    | some code => .next (s.takeTrap k code x.pc (wordOf i) lanes 0)
    | none =>
      match body k s with
      | .ok s' => .next (if adv then s'.advance k else s')
      | .error e => .next (s.stop k (wordOf i) lanes e)
/-- Issue with the checks of R191 that most instructions have. -/
def strandWith (i : Instr) (lvl : Nat) (dsts vecs : List Nat) (p : Pred) (adv : Bool) (body : Nat → State → Res State) (s : State) :
    Host.Outcome State Fault Refusal :=
  strandIf i (fun x => x.refuse lvl dsts vecs) p adv body s
/-- A control-thread instruction at privilege U with scalar destinations. -/
def scalarI (i : Instr) (dsts : List Nat) (body : Nat → State → Res State) (s : State) : Host.Outcome State Fault Refusal :=
  strandWith i 0 dsts [] allLanes true body s
/-- A control transfer: the body sets the program counter. -/
def jumpI (i : Instr) (body : Nat → State → Res State) (s : State) : Host.Outcome State Fault Refusal :=
  strandWith i 0 [] [] allLanes false body s
/-- A lane instruction: the body acts in the executing lanes; with none it completes without effect (R227). -/
def laneRun (p : Pred) (body : W64 → Nat → State → Res State) (k : Nat) (t : State) : Res State :=
  let e := (t.slot k).exec p
  if e = 0 then .ok t else body e k t
def laneI (i : Instr) (p : Pred) (vecs : List Nat) (body : W64 → Nat → State → Res State) (s : State) : Host.Outcome State Fault Refusal :=
  strandWith i 0 [] vecs p true (laneRun p body) s
/-- A privileged instruction of the root slot or a handler (R190). -/
def sysI (i : Instr) (dsts : List Nat) (body : Nat → State → Res State) (s : State) : Host.Outcome State Fault Refusal :=
  strandWith i 1 dsts [] allLanes true body s

end Sys2Proof.Machine
end

