-- ==== Sys2Proof/Machine/Flags.lean ====
section
/-! DEFINITION. FFLAGS and every flag computation: floating-point arithmetic and conversions, exact and rounded once (R85 to R97, R236), the random value of
stochastic rounding, block quantisation and the residue reconstruction (R101, R103). -/

namespace Sys2Proof.Machine

/-! ### FFLAGS (R76, R87) -/

def fNX : Nat := 1
def fUF : Nat := 2
def fOF : Nat := 4
def fDZ : Nat := 8
def fNV : Nat := 16
def fIDZ : Nat := 32
/-- Raises sticky flags of a strand. -/
def Slot.flag (x : Slot) (fl : Nat) : Slot := { x with fflags := x.fflags ||| natW fl }

/-! ### Formats (R85) -/

/-- A format: exponent bits, fraction bits, and whether it has infinities (E4M3 has none). -/
structure Fmt where
  eb : Nat
  mb : Nat
  infs : Bool
deriving DecidableEq, Repr
def f64 : Fmt := ⟨11, 52, true⟩
def f32 : Fmt := ⟨8, 23, true⟩
def f16 : Fmt := ⟨5, 10, true⟩
def bf16 : Fmt := ⟨8, 7, true⟩
def e5m2 : Fmt := ⟨5, 2, true⟩
def e4m3 : Fmt := ⟨4, 3, false⟩
def Fmt.bias (f : Fmt) : Nat := 2 ^ (f.eb - 1) - 1
def Fmt.signBit (f : Fmt) : Nat := 2 ^ (f.eb + f.mb)
def Fmt.sg (f : Fmt) (neg : Bool) : Nat := if neg then f.signBit else 0
/-- Exponent of the least quantum. -/
def Fmt.qmin (f : Fmt) : Int := 1 - (f.bias : Int) - f.mb
def Fmt.nan (f : Fmt) : Nat := if f.infs then (2 ^ f.eb - 1) * 2 ^ f.mb + 2 ^ (f.mb - 1) else 2 ^ (f.eb + f.mb) - 1
/-- Canonical NaN of E5M2 is 0x7E. -/
def Fmt.infBits (f : Fmt) (neg : Bool) : Nat := f.sg neg + (2 ^ f.eb - 1) * 2 ^ f.mb + (if f.infs then 0 else 2 ^ f.mb - 1)
def Fmt.maxBits (f : Fmt) (neg : Bool) : Nat :=
  f.sg neg + (if f.infs then (2 ^ f.eb - 1) * 2 ^ f.mb - 1 else 2 ^ (f.eb + f.mb) - 2)
/-- The 8-bit formats (R90). -/
def Fmt.small (f : Fmt) : Bool := f.eb + f.mb == 7
def fmtOf : Ty → Fmt
  | .f64 => f64
  | .h16 => f16
  | .b16 => bf16
  | .e4m3 => e4m3
  | .e5m2 => e5m2
  | _ => f32

/-- A value read from a format: a NaN (signalling or quiet), an infinity, or (−1)^neg × m × 2^e. -/
inductive FV where
  | nan (sig : Bool)
  | inf (neg : Bool)
  | fin (neg : Bool) (m : Nat) (e : Int)
deriving DecidableEq, Repr
def unpack (f : Fmt) (x : Nat) : FV :=
  let neg := x / f.signBit % 2 == 1
  let E := x / 2 ^ f.mb % 2 ^ f.eb
  let F := x % 2 ^ f.mb
  if f.infs && E == 2 ^ f.eb - 1 then
    (if F = 0 then .inf neg else .nan (!f.small && F / 2 ^ (f.mb - 1) == 0))
  else if !f.infs && E == 2 ^ f.eb - 1 && F == 2 ^ f.mb - 1 then .nan false
  else if E = 0 then .fin neg F f.qmin
  else .fin neg (2 ^ f.mb + F) (f.qmin + E - 1)
def FV.isNan : FV → Bool
  | .nan _ => true
  | _ => false
def FV.sig : FV → Bool
  | .nan s => s
  | _ => false
def FV.neg : FV → Bool
  | .nan _ => false
  | .inf n => n
  | .fin n _ _ => n
def FV.flip : FV → FV
  | .nan s => .nan s
  | .inf n => .inf (!n)
  | .fin n m e => .fin (!n) m e
/-- NV for signalling NaN operands (R86). -/
def sigNV (l : List FV) : Nat := if l.any FV.sig then fNV else 0

/-! ### Rounding (R88, R94) -/

/-- m × 2^(−sh), plus less than one unit when `st`, rounded to an integer magnitude; is it inexact. -/
def shiftRound (md : Rnd) (u : Nat) (neg : Bool) (m : Nat) (sh : Int) (st : Bool) : Nat × Bool :=
  if sh ≤ 0 then (m * 2 ^ (-sh).toNat, st)
  else
    let k := sh.toNat
    let lo := m / 2 ^ k
    let rem := m % 2 ^ k
    let half := 2 ^ (k - 1)
    let D := if 32 ≤ k then rem / 2 ^ (k - 32) else rem * 2 ^ (32 - k)
    let inexact := rem != 0 || st
    let up := inexact && (match md with
      | .rne => decide (half < rem) || (rem == half && (st || lo % 2 == 1))
      | .rtz => false
      | .rup => !neg
      | .rdn => neg
      | .rsto => decide (u < D))
    (if up then lo + 1 else lo, inexact)
/-- Result of an overflow (R88, R90, R94). -/
def Fmt.overflow (f : Fmt) (md : Rnd) (sat neg : Bool) : Nat :=
  if sat then f.maxBits neg
  else if f.small then f.infBits neg
  else match md with
    | .rne | .rsto => f.infBits neg
    | .rtz => f.maxBits neg
    | .rup => if neg then f.maxBits neg else f.infBits neg
    | .rdn => if neg then f.infBits neg else f.maxBits neg
/-- Bits and flags of ±(m × 2^e), m nonzero, plus less than one unit when `st`, rounded once. -/
def roundF (f : Fmt) (md : Rnd) (u : Nat) (sat neg : Bool) (m : Nat) (e : Int) (st : Bool) : Nat × Nat :=
  if m = 0 then (f.sg neg, 0)
  else
    let top : Int := e + Nat.log2 m
    let emin : Int := 1 - (f.bias : Int)
    let q : Int := max (top - f.mb) f.qmin
    let (r, inexact) := shiftRound md u neg m (q - e) st
    let (lo, _) := shiftRound .rtz u neg m (q - e) st
    let code (x : Nat) : Nat := (q - f.qmin).toNat * 2 ^ f.mb + x
    let maxc := f.maxBits false
    let ovf := decide (maxc < code r) || (md == .rsto && inexact && decide (maxc ≤ code lo))
    if ovf then (f.overflow md sat neg, fOF + fNX)
    else
      let tiny := decide (top < emin) &&
        !(top == emin - 1 && (shiftRound md u neg m (top - f.mb - e) st).1 == 2 ^ (f.mb + 1))
      (f.sg neg + code r, (if inexact then fNX else 0) + (if tiny && inexact then fUF else 0))
/-- An exact zero sum of opposite signs (R88). -/
def zeroSign (md : Rnd) : Bool := md == .rdn
/-- Exact sum of two finite values. -/
def sumF (f : Fmt) (md : Rnd) (u : Nat) (sat : Bool) (n1 : Bool) (m1 : Nat) (e1 : Int) (n2 : Bool) (m2 : Nat) (e2 : Int) : Nat × Nat :=
  if m1 = 0 ∧ m2 = 0 then (f.sg (if n1 == n2 then n1 else zeroSign md), 0)
  else
    let e := if m1 = 0 then e2 else if m2 = 0 then e1 else min e1 e2
    let a : Int := if m1 = 0 then 0 else ((m1 * 2 ^ (e1 - e).toNat : Nat) : Int)
    let b : Int := if m2 = 0 then 0 else ((m2 * 2 ^ (e2 - e).toNat : Nat) : Int)
    let t := (if n1 then -a else a) + (if n2 then -b else b)
    if t = 0 then (f.sg (zeroSign md), 0) else roundF f md u sat (decide (t < 0)) t.natAbs e false

/-! ### Arithmetic (R86 to R89, R206, R235) -/

def addV (f : Fmt) (md : Rnd) (u : Nat) (x y : FV) : Nat × Nat :=
  match x, y with
  | .nan _, _ | _, .nan _ => (f.nan, sigNV [x, y])
  | .inf a, .inf b => if a == b then (f.infBits a, 0) else (f.nan, fNV)
  | .inf a, .fin .. => (f.infBits a, 0)
  | .fin .., .inf b => (f.infBits b, 0)
  | .fin n1 m1 e1, .fin n2 m2 e2 => sumF f md u false n1 m1 e1 n2 m2 e2
def fpAdd (f : Fmt) (md : Rnd) (u a b : Nat) : Nat × Nat := addV f md u (unpack f a) (unpack f b)
def fpSub (f : Fmt) (md : Rnd) (u a b : Nat) : Nat × Nat := addV f md u (unpack f a) (unpack f b).flip
def fpMul (f : Fmt) (md : Rnd) (u a b : Nat) : Nat × Nat :=
  let x := unpack f a
  let y := unpack f b
  let n := x.neg != y.neg
  match x, y with
  | .nan _, _ | _, .nan _ => (f.nan, sigNV [x, y])
  | .inf _, .inf _ => (f.infBits n, 0)
  | .inf _, .fin _ m _ | .fin _ m _, .inf _ => if m = 0 then (f.nan, fNV) else (f.infBits n, 0)
  | .fin _ m1 e1, .fin _ m2 e2 => roundF f md u false n (m1 * m2) (e1 + e2) false
/-- Fused multiply-add: ∞ × 0 is invalid whatever the addend (R86). -/
def fpFma (f : Fmt) (md : Rnd) (u a b c : Nat) : Nat × Nat :=
  let x := unpack f a
  let y := unpack f b
  let z := unpack f c
  let n := x.neg != y.neg
  let nan := (f.nan, sigNV [x, y, z])
  let infs := match z with
    | .nan _ => nan
    | .inf k => if k == n then (f.infBits n, 0) else (f.nan, fNV)
    | .fin .. => (f.infBits n, 0)
  match x, y with
  | .nan _, _ | _, .nan _ => nan
  | .inf _, .inf _ => infs
  | .inf _, .fin _ m _ | .fin _ m _, .inf _ => if m = 0 then (f.nan, fNV) else infs
  | .fin _ m1 e1, .fin _ m2 e2 =>
    match z with
    | .nan _ => nan
    | .inf k => (f.infBits k, 0)
    | .fin n3 m3 e3 => sumF f md u false n (m1 * m2) (e1 + e2) n3 m3 e3
def fpDiv (f : Fmt) (md : Rnd) (u a b : Nat) : Nat × Nat :=
  let x := unpack f a
  let y := unpack f b
  let n := x.neg != y.neg
  match x, y with
  | .nan _, _ | _, .nan _ => (f.nan, sigNV [x, y])
  | .inf _, .inf _ => (f.nan, fNV)
  | .inf _, .fin .. => (f.infBits n, 0)
  | .fin .., .inf _ => (f.sg n, 0)
  | .fin _ m1 e1, .fin _ m2 e2 =>
    if m2 = 0 then (if m1 = 0 then (f.nan, fNV) else (f.infBits n, fDZ))
    else
      let t := m1 * 2 ^ 160
      roundF f md u false n (t / m2) (e1 - e2 - 160) (t % m2 != 0)
/-- Integer square root, bit by bit from bit `k − 1`. -/
def isqrt (n : Nat) : Nat → Nat → Nat
  | 0, r => r
  | k + 1, r => isqrt n k (if (r + 2 ^ k) * (r + 2 ^ k) ≤ n then r + 2 ^ k else r)
def fpSqrt (f : Fmt) (md : Rnd) (u a : Nat) : Nat × Nat :=
  match unpack f a with
  | .nan s => (f.nan, if s then fNV else 0)
  | .inf n => if n then (f.nan, fNV) else (f.infBits false, 0)
  | .fin n m e =>
    if m = 0 then (f.sg n, 0)
    else if n then (f.nan, fNV)
    else
      let m' := if e % 2 = 0 then m else 2 * m
      let t := m' * 2 ^ 200
      let r := isqrt t 130 0
      roundF f md u false false r (e / 2 - 100) (r * r != t)
/-- Order of two values that are not NaNs; −0 equals +0: below, equal, above as −1, 0, 1. -/
def cmpFin (x y : FV) : Int :=
  let key (v : FV) : Int := match v with
    | .inf n => if n then -1 else 1
    | _ => 0
  match x, y with
  | .fin n1 m1 e1, .fin n2 m2 e2 =>
    let e := min e1 e2
    let a : Int := ((m1 * 2 ^ (e1 - e).toNat : Nat) : Int)
    let b : Int := ((m2 * 2 ^ (e2 - e).toNat : Nat) : Int)
    let d := (if n1 then -a else a) - (if n2 then -b else b)
    if d < 0 then -1 else if d = 0 then 0 else 1
  | _, _ => if key x < key y then -1 else if key x = key y then 0 else 1
/-- minimumNumber and maximumNumber (R89). -/
def fpMinMax (f : Fmt) (isMax : Bool) (a b : Nat) : Nat × Nat :=
  let x := unpack f a
  let y := unpack f b
  let nv := sigNV [x, y]
  if x.isNan && y.isNan then (f.nan, nv)
  else if x.isNan then (b, nv)
  else if y.isNan then (a, nv)
  else
    let c := cmpFin x y
    let less := decide (c < 0) || (c == 0 && x.neg)
    (if less != isMax then a else b, nv)
/-- A comparison (R89): the predicate and its flags. -/
def fpCmp (f : Fmt) (c : Cond) (a b : Nat) : Bool × Nat :=
  let x := unpack f a
  let y := unpack f b
  if x.isNan || y.isNan then
    (c == .ne, match c with
      | .eq | .ne => sigNV [x, y]
      | _ => fNV)
  else
    let o := cmpFin x y
    (match c with
      | .eq => o == 0
      | .ne => o != 0
      | .lt => decide (o < 0)
      | .le => decide (o ≤ 0)
      | .gt => decide (0 < o)
      | .ge => decide (0 ≤ o), 0)
/-- `fclass` (R207). -/
def fpClass (f : Fmt) (a : Nat) : Nat :=
  let E := a / 2 ^ f.mb % 2 ^ f.eb
  match unpack f a with
  | .inf n => if n then 1 else 128
  | .nan s => if s then 256 else 512
  | .fin n m _ => if m = 0 then (if n then 8 else 16) else if E = 0 then (if n then 4 else 32) else (if n then 2 else 64)

/-! ### Conversions (R90) -/

def fpToFp (d sF : Fmt) (md : Rnd) (u : Nat) (sat : Bool) (a : Nat) : Nat × Nat :=
  match unpack sF a with
  | .nan s => (d.nan, if s then fNV else 0)
  | .inf n => (if sat then d.maxBits n else d.infBits n, 0)
  | .fin n m e => roundF d md u sat n m e false
/-- To an integer of `w` bits; the result as an exact integer. -/
def fpToInt (sF : Fmt) (md : Rnd) (u : Nat) (w : Nat) (sgn : Bool) (a : Nat) : Int × Nat :=
  let lo : Int := if sgn then -(2 ^ (w - 1) : Nat) else 0
  let hi : Int := if sgn then ((2 ^ (w - 1) : Nat) : Int) - 1 else ((2 ^ w : Nat) : Int) - 1
  match unpack sF a with
  | .nan _ => (0, fNV)
  | .inf n => (if n then lo else hi, fNV)
  | .fin n m e =>
    let (r, inexact) := shiftRound md u n m (-e) false
    let v : Int := if n then -(r : Int) else r
    if v < lo then (lo, fNV) else if hi < v then (hi, fNV) else (v, if inexact then fNX else 0)
def intToFp (d : Fmt) (md : Rnd) (u : Nat) (sat : Bool) (v : Int) : Nat × Nat := roundF d md u sat (decide (v < 0)) v.natAbs 0 false
/-- `vfround` (R235, R236): no flag but NV for a signalling NaN. -/
def fpRound (f : Fmt) (md : Rnd) (a : Nat) : Nat × Nat :=
  match unpack f a with
  | .nan s => (f.nan, if s then fNV else 0)
  | .inf _ => (a, 0)
  | .fin n m e =>
    if m = 0 then (a, 0)
    else
      let (r, _) := shiftRound md 0 n m (-e) false
      ((roundF f .rne 0 false n r 0 false).1, 0)

/-! ### The single-operand functions of FP32 (R236) -/

def fpRcp (md : Rnd) (u a : Nat) : Nat × Nat := fpDiv f32 md u 0x3F800000 a
def fpRsq (md : Rnd) (u a : Nat) : Nat × Nat :=
  match unpack f32 a with
  | .nan s => (f32.nan, if s then fNV else 0)
  | .inf n => if n then (f32.nan, fNV) else (0, 0)
  | .fin n m e =>
    if m = 0 then (f32.infBits n, fDZ)
    else if n then (f32.nan, fNV)
    else
      let m' := if e % 2 = 0 then m else 2 * m
      let t := 2 ^ 200 / m'
      let r := isqrt t 110 0
      roundF f32 md u false false r (-(e / 2) - 100) (r * r != t || 2 ^ 200 % m' != 0)
/-- ln 2 × 2^384, truncated: the sum of 1 / (k 2^k). -/
def ln2Fix : Nat := (List.range 400).foldl (fun a k => a + 2 ^ 384 / ((k + 1) * 2 ^ (k + 1))) 0
/-- The exponential series of z / 2^384, scaled by 2^384: `n` terms after the term `t` of index `k`. -/
def expSeries (z : Nat) : Nat → Nat → Nat → Nat
  | 0, _, t => t
  | n + 1, k, t => t + expSeries z n (k + 1) (t * z / 2 ^ 384 / (k + 1))
def fpExp2 (md : Rnd) (u a : Nat) : Nat × Nat :=
  match unpack f32 a with
  | .nan s => (f32.nan, if s then fNV else 0)
  | .inf n => if n then (0, 0) else (f32.infBits false, 0)
  | .fin n m e =>
    let v : Int := if n then -(m : Int) else m
    if m = 0 then (0x3F800000, 0)
    else if 0 ≤ e ∨ v % ((2 ^ (-e).toNat : Nat) : Int) = 0 then
      let k : Int := if 0 ≤ e then v * ((2 ^ e.toNat : Nat) : Int) else v / ((2 ^ (-e).toNat : Nat) : Int)
      roundF f32 md u false false 1 (max (-400) (min 400 k)) false
    else
      let sc : Int := ((2 ^ (-e).toNat : Nat) : Int)
      let k := v / sc
      let fr := (v % sc).toNat
      if k > 200 then roundF f32 md u false false 1 400 true
      else if k < -300 then roundF f32 md u false false 1 (-400) true
      else roundF f32 md u false false (expSeries (fr * ln2Fix / sc.toNat) 90 0 (2 ^ 384) / 2 ^ 224) (k - 160) true
/-- Bits of log2 of x / 2^320, 1 ≤ x / 2^320 < 2, most significant first, by repeated squaring. -/
def log2Bits : Nat → Nat → Nat → Nat
  | 0, _, acc => acc
  | n + 1, x, acc =>
    let y := x * x / 2 ^ 320
    if 2 ^ 321 ≤ y then log2Bits n (y / 2) (2 * acc + 1) else log2Bits n y (2 * acc)
def fpLog2 (md : Rnd) (u a : Nat) : Nat × Nat :=
  match unpack f32 a with
  | .nan s => (f32.nan, if s then fNV else 0)
  | .inf n => if n then (f32.nan, fNV) else (f32.infBits false, 0)
  | .fin n m e =>
    if m = 0 then (f32.infBits true, fDZ)
    else if n then (f32.nan, fNV)
    else
      let k : Int := e + Nat.log2 m
      if m = 2 ^ Nat.log2 m then roundF f32 md u false (decide (k < 0)) k.natAbs 0 false
      else
        let fr := log2Bits 128 (m * 2 ^ (320 - Nat.log2 m)) 0
        let t : Int := k * ((2 ^ 128 : Nat) : Int) + fr
        if t < 0 then roundF f32 md u false true (t.natAbs - 1) (-128) true else roundF f32 md u false false t.natAbs (-128) true

/-! ### Stochastic rounding (R95 to R97) -/

def mixRound (h c : Nat) : Nat :=
  let h := h ^^^ (h / 2 ^ 31)
  let h := h * c % 2 ^ 64
  h ^^^ (h / 2 ^ 29)
def randomValue (seed key ctr : Nat) : Nat :=
  let h := mixRound (seed ^^^ 0x6A3F0C59B1D27E48) 0xA3B195C42E7D06F5
  let h := mixRound (h ^^^ key) 0x8C513F27D9E46A0B
  let h := mixRound (h ^^^ ctr) 0xC7D218A95B3EF461
  mixRound h 0x9F4A6D8301C7B2ED / 2 ^ 32
/-- The strand key of a lane (R96): core rank, strand rank, lane. -/
def Slot.laneKey (x : Slot) (l : Nat) : Nat := wf x.ranks 0 16 * 2 ^ 48 + wf x.ranks 16 16 * 2 ^ 32 + l
/-- The random value of a lane at `d` draws after its counter. -/
def Slot.rand (x : Slot) (l d : Nat) : Nat := randomValue x.gseed.toNat (x.laneKey l) (((mget 0 x.rcnt l).toNat + d) % 2 ^ 32)
/-- Advances a lane's rounding counter (R96). -/
def Slot.bump (x : Slot) (l d : Nat) : Slot := { x with rcnt := mset 0 x.rcnt l (mget 0 x.rcnt l + BitVec.ofNat 32 d) }

/-! ### Packed halves (R91) -/

/-- An operation on both 16-bit halves, each with its own random value. -/
def halves (op : Nat → Nat → Nat → Nat → Nat × Nat) (u0 u1 a b c : Nat) : Nat × Nat :=
  let (r0, g0) := op u0 (a % 65536) (b % 65536) (c % 65536)
  let (r1, g1) := op u1 (a / 65536 % 65536) (b / 65536 % 65536) (c / 65536 % 65536)
  (r0 + 65536 * r1, g0 ||| g1)

/-! ### Block quantisation (R101, R239) and residues (R103) -/

def quantExp (p a : Nat) : Int × Nat :=
  let cl (x : Int) : Int := max (-128) (min 127 x)
  match unpack f32 a with
  | .nan _ => (-128, fNV)
  | .inf _ => (cl (128 - p + 2), fNV)
  | .fin _ m e => if m = 0 then (-128, 0) else (cl (e + Nat.log2 m - p + 2), 0)
def quantMan (p : Nat) (md : Rnd) (u : Nat) (x : Int) (a : Nat) : Int × Nat :=
  let lo : Int := -((2 ^ (p - 1) : Nat) : Int)
  let hi : Int := ((2 ^ (p - 1) : Nat) : Int) - 1
  let go (n : Bool) (m : Nat) (e : Int) (fl : Nat) : Int × Nat :=
    let (r, inexact) := shiftRound md u n m (x - e) false
    let v : Int := if n then -(r : Int) else r
    if v < lo then (lo, fl + fOF + fNX) else if hi < v then (hi, fl + fOF + fNX) else (v, fl + (if inexact then fNX else 0))
  match unpack f32 a with
  | .nan _ => (0, fNV)
  | .inf n => go n 1 128 fNV
  | .fin n m e => go n m e 0
def crtSigned (z1 z2 z3 : Nat) : Int :=
  let t := (z1 * 1024 * 4196352 + z2 * 2047 * 4194303 + z3 * 1025 * 4192256) % 8589932544
  if 4294966272 ≤ t then (t : Int) - 8589932544 else t

end Sys2Proof.Machine
end

