-- ==== Sys2Proof/Machine/EngineOps.lean ====
section
/-! DEFINITION. The cluster engine's bookkeeping: sequence numbers, ownership of furrows, counters and terms, pulses, furrow indices, and commands
discarded (R151, R282, R295, R299 to R301, R470). -/

namespace Sys2Proof.Machine

/-! ### Ownership (R282) -/

/-- The context of an index at which no task is registered. -/
def noTask : TaskCtx := ⟨0, 0, 0, 0, 0, 0, 0, [], 0, false, 0⟩

def Owner.num : Owner → Nat
  | .gang g => g % 65536
  | .task .. | .strand .. => 65535
/-- Does an owner still hold its resources: it lives, a task until it exits, or a command that it issued has not completed. -/
def State.ownerLive (s : State) (cl : Nat) (o : Owner) : Bool :=
  let x := s.cluster cl
  (match o with
  | .gang g => (s.gang? g).any (fun y => !y.retired)
  | .task c i g => (mget noTask (s.core c).tctx i).live && wf (s.lsWord c (8 * i + 1)) 32 32 == g.toNat
  | .strand k n =>
    let y := s.slot k
    (y.gen == n && y.phase != .free && y.phase != .halted) || y.held.any (fun h => h.2 == n))
  || x.cmds.any (fun c => c.owner == o) || x.pend.any (fun c => c.owner == o)
/-- A furrow, counter or term that is not free. -/
def State.furrow? (s : State) (cl f : Nat) : Option Furrow :=
  ((s.cluster cl).furrows.find? (fun e => e.1 == f && s.ownerLive cl e.2.owner)).map (·.2)
def State.counter? (s : State) (cl n : Nat) : Option Counter :=
  ((s.cluster cl).counters.find? (fun e => e.1 == n && s.ownerLive cl e.2.owner)).map (·.2)
def State.term? (s : State) (cl t : Nat) : Option Term :=
  ((s.cluster cl).terms.find? (fun e => e.1 == t && s.ownerLive cl e.2.owner)).map (·.2)
/-- Does a strand's block own a counter. -/
def State.ownsCounter (s : State) (cl n : Nat) (o : Owner) : Bool := (s.counter? cl n).any (fun c => c.owner == o)
def State.ownsTerm (s : State) (cl t : Nat) (o : Owner) : Bool := (s.term? cl t).any (fun c => c.owner == o)

/-! ### Terms and counters (R299 to R301) -/

def Cluster.lit (x : Cluster) (l : Lit) : Bool := reached (mget ⟨.gang 0, 0, 0, 0⟩ x.counters l.cnt).val l.thr
/-- A pair of literals: a disabled literal counts as true, a pair of two disabled as false. -/
def Cluster.pair (x : Cluster) (a b : Option Lit) : Bool := (a.isSome || b.isSome) && a.all x.lit && b.all x.lit
def Cluster.termTrue (x : Cluster) (t : Nat) : Bool :=
  match x.terms.find? (fun e => e.1 == t) with
  | some (_, y) => x.pair y.l0 y.l1 || x.pair y.l2 y.l3
  | none => false
/-- Armed commands whose term is true become startable, and stay so. -/
def Cluster.latch (x : Cluster) : Cluster :=
  { x with cmds := x.cmds.map (fun c => if c.term.all x.termTrue then { c with startable := true } else c) }
/-- `n` pulses of a source from a block (R299). -/
def State.pulse (s : State) (cl src sel n : Nat) (o : Owner) : State :=
  s.modCluster cl (fun x => Cluster.latch { x with
    counters := x.counters.map (fun e => if e.2.owner = o ∧ e.2.src = src ∧ e.2.sel = sel then (e.1, { e.2 with val := e.2.val + BitVec.ofNat 16 n }) else e) })

/-! ### Furrow indices (R295) -/

/-- Moves a completion index over the marks that follow it without a gap. -/
def sweep (marks : List Nat) : Nat → Nat → Nat
  | 0, x => x
  | n + 1, x => if marks.contains x then sweep marks n (x + 1) else x
/-- Publishes slot index `x`: a furrow-filled pulse for each step of PUB. -/
def State.publish (s : State) (cl f x : Nat) : State :=
  match (s.cluster cl).furrows.find? (fun e => e.1 == f) with
  | none => s
  | some (_, y) =>
    let marks := y.done ++ [x]
    let p := sweep marks marks.length y.pub
    (s.modCluster cl (fun z => { z with furrows := mput z.furrows f { y with pub := p, done := marks.filter (fun i => decide (p ≤ i)) } })).pulse cl 2 f (p - y.pub) y.owner
/-- Gives slot index `x` back: a furrow-drained pulse for each step of GIV. -/
def State.giveBack (s : State) (cl f x : Nat) : State :=
  match (s.cluster cl).furrows.find? (fun e => e.1 == f) with
  | none => s
  | some (_, y) =>
    let marks := y.returned ++ [x]
    let p := sweep marks marks.length y.giv
    (s.modCluster cl (fun z => { z with furrows := mput z.furrows f { y with giv := p, returned := marks.filter (fun i => decide (p ≤ i)) } })).pulse cl 3 f (p - y.giv) y.owner
/-- Offset of slot index `x` in its core's local store. -/
def Furrow.offset (y : Furrow) (x : Nat) : Nat := y.base + x % (y.nsl + 1) * 64 * y.ssz
/-- The furrow of a side. -/
def Side.furrow? : Side → Option Nat
  | .furrow f _ => some f
  | _ => none
def Cmd.furrows (c : Cmd) : List Nat := (c.src.bind Side.furrow?).toList ++ (c.dst.bind Side.furrow?).toList

/-! ### Sequence numbers and discarding (R151, R470) -/

/-- SEQ0 covers every number below the lowest incomplete one. -/
def Cluster.settle (x : Cluster) : Cluster := { x with seq0 := BitVec.ofNat 32 ((x.cmds.map (·.seq)).foldl Nat.min x.nextSeq - 1) }
/-- An engine event of KIND 1 (R467). -/
def State.clEvent (s : State) (cl part code gang : Nat) (tval detail : W64) : State :=
  s.logTo (dieOfCl cl) (if part < 16 then some part else none) { evEntry (srcOfCl cl 16) code 1 2 tval detail with gang := gang }
/-- Takes commands out of the engine without effect. -/
def Cluster.without (x : Cluster) (gone : Cmd → Bool) : Cluster :=
  let out := (x.cmds.filter gone).map (·.seq)
  Cluster.settle { x with cmds := x.cmds.filter (fun c => !gone c)
                          wins := (x.wins.map (fun w => { w with seqs := w.seqs.filter (fun n => !out.contains n) })).filter (fun w => !w.seqs.isEmpty) }
/-- Discards the commands that have not started and satisfy `p`: one event 0x61 for the discarding. -/
def State.discard (s : State) (cl : Nat) (p : Cmd → Bool) : State :=
  let gone (c : Cmd) : Bool := !c.started && p c
  match (s.cluster cl).cmds.filter gone with
  | [] => s
  | c :: t =>
    (s.modCluster cl (fun x => x.without gone)).clEvent cl c.part 0x61 c.owner.num (natW (t.length + 1))
      (natW ((t.map (·.seq)).foldl Nat.max c.seq % 2 ^ 32))
/-- Does a command wait on a furrow that no started command of its gang names. -/
def Cluster.starved (x : Cluster) (c : Cmd) : Bool :=
  let dry (src : Bool) (sd : Option Side) : Bool :=
    match sd.bind Side.furrow? with
    | some f =>
      let y := mget Furrow.zero x.furrows f
      decide ((if src then y.filled else y.free) = 0) && !x.cmds.any (fun d => d.started && d.owner == c.owner && d.furrows.contains f)
    | none => false
  dry true c.src || dry false c.dst
/-- After the retirement of a gang: commands that wait on a term, and then those that wait on a furrow in vain, are discarded. -/
def State.reap (s : State) (cl g : Nat) : State :=
  s.discard cl (fun c => c.owner == .gang g && (!c.startable || (s.cluster cl).starved c))
/-- Every gang that has retired with commands left in a cluster. -/
def State.reapAll (s : State) (cl : Nat) : State :=
  let gs := ((s.cluster cl).cmds.filterMap (fun c => match c.owner with
    | .gang g => if (s.gang? g).any (fun y => !y.retired) then none else some g
    | _ => none)).eraseDups
  gs.foldl (fun t g => t.reap cl g) s

end Sys2Proof.Machine
end

