-- ==== Sys2Proof/Machine/Strand.lean ====
section
/-! DEFINITION. The life of strands, gangs and tasks as shared operations: starts, retirement, spill and reload, task records and ready queues, counters,
fills, messages, signals, barrier phases and forced reconvergence. -/

namespace Sys2Proof.Machine

def srcOfCore (c : Nat) : Nat := srcOfSlot (16 * c)

/-! ### Task records and ready queues (R60, R61, R271, R274) -/

def State.trec (s : State) (c i j : Nat) : W64 := s.lsWord c (8 * i + j)
def State.setRec (s : State) (c i j : Nat) (v : W64) : State := s.lsWrite c (64 * i + 8 * j) 8 v.toNat
def recState (w0 : W64) : Nat := wf w0 52 4
def State.setRecState (s : State) (c i st : Nat) : State := s.setRec c i 0 (setF (s.trec c i 0) 52 4 st)
def State.recGen (s : State) (c i : Nat) : W32 := BitVec.ofNat 32 (wf (s.trec c i 1) 32 32)
def handleOf (c i : Nat) (gen : W32) : W64 := natW (gen.toNat * 2 ^ 32 + i * 65536 + srcOfCore c)
def State.ctx (s : State) (c i : Nat) : TaskCtx := mget noTask (s.core c).tctx i
def rqOf (c : Core) (p : Nat) : List W64 := nth [] c.rq p
/-- A task enters its ready queue, or becomes ready-pending when the queue holds 64 entries (R61). -/
def State.rqEnter (s : State) (c i : Nat) : State :=
  let p := wf (s.trec c i 0) 40 2
  let h := handleOf c i (s.recGen c i)
  let x := s.core c
  if (rqOf x p).length < 64 then
    (s.setRecState c i 2).modCore c (fun y => { y with rq := setNth y.rq p (rqOf y p ++ [h]), rqEvent := true })
  else (s.setRecState c i 1).modCore c (fun y => { y with rpend := y.rpend ++ [(p, h)] })
/-- A freed place goes to the oldest ready-pending task of the priority (R61, R274). -/
def State.rqFill (s : State) (c p : Nat) : State :=
  match (s.core c).rpend.find? (fun e => e.1 == p) with
  | some e => (s.modCore c (fun y => { y with rpend := y.rpend.erase e, rq := setNth y.rq p (rqOf y p ++ [e.2]), rqEvent := true })).setRecState c (wf e.2 16 9) 2
  | none => s
/-- Takes the head of the highest selected queue (R274). -/
def State.rqPop (s : State) (c sel : Nat) : Option (W64 × State) :=
  match [3, 2, 1, 0].find? (fun p => sel / 2 ^ p % 2 == 1 && !(rqOf (s.core c) p).isEmpty) with
  | some p =>
    let h := (rqOf (s.core c) p).headD 0
    let s1 := s.modCore c (fun y => { y with rq := setNth y.rq p ((rqOf y p).drop 1) })
    some (h, (s1.setRecState c (wf h 16 9) 3).rqFill c p)
  | none => none
/-- Applies a decrement to a task at its home core, or at the core it moved to (R61, R334, R335). -/
def State.taskDec (s : State) (c i : Nat) (gen : W32) (n : Nat) : State :=
  let (c, i) := match (s.core c).fwd.find? (fun f => f.idx == i && f.gen == gen) with
    | some f => (f.core, f.idx2)
    | none => (c, i)
  if (s.ctx c i).live && s.recGen c i == gen then
    let w1 := s.trec c i 1
    let old := wf w1 0 32
    let s1 := s.setRec c i 1 (setF w1 0 32 (old - n))
    if 0 < old ∧ old ≤ n ∧ recState (s.trec c i 0) = 0 then s1.rqEnter c i else s1
  else s.deadLetter (dieOfCore c) ((s.partOf (clOfCore c)).getD 0)

/-! ### Fills (R46, R256, R270, R335, R364) -/

/-- Where a strand stands: resident in a slot, in a save area of a slot, or nowhere. -/
inductive Place where
  | slot (k : Nat)
  | save (k : Nat) (a : W64)
  | gone
deriving DecidableEq, Repr
/-- Compares generations; `low` in 16 bits (R270). -/
def genEq (low : Bool) (a b : Nat) : Bool := if low then a % 65536 == b % 65536 else a == b
def named (low : Bool) (k gen : Nat) (b : Nat × Nat) : Bool := b.1 == k && genEq low b.2 gen
def Slot.resident (x : Slot) : Bool := x.phase == .running || x.phase == .parked
/-- The resident strand of a core, or the save area, that a test picks: slot `k` first. -/
def State.placeOf (s : State) (k : Nat) (f : Nat → Slot → Bool) : Place :=
  match (k :: (List.range 16).map (· + 16 * coreOf k)).find? (fun j => (s.slot j).resident && f j (s.slot j)) with
  | some j => .slot j
  | none => match s.saves.find? (fun v => coreOf v.slot == coreOf k && f v.slot v.img) with
    | some v => .save v.slot v.addr
    | none => .gone
/-- The place of the strand that (slot, generation) names: the held strand of a lent slot comes first (R46, R335, R364), and a task keeps its name
when it is pre-empted and reloaded. -/
def State.strandAt (s : State) (k gen : Nat) (low : Bool) : Place :=
  match (s.slot k).held with
  | some (a, g) => if genEq low g gen then .save k a else s.placeOf k (fun j x => named low k gen (x.bornAt j))
  | none => s.placeOf k (fun j x => named low k gen (x.bornAt j))
/-- The place of the strand that runs a task (R289). -/
def State.taskPlace (s : State) (c i : Nat) (gen : W32) : Place := s.placeOf (16 * c) (fun _ x => x.job == .task c i gen)
def State.saveAt (s : State) (k : Nat) (a : W64) : Option Slot := (s.saves.find? (fun v => v.slot == k && v.addr == a)).map (·.img)
def State.modSave (s : State) (k : Nat) (a : W64) (f : Slot → Slot) : State :=
  { s with saves := s.saves.map (fun v => if v.slot == k && v.addr == a then { v with img := f v.img } else v) }
/-- Writes a register by a fill and ends the bindings of that location. -/
def Slot.fill (x : Slot) (r : Nat) (v : W64) (pois : Bool) : Slot :=
  { x.setSReg r ⟨v, true, pois⟩ with binds := x.binds.filter (fun b => b.loc != .reg r) }
/-- Changes the strand at a place. -/
def State.modPlace (s : State) (p : Place) (f : Slot → Slot) : State :=
  match p with
  | .slot j => s.modSlot j f
  | .save j a => s.modSave j a f
  | .gone => s
/-- Does a test hold of the strand at a place, as it does of no strand. -/
def State.atPlace (s : State) (p : Place) (f : Slot → Bool) : Bool :=
  match p with
  | .slot j => f (s.slot j)
  | .save j a => (s.saveAt j a).all f
  | .gone => true
/-- Is the target register of a fill empty, so that it can land now. -/
def State.regFree (s : State) (k gen r : Nat) (low : Bool) : Bool := s.atPlace (s.strandAt k gen low) (fun x => !(x.sreg r).full)
/-- A fill of the strand at a place: it lands, or is a dead letter. A fill into the save area of a held strand tells the root slot (R333, R364). -/
def State.fillAt (s : State) (p : Place) (d part : Nat) (f : Slot → Slot) : State :=
  match p with
  | .slot j => s.modSlot j f
  | .save j a => (s.modSave j a f).raiseIp (coreOf j * 16) 3
  | .gone => s.deadLetter d part
/-- A fill of a register by a remote write (R256, R270). -/
def State.fillReg (s : State) (k gen r : Nat) (low : Bool) (v : W64) (pois : Bool) : State :=
  s.fillAt (s.strandAt k gen low) (dieOfSlot k) (s.partOfSlot k) (fun x => x.fill r v pois)

/-! ### Counters (R269, R270) -/

/-- A decrement at the owning core. -/
def State.countDec (s : State) (c off n : Nat) : State :=
  let w := off / 8
  let d := dieOfCore c
  if s.wordPois c w then s.deadLetter d ((s.partOf (clOfCore c)).getD 0)
  else
    let v := s.lsWord c w
    let old := wf v 0 32
    if old = 0 then s
    else if n < old ∨ !bitAt v 42 then s.lsWrite c off 8 (setF v 0 32 (old - n)).toNat
    else
      let k := 16 * c + wf v 38 4
      let r := wf v 32 6
      let gen := wf v 43 16
      let s1 := s.lsWrite c off 8 (setF (setF v 0 32 0) 32 27 0).toNat
      if r = 0 ∨ 60 ≤ r then s1
      else if s1.regFree k gen r true then s1.fillReg k gen r true 0 false
      else ({ s1 with nextWait := s1.nextWait + 1 }.sendNet ⟨0, .rput, srcOfCore c, c, wf v 38 4, gen, r, 0, 1, 0, false, false, true, false, false, s1.nextWait⟩).1

/-! ### Signals (R323) -/

def State.signal (s : State) (p idx : Nat) : W64 := mget 0 (s.die (idx / 1024 % 4)).signals (p * 1024 + idx % 1024)
/-- COND of a WAIT packet: 0 at least, 1 equal, 2 unequal, as natural numbers (R320, R322). -/
def condHolds (cond : Nat) (v x : W64) : Bool := if cond = 0 then decide (x.toNat ≤ v.toNat) else if cond = 1 then v == x else v != x
/-- Changes a signal; every WAIT parked on it is evaluated, and a queue whose condition is met asks to be mapped (R323, R324). -/
def State.setSignal (s : State) (p idx : Nat) (v : W64) : State :=
  let s1 := s.modDie (idx / 1024 % 4) (fun x => { x with signals := mset 0 x.signals (p * 1024 + idx % 1024) v })
  let hit (e : Queue) : Bool := e.part == p && !e.met && e.wait.any (fun w => w.1 == idx % 4096 && condHolds w.2.1 v w.2.2)
  (List.range 4).foldl (fun t d =>
    match (t.die d).queues.filter hit with
    | [] => t
    | es => es.foldl (fun u e => u.askQueue d p e.q)
        (t.modDie d (fun x => { x with queues := x.queues.map (fun e => if hit e then { e with met := true } else e) }))) s1

/-! ### Barriers (R55, R56, R265 to R267, R308, R417) -/

/-- Is strand rank `r` a member of group `n` of a gang (R55, R327). -/
def Gang.member (g : Gang) (n r : Nat) : Bool :=
  if n = 0 then decide (r < g.nStrands)
  else if g.groups.length < n then false
  else
    let e := lrw g.groups (n - 1)
    if bitAt e 63 then
      let cr := r / g.S
      let row := cr / g.cols
      let col := cr % g.cols
      decide (r < g.nStrands) && decide (wf e 0 5 ≤ row) && decide (row < wf e 0 5 + wf e 16 5) && decide (wf e 8 5 ≤ col) && decide (col < wf e 8 5 + wf e 24 5)
    else (List.range (wf e 16 16)).any (fun i => wf e 0 16 + i * wf e 32 16 == r)
def Gang.liveOf (g : Gang) (n : Nat) : List Nat := g.live.filter (g.member n)
def Gang.arrived (g : Gang) (n : Nat) : List Nat := mget [] g.arrivals n
def Gang.phase (g : Gang) (n : Nat) : Nat := mget 0 g.phases n
/-- A phase completes when every live member has arrived once. -/
def Gang.settle (g : Gang) (n : Nat) : Gang :=
  let l := g.liveOf n
  if !l.isEmpty && l.all (fun r => (g.arrived n).contains r) then
    { g with phases := mput g.phases n (g.phase n + 1), arrivals := mput g.arrivals n [] }
  else g
def Gang.arrive (g : Gang) (n r : Nat) : Gang := { g with arrivals := mput g.arrivals n (g.arrived n ++ [r]) }.settle n
/-- A halted member lowers the expected count of every phase in progress. -/
def Gang.drop (g : Gang) (r : Nat) : Gang :=
  let h := { g with live := g.live.filter (· != r), halted := g.halted ++ [r] }
  (mkeys h.arrivals).foldl (fun t n => if t.member n r then t.settle n else t) h
/-- A numbered barrier's phase completes when its strands and the sequencer have arrived; the next phase takes over what it has counted. -/
def NBar.settle (b : NBar) : NBar :=
  if b.seq && decide (b.sa ≠ 0) && decide (b.sa ≤ b.arr.length) then
    { phase := b.phase + 1, arr := b.arr2, sa := b.sa2, seq := false, arr2 := [], sa2 := 0 }
  else b
def State.nbar (s : State) (cl n : Nat) : NBar := mget NBar.reset (s.cluster cl).nbars n
def State.setNbar (s : State) (cl n : Nat) (b : NBar) : State := s.modCluster cl (fun x => { x with nbars := mput x.nbars n b })
/-- Barrier descriptor of R417. -/
def barDesc (nb rcv : Bool) (arr exp num : Nat) : W64 :=
  natW (b2n nb * 2 ^ 63 + b2n rcv * 2 ^ 62 + arr % 65536 * 2 ^ 32 + exp % 65536 * 2 ^ 16 + num)

/-! ### Forced reconvergence (R50, R421) -/

/-- The whole stack of a slot, hardware words, top first. -/
def State.msAll (s : State) (k : Nat) : List W64 := (List.range (s.slot k).msLen).map (s.msWord k)
def State.pushWords (s : State) (k : Nat) (topFirst : List W64) : State := topFirst.reverse.foldl (fun t w => t.msPush1 k w) s
/-- Depth (0 the top) of the highest pending-path entry. -/
def State.pendAt (s : State) (k : Nat) : Option Nat := (List.range (s.slot k).depth).find? (fun d => (s.msEntry k d).kind == 0)
/-- Runs the topmost pending path; when none remains, the strand comes back to the barrier. `fuel` bounds paths that have ended. -/
def State.reconvNext (s : State) (k : Nat) : Nat → State
  | 0 => s
  | fuel + 1 =>
    let x := s.slot k
    match x.reconv with
    | none => s
    | some r =>
      let w := if x.wide then 2 else 1
      match s.pendAt k with
      | none =>
        let base := x.depth
        let s1 := s.pushWords k r.above
        s1.modSlot k (fun y => { y.setM 0 r.lanes with
          links := y.links ++ r.links.map (fun l => { l with depth := l.depth + base })
          reconv := some { r with above := [], links := [], done := true }
          pc := r.off, clause := none, hdrWait := false, resuming := true, replay := none, resumed := false })
      | some d =>
        let e := s.msEntry k d
        let base := x.depth - d
        let moved := x.links.filter (fun l => base < l.depth)
        let above := r.above ++ (s.msAll k).take (d * w)
        let lks := r.links.map (fun l => { l with depth := l.depth + d }) ++ moved.map (fun l => { l with depth := l.depth - base })
        let s1 := s.msDrop k (d + 1)
        let cur := e.mask &&& x.m7
        let s2 := s1.modSlot k (fun y => { y.setM 0 cur with
          reconv := some { r with above := above, links := lks, cur := cur, d0 := base - 1 }
          pc := e.resume, clause := none, hdrWait := false, resuming := true, replay := none, resumed := false })
        if cur = 0 then s2.reconvNext k fuel else s2
/-- A path reaches another barrier instruction, or `halt`: the paths set aside go back as pending paths, and the strand traps. -/
def State.reconvMismatch (s : State) (k : Nat) : State :=
  let x := s.slot k
  match x.reconv with
  | none => s
  | some r =>
    let base := x.depth
    let s1 := s.pushWords k r.above
    let s2 := s1.modSlot k (fun y => { y with links := y.links ++ r.links.map (fun l => { l with depth := l.depth + base }), reconv := none })
    if r.lanes &&& x.m7 = 0 then s2 else s2.msPush k ⟨0, r.off, r.lanes⟩
/-- The reconvergence a strand is in, before it has come back to its barrier and outside handlers. -/
def Slot.inReconv (x : Slot) : Option Reconv := if x.th then none else x.reconv.bind (fun r => if r.done then none else some r)

/-! ### Retirement (R43, R44, R56, R60, R268, R310, R331, R414) -/

/-- Segments of the strands of a core's gang that have yet to run or to end, started or not (R43, R200). -/
def State.gangSegs (s : State) (c : Nat) : Nat :=
  match (s.core c).gang.bind s.gang? with
  | some g => if g.live.any (fun r => r / g.S == g.rankOf c) then wf (lrw g.lrec 0) 48 8 else 0
  | none => 0
/-- Segments that running, parked or spilled strands, strands that are still to start, and tasks in STATE 1 to 4 of a core own. -/
def State.segsOwned (s : State) (c : Nat) : Nat :=
  let or8 (a b : Nat) : Nat := a ||| b
  let sl := (List.range 16).foldl (fun m j =>
    let x := s.slot (16 * c + j)
    let m := match x.phase with
      | .running | .parked | .spilled => or8 m x.segs
      | _ => m
    match x.held with
    | some (a, _) => or8 m ((s.saveAt (16 * c + j) a).map (·.segs) |>.getD 0)
    | none => m) (or8 1 (s.gangSegs c))
  (mkeys (s.core c).tctx).foldl (fun m i =>
    let w0 := s.trec c i 0
    if (s.ctx c i).live && 1 ≤ recState w0 && recState w0 ≤ 4 then or8 m (wf w0 44 8) else m) sl
def State.powerDown (s : State) (c keep : Nat) : State :=
  let own := s.segsOwned c ||| keep ||| 1
  (List.range 8).foldl (fun t j => if own / 2 ^ j % 2 = 1 then t else t.powerSeg c j false) s
/-- The completion action of a launch record (R331). -/
def State.complete (s : State) (p d : Nat) (lrec : List W64) : State :=
  let act := wf (lrw lrec 6) 0 2
  let ctr := lrw lrec 5
  if act = 0 then s
  else if act = 2 then
    let idx := wf (lrw lrec 6) 16 12
    s.setSignal p idx (s.signal p idx + 1)
  else
    match coreOfSrc (wf ctr 0 16) with
    | some c =>
      if act = 1 ∧ s.partOf (clOfCore c) = some p ∧ wf ctr 0 4 = 0 ∧ wf ctr 16 3 = 0 then (s.countDec c (wf ctr 16 18) 1).acqL1 c else s.deadLetter d p
    | none => s.deadLetter d p
/-- The sequencer and the lease of a cluster when its gang retires (R310). -/
def State.endLease (s : State) (cl g : Nat) : State :=
  s.modCluster cl (fun x => if x.lease = some g then { x with lease := none, seqPhase := .idle, seqClause := none, matHaz := none } else x)
/-- What the front end of a die does when a gang retires: DRAIN packets count it no longer, heads that were passed over are tried again, and a queue
parked on an EDGE of this producer starts its write-backs and asks to be mapped (R322, R324, R325). -/
def State.gangGone (s : State) (d g : Nat) : State :=
  let due (e : Queue) : Bool := e.edge && !e.flushing && e.producer == some g
  let s1 := ((s.die d).queues.filter due).foldl (fun t e => t.askQueue d e.part e.q) s
  let s2 := s1.modDie d (fun y => { y with queues := y.queues.map (fun e =>
    { e with gangs := e.gangs.filter (· != g), blocked := false, flushing := e.flushing || due e }) })
  ((mkeys s2.cores).filter (fun c => dieOfCore c == d && (s2.core c).tray.any (fun e => e.blocked))).foldl (fun t c =>
    t.modCore c (fun y => { y with tray := y.tray.map (fun e => { e with blocked := false }) })) s2
/-- A gang retires (R44). -/
def State.retireGang (s : State) (g : Nat) : State :=
  match s.gang? g with
  | none => s
  | some x =>
    if x.retired then s
    else
      let s1 := s.modGang g (fun y => { y with retired := true })
      let s2 := x.cores.foldl (fun t c => t.modCore c (fun y => if y.gang = some g then { y with gang := none } else y)) s1
      let s3 := x.clusters.foldl (fun t c => (t.endLease c g).reap c g) s2
      (s3.gangGone x.die g).complete x.part x.die x.lrec
/-- Bindings on a producer that retires become orphaned; a strand parked on such a location traps at once. -/
def State.orphanBinds (s : State) (g rank : Nat) : State :=
  let hit (x : Slot) : Bool := x.job.gangOf == some g && x.binds.any (fun b => b.rank == rank && !b.orphaned)
  let mark (x : Slot) : Slot := { x with binds := x.binds.map (fun b => if b.rank = rank then { b with orphaned := true } else b) }
  let s1 := { s with saves := s.saves.map (fun v => if hit v.img then { v with img := mark v.img } else v) }
  ((mkeys s1.slots).filter (fun k => hit (s1.slot k))).foldl (fun t k =>
    let u := t.modSlot k mark
    match (u.slot k).phase, (u.slot k).park with
    | .parked, some p => if ((u.slot k).orphan p.on).isSome then u.doPark k p.on p.header else u
    | _, _ => u) s1
/-- A task's strand ends: STATE 5 at its record and, for a moved task, at home (R60, R334). -/
def State.taskExit (s : State) (c i : Nat) : State :=
  let s1 := (s.setRecState c i 5).modCore c (fun y => { y with tctx := mput y.tctx i { mget noTask y.tctx i with live := false } })
  let homes := (mkeys s1.cores).filter (fun h => (s1.core h).fwd.any (fun f => f.core == c && f.idx2 == i))
  homes.foldl (fun t h =>
    match (t.core h).fwd.find? (fun f => f.core == c && f.idx2 == i) with
    | some f => (t.setRecState h f.idx 5).modCore h (fun y => { y with fwd := y.fwd.erase f, tctx := mput y.tctx f.idx { mget noTask y.tctx f.idx with live := false } })
    | none => t) s1
/-- Retires the strand of a slot; `keep` are segments that stay powered; `ab` in an abort of its gang (R415). -/
def State.retire (s : State) (k keep : Nat) (ab : Bool) : State :=
  let x := s.slot k
  let c := coreOf k
  let s1 := if x.phase = .spilled then { s with saves := s.saves.filter (fun v => !(v.slot == k && v.addr == x.savea)) } else s.freePool c x.entries
  let ended : Slot → Slot := fun y => { Slot.reset with phase := .halted, gen := y.gen, held := y.held, pairOf := y.pairOf, savea := y.savea }
  let s2 := s1.modSlot k ended
  let s3 := if x.width = 64 then s2.modSlot (k + 8) ended else s2
  let s4 := s3.modCore c (fun y => { y with inbox := y.inbox.filter (fun m => m.core0 || !s.msgFor k m) })
  let s5 := match x.job with
    | .task c' i _ => s4.taskExit c' i
    | _ => s4
  match x.job with
  | .gang g r =>
    let s7 := (s5.modGang g (fun y => y.drop r)).powerDown c keep
    let s8 := if ab then s7 else s7.orphanBinds g r
    match s8.gang? g with
    | some y => if y.live.isEmpty then (s8.wbAllL1 c).retireGang g else s8
    | none => s8
  | _ => s5.powerDown c keep
/-- The trap that a strand cannot recover aborts its gang (R386): its strands are reaped, unstarted commands discarded, one entry written, and it retires. -/
def State.abortGang (s : State) (g : Nat) : State :=
  match s.gang? g with
  | none => s
  | some x =>
    if x.retired then s
    else
      let ks := (mkeys s.slots).filter (fun k => (s.slot k).job.gangOf == some g && (s.slot k).pairOf.isNone)
      let held := (mkeys s.slots).filter (fun k => match (s.slot k).held with
        | some (a, _) => ((s.saveAt k a).map (fun y => y.job.gangOf == some g)).getD false
        | none => false)
      let s0 := s.logPart x.die x.part { evEntry (srcOfUnit x.die 19 0) 0x01 4 2 0 0 with gang := g % 65536 }
      let s1 := x.clusters.foldl (fun t c =>
        (t.modCluster c (fun y => { y with pend := y.pend.filter (fun m => m.owner != .gang g) })).discard c (fun m => m.owner == .gang g)) s0
      let s2 := held.foldl (fun t k => { t.modSlot k (fun y => { y with held := none }) with
        saves := t.saves.filter (fun v => !(v.slot == k && v.img.job.gangOf == some g)) }) s1
      let s3 := s2.modGang g (fun y => { y with live := y.live.filter (fun r => ks.any (fun k => (s.slot k).job == .gang g r)) })
      let s4 := ks.foldl (fun t k => match (t.slot k).phase with
        | .free | .halted => t
        | _ => t.retire k 0 true) s3
      s4.retireGang g

/-! ### Starts (R33 to R36, R54, R62, R328) -/

def slicesOf (w : Nat) : Nat := if w = 8 then 1 else if w = 16 then 3 else if w = 64 then 0xFF else 0xF
/-- What a start gives a strand. -/
structure Start where
  budget : Nat
  width : Nat
  job : Job
  segs : Nat
  p0 : BitVec 128
  p1 : BitVec 128
  p14 : BitVec 128
  p15 : BitVec 128
  gseed : W64
  ranks : W64
  utvec : Nat
  udeleg : W64
  tvec : Nat
  fmt : List W64
  asid : Nat
  pc : Nat
  args : List W64
def Start.entries (b : Start) : Nat := 8 * b.budget * popcount (natW (slicesOf b.width))
/-- The name of a strand that no (slot, generation) reaches. -/
def noStrand : Nat × Nat := (24576, 0)
/-- Puts a strand into a slot: registers zero and full, the live lanes in m0 and m7, pointers and control registers at their start values (R36, R76). -/
def State.startStrand (s : State) (k : Nat) (b : Start) : State :=
  let x := s.slot k
  let lanes := laneMask b.width
  let y : Slot := { Slot.reset with
    phase := .running, pc := b.pc, budget := b.budget, width := b.width, slices := slicesOf b.width, job := b.job, segs := b.segs
    gen := if x.held.isSome then x.gen else x.gen + 1
    fmt := b.fmt, asid := b.asid, utvec := b.utvec, udeleg := b.udeleg, tvec := b.tvec, gseed := b.gseed, ranks := b.ranks
    m := mset 0 (mset 0 [] 7 lanes) 0 lanes, held := x.held, savea := x.savea, ready := s.cycle + 1, born := if x.held.isSome then some noStrand else none }
  let z := (((y.setP 0 b.p0).setP 1 b.p1).setP 14 b.p14).setP 15 b.p15
  let z := (List.range b.args.length).foldl (fun t j => t.setS (j + 1) (lrw b.args j)) z
  let s1 := (s.setSlot k z).modCore (coreOf k) (fun c => { c with poolUsed := c.poolUsed + b.entries })
  if b.width = 64 then s1.modSlot (k + 8) (fun u => { Slot.reset with phase := .running, gen := u.gen + 1, pairOf := some (slotNo k), savea := u.savea }) else s1
def spPtr (base len : Nat) : BitVec 128 :=
  let le := (List.range 32).find? (fun e => decide (len / 2 ^ (e + 6) ≤ 511))
  match le with
  | some e => mkPtr e (len / 2 ^ (e + 6)) base 1 1 3 base
  | none => 0
/-- p15 of strand index j of a gang (R328). -/
def stackPtr (lrec : List W64) (j : Nat) : BitVec 128 :=
  let len := 64 * wf (lrw lrec 16) 18 12
  if len = 0 then 0 else spPtr (wf (lrw lrec 16) 0 18 + len * j) len
def lrWidth (lrec : List W64) : Nat :=
  match wf (lrw lrec 0) 25 3 with
  | 1 => 8
  | 2 => 16
  | 4 => 64
  | _ => 32
def ranksOf (g rank core : Nat) : W64 := natW (g % 65536 * 2 ^ 32 + rank % 65536 * 65536 + core % 65536)
def State.wtv (s : State) (c : Nat) : Nat :=
  match (s.core c).deleg with
  | some d => d.wtv
  | none => Config.kernelTvec
/-- The start of strand index j of a gang on a core (R36, R54). -/
def State.gangStart (s : State) (g : Gang) (c j : Nat) : Start :=
  let l := g.lrec
  { budget := 8 * wf (lrw l 0) 20 5, width := lrWidth l, job := .gang g.id (g.rankOf c * g.S + j), segs := wf (lrw l 0) 48 8
    p0 := g.p0, p1 := g.p1, p14 := g.p14, p15 := stackPtr l j, gseed := lrw l 2, ranks := ranksOf g.id (g.rankOf c * g.S + j) (g.rankOf c)
    utvec := wf (lrw l 4) 0 24, udeleg := natW (wf (lrw l 4) 24 4), tvec := s.wtv c, fmt := (List.range 8).map (fun i => lrw l (8 + i)), asid := g.asid
    pc := wf (lrw l 3) 0 24, args := [] }
/-- The start of the task of a record (R62). -/
def State.taskStart (s : State) (c i : Nat) : Start :=
  let w0 := s.trec c i 0
  let t := s.ctx c i
  let segs := wf w0 44 8
  { budget := 8 * wf w0 32 5, width := 32, job := .task c i (s.recGen c i), segs := segs, p0 := t.code, p1 := t.p1, p14 := t.p14
    p15 := match ([1, 2, 3, 4, 5, 6, 7].find? (fun j => segs / 2 ^ j % 2 == 1)) with
      | some j => spPtr (32768 * j) 32768
      | none => 0
    gseed := t.gseed, ranks := t.ranks, utvec := t.utvec, udeleg := t.udeleg, tvec := s.wtv c, fmt := t.fmt, asid := t.asid, pc := wf w0 0 24
    args := (List.range 6).map (fun j => s.trec c i (2 + j)) }
/-- Messages that a core held for a target move to its inbox when the target becomes resident (R335). -/
def State.unhold (s : State) (k : Nat) : State :=
  let c := coreOf k
  let ms := (s.core c).heldq.filter (s.msgFor k)
  s.modCore c (fun y => { y with heldq := y.heldq.filter (fun m => !ms.contains m), inbox := y.inbox ++ ms })
def State.poolFits (s : State) (c n : Nat) : Bool := decide ((s.core c).poolUsed + n ≤ 65536)
/-- `slot.start` of KIND 1: status and state (R273, R364). -/
def State.startTask (s : State) (k : Nat) (h : W64) : Nat × State :=
  let c := coreOf k
  let i := wf h 16 9
  let x := s.slot k
  if wf h 25 7 ≠ 0 ∨ coreOfSrc (wf h 0 16) ≠ some c ∨ wf h 0 4 ≠ 0 ∨ !(s.ctx c i).live ∨ (s.recGen c i).toNat ≠ wf h 32 32 ∨ recState (s.trec c i 0) ≠ 3 then (3, s)
  else if x.phase ≠ .free ∧ !(x.phase = .spilled ∧ x.held.isSome) then (2, s)
  else
    let b := s.taskStart c i
    if !s.poolFits c b.entries then (1, s)
    else (0, ((s.startStrand k b).powerSegs c b.segs).unhold k)
/-- `slot.start` of KIND 0; either slot of a width-64 strand names it (R273). -/
def State.startRank (s : State) (k j : Nat) : Nat × State :=
  let c := coreOf k
  match (s.core c).gang.bind s.gang? with
  | none => (3, s)
  | some g =>
    let k := if lrWidth g.lrec = 64 ∧ 8 < slotNo k then k - 8 else k
    if g.S ≤ j ∨ slotNo k ≠ j + 1 ∨ !g.released ∨ !g.live.contains (g.rankOf c * g.S + j) then (3, s)
    else if (s.slot k).phase ≠ .free ∨ lrWidth g.lrec = 64 ∧ (s.slot (k + 8)).phase ≠ .free then (2, s)
    else
      let b := s.gangStart g c j
      if !s.poolFits c b.entries then (1, s) else (0, (s.startStrand k b).acqL1 c)

/-! ### Spill and reload (R45, R46, R273, R280) -/

/-- Reloads a strand; a wait on an orphaned location, or a report of the sequencer, is taken now (R268, R309). Status and state. -/
def State.loadFrom (s : State) (k : Nat) : Nat × State :=
  let x := s.slot k
  if x.phase ≠ .spilled then (1, s)
  else match s.saveAt k x.savea with
    | none => (1, s)
    | some img =>
      if !s.poolFits (coreOf k) img.entries then (2, s)
      else
        let s1 := { s with saves := s.saves.filter (fun v => !(v.slot == k && v.addr == x.savea)) }
        let s2 := s1.setSlot k { img with ip := img.ip ||| x.ip, held := x.held, clause := none, resuming := !img.hdrWait }
        let s3 := s2.modCore (coreOf k) (fun y => { y with poolUsed := y.poolUsed + img.entries })
        let s4 := if img.width = 64 then s3.modSlot (k + 8) (fun u => { u with phase := .running }) else s3
        let s5 := s4.unhold k
        let y := s5.slot k
        (0, match y.seqRep with
          | some (code, tv) => (s5.modSlot k (fun z => { z with seqRep := none })).takeTrap k code y.pc tv 0 0 |>.modSlot k (fun z => { z with reported := true })
          | none => match y.phase, y.park with
            | .parked, some p => if (y.orphan p.on).isSome then s5.doPark k p.on p.header else s5
            | _, _ => s5)

/-! ### Messages (R258, R335) -/

/-- Result of a delivery: accepted, refused, forwarded, or it waits. -/
inductive Deliv where
  | accept (s : State)
  | refuse (s : State)
  | forward (core idx : Nat)
  | wait
/-- Delivers an `out` message at its core. -/
def State.deliver (s : State) (n : Net) : Deliv :=
  let c := n.core
  let x := s.core c
  let room := decide (x.inbox.length + x.amq.length < 64)
  let hroom := decide (x.heldq.length < 256)
  let kind := n.val2.toNat
  let dead := s.deadLetter (dieOfCore c) ((s.partOf (clOfCore c)).getD 0)
  let toBox (m : Msg) : Deliv := if room then .accept (s.modCore c (fun y => { y with inbox := y.inbox ++ [m] })) else .wait
  let toHeld (m : Msg) : Deliv := if hroom then .accept (s.modCore c (fun y => { y with heldq := y.heldq ++ [m] })) else .wait
  if kind = 0 then (if x.deleg.isSome then toBox ⟨n.src, 0, none, n.gen, n.val, true⟩ else .accept s)
  else if kind = 1 then
    let m : Msg := ⟨n.src, n.slot, none, n.gen, n.val, false⟩
    let arrived (y : Slot) : Slot := { y with binds := y.binds.filter (fun b => b.loc != .inbox) }
    match s.strandAt (16 * c + n.slot) n.gen false with
    | .slot j => (match toBox m with
      | .accept t => .accept (t.modSlot j arrived)
      | d => d)
    | .save j a => (match toHeld m with
      | .accept t => .accept ((t.modSave j a arrived).raiseIp (16 * c) 3)
      | d => d)
    | .gone => .refuse dead
  else
    let i := n.at_
    match x.fwd.find? (fun f => f.idx == i && f.gen.toNat == n.gen) with
    | some f => .forward f.core f.idx2
    | none =>
      if (s.ctx c i).live && (s.recGen c i).toNat == n.gen then
        let m : Msg := ⟨n.src, 0, some i, n.gen, n.val, false⟩
        if recState (s.trec c i 0) = 3 then toBox m else toHeld m
      else .refuse dead
/-- Answers a sender (R280, R412). -/
def State.answer (s : State) (n : Net) (ok : Bool) : State :=
  match coreOfSrc n.src with
  | some c =>
    let k := 16 * c + n.src % 16
    { s with answers := s.answers ++ [⟨n.id, k, (s.slot k).gen, ok, false⟩] }
  | none => s

/-! ### The gang a strand belongs to -/

def State.myGang (s : State) (k : Nat) : Option Gang := (s.slot k).job.gangOf.bind s.gang?
/-- Strand rank, as RANKS holds it. -/
def Slot.rank (x : Slot) : Nat := wf x.ranks 16 16

end Sys2Proof.Machine
end

