-- ==== Sys2Proof/Machine/Control.lean ====
section
/-! DEFINITION. Branches, calls, returns, retirement and `nop` (R208 to R212), and the continuation of a `vcall` (R222). -/

namespace Sys2Proof.Machine

/-! ### Branches (R208, R395) -/

/-- Goes to a header when the condition on the sources holds; else the next instruction follows. -/
def branchIf (i : Instr) (srcs : List Nat) (off : BitVec 32) (c : List W64 → Bool) (s : State) : Host.Outcome State Fault Refusal :=
  jumpI i (fun k s => do
    let (vs, s1) ← rdScs k 1 srcs s
    if c vs then
      let t : Int := (s.slot k).pc + off.toInt
      let s2 ← s1.checkTarget k ((s.slot k).preg 0) t
      pure (s2.goto k t.toNat)
    else pure (s1.advance k)) s
def execBr (off : BitVec 32) (s : State) : Host.Outcome State Fault Refusal := branchIf (.br off) [] off (fun _ => true) s
def execBz (o : B1) (s : State) : Host.Outcome State Fault Refusal := branchIf (.bz o) [o.a] o.off (fun v => lrw v 0 == 0) s
def execBnz (o : B1) (s : State) : Host.Outcome State Fault Refusal := branchIf (.bnz o) [o.a] o.off (fun v => lrw v 0 != 0) s
def execBeq (o : B2) (s : State) : Host.Outcome State Fault Refusal := branchIf (.beq o) [o.a, o.b] o.off (fun v => lrw v 0 == lrw v 1) s
def execBne (o : B2) (s : State) : Host.Outcome State Fault Refusal := branchIf (.bne o) [o.a, o.b] o.off (fun v => lrw v 0 != lrw v 1) s
def execBlt (o : B2) (s : State) : Host.Outcome State Fault Refusal := branchIf (.blt o) [o.a, o.b] o.off (fun v => (lrw v 0).slt (lrw v 1)) s
def execBge (o : B2) (s : State) : Host.Outcome State Fault Refusal := branchIf (.bge o) [o.a, o.b] o.off (fun v => !(lrw v 0).slt (lrw v 1)) s
def execBltn (o : B2) (s : State) : Host.Outcome State Fault Refusal := branchIf (.bltn o) [o.a, o.b] o.off (fun v => decide (lrw v 0 < lrw v 1)) s
def execBgen (o : B2) (s : State) : Host.Outcome State Fault Refusal := branchIf (.bgen o) [o.a, o.b] o.off (fun v => !decide (lrw v 0 < lrw v 1)) s

/-! ### Target values (R209, R210, R398) -/

/-- The first check that a target value fails for a strand: 0x01, 0x08 or 0x1C; 0 when it passes. -/
def Slot.targetBad (x : Slot) (v : W64) : Nat :=
  let w := wf v 40 8
  let b := wf v 32 8
  if wf v 48 16 ≠ 0 ∨ b % 8 ≠ 0 ∨ b < 8 ∨ 128 < b ∨ !([0, 8, 16, 32, 64].contains w) ∨ wf v 24 8 = 255 then 0x01
  else if x.budget < b then 0x08
  else if w ≠ 0 ∧ w ≠ x.width then 0x1C
  else 0
/-- Gives a trap of cause 0x04 a TVAL and a lane mask. -/
def withTval {α : Type} (code : Nat) (v : W64) (lanes : Option W64) : Res α → Res α
  | .error (.trap t) => .error (.trap (if t.code = code then { t with tval := some v, lanes := lanes } else t))
  | r => r
/-- Enters the target of a value: module pointers are loaded and checked, the header is checked, the entry is pushed and the link record bound. DESIGN
CHOICE: the target and the room for a link record are checked before the room on the mask stack, as in log entry 39. -/
def State.enter (s : State) (k : Nat) (v : W64) (e : MsEntry) (lanes : Option W64) : Res State := do
  let x := s.slot k
  let slot := wf v 24 8
  let entry : Int := wf v 0 24
  let failV : {α : Type} → Nat → Res α := fun code => .error (.trap ⟨code, some v, lanes, 0⟩)
  if slot = 0 then
    let s1 ← s.checkTarget k (x.preg 0) entry
    let s2 ← s1.pushChecked k [e]
    pure (s2.goto k entry.toNat)
  else
    let (cp, s1) ← withTval 0x04 v lanes (s.loadPtr k (x.preg 1) slot)
    let (tp, s2) ← withTval 0x04 v lanes (s1.loadPtr k (x.preg 1) (slot + 1))
    if !(pTag cp && pHas cp 5) then failV 0x03
    if !(pTag tp && pHas tp 1) then failV 0x04
    ensureV (decide (x.links.length < 8)) 0x17 2
    let s3 ← s2.checkTarget k cp entry
    let s4 ← s3.pushChecked k [e]
    let s5 := s4.modSlot k (fun y => { (y.setP 0 cp).setP 1 tp with links := y.links ++ [⟨y.depth, x.preg 0, x.preg 1⟩] })
    pure (s5.goto k entry.toNat)
/-- Calls the first group of the lanes `run` of a `vcall` at `off`; `rest` are the lanes its entry keeps besides (R222). -/
def State.vcallStep (s : State) (k off a : Nat) (all run : W64) : Res State := do
  let x := s.slot k
  match x.emptyReg run [a, a + 1] with
  | some r => parkOn (.lanes r run)
  | none =>
    if x.poisLanes run [a, a + 1] ≠ 0 then s.poisStop k (vUnits k run [a, a + 1]) ⟨0x11, none, some (x.poisLanes run [a, a + 1]), 0⟩
    let val (l : Nat) : W64 := natW (x.lane true a l)
    let failing (code : Nat) : W64 := maskOf ((lanesOf run).filter (fun l => x.targetBad (val l) == code))
    match [0x01, 0x08, 0x1C].find? (fun c => failing c != 0) with
    | some c => .error (.trap ⟨c, some (val ((lowest (failing c)).getD 0)), some (failing c), 0⟩)
    | none =>
      let v := val ((lowest run).getD 0)
      let g := maskOf ((lanesOf run).filter (fun l => val l == v))
      let s1 ← s.enter k v ⟨3, off, all &&& ~~~g⟩ (some g)
      pure (s1.modSlot k (fun y => y.setM 0 g))

/-! ### Calls and returns (R210, R211) -/

def execCall (off : BitVec 32) (s : State) : Host.Outcome State Fault Refusal :=
  jumpI (.call off) (fun k s => do
    let x := s.slot k
    let t : Int := x.pc + off.toInt
    let s1 ← s.pushChecked k [⟨2, x.pc + 2, x.m0⟩]
    let s2 ← s1.checkTarget k (x.preg 0) t
    pure (s2.goto k t.toNat)) s
def execCallr (a : Nat) (s : State) : Host.Outcome State Fault Refusal :=
  jumpI (.callr a) (fun k s => do
    let (v, s1) ← rdSc k 1 a s
    let x := s.slot k
    let bad := x.targetBad v
    if bad ≠ 0 then raiseV bad v
    s1.enter k v ⟨2, x.pc + 2, x.m0⟩ none) s
/-- Restores p0 and p1 from the link record of the top entry, if it has one. -/
def State.unlink (s : State) (k : Nat) : State :=
  s.modSlot k (fun x => match x.links.find? (fun l => l.depth == x.depth) with
    | some l => (x.setP 0 l.p0).setP 1 l.p1
    | none => x)
/-- `ret`: acts on the top entry by its kind; an empty KIND 3 entry gives way to the entry beneath it. -/
def State.retStep (s : State) (k : Nat) : Nat → Res State
  | 0 => .ok s
  | fuel + 1 => do
    let e ← s.topEntry k
    let m7 := (s.slot k).m7
    let r := e.mask &&& m7
    if e.kind = 2 then
      let s1 := (s.unlink k).msDrop k 1
      let s2 ← s1.resumeAt k e.resume
      pure (s2.modSlot k (fun x => x.setM 0 r))
    else if e.kind = 3 then
      let s1 := (s.unlink k).msDrop k 1
      if r = 0 then s1.retStep k fuel
      else
        let run := r &&& ((s.slot k).replay.getD (BitVec.allOnes 64))
        if run = 0 then pure (s.advance k)
        else
          ensureV (e.resume % 2 == 0) 0x05 (natW e.resume)
          let (w, s2) ← s1.codeWord k ((s1.slot k).preg 0) e.resume
          s2.vcallStep k e.resume (wf w 36 8) r run
    else raiseV 0x01 (s.msRaw k 0)
def execRet (s : State) : Host.Outcome State Fault Refusal := jumpI .ret (fun k s => s.retStep k ((s.slot k).depth + 1)) s
def execJr (a : Nat) (s : State) : Host.Outcome State Fault Refusal :=
  jumpI (.jr a) (fun k s => do
    let (v, s1) ← rdSc k 1 a s
    ensureV (wf v 24 40 == 0) 0x01 v
    let s2 ← s1.checkTarget k ((s.slot k).preg 0) (wf v 0 24)
    pure (s2.goto k (wf v 0 24))) s

/-! ### Retirement (R212) -/

/-- A path of a forced reconvergence that halts is a barrier mismatch (R50, R421); else the strand retires. -/
def State.haltStep (s : State) (k keep : Nat) : Res State :=
  match (s.slot k).inReconv with
  | some r => .error (.trapWith (s.reconvMismatch k) ⟨0x0F, some (barDesc r.nb true 0 0 (r.off % 2 ^ 24)), none, 0⟩)
  | none => .ok (s.retire k keep false)
def execHalt (s : State) : Host.Outcome State Fault Refusal := jumpI .halt (fun k s => s.haltStep k 0) s
def execHaltKeep (a : Nat) (s : State) : Host.Outcome State Fault Refusal :=
  jumpI (.haltKeep a) (fun k s => do
    let (v, s1) ← rdSc k 1 a s
    ensureV (wf v 9 55 == 0) 0x01 v
    let w0 := s1.trec (coreOf k) (wf v 0 9) 0
    s1.haltStep k (if recState w0 < 5 then wf w0 44 8 else 0)) s
def execNop (s : State) : Host.Outcome State Fault Refusal := scalarI .nop [] (fun _ s => .ok s) s

end Sys2Proof.Machine
end

