-- ==== Sys2Proof/Machine/ScalarInt.lean ====
section
/-! DEFINITION. Scalar integer instructions (R202 to R204). -/

namespace Sys2Proof.Machine

/-! ### Integer results by type (R83, R84, R202), shared with the lanes -/

/-- The value of a source by type. -/
def tyVal (ty : Ty) (x : Nat) : Int := if ty.signed then toSigned ty.width x else ((x % 2 ^ ty.width : Nat) : Int)
def tyMin (ty : Ty) : Int := if ty.signed then -((2 ^ (ty.width - 1) : Nat) : Int) else 0
def tyMax (ty : Ty) : Int := if ty.signed then ((2 ^ (ty.width - 1) : Nat) : Int) - 1 else ((2 ^ ty.width : Nat) : Int) - 1
/-- An exact result wrapped to the width, or clamped to the range of the type. -/
def tyBits (ty : Ty) (sat : Bool) (x : Int) : Nat := wrap ty.width (if sat then max (tyMin ty) (min (tyMax ty) x) else x)
/-- A w-bit result as a scalar register holds it. -/
def tyOut (ty : Ty) (r : Nat) : W64 := if ty.signed then intW (toSigned ty.width r) else natW (r % 2 ^ ty.width)
/-- Quotient and remainder with their flag (R84). -/
def divTy (ty : Ty) (a b : Nat) : Nat × Nat × Nat :=
  let w := ty.width
  if b % 2 ^ w = 0 then (2 ^ w - 1, a % 2 ^ w, fIDZ)
  else (wrap w ((tyVal ty a).tdiv (tyVal ty b)), wrap w ((tyVal ty a).tmod (tyVal ty b)), 0)
def shlN (w a n : Nat) : Nat := a * 2 ^ (n % w) % 2 ^ w
def shrN (w a n : Nat) : Nat := a % 2 ^ w / 2 ^ (n % w)
def sraN (w a n : Nat) : Nat := wrap w (toSigned w a / ((2 ^ (n % w) : Nat) : Int))
def bitsSet (w x : Nat) : List Nat := (List.range w).filter (fun i => x / 2 ^ i % 2 == 1)
def popN (w x : Nat) : Nat := (bitsSet w x).length
def clzN (w x : Nat) : Nat := if x % 2 ^ w = 0 then w else w - 1 - Nat.log2 (x % 2 ^ w)
def ctzN (w x : Nat) : Nat := (bitsSet w x).head?.getD w
/-- Bits of `a` at the positions set in `b`, packed from bit 0. -/
def bextN (w a b : Nat) : Nat := (bitsSet w b).foldr (fun i acc => a / 2 ^ i % 2 + 2 * acc) 0
/-- Low bits of `a`, in order, at the positions set in `b`. -/
def bdepN (w a b : Nat) : Nat := ((bitsSet w b).foldl (fun st i => (st.1 + st.2 % 2 * 2 ^ i, st.2 / 2)) (0, a)).1
def sextN (w n x : Nat) : Nat := wrap w (toSigned n x)

/-! ### Forms -/

/-- Reads scalar sources, computes a result and flags, and writes the destination. -/
def scOp (i : Instr) (d : Nat) (srcs : List Nat) (f : List W64 → W64 × Nat) (s : State) : Host.Outcome State Fault Refusal :=
  scalarI i [d] (fun k s => do
    let (vs, s1) ← rdScs k 1 srcs s
    let (v, fl) := f vs
    wrSc k d v (if fl = 0 then s1 else s1.modSlot k (fun x => x.flag fl))) s
/-- Two typed sources: the w-bit result. -/
def scTyped (i : Instr) (o : RT) (f : Nat → Nat → Nat) (s : State) : Host.Outcome State Fault Refusal :=
  scOp i o.d [o.a, o.b] (fun vs => (tyOut o.ty (f (lrw vs 0).toNat (lrw vs 1).toNat), 0)) s
/-- Two typed sources, an exact result that SAT may clamp. -/
def scSat (i : Instr) (o : RTS) (f : Int → Int → Int) (s : State) : Host.Outcome State Fault Refusal :=
  scOp i o.d [o.a, o.b]
    (fun vs => (tyOut o.ty (tyBits o.ty o.sat (f (tyVal o.ty (lrw vs 0).toNat) (tyVal o.ty (lrw vs 1).toNat))), 0)) s
/-- One typed source. -/
def scOne (i : Instr) (o : RT1) (f : Nat → Nat) (s : State) : Host.Outcome State Fault Refusal :=
  scOp i o.d [o.a] (fun vs => (tyOut o.ty (f ((lrw vs 0).toNat % 2 ^ o.ty.width)), 0)) s
/-- Untyped forms on 64 bits. -/
def sc64 (i : Instr) (d : Nat) (srcs : List Nat) (f : List W64 → W64) (s : State) : Host.Outcome State Fault Refusal :=
  scOp i d srcs (fun vs => (f vs, 0)) s

def execAdd (o : RTS) (s : State) : Host.Outcome State Fault Refusal := scSat (.add o) o (fun a b => a + b) s
def execSub (o : RTS) (s : State) : Host.Outcome State Fault Refusal := scSat (.sub o) o (fun a b => a - b) s
def execMul (o : RTS) (s : State) : Host.Outcome State Fault Refusal := scSat (.mul o) o (fun a b => a * b) s
/-- High half of the exact product (R84). -/
def mulhTy (ty : Ty) (a b : Nat) : Nat := wrap ty.width (tyVal ty a * tyVal ty b / ((2 ^ ty.width : Nat) : Int))
def execMulh (o : RT) (s : State) : Host.Outcome State Fault Refusal := scTyped (.mulh o) o (mulhTy o.ty) s
def execDiv (o : RT) (s : State) : Host.Outcome State Fault Refusal :=
  scOp (.div o) o.d [o.a, o.b] (fun vs => let r := divTy o.ty (lrw vs 0).toNat (lrw vs 1).toNat; (tyOut o.ty r.1, r.2.2)) s
def execRem (o : RT) (s : State) : Host.Outcome State Fault Refusal :=
  scOp (.rem o) o.d [o.a, o.b] (fun vs => let r := divTy o.ty (lrw vs 0).toNat (lrw vs 1).toNat; (tyOut o.ty r.2.1, r.2.2)) s
def execAnd (o : R3) (s : State) : Host.Outcome State Fault Refusal := sc64 (.and o) o.d [o.a, o.b] (fun vs => lrw vs 0 &&& lrw vs 1) s
def execOr (o : R3) (s : State) : Host.Outcome State Fault Refusal := sc64 (.or o) o.d [o.a, o.b] (fun vs => lrw vs 0 ||| lrw vs 1) s
def execXor (o : R3) (s : State) : Host.Outcome State Fault Refusal := sc64 (.xor o) o.d [o.a, o.b] (fun vs => lrw vs 0 ^^^ lrw vs 1) s
def execShl (o : RT) (s : State) : Host.Outcome State Fault Refusal := scTyped (.shl o) o (shlN o.ty.width) s
def execShr (o : RT) (s : State) : Host.Outcome State Fault Refusal := scTyped (.shr o) o (shrN o.ty.width) s
def execSra (o : RT) (s : State) : Host.Outcome State Fault Refusal := scTyped (.sra o) o (sraN o.ty.width) s
def execSlt (o : RT) (s : State) : Host.Outcome State Fault Refusal := scTyped (.slt o) o (fun a b => b2n (decide (tyVal o.ty a < tyVal o.ty b))) s
def execSltn (o : RT) (s : State) : Host.Outcome State Fault Refusal := scTyped (.sltn o) o (fun a b => b2n (decide (tyVal o.ty a < tyVal o.ty b))) s
/-- Lesser and greater by type. -/
def minTy (ty : Ty) (a b : Nat) : Nat := wrap ty.width (min (tyVal ty a) (tyVal ty b))
def maxTy (ty : Ty) (a b : Nat) : Nat := wrap ty.width (max (tyVal ty a) (tyVal ty b))
def execMin (o : RT) (s : State) : Host.Outcome State Fault Refusal := scTyped (.min o) o (minTy o.ty) s
def execMax (o : RT) (s : State) : Host.Outcome State Fault Refusal := scTyped (.max o) o (maxTy o.ty) s
def execClz (o : RT1) (s : State) : Host.Outcome State Fault Refusal := scOne (.clz o) o (clzN o.ty.width) s
def execCtz (o : RT1) (s : State) : Host.Outcome State Fault Refusal := scOne (.ctz o) o (ctzN o.ty.width) s
def execPopc (o : RT1) (s : State) : Host.Outcome State Fault Refusal := scOne (.popc o) o (popN o.ty.width) s
def execBext (o : RT) (s : State) : Host.Outcome State Fault Refusal := scTyped (.bext o) o (bextN o.ty.width) s
def execBdep (o : RT) (s : State) : Host.Outcome State Fault Refusal := scTyped (.bdep o) o (bdepN o.ty.width) s
def execSext (o : R2N) (s : State) : Host.Outcome State Fault Refusal := sc64 (.sext o) o.d [o.a] (fun vs => natW (sextN 64 o.n (lrw vs 0).toNat)) s
def execZext (o : R2N) (s : State) : Host.Outcome State Fault Refusal := sc64 (.zext o) o.d [o.a] (fun vs => natW ((lrw vs 0).toNat % 2 ^ o.n)) s
def execMov (o : R2) (s : State) : Host.Outcome State Fault Refusal := sc64 (.mov o) o.d [o.a] (fun vs => lrw vs 0) s

/-- SignExt of a 28-bit immediate (R204): the exact addend of `addi` for every type (DEDUCED, log entry 18). -/
def imm28 (x : BitVec 28) : Int := x.toInt
def execAddi (o : ITS) (s : State) : Host.Outcome State Fault Refusal :=
  scOp (.addi o) o.d [o.a] (fun vs => (tyOut o.ty (tyBits o.ty o.sat (tyVal o.ty (lrw vs 0).toNat + imm28 o.imm)), 0)) s
def execAndi (o : I2) (s : State) : Host.Outcome State Fault Refusal := sc64 (.andi o) o.d [o.a] (fun vs => lrw vs 0 &&& intW (imm28 o.imm)) s
def execOri (o : I2) (s : State) : Host.Outcome State Fault Refusal := sc64 (.ori o) o.d [o.a] (fun vs => lrw vs 0 ||| intW (imm28 o.imm)) s
def execXori (o : I2) (s : State) : Host.Outcome State Fault Refusal := sc64 (.xori o) o.d [o.a] (fun vs => lrw vs 0 ^^^ intW (imm28 o.imm)) s
/-- Shifts by an immediate below w. -/
def scShi (i : Instr) (o : IT) (f : Nat → Nat → Nat → Nat) (s : State) : Host.Outcome State Fault Refusal :=
  scOp i o.d [o.a] (fun vs => (tyOut o.ty (f o.ty.width (lrw vs 0).toNat o.imm.toNat), 0)) s
def execShli (o : IT) (s : State) : Host.Outcome State Fault Refusal := scShi (.shli o) o shlN s
def execShri (o : IT) (s : State) : Host.Outcome State Fault Refusal := scShi (.shri o) o shrN s
def execSrai (o : IT) (s : State) : Host.Outcome State Fault Refusal := scShi (.srai o) o sraN s
def execLi (d : Nat) (imm : BitVec 28) (s : State) : Host.Outcome State Fault Refusal := sc64 (.li d imm) d [] (fun _ => intW (imm28 imm)) s
def execLih (o : IPos) (s : State) : Host.Outcome State Fault Refusal := sc64 (.lih o) o.d [o.a] (fun vs => setF (lrw vs 0) (4 * o.pos) 28 o.imm.toNat) s

end Sys2Proof.Machine
end

