-- ==== Sys2Proof/Machine/ScalarFp.lean ====
section
/-! DEFINITION. Scalar floating-point instructions (R205 to R207). -/

namespace Sys2Proof.Machine

/-- Bits of a source in a format. -/
def fpIn (ty : Ty) (v : W64) : Nat := v.toNat % 2 ^ ty.width
/-- Scalar sources through a floating-point operation: the result in [w−1:0], zero above, and its flags. -/
def scFp (i : Instr) (d : Nat) (srcs : List Nat) (ty : Ty) (f : List Nat → Nat × Nat) (s : State) : Host.Outcome State Fault Refusal :=
  scOp i d srcs (fun vs => let r := f (vs.map (fpIn ty)); (natW r.1, r.2)) s
def execFadd (o : F3) (s : State) : Host.Outcome State Fault Refusal :=
  scFp (.fadd o) o.d [o.a, o.b] o.ty (fun l => fpAdd (fmtOf o.ty) o.rnd 0 (nth 0 l 0) (nth 0 l 1)) s
def execFsub (o : F3) (s : State) : Host.Outcome State Fault Refusal :=
  scFp (.fsub o) o.d [o.a, o.b] o.ty (fun l => fpSub (fmtOf o.ty) o.rnd 0 (nth 0 l 0) (nth 0 l 1)) s
def execFmul (o : F3) (s : State) : Host.Outcome State Fault Refusal :=
  scFp (.fmul o) o.d [o.a, o.b] o.ty (fun l => fpMul (fmtOf o.ty) o.rnd 0 (nth 0 l 0) (nth 0 l 1)) s
def execFfma (o : F4) (s : State) : Host.Outcome State Fault Refusal :=
  scFp (.ffma o) o.d [o.a, o.b, o.c] o.ty (fun l => fpFma (fmtOf o.ty) o.rnd 0 (nth 0 l 0) (nth 0 l 1) (nth 0 l 2)) s
def execFdiv (o : F3) (s : State) : Host.Outcome State Fault Refusal :=
  scFp (.fdiv o) o.d [o.a, o.b] o.ty (fun l => fpDiv (fmtOf o.ty) o.rnd 0 (nth 0 l 0) (nth 0 l 1)) s
def execFsqrt (o : F2) (s : State) : Host.Outcome State Fault Refusal :=
  scFp (.fsqrt o) o.d [o.a] o.ty (fun l => fpSqrt (fmtOf o.ty) o.rnd 0 (nth 0 l 0)) s
def execFmin (o : RT) (s : State) : Host.Outcome State Fault Refusal :=
  scFp (.fmin o) o.d [o.a, o.b] o.ty (fun l => fpMinMax (fmtOf o.ty) false (nth 0 l 0) (nth 0 l 1)) s
def execFmax (o : RT) (s : State) : Host.Outcome State Fault Refusal :=
  scFp (.fmax o) o.d [o.a, o.b] o.ty (fun l => fpMinMax (fmtOf o.ty) true (nth 0 l 0) (nth 0 l 1)) s
def execFcmp (o : FCmp) (s : State) : Host.Outcome State Fault Refusal :=
  scFp (.fcmp o) o.d [o.a, o.b] o.ty (fun l => let r := fpCmp (fmtOf o.ty) o.cond (nth 0 l 0) (nth 0 l 1); (b2n r.1, r.2)) s
/-- A conversion between two types (R90): result bits of the destination type, and flags. -/
def cvtBits (dty sty : Ty) (md : Rnd) (u : Nat) (sat : Bool) (a : Nat) : Nat × Nat :=
  if sty.float then
    (if dty.float then fpToFp (fmtOf dty) (fmtOf sty) md u sat a
     else let r := fpToInt (fmtOf sty) md u dty.width dty.signed a; (wrap dty.width r.1, r.2))
  else intToFp (fmtOf dty) md u sat (tyVal sty a)
def execFcvt (o : FCvt) (s : State) : Host.Outcome State Fault Refusal :=
  scOp (.fcvt o) o.d [o.a] (fun vs =>
    let r := cvtBits o.dty o.sty o.rnd 0 false ((lrw vs 0).toNat % 2 ^ o.sty.width)
    (if o.dty.float then natW r.1 else tyOut o.dty r.1, r.2)) s
def execFclass (o : RT1) (s : State) : Host.Outcome State Fault Refusal :=
  scFp (.fclass o) o.d [o.a] o.ty (fun l => (fpClass (fmtOf o.ty) (nth 0 l 0), 0)) s

end Sys2Proof.Machine
end

