-- ==== Sys2Proof/Machine/Masks.lean ====
section
/-! DEFINITION. Compares into masks, divergence, the mask stack, mask registers, lane exit and refill, and `vcall` (R213 to R222). -/

namespace Sys2Proof.Machine

/-! ### Compares (R213, R437) -/

/-- Writes the lanes' predicates into mask D: other lanes read 0, poisoned lanes keep their bits. -/
def cmpInto (i : Instr) (o : VCmp) (f : Nat → Nat → Bool × Nat) (s : State) : Host.Outcome State Fault Refusal :=
  let wide := o.ty.is64
  let regs := regsOf wide o.a ++ regsOf wide o.b
  strandWith i 0 [] regs o.p true (fun k s =>
    let x := s.slot k
    let e := x.exec o.p
    match x.emptyReg e regs with
    | some r => parkOn (.lanes r e)
    | none =>
      let p := x.poisLanes e regs
      let go := lanesOf (e &&& ~~~p)
      let rs := go.map (fun l => (l, f (x.lane wide o.a l) (x.lane wide o.b l)))
      let t := maskOf ((rs.filter (fun r => r.2.1)).map (·.1))
      let y := (x.flag (rs.foldl (fun a r => a ||| r.2.2) 0)).setM o.d (t ||| (x.mreg o.d &&& p))
      let s' := s.setSlot k y
      if p = 0 then .ok s' else
        let r := s'.findErr k (vUnits k p regs)
        .error (.trapWith r.2 ⟨r.1, none, some p, 0⟩)) s
/-- Integer predicates by type. -/
def intCmp (ty : Ty) (c : Cond) (a b : Nat) : Bool :=
  let x := tyVal ty a
  let y := tyVal ty b
  match c with
  | .eq => x == y
  | .ne => x != y
  | .lt => decide (x < y)
  | .le => decide (x ≤ y)
  | .gt => decide (y < x)
  | .ge => decide (y ≤ x)
def execVcmp (o : VCmp) (s : State) : Host.Outcome State Fault Refusal := cmpInto (.vcmp o) o (fun a b => (intCmp o.ty o.cond a b, 0)) s
def execVfcmp (o : VCmp) (s : State) : Host.Outcome State Fault Refusal := cmpInto (.vfcmp o) o (fpCmp (fmtOf o.ty) o.cond) s

/-! ### Divergence (R215, R216) -/

/-- `mdiv` and `melse`: narrows m0 to the lanes of the mask; the others wait as a pending path, or run at once when none is left. A RESUME field cannot
hold a target below 0 or at 2^24 and above: it traps "fetch bound" with the exact offset here, where it would be cut (R177, log entry 78). -/
def divStep (join : Bool) (o : B1) (k : Nat) (s : State) : Res State := do
  let x := s.slot k
  let t := x.m0 &&& x.mreg o.a
  let e := x.m0 &&& ~~~(x.mreg o.a)
  let target : Int := x.pc + o.off.toInt
  let js : List MsEntry := if join then [⟨1, x.pc, x.m0⟩] else []
  if t = 0 then
    let s1 ← s.resumeAt k target
    let s2 ← s1.pushChecked k js
    pure (s2.modSlot k (fun y => y.setM 0 e))
  else
    if e ≠ 0 ∧ (target < 0 ∨ 16777216 ≤ target) then raiseV 0x03 (intW target)
    let s1 ← s.pushChecked k (js ++ (if e = 0 then [] else [⟨0, target.toNat, e⟩]))
    pure ((s1.modSlot k (fun y => y.setM 0 t)).advance k)
def execMdiv (o : B1) (s : State) : Host.Outcome State Fault Refusal := jumpI (.mdiv o) (divStep true o) s
def execMelse (o : B1) (s : State) : Host.Outcome State Fault Refusal := jumpI (.melse o) (divStep false o) s
/-- `mjoin` from depth `d`: passes over pending paths whose lanes have all exited. -/
def joinFrom (k : Nat) (s : State) (d : Nat) : Nat → Res State
  | 0 => raiseV 0x17 0
  | n + 1 => do
    let x := s.slot k
    s.msCheck k d
    let e := s.msEntry k d
    let r := e.mask &&& x.m7
    if e.kind = 0 then
      if r = 0 then joinFrom k s (d + 1) n
      else
        let s1 ← s.resumeAt k e.resume
        pure ((s1.msDrop k (d + 1)).modSlot k (fun y => y.setM 0 r))
    else if e.kind = 1 then pure (((s.msDrop k (d + 1)).modSlot k (fun y => y.setM 0 r)).advance k)
    else raiseV 0x01 (s.msRaw k d)
/-- The kind of the highest entry that is not a pending path. -/
def State.joinKind (s : State) (k : Nat) : Option Nat :=
  ((List.range (s.slot k).depth).find? (fun d => (s.msEntry k d).kind != 0)).map (fun d => (s.msEntry k d).kind)
def execMjoin (s : State) : Host.Outcome State Fault Refusal :=
  jumpI .mjoin (fun k s =>
    let x := s.slot k
    match x.inReconv with
    | some r =>
      if 0 < r.d0 ∧ x.depth = r.d0 ∧ s.joinKind k = some 1 then
        let lanes := x.m0 &&& x.m7
        let r' : Reconv := if lanes = 0 then r else
          { r with above := r.above ++ (MsEntry.mk 0 x.pc lanes).words x.wide, links := r.links.map (fun l => { l with depth := l.depth + 1 }) }
        .ok ((s.setSlot k { x with reconv := some r' }).reconvNext k (x.depth + 2))
      else joinFrom k s 0 x.depth
    | none => joinFrom k s 0 x.depth) s

/-! ### Mask-stack access (R217, R219) -/

/-- An entry word that R74 admits; bits [63:32] of an upper hardware entry are not tested at width 64 (DESIGN CHOICE, log entry 91). -/
def entryOk (w : W64) : Bool := wf w 60 4 == 0 && decide (wf w 56 4 ≤ 3)
def entryOf (w : W64) : MsEntry := msEntryOf 0 w
/-- A mask-stack access by the control thread, which a width-64 strand may not use. -/
def stackI (i : Instr) (dsts : List Nat) (body : Nat → State → Res State) (s : State) : Host.Outcome State Fault Refusal :=
  scalarI i dsts (fun k s => do
    if (s.slot k).wide then raise 0x1C
    body k s) s
def execMpush (a : Nat) (s : State) : Host.Outcome State Fault Refusal :=
  stackI (.mpush a) [] (fun k s => do
    let (v, s1) ← rdSc k 1 a s
    ensureV (entryOk v) 0x01 v
    s1.pushChecked k [entryOf v]) s
def execMpop (d : Nat) (s : State) : Host.Outcome State Fault Refusal :=
  stackI (.mpop d) [d] (fun k s => do
    let e ← s.topEntry k
    let w := s.msRaw k 0
    wrSc k d w ((s.msDrop k 1).modSlot k (fun x => x.setM 0 (e.mask &&& x.m7)))) s
def execMpeek (o : R2) (s : State) : Host.Outcome State Fault Refusal :=
  stackI (.mpeek o) [o.d] (fun k s => do
    let (v, s1) ← rdSc k 1 o.a s
    if v.toNat < (s.slot k).depth then
      s1.msCheck k v.toNat
      wrSc k o.d (s1.msRaw k v.toNat) s1
    else wrSc k o.d 0 s1) s
def execMpeekDepth (d : Nat) (s : State) : Host.Outcome State Fault Refusal :=
  stackI (.mpeekDepth d) [d] (fun k s => wrSc k d (natW (s.slot k).depth) s) s
def execMpoke (a b : Nat) (s : State) : Host.Outcome State Fault Refusal :=
  stackI (.mpoke a b) [] (fun k s => do
    let (vs, s1) ← rdScs k 1 [a, b] s
    let v := lrw vs 1
    ensureV (entryOk v) 0x01 v
    ensureV (decide ((lrw vs 0).toNat < (s.slot k).depth)) 0x01 (lrw vs 0)
    pure (s1.msSet k (lrw vs 0).toNat (entryOf v))) s
/-- The 25 words of `mspill`: m0 to m7, the count, the hardware entries bottom first. -/
def Slot.spillWords (x : Slot) : List W64 :=
  let es := x.stack.reverse
  (List.range 8).map x.mreg ++ [natW es.length] ++ es ++ List.replicate (16 - es.length) 0
/-- The LS block of `mspill` and `mfill`. -/
def blockAddr (v : W64) : Res Nat := do
  ensureV (v.toNat % 8 == 0) 0x05 v
  ensureV (decide (v.toNat + 200 ≤ 262144)) 0x04 v
  pure v.toNat
def execMspill (a : Nat) (s : State) : Host.Outcome State Fault Refusal :=
  scalarI (.mspill a) [] (fun k s => do
    let (v, s1) ← rdSc k 1 a s
    let off ← blockAddr v
    let ws := (s.slot k).spillWords
    pure ((List.range 25).foldl (fun t j => t.lsWrite (coreOf k) (off + 8 * j) 8 (lrw ws j).toNat) s1)) s
def execMfill (a : Nat) (s : State) : Host.Outcome State Fault Refusal :=
  scalarI (.mfill a) [] (fun k s => do
    let (v, s1) ← rdSc k 1 a s
    let off ← blockAddr v
    let _ ← s1.lsLoad k off 200
    let word (j : Nat) : W64 := s1.lsWord (coreOf k) (off / 8 + j)
    let h := (word 8).toNat
    ensureV (decide (h ≤ 16) && !((s.slot k).wide && h % 2 == 1)) 0x01 (word 8)
    let es := (List.range h).map (fun j => word (9 + j))
    match es.find? (fun w => !entryOk w) with
    | some w => raiseV 0x01 w
    | none =>
      pure (s1.modSlot k (fun x =>
        let y := [1, 2, 3, 4, 5, 6].foldl (fun t j => t.setM j (word j)) x
        { y.setM 0 (word 0) with stack := es.reverse }))) s

/-! ### Mask registers (R218) -/

/-- A mask computed from mask registers. -/
def maskI (i : Instr) (d : Nat) (f : Slot → W64) (s : State) : Host.Outcome State Fault Refusal :=
  scalarI i [] (fun k s => .ok (s.modSlot k (fun x => x.setM d (f x)))) s
def execMset (o : R2) (s : State) : Host.Outcome State Fault Refusal :=
  scalarI (.mset o) [] (fun k s => do
    let (v, s1) ← rdSc k 1 o.a s
    pure (s1.modSlot k (fun x => x.setM o.d v))) s
def execMand (o : R3) (s : State) : Host.Outcome State Fault Refusal := maskI (.mand o) o.d (fun x => x.mreg o.a &&& x.mreg o.b) s
def execMor (o : R3) (s : State) : Host.Outcome State Fault Refusal := maskI (.mor o) o.d (fun x => x.mreg o.a ||| x.mreg o.b) s
def execMxor (o : R3) (s : State) : Host.Outcome State Fault Refusal := maskI (.mxor o) o.d (fun x => x.mreg o.a ^^^ x.mreg o.b) s
def execMnot (o : R2) (s : State) : Host.Outcome State Fault Refusal := maskI (.mnot o) o.d (fun x => ~~~ x.mreg o.a) s
def execMpopc (o : R2) (s : State) : Host.Outcome State Fault Refusal :=
  scalarI (.mpopc o) [o.d] (fun k s => wrSc k o.d (natW (popcount ((s.slot k).mreg o.a))) s) s
def execMpopcBits (o : R2) (s : State) : Host.Outcome State Fault Refusal :=
  scalarI (.mpopcBits o) [o.d] (fun k s => wrSc k o.d ((s.slot k).mreg o.a) s) s
def execMfirst (o : R2) (s : State) : Host.Outcome State Fault Refusal :=
  scalarI (.mfirst o) [o.d] (fun k s => wrSc k o.d (natW ((lowest ((s.slot k).mreg o.a)).getD (s.slot k).W)) s) s

/-! ### Lane exit and refill (R39 to R42, R220, R221) -/

/-- Removes lanes; a slice left without lanes returns its entries. -/
def State.exitLanes (s : State) (k : Nat) (e : W64) : State :=
  let x := s.slot k
  let m7 := x.m7 &&& ~~~e
  let gone := (List.range 8).filter (fun j => x.slices / 2 ^ j % 2 == 1 && wf m7 (8 * j) 8 == 0)
  let y := { x with m := mset 0 (mset 0 x.m 7 m7) 0 (x.m0 &&& ~~~e), slices := gone.foldl (fun a j => a - 2 ^ j) x.slices }
  (s.setSlot k y).freePool (coreOf k) (8 * x.budget * gone.length)
def execLexit (p : Pred) (s : State) : Host.Outcome State Fault Refusal :=
  strandWith (.lexit p) 0 [] [] p false (fun k s =>
    let s1 := s.exitLanes k ((s.slot k).exec p)
    match (s1.slot k).inReconv with
    | some r =>
      if r.cur &&& (s1.slot k).m7 = 0 then
        let s2 := s1.msDrop k ((s1.slot k).depth - r.d0)
        .ok (s2.reconvNext k ((s2.slot k).depth + 2))
      else .ok (s1.advance k)
    | none => .ok (s1.advance k)) s
/-- Pops the gang's work queue (R42). -/
def State.workPop (s : State) (g : Gang) : W64 × State :=
  match s.gang? g.id with
  | some y => if y.work < (lrw y.lrec 1).toNat then (natW y.work, s.modGang g.id (fun z => { z with work := z.work + 1 })) else (BitVec.allOnes 64, s)
  | none => (BitVec.allOnes 64, s)
/-- Visits the vacant lanes in order (R41). -/
def refillLanes (k : Nat) (g : Gang) : List Nat → State → Res State
  | [], s => .ok s
  | l :: t, s =>
    let x := s.slot k
    if bitAt x.m7 l then refillLanes k g t s
    else
      let j := l / 8
      let held := x.slices / 2 ^ j % 2 == 1
      if !held && !s.poolFits (coreOf k) (8 * x.budget) then .error (.parkWith s (.pool (8 * x.budget)))
      else
        let s1 := if held then s else
          (s.setSlot k { x with slices := x.slices + 2 ^ j, v := x.v.filter (fun e => e.1 % 64 / 8 != j) }).modCore (coreOf k)
            (fun c => { c with poolUsed := c.poolUsed + 8 * x.budget })
        let (item, s2) := s1.workPop g
        if item = BitVec.allOnes 64 then
          let y := s2.slot k
          if wf y.m7 (8 * j) 8 = 0 then .ok ((s2.setSlot k { y with slices := y.slices - 2 ^ j }).freePool (coreOf k) (8 * y.budget)) else .ok s2
        else
          refillLanes k g t (s2.modSlot k (fun y =>
            let z := (y.setV 0 l (BitVec.ofNat 32 item.toNat)).setV 1 l (BitVec.ofNat 32 (item.toNat / 2 ^ 32))
            { z with m := mset 0 z.m 7 (setBit z.m7 l true) }))
def execRefill (s : State) : Host.Outcome State Fault Refusal :=
  scalarI .refill [] (fun k s =>
    let x := s.slot k
    match s.myGang k with
    | none => .ok s
    | some g =>
      if x.depth ≠ 0 then .ok s
      else do
        let s1 ← refillLanes k g (List.range x.W) s
        pure (s1.modSlot k (fun y => y.setM 0 y.m7))) s

/-! ### Calls with a target per lane (R222) -/

def execVcall (a : Nat) (p : Pred) (s : State) : Host.Outcome State Fault Refusal :=
  strandWith (.vcall a p) 0 [] [a, a + 1] p false (fun k s => do
    let x := s.slot k
    let e := x.exec p
    if e = 0 then pure (s.advance k)
    else
      ensureV (x.msRoom (2 * if x.wide then 2 else 1)) 0x17 1
      let s1 ← s.pushChecked k [⟨2, x.pc + 2, x.m0⟩]
      s1.vcallStep k x.pc a e e) s

end Sys2Proof.Machine
end

