-- ==== Sys2Proof/Machine/LaneInt.lean ====
section
/-! DEFINITION. Lane integer instructions (R227 to R234), and the form of every lane instruction, which `sow` uses as well. -/

namespace Sys2Proof.Machine

/-- A lane instruction: its predicate, its vector registers (for the budget), and its effect in a nonempty set of executing lanes. -/
structure LaneBody where
  p : Pred
  vecs : List Nat
  run : W64 → Nat → State → Res State
/-- Issue of a lane instruction by the control thread. -/
def laneGo (i : Instr) (b : LaneBody) (s : State) : Host.Outcome State Fault Refusal := laneI i b.p b.vecs b.run s
/-- Writes a value and flags in every lane of `e`, all sources read before (R228). With `.rsto` a lane draws `n` random values (R96). -/
def mapLanes (wd : Bool) (d : Nat) (md : Rnd) (n : Nat) (f : Slot → (Nat → Nat) → Nat → Nat × Nat) (e : W64) (x : Slot) : Slot :=
  (lanesOf e).foldl (fun y l =>
    let r := f x (if md = .rsto then x.rand l else fun _ => 0) l
    let z := (y.setLane wd d l r.1).flag r.2
    if md = .rsto then z.bump l n else z) x
/-- One vector source. -/
def laneOne (p : Pred) (wd : Bool) (d : Nat) (wa : Bool) (a : Nat) (f : Nat → Nat × Nat) : LaneBody :=
  ⟨p, regsOf wd d ++ regsOf wa a, fun e k s => runLanes k e (regsOf wa a) (mapLanes wd d .rne 0 (fun x _ l => f (x.lane wa a l))) s⟩
/-- Two sources of one width, the second a vector or a scalar for every lane; `u` are the random values. -/
def laneTwo (p : Pred) (w : Bool) (d a b : Nat) (sbs : Bool) (md : Rnd) (n : Nat) (f : (Nat → Nat) → Nat → Nat → Nat × Nat) : LaneBody :=
  ⟨p, regsOf w d ++ regsOf w a ++ sbRegs w sbs b, fun e k s => do
    let (sb, s1) ← rdSbs k e sbs b s
    runLanes k e (regsOf w a ++ sbRegs w sbs b) (mapLanes w d md n (fun x u l => f u (x.lane w a l) (x.laneB w sb b l))) s1⟩
/-- Three sources. -/
def laneThree (p : Pred) (w : Bool) (d a b c : Nat) (sbs : Bool) (md : Rnd) (n : Nat) (f : (Nat → Nat) → Nat → Nat → Nat → Nat × Nat) : LaneBody :=
  ⟨p, regsOf w d ++ regsOf w a ++ sbRegs w sbs b ++ regsOf w c, fun e k s => do
    let (sb, s1) ← rdSbs k e sbs b s
    runLanes k e (regsOf w a ++ sbRegs w sbs b ++ regsOf w c)
      (mapLanes w d md n (fun x u l => f u (x.lane w a l) (x.laneB w sb b l) (x.lane w c l))) s1⟩
/-- Typed integer forms with SAT. -/
def laneSat (o : VTS) (f : Int → Int → Int) : LaneBody :=
  laneTwo o.p o.ty.is64 o.d o.a o.b o.sbs .rne 0 (fun _ a b => (tyBits o.ty o.sat (f (tyVal o.ty a) (tyVal o.ty b)), 0))
/-- Forms on w-bit values. -/
def laneBin (o : VT) (f : Nat → Nat → Nat) : LaneBody := laneTwo o.p o.ty.is64 o.d o.a o.b o.sbs .rne 0 (fun _ a b => (f a b, 0))
def laneUn (o : VT1) (wd : Bool) (f : Nat → Nat) : LaneBody := laneOne o.p wd o.d o.ty.is64 o.a (fun a => (f a, 0))

def laneVadd (o : VTS) : LaneBody := laneSat o (fun a b => a + b)
def laneVsub (o : VTS) : LaneBody := laneSat o (fun a b => a - b)
def laneVmul (o : VTS) : LaneBody := laneSat o (fun a b => a * b)
def laneVmulh (o : VT) : LaneBody := laneBin o (mulhTy o.ty)
def laneVmad (o : VMad) : LaneBody :=
  laneThree o.p o.ty.is64 o.d o.a o.b o.c o.sbs .rne 0 (fun _ a b c => (tyBits o.ty o.sat (tyVal o.ty a * tyVal o.ty b + tyVal o.ty c), 0))
def laneVand (o : VT) : LaneBody := laneBin o (fun a b => a &&& b)
def laneVor (o : VT) : LaneBody := laneBin o (fun a b => a ||| b)
def laneVxor (o : VT) : LaneBody := laneBin o (fun a b => a ^^^ b)
def laneVnot (o : VT1) : LaneBody := laneUn o o.ty.is64 (fun a => 2 ^ o.ty.width - 1 - a % 2 ^ o.ty.width)
def laneVshl (o : VT) : LaneBody := laneBin o (shlN o.ty.width)
def laneVshr (o : VT) : LaneBody := laneBin o (shrN o.ty.width)
def laneVsra (o : VT) : LaneBody := laneBin o (sraN o.ty.width)
def laneVmin (o : VT) : LaneBody := laneBin o (minTy o.ty)
def laneVmax (o : VT) : LaneBody := laneBin o (maxTy o.ty)
def laneVabs (o : VT1S) : LaneBody :=
  laneOne o.p o.ty.is64 o.d o.ty.is64 o.a (fun a => (tyBits o.ty o.sat ((tyVal o.ty a).natAbs : Int), 0))
def laneVsel (o : VSel) : LaneBody :=
  let w := o.ty.is64
  ⟨o.p, regsOf w o.d ++ regsOf w o.a ++ regsOf w o.b, fun e k s =>
    runLanes k e (regsOf w o.a ++ regsOf w o.b) (mapLanes w o.d .rne 0 (fun x _ l => (if bitAt (x.mreg o.c) l then x.lane w o.a l else x.lane w o.b l, 0))) s⟩
def laneVclz (o : VT1) : LaneBody := laneUn o false (clzN o.ty.width)
def laneVpopc (o : VT1) : LaneBody := laneUn o false (popN o.ty.width)
def laneVsext (o : VTN) : LaneBody := laneOne o.p o.ty.is64 o.d o.ty.is64 o.a (fun a => (sextN o.ty.width o.n a, 0))
def laneVzext (o : VTN) : LaneBody := laneOne o.p o.ty.is64 o.d o.ty.is64 o.a (fun a => (a % 2 ^ o.n, 0))
def laneVbs (o : VT1) : LaneBody :=
  ⟨o.p, regsOf o.ty.is64 o.d, fun e k s => do
    let (v, s1) ← rdSc k e o.a s
    pure (s1.modSlot k (mapLanes o.ty.is64 o.d .rne 0 (fun _ _ _ => (v.toNat, 0)) e))⟩
def laneVins (o : VIns) : LaneBody :=
  ⟨o.p, regsOf o.ty.is64 o.d, fun e k s => do
    let (vs, s1) ← rdScs k e [o.a, o.b] s
    let j := (lrw vs 1).toNat
    pure (if j < (s.slot k).W ∧ bitAt e j then s1.modSlot k (fun x => x.setLane o.ty.is64 o.d j (lrw vs 0).toNat) else s1)⟩

def execVadd (o : VTS) (s : State) : Host.Outcome State Fault Refusal := laneGo (.vadd o) (laneVadd o) s
def execVsub (o : VTS) (s : State) : Host.Outcome State Fault Refusal := laneGo (.vsub o) (laneVsub o) s
def execVmul (o : VTS) (s : State) : Host.Outcome State Fault Refusal := laneGo (.vmul o) (laneVmul o) s
def execVmulh (o : VT) (s : State) : Host.Outcome State Fault Refusal := laneGo (.vmulh o) (laneVmulh o) s
def execVmad (o : VMad) (s : State) : Host.Outcome State Fault Refusal := laneGo (.vmad o) (laneVmad o) s
def execVand (o : VT) (s : State) : Host.Outcome State Fault Refusal := laneGo (.vand o) (laneVand o) s
def execVor (o : VT) (s : State) : Host.Outcome State Fault Refusal := laneGo (.vor o) (laneVor o) s
def execVxor (o : VT) (s : State) : Host.Outcome State Fault Refusal := laneGo (.vxor o) (laneVxor o) s
def execVnot (o : VT1) (s : State) : Host.Outcome State Fault Refusal := laneGo (.vnot o) (laneVnot o) s
def execVshl (o : VT) (s : State) : Host.Outcome State Fault Refusal := laneGo (.vshl o) (laneVshl o) s
def execVshr (o : VT) (s : State) : Host.Outcome State Fault Refusal := laneGo (.vshr o) (laneVshr o) s
def execVsra (o : VT) (s : State) : Host.Outcome State Fault Refusal := laneGo (.vsra o) (laneVsra o) s
def execVmin (o : VT) (s : State) : Host.Outcome State Fault Refusal := laneGo (.vmin o) (laneVmin o) s
def execVmax (o : VT) (s : State) : Host.Outcome State Fault Refusal := laneGo (.vmax o) (laneVmax o) s
def execVabs (o : VT1S) (s : State) : Host.Outcome State Fault Refusal := laneGo (.vabs o) (laneVabs o) s
def execVsel (o : VSel) (s : State) : Host.Outcome State Fault Refusal := laneGo (.vsel o) (laneVsel o) s
def execVclz (o : VT1) (s : State) : Host.Outcome State Fault Refusal := laneGo (.vclz o) (laneVclz o) s
def execVpopc (o : VT1) (s : State) : Host.Outcome State Fault Refusal := laneGo (.vpopc o) (laneVpopc o) s
def execVsext (o : VTN) (s : State) : Host.Outcome State Fault Refusal := laneGo (.vsext o) (laneVsext o) s
def execVzext (o : VTN) (s : State) : Host.Outcome State Fault Refusal := laneGo (.vzext o) (laneVzext o) s
def execVbs (o : VT1) (s : State) : Host.Outcome State Fault Refusal := laneGo (.vbs o) (laneVbs o) s
def execVins (o : VIns) (s : State) : Host.Outcome State Fault Refusal := laneGo (.vins o) (laneVins o) s

/-- `vext`: one lane's value into a scalar register (R233, R402). -/
def execVext (o : VExt) (s : State) : Host.Outcome State Fault Refusal :=
  let w := o.ty.is64
  strandWith (.vext o) 0 [o.d] (regsOf w o.a) allLanes true (fun k s => do
    let (b, s1) ← rdSc k 1 o.b s
    let x := s.slot k
    let j := b.toNat
    if x.W ≤ j ∨ !bitAt x.m7 j then
      if o.live then wrSc k o.d 0 s1 else raiseV 0x0A b
    else
      let e := maskOf [j]
      match x.emptyReg e (regsOf w o.a) with
      | some r => parkOn (.lanes r e)
      | none =>
        if x.poisLanes e (regsOf w o.a) ≠ 0 then s.poisStop k (vUnits k e (regsOf w o.a)) ⟨0x11, none, some 1, 0⟩
        wrSc k o.d (tyOut o.ty (x.lane w o.a j)) s1) s

end Sys2Proof.Machine
end

