-- ==== Sys2Proof/Machine/LaneFp.lean ====
section
/-! DEFINITION. Lane floating-point instructions, packed halves, quantisation and `vbpt` (R235 to R240). -/

namespace Sys2Proof.Machine

/-- Two floating-point sources. -/
def laneF3 (o : VF3) (f : Nat → Nat → Nat → Nat × Nat) : LaneBody :=
  laneTwo o.p o.ty.is64 o.d o.a o.b o.sbs o.rnd 1 (fun u a b => f (u 0) a b)
/-- One floating-point source. -/
def laneF2 (o : VF2) (f : Nat → Nat → Nat × Nat) : LaneBody :=
  let w := o.ty.is64
  ⟨o.p, regsOf w o.d ++ regsOf w o.a, fun e k s => runLanes k e (regsOf w o.a) (mapLanes w o.d o.rnd 1 (fun x u l => f (u 0) (x.lane w o.a l))) s⟩
def laneVfadd (o : VF3) : LaneBody := laneF3 o (fpAdd (fmtOf o.ty) o.rnd)
def laneVfsub (o : VF3) : LaneBody := laneF3 o (fpSub (fmtOf o.ty) o.rnd)
def laneVfmul (o : VF3) : LaneBody := laneF3 o (fpMul (fmtOf o.ty) o.rnd)
def laneVffma (o : VF4) : LaneBody :=
  laneThree o.p o.ty.is64 o.d o.a o.b o.c o.sbs o.rnd 1 (fun u a b c => fpFma (fmtOf o.ty) o.rnd (u 0) a b c)
def laneVfdiv (o : VF3) : LaneBody := laneF3 o (fpDiv (fmtOf o.ty) o.rnd)
def laneVfsqrt (o : VF2) : LaneBody := laneF2 o (fpSqrt (fmtOf o.ty) o.rnd)
def laneVfrcp (o : VF2) : LaneBody := laneF2 o (fpRcp o.rnd)
def laneVfrsq (o : VF2) : LaneBody := laneF2 o (fpRsq o.rnd)
def laneVfexp2 (o : VF2) : LaneBody := laneF2 o (fpExp2 o.rnd)
def laneVflog2 (o : VF2) : LaneBody := laneF2 o (fpLog2 o.rnd)
def laneVfmin (o : VT) : LaneBody := laneTwo o.p o.ty.is64 o.d o.a o.b o.sbs .rne 0 (fun _ a b => fpMinMax (fmtOf o.ty) false a b)
def laneVfmax (o : VT) : LaneBody := laneTwo o.p o.ty.is64 o.d o.a o.b o.sbs .rne 0 (fun _ a b => fpMinMax (fmtOf o.ty) true a b)
def laneVfround (o : VF2) : LaneBody := laneF2 o (fun _ a => fpRound (fmtOf o.ty) o.rnd a)

/-- Where a type sits in a lane (R237): its bits, and a result placed over the old value. -/
def cvtSrc (ty : Ty) (hi : Bool) (v : Nat) : Nat := if ty.half && hi then v / 65536 % 65536 else v % 2 ^ ty.width
def cvtDst (ty : Ty) (hi : Bool) (old r : Nat) : Nat :=
  if ty.half && hi then old % 65536 + 65536 * r
  else if ty.signed then wrap (max 32 ty.width) (toSigned ty.width r)
  else r
def laneVfcvt (o : VFCvt) : LaneBody :=
  let keep := o.hi && o.dty.half
  let srcs := regsOf o.sty.is64 o.a ++ (if keep then [o.d] else [])
  ⟨o.p, regsOf o.dty.is64 o.d ++ regsOf o.sty.is64 o.a, fun e k s =>
    runLanes k e srcs (mapLanes o.dty.is64 o.d o.rnd 1 (fun x u l =>
      let r := cvtBits o.dty o.sty o.rnd (u 0) o.sat (cvtSrc o.sty o.hi (x.lane o.sty.is64 o.a l))
      (cvtDst o.dty o.hi (x.lane false o.d l) r.1, r.2))) s⟩

/-- The conversion slot that `vqblk` names: P and rounding; any other kind traps 0x15. -/
def Slot.cvtSlot (x : Slot) (n : Nat) : Option (Nat × Rnd) :=
  let f := lrw x.fmt n
  if wf f 0 4 = 3 then some (wf f 4 5, if bitAt f 15 then .rsto else .rne) else none
def laneVqblkExp (o : VQExp) : LaneBody :=
  ⟨o.p, [o.d, o.a], fun e k s =>
    match (s.slot k).cvtSlot o.slot with
    | none => raise 0x15
    | some (p, _) => runLanes k e [o.a] (mapLanes false o.d .rne 0 (fun x _ l => let r := quantExp p (x.lane false o.a l); (wrap 32 r.1, r.2))) s⟩
def laneVqblkMan (o : VQMan) : LaneBody :=
  ⟨o.p, [o.d, o.a, o.b], fun e k s =>
    match (s.slot k).cvtSlot o.slot with
    | none => raise 0x15
    | some (p, md) => runLanes k e [o.a, o.b] (mapLanes false o.d md 1 (fun x u l =>
        let r := quantMan p md (u 0) (toSigned 8 (x.lane false o.b l)) (x.lane false o.a l)
        (wrap 32 r.1, r.2))) s⟩
/-- Bit transpose across the lanes of each half (R240). -/
def laneVbpt (o : V2) : LaneBody :=
  ⟨o.p, [o.d, o.a], fun e k s =>
    runCross k e [o.a] (fun x => mapLanes false o.d .rne 0 (fun x _ j =>
      ((List.range 32).foldl (fun t i => if bitAt e (32 * (j / 32) + i) then t + (x.vreg o.a (32 * (j / 32) + i)).val.toNat / 2 ^ (j % 32) % 2 * 2 ^ i else t) 0, 0)) e x) s⟩
def laneVhadd (o : VF3) : LaneBody :=
  laneTwo o.p false o.d o.a o.b o.sbs o.rnd 2 (fun u a b => halves (fun v x y _ => fpAdd (fmtOf o.ty) o.rnd v x y) (u 0) (u 1) a b 0)
def laneVhmul (o : VF3) : LaneBody :=
  laneTwo o.p false o.d o.a o.b o.sbs o.rnd 2 (fun u a b => halves (fun v x y _ => fpMul (fmtOf o.ty) o.rnd v x y) (u 0) (u 1) a b 0)
def laneVhfma (o : VF4) : LaneBody :=
  laneThree o.p false o.d o.a o.b o.c o.sbs o.rnd 2 (fun u a b c => halves (fun v x y z => fpFma (fmtOf o.ty) o.rnd v x y z) (u 0) (u 1) a b c)

def execVfadd (o : VF3) (s : State) : Host.Outcome State Fault Refusal := laneGo (.vfadd o) (laneVfadd o) s
def execVfsub (o : VF3) (s : State) : Host.Outcome State Fault Refusal := laneGo (.vfsub o) (laneVfsub o) s
def execVfmul (o : VF3) (s : State) : Host.Outcome State Fault Refusal := laneGo (.vfmul o) (laneVfmul o) s
def execVffma (o : VF4) (s : State) : Host.Outcome State Fault Refusal := laneGo (.vffma o) (laneVffma o) s
def execVfdiv (o : VF3) (s : State) : Host.Outcome State Fault Refusal := laneGo (.vfdiv o) (laneVfdiv o) s
def execVfsqrt (o : VF2) (s : State) : Host.Outcome State Fault Refusal := laneGo (.vfsqrt o) (laneVfsqrt o) s
def execVfrcp (o : VF2) (s : State) : Host.Outcome State Fault Refusal := laneGo (.vfrcp o) (laneVfrcp o) s
def execVfrsq (o : VF2) (s : State) : Host.Outcome State Fault Refusal := laneGo (.vfrsq o) (laneVfrsq o) s
def execVfexp2 (o : VF2) (s : State) : Host.Outcome State Fault Refusal := laneGo (.vfexp2 o) (laneVfexp2 o) s
def execVflog2 (o : VF2) (s : State) : Host.Outcome State Fault Refusal := laneGo (.vflog2 o) (laneVflog2 o) s
def execVfmin (o : VT) (s : State) : Host.Outcome State Fault Refusal := laneGo (.vfmin o) (laneVfmin o) s
def execVfmax (o : VT) (s : State) : Host.Outcome State Fault Refusal := laneGo (.vfmax o) (laneVfmax o) s
def execVfround (o : VF2) (s : State) : Host.Outcome State Fault Refusal := laneGo (.vfround o) (laneVfround o) s
def execVfcvt (o : VFCvt) (s : State) : Host.Outcome State Fault Refusal := laneGo (.vfcvt o) (laneVfcvt o) s
def execVqblkExp (o : VQExp) (s : State) : Host.Outcome State Fault Refusal := laneGo (.vqblkExp o) (laneVqblkExp o) s
def execVqblkMan (o : VQMan) (s : State) : Host.Outcome State Fault Refusal := laneGo (.vqblkMan o) (laneVqblkMan o) s
def execVbpt (o : V2) (s : State) : Host.Outcome State Fault Refusal := laneGo (.vbpt o) (laneVbpt o) s
def execVhadd (o : VF3) (s : State) : Host.Outcome State Fault Refusal := laneGo (.vhadd o) (laneVhadd o) s
def execVhmul (o : VF3) (s : State) : Host.Outcome State Fault Refusal := laneGo (.vhmul o) (laneVhmul o) s
def execVhfma (o : VF4) (s : State) : Host.Outcome State Fault Refusal := laneGo (.vhfma o) (laneVhfma o) s

end Sys2Proof.Machine
end

