-- ==== Sys2Proof/Machine/CrossLane.lean ====
section
/-! DEFINITION. Cross-lane instructions (R241, R242) and the fixed summation orders (R92, R93). -/

namespace Sys2Proof.Machine

/-- Issue of a cross-lane instruction: absent members trap unless `.live`; the body acts in the lanes C that take part. With an empty C it still reads a
scalar source (R227, R228). -/
def crossBody (p : Pred) (mm : Nat) (live : Bool) (vecs : List Nat) (body : W64 → W64 → Nat → State → Res State) : LaneBody :=
  ⟨p, vecs, fun e k s => do
    let x := s.slot k
    let m := x.mreg mm &&& laneMask x.W
    if !live && (m &&& ~~~ x.m7) != 0 then raiseV 0x0A m
    body (e &&& m &&& x.m7) e k s⟩
/-- Each lane of C takes the value of a lane; a lane outside C supplies 0. -/
def takeFrom (wide : Bool) (d a : Nat) (c : W64) (j : Slot → Nat → Nat) (x : Slot) : Slot :=
  mapLanes wide d .rne 0 (fun x _ l => (if bitAt c (j x l) then x.lane wide a (j x l) else 0, 0)) c x
def laneVshuf (o : VX3) : LaneBody :=
  let w := o.ty.is64
  crossBody o.p o.mm o.live (regsOf w o.d ++ regsOf w o.a ++ [o.b]) (fun c _ k s =>
    runCross k c (regsOf w o.a ++ [o.b]) (fun x => takeFrom w o.d o.a c (fun x l => x.lane false o.b l % x.W) x) s)
/-- A scalar selects the lane. -/
def crossScalar (o : VX3) (j : Nat → Nat → Nat → Nat) : LaneBody :=
  let w := o.ty.is64
  crossBody o.p o.mm o.live (regsOf w o.d ++ regsOf w o.a) (fun c _ k s => do
    let (b, s1) ← rdSc k c o.b s
    runCross k c (regsOf w o.a) (fun x => takeFrom w o.d o.a c (fun x l => j x.W b.toNat l) x) s1)
def laneVbcast (o : VX3) : LaneBody := crossScalar o (fun w b _ => b % w)
def laneVrot (o : VX3) : LaneBody := crossScalar o (fun w b i => (i + w - b % w) % w)

/-- Identity value of an operation (R242). -/
def redIdent (op : RedOp) (ty : Ty) : Nat :=
  match op with
  | .add | .or | .xor => 0
  | .and => 2 ^ ty.width - 1
  | .min => if ty.fp then (fmtOf ty).infBits false else wrap ty.width (tyMax ty)
  | .max => if ty.fp then (fmtOf ty).infBits true else wrap ty.width (tyMin ty)
/-- One application of an operation; result and flags. -/
def redApply (op : RedOp) (ty : Ty) (md : Rnd) (a b : Nat) : Nat × Nat :=
  match op with
  | .add => if ty.fp then fpAdd (fmtOf ty) md 0 a b else (wrap ty.width ((a : Int) + b), 0)
  | .min => if ty.fp then fpMinMax (fmtOf ty) false a b else (minTy ty a b, 0)
  | .max => if ty.fp then fpMinMax (fmtOf ty) true a b else (maxTy ty a b, 0)
  | .and => (a &&& b, 0)
  | .or => (a ||| b, 0)
  | .xor => (a ^^^ b, 0)
/-- ReduceTree (R92): values by lane; the butterfly of distances d, 2d, … for `n` rounds. Values and flags. -/
def reduceTree (f : Nat → Nat → Nat × Nat) : Nat → Nat → List Nat → Nat → Nat × Nat
  | 0, _, t, fl => (t.headD 0, fl)
  | n + 1, d, t, fl =>
    let rs := (List.range t.length).map (fun i => f (nth 0 t i) (nth 0 t (i ^^^ d)))
    reduceTree f n (2 * d) (rs.map (·.1)) (rs.foldl (fun a r => a ||| r.2) fl)
/-- ScanKS (R93). -/
def scanKS (f : Nat → Nat → Nat × Nat) : Nat → Nat → List Nat → Nat → List Nat × Nat
  | 0, _, t, fl => (t, fl)
  | n + 1, d, t, fl =>
    let rs := (List.range t.length).map (fun i => if d ≤ i then f (nth 0 t (i - d)) (nth 0 t i) else (nth 0 t i, 0))
    scanKS f n (2 * d) (rs.map (·.1)) (rs.foldl (fun a r => a ||| r.2) fl)
/-- Values of the lanes of a strand, the identity outside C. -/
def crossVals (op : RedOp) (ty : Ty) (a : Nat) (c : W64) (x : Slot) : List Nat :=
  (List.range x.W).map (fun l => if bitAt c l then x.lane ty.is64 a l else redIdent op ty)
def laneVred (o : VRed) : LaneBody :=
  let w := o.ty.is64
  crossBody o.p o.mm o.live (regsOf w o.d ++ regsOf w o.a) (fun c _ k s =>
    runCross k c (regsOf w o.a) (fun x =>
      let r := reduceTree (redApply o.op o.ty o.rnd) (Nat.log2 x.W) 1 (crossVals o.op o.ty o.a c x) 0
      (mapLanes w o.d .rne 0 (fun _ _ _ => (r.1, 0)) c x).flag r.2) s)
/-- `vscan`; the flags of every addition of the scan are set, also of those whose result no lane of C takes (R93, R229; DESIGN CHOICE, log entry 93). -/
def laneVscan (o : VScan) : LaneBody :=
  let w := o.ty.is64
  crossBody o.p o.mm o.live (regsOf w o.d ++ regsOf w o.a) (fun c _ k s =>
    runCross k c (regsOf w o.a) (fun x =>
      let r := scanKS (redApply o.op o.ty o.rnd) (Nat.log2 x.W) 1 (crossVals o.op o.ty o.a c x) 0
      (mapLanes w o.d .rne 0 (fun _ _ l =>
        (if o.excl then (if l = 0 then redIdent o.op o.ty else nth 0 r.1 (l - 1)) else nth 0 r.1 l, 0)) c x).flag r.2) s)
def laneVmatch (o : VX2) : LaneBody :=
  let w := o.ty.is64
  crossBody o.p o.mm o.live (o.d :: regsOf w o.a) (fun c _ k s =>
    runCross k c (regsOf w o.a) (fun x =>
      mapLanes x.wide o.d .rne 0 (fun x _ l => ((maskOf ((lanesOf c).filter (fun j => x.lane w o.a j == x.lane w o.a l))).toNat, 0)) c x) s)

def execVshuf (o : VX3) (s : State) : Host.Outcome State Fault Refusal := laneGo (.vshuf o) (laneVshuf o) s
def execVbcast (o : VX3) (s : State) : Host.Outcome State Fault Refusal := laneGo (.vbcast o) (laneVbcast o) s
def execVrot (o : VX3) (s : State) : Host.Outcome State Fault Refusal := laneGo (.vrot o) (laneVrot o) s
def execVred (o : VRed) (s : State) : Host.Outcome State Fault Refusal := laneGo (.vred o) (laneVred o) s
def execVscan (o : VScan) (s : State) : Host.Outcome State Fault Refusal := laneGo (.vscan o) (laneVscan o) s
/-- The checks that only a width-64 strand makes (R68, R191, R242): the destination of `vmatch` is then a pair, even and below the budget. -/
def Slot.pairBad (x : Slot) : Instr → Option Nat
  | .vmatch o => if x.wide && o.d % 2 == 1 then some 0x01 else if x.wide && decide (x.budget ≤ o.d + 1) then some 0x08 else none
  | _ => none
def execVmatch (o : VX2) (s : State) : Host.Outcome State Fault Refusal :=
  strandIf (.vmatch o) (fun x => x.pairBad (.vmatch o) <|> x.refuse 0 [] (laneVmatch o).vecs) o.p true (laneRun o.p (laneVmatch o).run) s

end Sys2Proof.Machine
end

