-- ==== Sys2Proof/Machine/LaneMem.lean ====
section
/-! DEFINITION. Accesses of an instruction as the spec checks and reports them (R117, R118, R435, R436), lane loads and stores, and lane atomics (R243 to R250). -/

namespace Sys2Proof.Machine

/-! ### Checks and reports (R117, R118, R436) -/

/-- A lane that stops at a check: its cause, the address it names, and DETAIL (R382, R444). -/
structure Bad where
  lane : Nat
  code : Nat
  va : W64
  detail : W64
deriving DecidableEq, Repr
/-- The order in which causes are reported (R118, R436). -/
def causeRank (c : Nat) : Nat :=
  if c = 0x04 then 0 else if c = 0x05 then 1 else if c = 0x10 ∨ c = 0x11 then 2 else if c = 0x07 then 3 else if c = 0x12 then 4 else if c = 0x13 then 5 else 6
/-- The checks of one access through a pointer, in the order of R117; with SP 1 it goes to the local store (R244). -/
def State.refOf (s : State) (k : Nat) (p : BitVec 128) (off : Int) (n perm : Nat) (acc : Acc) (lane : Nat) : XR (Ref × State) :=
  match checkAccess p off n perm with
  | none => .error (0x04, s)
  | some va =>
    if va % n ≠ 0 then .error (0x05, s)
    else if pSP p then .ok (⟨lane, true, va, va, false⟩, s)
    else match s.xlate (coreOf k) (s.partOfSlot k) (s.slot k).asid acc va with
      | .error e => .error e
      | .ok (x, s1) => .ok (⟨lane, false, x.pa, va, x.direct⟩, s1)
/-- The checks of one access in the local-store form (R245). -/
def State.lsRef (s : State) (a : Int) (n lane : Nat) : XR (Ref × State) :=
  if a < 0 ∨ a + n > 262144 then .error (0x04, s)
  else if a % n ≠ 0 then .error (0x05, s)
  else .ok (⟨lane, true, a.toNat, a.toNat, false⟩, s)
/-- The checks of a list of accesses (lane, offset or address, reported address): the state left, the accesses that pass, and the failures. -/
def checkAll (f : State → Int → Nat → XR (Ref × State)) : List (Nat × Int × W64) → State → List Ref → List Bad → State × List Ref × List Bad
  | [], s, ok, bad => (s, ok.reverse, bad.reverse)
  | (l, off, va) :: t, s, ok, bad =>
    match f s off l with
    | .ok (r, s1) => checkAll f t s1 (r :: ok) bad
    | .error (c, s1) => checkAll f t (if causeRank (c % 256) = 2 then s1 else s) ok (⟨l, c % 256, va, natW (c / 256)⟩ :: bad)
def badLanes (l : List Bad) : W64 := maskOf (l.map (·.lane))
/-- 0x10 when any failure has it, else 0x11 (R436). -/
def poisCode (l : List Bad) : Nat := if l.any (fun b => b.code == 0x10) then 0x10 else 0x11
/-- The report of failed checks: a cause other than 0x06 stops the instruction before any lane acts; 0x06 lets the other lanes go on. -/
def checkRes (r : State × List Ref × List Bad) (all : Option W64) : Res (State × List Ref × List Bad) :=
  let bad := r.2.2
  let m := bad.foldl (fun a b => Nat.min a (causeRank b.code)) 6
  let ls := bad.filter (fun b => causeRank b.code == m)
  match m, ls with
  | 6, _ => .ok r
  | _, [] => .ok r
  | m, b :: _ =>
    let t : Trap := ⟨if m = 2 then poisCode ls else b.code, some b.va, some (all.getD (badLanes ls)), if m = 2 then b.detail else 4⟩
    .error (if m = 2 then .trapWith r.1 t else .trap t)
def lowestBad : List Bad → Option Bad
  | [] => none
  | b :: t => match lowestBad t with
    | none => some b
    | some c => if b.lane ≤ c.lane then some b else some c
/-- The report after the lanes without a fault have completed: 0x06 first, with the poisoned lanes in FMASK, then the poison (R436). TVAL is the address
of the lowest FMASK lane (R118); `reg` are the lanes with a poisoned register. -/
def memDone (s : State) (pf bad reg : List Bad) (all : Option W64) (acc : Nat) : Res State :=
  let fl := all.getD (badLanes pf ||| badLanes bad ||| badLanes reg)
  if pf.isEmpty then
    if bad.isEmpty && reg.isEmpty then .ok s
    else
      let b := lowestBad bad
      let inReg := match b, lowestBad reg with
        | some x, some y => decide (y.lane < x.lane)
        | some _, none => false
        | none, _ => true
      .error (.trapWith s ⟨poisCode (bad ++ reg), if inReg then none else b.map (·.va), some fl, if inReg then 0 else (b.map (·.detail)).getD 0⟩)
  else .error (.trapWith s ⟨0x06, (lowestBad (pf ++ bad ++ reg)).map (·.va), some fl, natW acc⟩)
/-- A demotion point met by an instruction that traps with lanes left counts when it completes (R49, R249). -/
def State.markDem (s : State) (k : Nat) (dem : Bool) : State :=
  if dem && !(s.slot k).th then s.modSlot k (fun x => { x with demAt := some x.pc }) else s
/-- Is a demotion point of the instruction at the program counter outstanding. -/
def Slot.demHere (x : Slot) : Bool := !x.th && x.demAt == some x.pc
/-- The lanes of a list of accesses that a mask selects, as lanes with a poisoned register, by the cause found. -/
def regBad (code : Nat) (rp : W64) (l : List (Nat × Int × W64)) : List Bad := (l.filter (fun a => bitAt rp a.1)).map (fun a => ⟨a.1, code, a.2.2, 0⟩)
/-- A memory instruction of lanes: empty registers park it, the checks are made in every lane whose address register is sound, lanes with a poisoned
register stay out of the accesses, and the others are performed. `xr` are the address registers. Yields whether it is a demotion point (R49). -/
def accessLanes (k : Nat) (e : W64) (regs xr : List Nat) (acc : Nat) (all : Option W64) (f : State → Int → Nat → XR (Ref × State))
    (offs : Slot → W64 → List (Nat × Int × W64)) (perform : List Ref → State → Res (State × List Bad × Bool)) (s : State) : Res (Bool × State) := do
  let x := s.slot k
  match x.emptyReg e regs with
  | some r => parkOn (.lanes r e)
  | none =>
    let rp := x.poisLanes e regs
    let (s1, refs, pf) ← checkRes (checkAll f (offs x (e &&& ~~~(x.poisLanes e xr))) s [] []) all
    let (s2, bad, dem) ← perform (refs.filter (fun r => !bitAt rp r.lane)) s1
    let (c, s3) := s2.findErr k (if pf.isEmpty then vUnits k rp regs else [])
    let s4 ← memDone (if pf.isEmpty && bad.isEmpty && rp == 0 then s3 else s3.markDem k dem) pf bad (regBad c rp (offs x rp)) all acc
    pure (dem, s4)
/-- Completes an instruction that may be a demotion point (R49). -/
def State.finish (s : State) (k : Nat) (dem : Bool) : State :=
  let d := (s.slot k).demHere
  let s1 := (if d then s.modSlot k (fun x => { x with demAt := none }) else s).advance k
  if dem || d then s1.demote k (s1.slot k).pc else s1
/-- Issue of a lane memory instruction. -/
def memGo (i : Instr) (p : Pred) (vecs : List Nat) (run : W64 → Nat → State → Res (Bool × State)) (s : State) : Host.Outcome State Fault Refusal :=
  strandWith i 0 [] vecs p false (fun k t => do
    let e := (t.slot k).exec p
    if e = 0 then pure (t.advance k)
    else
      let (dem, t1) ← run e k t
      pure (t1.finish k dem)) s

/-! ### One access performed (R244 to R246, R249) -/

/-- The local-store word that a list of accesses finds empty. -/
def State.emptyRef (s : State) (k : Nat) (refs : List Ref) : Option Nat :=
  (refs.find? (fun r => r.ls && s.wordEmpty (coreOf k) (r.addr / 8))).map (fun r => r.addr / 8)
/-- A read: status (0, 0x10 or 0x11), value, state. A polling read writes the sector back, invalidates it and peeks (R246). -/
def State.readRef (s : State) (k n : Nat) (poll : Bool) (r : Ref) : Nat × Nat × State :=
  let c := coreOf k
  if r.ls then
    if s.wordPois c (r.addr / 8) then
      let e := s.findErr k [.lsw c (r.addr / 8)]
      (e.1, s.lsRead c r.addr n, e.2)
    else (0, s.lsRead c r.addr n, s)
  else if r.direct then s.uread (s.partOf (clOfCore c)) (dieOfCore c) r.addr n
  else if poll then (s.flushSector c (r.addr / 64)).cread (s.partOf (clOfCore c)) (dieOfCore c) r.addr n
  else s.l1Load c r.addr n
/-- A lane store. -/
def State.writeRef (s : State) (k n : Nat) (r : Ref) (v : Nat) : State :=
  let c := coreOf k
  if r.ls then s.lsWrite c r.addr n v
  else if r.direct then s.uwrite (s.partOf (clOfCore c)) (dieOfCore c) r.addr n v
  else s.l1Store c r.addr n v
def Ref.bad (r : Ref) (st : Nat) : Bad := ⟨r.lane, st, natW r.va, if r.ls then 0 else natW (r.addr / 128 * 128)⟩
/-- Widens a loaded value by SGN (R243). -/
def widen (sgn : Bool) (n w v : Nat) : Nat := if sgn then wrap w (toSigned (8 * n) v) else v
/-- The requests of a lane access: lines of 256 bytes in ascending order, and within a line the lanes in order (R126). -/
def insLine (r : Ref) : List Ref → List Ref
  | [] => [r]
  | q :: t => if r.addr / 256 < q.addr / 256 then r :: q :: t else q :: insLine r t
def byLine (refs : List Ref) : List Ref := refs.foldl (fun l r => insLine r l) []
/-- Does a request complete as unreachable: the lanes of one line share it, and its event (R126, R440). -/
def State.lost (s : State) (k : Nat) (r : Ref) : Bool := !r.ls && r.direct && !s.reach (dieOfSlot k) r.addr
/-- Loads in the order of their requests; `put` writes a lane's value. -/
def loadAll (k n : Nat) (poll : Bool) (put : Nat → Nat → Slot → Slot) : List Ref → State → List Bad → State × List Bad
  | [], s, bad => (s, bad)
  | r :: t, s, bad =>
    let (st, v, s1) := if s.lost k r && bad.any (fun b => b.detail.toNat / 256 == r.addr / 256) then (0x11, 0, s) else s.readRef k n poll r
    if st = 0 then loadAll k n poll put t (s1.modSlot k (put r.lane v)) bad else loadAll k n poll put t s1 (bad ++ [r.bad st])
/-- Performs loads, after the park on an empty local-store word (R51). -/
def doLoads (k n : Nat) (poll : Bool) (put : Nat → Nat → Slot → Slot) (refs : List Ref) (s : State) : Res (State × List Bad × Bool) :=
  match s.emptyRef k refs with
  | some w => parkOn (.lsFull w)
  | none =>
    let (s1, bad) := loadAll k n poll put (byLine refs) s []
    .ok (s1, bad, poll)

/-! ### Lane loads and stores -/

def xoff (o : Option Nat) (x : Slot) (l : Nat) : Int := match o with
  | some r => toSigned 32 (x.vreg r l).val.toNat
  | none => 0
/-- Bytes of an access by SIZE (R182). -/
def szN (sz : Nat) : Nat := 2 ^ sz
/-- Lane addresses of a pointer form. -/
def ptrOffs (o : Option Nat) (off : BitVec 16) (p : BitVec 128) (x : Slot) (e : W64) : List (Nat × Int × W64) :=
  (lanesOf e).map (fun l => let d := xoff o x l + off.toInt; (l, d, intW (pCur p + d)))
/-- Lane addresses of a local-store form; TVAL is the 18-bit offset (R389). -/
def lsOffs (o : Option Nat) (off : BitVec 16) (b : W64) (x : Slot) (e : W64) : List (Nat × Int × W64) :=
  (lanesOf e).map (fun l => let a : Int := b.toNat + xoff o x l + off.toInt; (l, a, natW (wrap 18 a)))
def putLane (o : VLoad) (l v : Nat) (x : Slot) : Slot := x.setLane ((szN o.sz) == 8) o.d l (widen o.sgn (szN o.sz) 32 v)
def memVld (o : VLoad) (e : W64) (k : Nat) (s : State) : Res (Bool × State) :=
  let p := (s.slot k).preg o.p
  accessLanes k e o.x.toList o.x.toList 0 none (fun t d l => t.refOf k p d (szN o.sz) 1 (accR (t.slot k).priv) l) (ptrOffs o.x o.off p) (doLoads k (szN o.sz) o.poll (putLane o)) s
/-- Performs stores in the order of their requests: the highest lane's value remains (R141, R244). -/
def storeAll (k n : Nat) (get : Nat → Nat) (refs : List Ref) (s : State) : Res (State × List Bad × Bool) :=
  let rs := byLine refs
  .ok ((rs.filter (fun r => !s.lost k r || rs.find? (fun q => q.addr / 256 == r.addr / 256) == some r)).foldl (fun t r => t.writeRef k n r (get r.lane)) s, [], false)
def memVst (o : VStore) (e : W64) (k : Nat) (s : State) : Res (Bool × State) :=
  let x := s.slot k
  let p := x.preg o.p
  accessLanes k e (o.x.toList ++ regsOf ((szN o.sz) == 8) o.d) o.x.toList 1 none (fun t d l => t.refOf k p d (szN o.sz) 2 (accW (t.slot k).priv) l) (ptrOffs o.x o.off p)
    (storeAll k (szN o.sz) (x.lane ((szN o.sz) == 8) o.d)) s
/-- `vldu`: one access for every lane of E, and a fault of all of them (R244). -/
def memVldu (o : VLoad) (e : W64) (k : Nat) (s : State) : Res (Bool × State) := do
  let (b, s0) ← match o.x with
    | some r => rdSc k e r s
    | none => .ok (0, s)
  let p := (s.slot k).preg o.p
  let d : Int := b.toInt + o.off.toInt
  accessLanes k e [] [] 0 (some e) (fun t d l => t.refOf k p d (szN o.sz) 1 (accR (t.slot k).priv) l) (fun _ _ => [((lowest e).getD 0, d, intW (pCur p + d))])
    (doLoads k (szN o.sz) o.poll (fun _ v x => (lanesOf e).foldl (fun y l => putLane o l v y) x)) s0
def memLld (o : VLoad) (e : W64) (k : Nat) (s : State) : Res (Bool × State) := do
  let (b, s0) ← rdSc k e o.p s
  accessLanes k e o.x.toList o.x.toList 0 none (fun t a l => t.lsRef a (szN o.sz) l) (lsOffs o.x o.off b) (doLoads k (szN o.sz) o.poll (putLane o)) s0
def memLst (o : VStore) (e : W64) (k : Nat) (s : State) : Res (Bool × State) := do
  let (b, s0) ← rdSc k e o.p s
  let x := s.slot k
  accessLanes k e (o.x.toList ++ regsOf ((szN o.sz) == 8) o.d) o.x.toList 1 none (fun t a l => t.lsRef a (szN o.sz) l) (lsOffs o.x o.off b) (storeAll k (szN o.sz) (x.lane ((szN o.sz) == 8) o.d)) s0
/-- Does the gang block of a strand hold its cluster's matrix lease (R57). -/
def State.holdsLease (s : State) (k : Nat) : Bool :=
  match (s.slot k).job.gangOf, (s.cluster (clOfSlot k)).lease with
  | some g, some h => g == h
  | _, _ => false
/-- `vldacc` (R247): lease, range and poison in that order, the lease before a poisoned sP too; then the fold values. -/
def memVldacc (o : VAcc) (e : W64) (k : Nat) (s : State) : Res (Bool × State) := do
  let q := (s.slot k).sreg o.p
  let (b, s0) ← if q.full && q.pois && !s.holdsLease k then .ok (q.val, s) else rdSc k e o.p s
  let x := s.slot k
  match x.emptyReg e o.x.toList with
  | some r => parkOn (.lanes r e)
  | none =>
    let rp := x.poisLanes e o.x.toList
    let cell (l : Nat) : Int := b.toNat + xoff o.x x l + o.off.toInt
    let go := lanesOf (e &&& ~~~rp)
    let stopAt (code : Nat) (ls : List Nat) : Res (Bool × State) := raiseL code (intW (cell (ls.headD 0))) (maskOf ls)
    if !s.holdsLease k then stopAt 0x04 (lanesOf e)
    else
      let out := go.filter (fun l => decide (cell l < 0 ∨ 65535 < cell l))
      if !out.isEmpty then stopAt 0x04 out
      else
        let acc (l : Nat) : Cell := mget Cell.reset (s.cluster (clOfSlot k)).acc (cell l).toNat
        let ps := go.filter (fun l => (acc l).pois)
        if !ps.isEmpty then stopAt 0x16 ps
        else
          let s1 := s0.modSlot k (fun y => go.foldl (fun z l => z.setV o.d l (acc l).fold) y)
          let (c, s3) := s1.findErr k (vUnits k rp o.x.toList)
          let s2 ← memDone s3 [] [] ((lanesOf rp).map (fun l => ⟨l, c, 0, 0⟩)) none 0
          pure (false, s2)

/-! ### Atomics (R248, R249, R259) -/

inductive AKind where
  | add | min | max | and | or | xor | xch | cas
deriving DecidableEq, Repr
/-- What memory becomes (`none`: unchanged, a failed compare-and-swap), and flags, from the old value, the operand and the comparand. -/
def atomNew (op : AKind) (ty : Ty) (old x c : Nat) : Option Nat × Nat :=
  let w := ty.width
  match op with
  | .add => if ty.fp then (let r := fpAdd (fmtOf ty) .rne 0 old x; (some r.1, r.2)) else (some ((old + x) % 2 ^ w), 0)
  | .min => (some (minTy ty old x), 0)
  | .max => (some (maxTy ty old x), 0)
  | .and => (some (old &&& x), 0)
  | .or => (some (old ||| x), 0)
  | .xor => (some (old ^^^ x), 0)
  | .xch => (some x, 0)
  | .cas => (if old = c % 2 ^ w then some x else none, 0)
/-- One read-modify-write of die `d` at the coherence point, the slice of die `h`: its own, or for an uncached access the home (R144, R162): status, old
value, state. -/
def State.rmwMem (s : State) (part : Option Nat) (d h pa n : Nat) (f : Nat → Option Nat) : Nat × Nat × State :=
  let s0 := if s.reach d pa then (s.grabBlk h (blkOf pa)).touchLine pa else s
  let (st, s1) := s0.readChk part d pa n
  let old := s1.rdN (s1.phys d pa) n
  if st ≠ 0 then (st, old, s1)
  else match f old with
    | some v => (0, old, s1.commit part d pa n v)
    | none => (0, old, s1)
def State.rmwRef (s : State) (k n : Nat) (r : Ref) (f : Nat → Option Nat) : Nat × Nat × State :=
  let c := coreOf k
  if r.ls then
    let old := s.lsRead c r.addr n
    if s.wordPois c (r.addr / 8) then
      let e := s.findErr k [.lsw c (r.addr / 8)]
      (e.1, old, e.2)
    else match f old with
      | some v => (0, old, s.lsWrite c r.addr n v)
      | none => (0, old, s)
  else (s.flushSector c (r.addr / 64)).rmwMem (s.partOf (clOfCore c)) (dieOfCore c) (if r.direct then s.homeOf r.addr else dieOfCore c) r.addr n f
/-- The release part of an order at a scope (R145, R148). -/
def State.releasePart (s : State) (k : Nat) (o : Ord) (sc : Scope) : State :=
  if (o = .rel ∨ o = .ar ∨ o = .sc) ∧ sc ≠ .cr then s.wbAllL1 (coreOf k) else s
/-- The acquire part. -/
def State.acquirePart (s : State) (k : Nat) (o : Ord) (sc : Scope) : State :=
  if (o = .acq ∨ o = .ar ∨ o = .sc) ∧ sc ≠ .cr then s.acqL1 (coreOf k) else s
/-- Applies atomics in ascending lanes (R141, R249): `g` is a lane's operation, `put` writes a lane's old value. Also: did a compare-and-swap fail. -/
def atomAll (k n : Nat) (g : Nat → Nat → Option Nat × Nat) (put : Nat → Nat → Slot → Slot) : List Ref → State → List Bad → Bool → State × List Bad × Bool
  | [], s, bad, fl => (s, bad, fl)
  | r :: t, s, bad, fl =>
    let (st, old, s1) := s.rmwRef k n r (fun v => (g r.lane v).1)
    if st = 0 then
      atomAll k n g put t (s1.modSlot k (fun x => (put r.lane old x).flag (g r.lane old).2)) bad (fl || (g r.lane old).1.isNone)
    else atomAll k n g put t s1 (bad ++ [r.bad st]) fl
/-- Completion tick of an SC operation that leaves its slot now (R150). -/
def State.scDone (s : State) (k : Nat) : Nat := 128 * (s.gtcAt k / 128 + 2)
/-- Performs an atomic whose accesses are checked. An `.sc` one first leaves its slot and is performed when its tick comes, in the order S:
by window, then by source number (R150, R249). -/
def doAtomic (k n : Nat) (o : Ord) (sc : Scope) (now : Bool) (g : Nat → Nat → Option Nat × Nat) (put : Nat → Nat → Slot → Slot) (refs : List Ref) (s : State) :
    Res (State × List Bad × Bool) :=
  match s.emptyRef k refs with
  | some w => parkOn (.lsFull w)
  | none =>
    let s1 := s.releasePart k o sc
    if o = .sc ∧ !now ∧ !refs.isEmpty then
      .error (.parkWith (s1.modSlot k (fun x => { x with sc := some ⟨s.scDone k, refs, []⟩ })) (.tick (s.scDone k)))
    else
      let (s2, bad, fl) := atomAll k n g put refs s1 [] false
      .ok (s2.acquirePart k o sc, bad, fl)
/-- An SC operation in progress: it waits for its tick, then is performed on the accesses checked at issue. -/
def scResume (k n : Nat) (o : Ord) (sc : Scope) (g : Nat → Nat → Option Nat × Nat) (put : Nat → Nat → Slot → Slot) (op : ScOp) (s : State) :
    Res (State × List Bad × Bool) :=
  if s.gtcAt k < op.tick then parkOn (.tick op.tick)
  else doAtomic k n o sc true g put op.refs (s.modSlot k (fun x => { x with sc := none }))
def memVatom (op : AKind) (o : VAtom) (e : W64) (k : Nat) (s : State) : Res (Bool × State) :=
  let x := s.slot k
  let wd := o.ty.is64
  let n := o.ty.width / 8
  let p := x.preg o.p
  let regs := regsOf wd o.d ++ o.x.toList ++ (if op = .cas then regsOf wd o.c else [])
  let g (l old : Nat) := atomNew op o.ty old (x.lane wd o.d l) (x.lane wd o.c l)
  let put (l old : Nat) (y : Slot) := y.setLane wd o.d l old
  match x.sc with
  | some c => do
    let (s1, bad, fl) ← scResume k n o.ord o.scope g put c s
    let rp := x.poisLanes e regs
    let (cd, s3) := s1.findErr k (vUnits k rp regs)
    let s2 ← memDone (if bad.isEmpty && rp == 0 then s3 else s3.markDem k fl) [] bad (regBad cd rp (ptrOffs o.x 0 p x rp)) none 2
    pure (fl, s2)
  | none =>
    let pfs := !(checkAll (fun t d l => t.refOf k p d n 11 (accA (t.slot k).priv) l) (ptrOffs o.x 0 p x (e &&& ~~~(x.poisLanes e o.x.toList))) s [] []).2.2.isEmpty
    accessLanes k e regs o.x.toList 2 none (fun t d l => t.refOf k p d n 11 (accA (t.slot k).priv) l) (ptrOffs o.x 0 p)
      (fun refs t => doAtomic k n o.ord o.scope pfs g put refs t) s

def vregsV (wd : Bool) (d : Nat) (x : Option Nat) : List Nat := regsOf wd d ++ x.toList
def execVld (o : VLoad) (s : State) : Host.Outcome State Fault Refusal := memGo (.vld o) o.pr (vregsV ((szN o.sz) == 8) o.d o.x) (memVld o) s
def execVst (o : VStore) (s : State) : Host.Outcome State Fault Refusal := memGo (.vst o) o.pr (vregsV ((szN o.sz) == 8) o.d o.x) (memVst o) s
def execVldu (o : VLoad) (s : State) : Host.Outcome State Fault Refusal := memGo (.vldu o) o.pr (regsOf ((szN o.sz) == 8) o.d) (memVldu o) s
def execLld (o : VLoad) (s : State) : Host.Outcome State Fault Refusal := memGo (.lld o) o.pr (vregsV ((szN o.sz) == 8) o.d o.x) (memLld o) s
def execLst (o : VStore) (s : State) : Host.Outcome State Fault Refusal := memGo (.lst o) o.pr (vregsV ((szN o.sz) == 8) o.d o.x) (memLst o) s
def execVldacc (o : VAcc) (s : State) : Host.Outcome State Fault Refusal := memGo (.vldacc o) o.pr (vregsV false o.d o.x) (memVldacc o) s
def vatomVecs (o : VAtom) (cas : Bool) : List Nat := vregsV o.ty.is64 o.d o.x ++ (if cas then regsOf o.ty.is64 o.c else [])
def execVaadd (o : VAtom) (s : State) : Host.Outcome State Fault Refusal := memGo (.vaadd o) o.pr (vatomVecs o false) (memVatom .add o) s
def execVamin (o : VAtom) (s : State) : Host.Outcome State Fault Refusal := memGo (.vamin o) o.pr (vatomVecs o false) (memVatom .min o) s
def execVamax (o : VAtom) (s : State) : Host.Outcome State Fault Refusal := memGo (.vamax o) o.pr (vatomVecs o false) (memVatom .max o) s
def execVaand (o : VAtom) (s : State) : Host.Outcome State Fault Refusal := memGo (.vaand o) o.pr (vatomVecs o false) (memVatom .and o) s
def execVaor (o : VAtom) (s : State) : Host.Outcome State Fault Refusal := memGo (.vaor o) o.pr (vatomVecs o false) (memVatom .or o) s
def execVaxor (o : VAtom) (s : State) : Host.Outcome State Fault Refusal := memGo (.vaxor o) o.pr (vatomVecs o false) (memVatom .xor o) s
def execVaxch (o : VAtom) (s : State) : Host.Outcome State Fault Refusal := memGo (.vaxch o) o.pr (vatomVecs o false) (memVatom .xch o) s
def execVacas (o : VAtom) (s : State) : Host.Outcome State Fault Refusal := memGo (.vacas o) o.pr (vatomVecs o true) (memVatom .cas o) s

end Sys2Proof.Machine
end

