-- ==== Sys2Proof/Machine/Sow.lean ====
section
/-! DEFINITION. `sow`: every lane issues the word it holds, group by group (R192, R223 to R226, R400). -/

namespace Sys2Proof.Machine

/-- A sown instruction: its vector registers, and its effect in a group's lanes; the truth value is a demotion point (R49). -/
structure SowBody where
  vecs : List Nat
  run : W64 → Nat → State → Res (Bool × State)
def ofLane (b : LaneBody) : Option SowBody :=
  some ⟨b.vecs, fun e k s => do
    let t ← b.run e k s
    pure (false, t)⟩
/-- The 61 sowable opcodes (R190, R192). -/
def sowBody : Instr → Option SowBody
  | .vadd o => ofLane (laneVadd o)
  | .vsub o => ofLane (laneVsub o)
  | .vmul o => ofLane (laneVmul o)
  | .vmulh o => ofLane (laneVmulh o)
  | .vmad o => ofLane (laneVmad o)
  | .vand o => ofLane (laneVand o)
  | .vor o => ofLane (laneVor o)
  | .vxor o => ofLane (laneVxor o)
  | .vnot o => ofLane (laneVnot o)
  | .vshl o => ofLane (laneVshl o)
  | .vshr o => ofLane (laneVshr o)
  | .vsra o => ofLane (laneVsra o)
  | .vmin o => ofLane (laneVmin o)
  | .vmax o => ofLane (laneVmax o)
  | .vabs o => ofLane (laneVabs o)
  | .vsel o => ofLane (laneVsel o)
  | .vclz o => ofLane (laneVclz o)
  | .vpopc o => ofLane (laneVpopc o)
  | .vsext o => ofLane (laneVsext o)
  | .vzext o => ofLane (laneVzext o)
  | .vbs o => ofLane (laneVbs o)
  | .vins o => ofLane (laneVins o)
  | .vfadd o => ofLane (laneVfadd o)
  | .vfsub o => ofLane (laneVfsub o)
  | .vfmul o => ofLane (laneVfmul o)
  | .vffma o => ofLane (laneVffma o)
  | .vfdiv o => ofLane (laneVfdiv o)
  | .vfsqrt o => ofLane (laneVfsqrt o)
  | .vfrcp o => ofLane (laneVfrcp o)
  | .vfrsq o => ofLane (laneVfrsq o)
  | .vfexp2 o => ofLane (laneVfexp2 o)
  | .vflog2 o => ofLane (laneVflog2 o)
  | .vfmin o => ofLane (laneVfmin o)
  | .vfmax o => ofLane (laneVfmax o)
  | .vfround o => ofLane (laneVfround o)
  | .vfcvt o => ofLane (laneVfcvt o)
  | .vqblkExp o => ofLane (laneVqblkExp o)
  | .vqblkMan o => ofLane (laneVqblkMan o)
  | .vbpt o => ofLane (laneVbpt o)
  | .vhadd o => ofLane (laneVhadd o)
  | .vhmul o => ofLane (laneVhmul o)
  | .vhfma o => ofLane (laneVhfma o)
  | .vshuf o => ofLane (laneVshuf o)
  | .vbcast o => ofLane (laneVbcast o)
  | .vrot o => ofLane (laneVrot o)
  | .vred o => ofLane (laneVred o)
  | .vscan o => ofLane (laneVscan o)
  | .vmatch o => ofLane (laneVmatch o)
  | .vld o => some ⟨vregsV (szN o.sz == 8) o.d o.x, memVld o⟩
  | .vst o => some ⟨vregsV (szN o.sz == 8) o.d o.x, memVst o⟩
  | .vldu o => some ⟨regsOf (szN o.sz == 8) o.d, memVldu o⟩
  | .lld o => some ⟨vregsV (szN o.sz == 8) o.d o.x, memLld o⟩
  | .lst o => some ⟨vregsV (szN o.sz == 8) o.d o.x, memLst o⟩
  | .vldacc o => some ⟨vregsV false o.d o.x, memVldacc o⟩
  | .vaadd o => some ⟨vatomVecs o false, memVatom .add o⟩
  | .vamin o => some ⟨vatomVecs o false, memVatom .min o⟩
  | .vamax o => some ⟨vatomVecs o false, memVatom .max o⟩
  | .vaand o => some ⟨vatomVecs o false, memVatom .and o⟩
  | .vaor o => some ⟨vatomVecs o false, memVatom .or o⟩
  | .vaxor o => some ⟨vatomVecs o false, memVatom .xor o⟩
  | .vaxch o => some ⟨vatomVecs o false, memVatom .xch o⟩
  | .vacas o => some ⟨vatomVecs o true, memVatom .cas o⟩
  | _ => none
/-- SowWord of a lane (R223). -/
def sowWord (x : Slot) (a l : Nat) : Nat :=
  let w := x.lane true a l
  w - w / 2 ^ 16 % 16 * 2 ^ 16
/-- SOWST and SOWSTH with ACT 1 (R76, R77). -/
def Slot.setSow (x : Slot) (n : Nat) (pend : W64) : Slot :=
  { x with sowst := natW (2 ^ 63 + n % 64 * 2 ^ 32 + pend.toNat % 2 ^ 32), sowsth := natW (pend.toNat / 2 ^ 32) }
/-- A sown word with the checks of R192. -/
def sowDecode (x : Slot) (w : Nat) : Option SowBody :=
  if !sowable (w / 2 ^ 56 % 256) then none
  else match decode w with
    | .error _ => none
    | .ok i => if (x.pairBad i).isSome then none else (sowBody i).bind (fun b => if b.vecs.any (fun r => decide (x.budget ≤ r)) then none else some b)
/-- A stop of a group's instruction: SOWST records the lanes that have not completed (R225). -/
def sowStop (k n w : Nat) (pend g : W64) (s : State) (st : Stop) : Stop :=
  let mark (t : State) (p : W64) : State := t.modSlot k (fun y => y.setSow n p)
  let illegal : Stop := .trapWith (mark s pend) ⟨0x09, some (natW w), some g, 0⟩
  let fill (t : Trap) : Trap := { t with tval := some (t.tval.getD (natW w)), lanes := t.lanes <|> (if t.code = 0x11 ∨ t.code = 0x10 then some g else none) }
  match st with
  | .trap t => if t.code = 0x01 ∨ t.code = 0x08 then illegal else .trapWith (mark s pend) (fill t)
  | .trapWith t' t => .trapWith (mark t' ((pend &&& ~~~g) ||| ((t.lanes.getD g) &&& g))) (fill t)
  | .park a => .parkWith ((mark s pend).modSlot k (fun y => { y with resumed := true })) a
  | .parkWith t' a => .parkWith ((mark t' pend).modSlot k (fun y => { y with resumed := true })) a
/-- One group of a `sow`; an interrupt or a spill may come before the next. -/
def sowStep (a : Nat) (p : Pred) (k : Nat) (s : State) : Res State :=
  let x := s.slot k
  let act := x.resumed && bitAt x.sowst 63
  let e := if act then natW (x.sowst.toNat % 2 ^ 32 + x.sowsth.toNat % 2 ^ 32 * 2 ^ 32) &&& x.m7 else x.exec p
  let n := if act then wf x.sowst 32 6 else 0
  let done (t : State) : State :=
    let dem := (t.slot k).sowDem
    (t.modSlot k (fun y => { y with sowst := 0, sowsth := 0, sowDem := false })).finish k dem
  if e = 0 then .ok (if act then done s else s.advance k)
  else match x.emptyReg e [a, a + 1] with
    | some r => parkOn (.lanes r e)
    | none =>
      let ps := x.poisLanes e [a, a + 1]
      if ps ≠ 0 then
        let r := (s.modSlot k (fun y => y.setSow n e)).findErr k (vUnits k ps [a, a + 1])
        .error (.trapWith r.2 ⟨r.1, none, some ps, 0⟩)
      else
        let words := ((lanesOf e).map (sowWord x a)).eraseDups
        let lanesWith (w : Nat) : W64 := maskOf ((lanesOf e).filter (fun l => sowWord x a l == w))
        if 32 - n < words.length then
          let late := words.drop (32 - n)
          raiseL 0x09 (natW (late.headD 0)) (maskOf ((lanesOf e).filter (fun l => late.contains (sowWord x a l))))
        else
          let w := words.headD 0
          let g := lanesWith w
          match sowDecode x w with
          | none => .error (.trapWith (s.modSlot k (fun y => y.setSow n e)) ⟨0x09, some (natW w), some g, 0⟩)
          | some b =>
            match b.run g k s with
            | .error st => .error (sowStop k n w e g s st)
            | .ok (dem, t) =>
              let t1 := t.modSlot k (fun y => { y.rested (w / 2 ^ 56) s.cycle with sowDem := (if act then y.sowDem else false) || dem })
              if words.length = 1 then .ok (done t1)
              else .ok (t1.modSlot k (fun y => { y.setSow (n + 1) (e &&& ~~~g) with resumed := true, park := none }))
def execSow (a : Nat) (p : Pred) (s : State) : Host.Outcome State Fault Refusal :=
  strandWith (.sow a p) 0 [] [a, a + 1] p false (sowStep a p) s

end Sys2Proof.Machine
end

