-- ==== Sys2Proof/Machine/ScalarMem.lean ====
section
/-! DEFINITION. Scalar loads and stores, full/empty words, remote fills and active messages (R251 to R258). -/

namespace Sys2Proof.Machine

/-! ### Scalar loads and stores (R251 to R253) -/

/-- The index of a scalar memory operand: the register, or 0 for 0xFF. -/
def xreg (x : Option Nat) : Nat := x.getD 0
/-- The address of an access through a pointer, with the checks of R117; TVAL is the virtual address (R389). -/
def State.ptrRef (s : State) (k : Nat) (p : BitVec 128) (d : Int) (n perm : Nat) (acc : Acc) (kind : Nat) : Res (Ref × State) :=
  match s.refOf k p d n perm acc 0 with
  | .ok r => .ok r
  | .error (c, s') =>
    let code := c % 256
    let va := intW (pCur p + d)
    if causeRank code = 2 then .error (.trapWith s' ⟨code, some va, some 1, natW (c / 256)⟩) else .error (.trap ⟨code, some va, none, natW kind⟩)
/-- The address of the local-store form (R251): sP is a natural number, TVAL the offset. -/
def lsPlace (b : W64) (off : BitVec 16) (n : Nat) : Res Ref := do
  let a ← lsAddr ((b.toNat : Int) + off.toInt) n n
  pure ⟨0, true, a, a, false⟩
/-- A scalar read of a checked place: the local store, the home, or the CDC (R252). -/
def State.scalarRead (s : State) (k n : Nat) (poll : Bool) (r : Ref) : Res (Nat × State) := do
  let c := coreOf k
  if r.ls then
    let v ← s.lsLoad k r.addr n
    pure (v, s)
  else
    let blk := blkOf r.addr
    if !r.direct && !poll && s.reach (dieOfCore c) r.addr && !s.cdcOk c blk false then parkOn (.cdc blk false)
    else
      let (st, v, s1) := if r.direct then s.uread (s.partOf (clOfCore c)) (dieOfCore c) r.addr n
        else if poll then s.cread (s.partOf (clOfCore c)) (dieOfCore c) r.addr n
        else let (st, s1) := (s.touchLine r.addr).readChk (s.partOf (clOfCore c)) (dieOfCore c) r.addr n; (st, s1.rdN r.addr n, s1)
      okData st r.addr r.va s1
      pure (v, s1)
/-- A scalar write of a checked place: a block of the CDC is written when it holds all 512 tokens; a hothouse line of another die is written at that
die, with the store's completion awaited (R170). -/
def State.scalarWrite (s : State) (k n : Nat) (r : Ref) (v : Nat) : Res State :=
  let c := coreOf k
  if r.ls then .ok (s.lsWrite c r.addr n v)
  else
    let blk := blkOf r.addr
    let part := s.partOf (clOfCore c)
    if r.direct then .ok (s.uwrite part (dieOfCore c) r.addr n v)
    else if isHot r.addr && s.homeOf r.addr != dieOfCore c && s.reach (dieOfCore c) r.addr then
      let m : Coh := ⟨s.nextMsg, .wrhh, s.homeOf r.addr, k, blk, (s.slot k).gen, n, false, false, BitVec.ofNat 1024 (v * 256 ^ (r.addr % 128)),
        BitVec.ofNat 128 ((2 ^ n - 1) * 2 ^ (r.addr % 128))⟩
      .error (.parkWith { s with coh := s.coh ++ [m], nextMsg := s.nextMsg + 1 } (.wrack s.nextMsg))
    else if s.reach (dieOfCore c) r.addr && !s.cdcOk c blk true then parkOn (.cdc blk true)
    else .ok ((s.commit part (dieOfCore c) r.addr n v).modCore c (fun y =>
      { y with cdc := if mhas y.cdc blk then mput y.cdc blk { mget noTok y.cdc blk with dirty := true } else y.cdc }))
/-- A scalar load: the value extended by SGN, and a demotion point with POLL (R49, R253). -/
def loadI (i : Instr) (o : Load) (place : Nat → State → Res (Ref × State)) (s : State) : Host.Outcome State Fault Refusal :=
  strandWith i 0 [o.d] [] allLanes false (fun k s => do
    let (r, s1) ← place k s
    let (v, s2) ← s1.scalarRead k (szN o.sz) o.poll r
    let s3 ← wrSc k o.d (natW (widen o.sgn (szN o.sz) 64 v)) s2
    pure (s3.finish k o.poll)) s
/-- A scalar store of the low bytes of sD. DESIGN CHOICE: the index is read before the data, which matters when both pop `in` (R67, log entry 90). -/
def storeI (i : Instr) (o : Store) (place : Nat → State → Res (Ref × State)) (s : State) : Host.Outcome State Fault Refusal :=
  scalarI i [] (fun k s => do
    let (r, s1) ← place k s
    let (v, s2) ← rdSc k 1 o.d s1
    s2.scalarWrite k (szN o.sz) r (v.toNat % 256 ^ szN o.sz)) s
def execLd (o : Load) (s : State) : Host.Outcome State Fault Refusal :=
  loadI (.ld o) o (fun k s => do
    let (x, s1) ← rdSc k 1 (xreg o.x) s
    s1.ptrRef k ((s.slot k).preg o.p) (x.toInt + o.off.toInt) (szN o.sz) 1 (accR (s.slot k).priv) 0) s
def execSt (o : Store) (s : State) : Host.Outcome State Fault Refusal :=
  storeI (.st o) o (fun k s => do
    let (x, s1) ← rdSc k 1 (xreg o.x) s
    s1.ptrRef k ((s.slot k).preg o.p) (x.toInt + o.off.toInt) (szN o.sz) 2 (accW (s.slot k).priv) 1) s
def execLds (o : Load) (s : State) : Host.Outcome State Fault Refusal :=
  loadI (.lds o) o (fun k s => do
    let (b, s1) ← rdSc k 1 o.p s
    let r ← lsPlace b o.off (szN o.sz)
    pure (r, s1)) s
def execSts (o : Store) (s : State) : Host.Outcome State Fault Refusal :=
  storeI (.sts o) o (fun k s => do
    let (b, s1) ← rdSc k 1 o.p s
    let r ← lsPlace b o.off (szN o.sz)
    pure (r, s1)) s

/-! ### Full/empty words and registers (R254, R255) -/

/-- The offset of a full/empty word: the local-store form, or a pointer with SP 1. -/
def fePlace (o : FE) (perm k : Nat) (s : State) : Res (Nat × State) := do
  if o.ls then
    let (b, s1) ← rdSc k 1 o.p s
    let r ← lsPlace b o.off 8
    pure (r.addr, s1)
  else
    let (x, s1) ← rdSc k 1 (xreg o.x) s
    let p := (s.slot k).preg o.p
    let d := x.toInt + o.off.toInt
    ensureV (pSP p) 0x04 (intW (pCur p + d))
    let (r, s2) ← s1.ptrRef k p d 8 perm (accR 0) 0
    pure (r.addr, s2)
/-- `ldf`, served in the order in which readers came to wait (R254), and `ldff`. The acquire of a value that a remote write placed there is made where the
write arrives (R149, R255). -/
def feLoad (i : Instr) (o : FE) (consume : Bool) (s : State) : Host.Outcome State Fault Refusal :=
  scalarI i [o.d] (fun k s => do
    let (a, s1) ← fePlace o (if consume then 3 else 1) k s
    if consume && !s1.awaitMet k (.lsTake (a / 8)) then parkOn (.lsTake (a / 8))
    let v ← s1.lsLoad k a 8
    wrSc k o.d (natW v) (if consume then s1.setEmpty (coreOf k) (a / 8) true else s1)) s
def execLdf (o : FE) (s : State) : Host.Outcome State Fault Refusal := feLoad (.ldf o) o true s
def execLdff (o : FE) (s : State) : Host.Outcome State Fault Refusal := feLoad (.ldff o) o false s
def execStf (o : FE) (s : State) : Host.Outcome State Fault Refusal :=
  scalarI (.stf o) [] (fun k s => do
    let (a, s1) ← fePlace o 2 k s
    let (v, s2) ← rdSc k 1 o.d s1
    if s2.awaitMet k (.lsEmpty (a / 8)) then pure (s2.lsWrite (coreOf k) a 8 v.toNat) else parkOn (.lsEmpty (a / 8))) s
def execSte (o : FE) (s : State) : Host.Outcome State Fault Refusal :=
  scalarI (.ste o) [] (fun k s => do
    let (a, s1) ← fePlace o 2 k s
    pure (s1.setEmpty (coreOf k) (a / 8) true)) s
def execSteScalar (d : Nat) (s : State) : Host.Outcome State Fault Refusal :=
  scalarI (.steScalar d) [] (fun k s => .ok (s.modSlot k (fun x => x.setSReg d { x.sreg d with full := false }))) s
/-- `ste vD`: empty in the lanes of m0. -/
def execSteVector (d : Nat) (s : State) : Host.Outcome State Fault Refusal :=
  strandWith (.steVector d) 0 [] [d] allLanes true (fun k s =>
    .ok (s.modSlot k (fun x => (lanesOf (x.exec allLanes)).foldl (fun y l => y.setVReg d l { y.vreg d l with full := false }) x))) s

/-! ### Remote fills and active messages (R256 to R258) -/

/-- The generation of the strand of a rank: of a strand that has halted none, of one that has not started the one it will have (R256, R335). -/
def State.rankGen (s : State) (g : Gang) (r : Nat) : Nat :=
  let x := s.slot (g.slotAt r)
  if !g.live.contains r then 0
  else match x.held with
    | some (_, n) => n
    | none => if x.job = .gang g.id r then x.gen else x.gen + 1
/-- Sends a remote write, a release at the common scope (R149), and parks its sender until the answer. -/
def State.sendPark (s : State) (k : Nat) (n : Net) (peer what : Nat) : Res State :=
  let (s1, id) := (s.relTo k n.core).sendNet n
  .error (.parkWith (s1.modSlot k (fun x => { x with remote := some ⟨id, none⟩ })) (.remote id false peer what))
/-- A rank operand: bits [63:16] zero and below a bound, or "message refused". -/
def rankOk (v : W64) (bound : Nat) : Bool := decide (v.toNat < 65536) && decide (v.toNat < bound)
/-- `rput`; DESIGN CHOICE: sR is read before sS (R67, log entry 90). -/
def execRput (o : RPut) (s : State) : Host.Outcome State Fault Refusal :=
  scalarI (.rput o) [] (fun k s => do
    let (vs, s1) ← rdScs k 1 [o.r, o.s] s
    let r := lrw vs 0
    match s.myGang k with
    | none => raiseV 0x1B r
    | some g =>
      ensureV (rankOk r g.nStrands) 0x1B r
      let t := g.slotAt r.toNat
      s1.sendPark k ⟨0, .rput, srcOfSlot k, coreOf t, slotNo t, s.rankGen g r.toNat, o.n, lrw vs 1, 0, (s.slot k).rank, true, false, false, false, false, 0⟩ (srcOfCore (coreOf t)) o.n) s
/-- `sputfe`; DESIGN CHOICE: sR is read before sX, and sX before sS (R67, log entry 90). -/
def execSputfe (o : SPutFE) (s : State) : Host.Outcome State Fault Refusal :=
  scalarI (.sputfe o) [] (fun k s => do
    let (vs, s1) ← rdScs k 1 [o.r, xreg o.x, o.s] s
    let r := lrw vs 0
    match s.myGang k with
    | none => raiseV 0x1B r
    | some g =>
      ensureV (rankOk r (g.rows * g.cols)) 0x1B r
      let a ← lsAddr (((lrw vs 1).toNat : Int) + o.off.toInt) 8 8
      let c := g.coreAt r.toNat
      s1.sendPark k ⟨0, .sputfe, srcOfSlot k, c, 0, 0, a, lrw vs 2, 0, (s.slot k).rank, true, false, false, false, false, 0⟩ (srcOfCore c) a) s
def execAmsg (o : R3) (s : State) : Host.Outcome State Fault Refusal :=
  scalarI (.amsg o) [] (fun k s => do
    let (vs, s1) ← rdScs k 1 [o.d, o.a, o.b] s
    let a := lrw vs 0
    match s.myGang k with
    | none => raiseV 0x1B a
    | some g =>
      ensureV (decide (wf a 0 16 < g.rows * g.cols) && g.msg && wf a 40 24 == 0) 0x1B a
      let c := g.coreAt (wf a 0 16)
      s1.sendPark k ⟨0, .amsg, srcOfSlot k, c, 15, g.id, wf a 16 24, lrw vs 1, lrw vs 2, (s.slot k).rank, true, false, false, false, false, 0⟩ (srcOfCore c) (wf a 16 24)) s

end Sys2Proof.Machine
end

