-- ==== Sys2Proof/Machine/Atomics.lean ====
section
/-! DEFINITION. Scalar atomics, fences, cache maintenance and pointer instructions (R259 to R264). -/

namespace Sys2Proof.Machine

/-! ### Scalar atomics (R259) -/

/-- Performs a scalar atomic on a checked place: sD := old, extended (R259); poison is a trap; a failed compare-and-swap is a demotion point. -/
def State.atomOne (s : State) (k : Nat) (o : Atom) (g : Nat → Option Nat × Nat) (r : Ref) : Res State := do
  let (st, old, s1) := s.rmwRef k (o.ty.width / 8) r (fun v => (g v).1)
  if st ≠ 0 then .error (.trapWith s1 ⟨st, some (natW r.va), some 1, (r.bad st).detail⟩)
  let s2 := (s1.modSlot k (fun x => x.flag (g old).2)).acquirePart k o.ord o.scope
  let s3 ← wrSc k o.d (natW (if o.ty = .s32 then wrap 64 (toSigned 32 old) else old)) s2
  pure (s3.finish k (g old).1.isNone)
/-- A scalar atomic: one lane of the lane atomic of its name, on sD; DESIGN CHOICE: sD is read before sX, and sX before sC (R67, log entry 90). -/
def atomI (i : Instr) (op : AKind) (o : Atom) (s : State) : Host.Outcome State Fault Refusal :=
  strandWith i 0 [o.d] [] allLanes false (fun k s =>
    let n := o.ty.width / 8
    let g (vs : List W64) (old : Nat) := atomNew op o.ty old ((lrw vs 0).toNat % 2 ^ o.ty.width) (lrw vs 2).toNat
    match (s.slot k).sc with
    | some c =>
      if s.gtcAt k < c.tick then parkOn (.tick c.tick)
      else (s.modSlot k (fun y => { y with sc := none })).atomOne k o (g c.ops) (c.refs.headD ⟨0, true, 0, 0, false⟩)
    | none => do
      let (vs, s1) ← rdScs k 1 ([o.d, xreg o.x] ++ if op = .cas then [o.c] else []) s
      let (r, s2) ← s1.ptrRef k ((s.slot k).preg o.p) (lrw vs 1).toInt n 11 (accA (s.slot k).priv) 2
      match s2.emptyRef k [r] with
      | some w => parkOn (.lsFull w)
      | none =>
        let s3 := s2.releasePart k o.ord o.scope
        if o.ord = .sc then .error (.parkWith (s3.modSlot k (fun y => { y with sc := some ⟨s.scDone k, [r], vs⟩ })) (.tick (s.scDone k)))
        else s3.atomOne k o (g vs) r) s
def execAadd (o : Atom) (s : State) : Host.Outcome State Fault Refusal := atomI (.aadd o) .add o s
def execAmin (o : Atom) (s : State) : Host.Outcome State Fault Refusal := atomI (.amin o) .min o s
def execAmax (o : Atom) (s : State) : Host.Outcome State Fault Refusal := atomI (.amax o) .max o s
def execAand (o : Atom) (s : State) : Host.Outcome State Fault Refusal := atomI (.aand o) .and o s
def execAor (o : Atom) (s : State) : Host.Outcome State Fault Refusal := atomI (.aor o) .or o s
def execAxor (o : Atom) (s : State) : Host.Outcome State Fault Refusal := atomI (.axor o) .xor o s
def execAxch (o : Atom) (s : State) : Host.Outcome State Fault Refusal := atomI (.axch o) .xch o s
def execAcas (o : Atom) (s : State) : Host.Outcome State Fault Refusal := atomI (.acas o) .cas o s

/-! ### Fences (R260, R61) -/

/-- A group number that the strand's launch record does not define; a task and a root slot have group 0 alone (R61). -/
def State.groupBad (s : State) (k n : Nat) : Bool :=
  match s.myGang k with
  | some g => decide (g.groups.length < n)
  | none => n != 0
/-- The scope at which a fence acts (R140, R61): a group's extent, at least its cluster. -/
def State.fenceScope (s : State) (k : Nat) (o : FenceOp) : Scope :=
  match o.scope with
  | .grp => (match s.myGang k with
    | some g => if (((List.range g.nStrands).filter (g.member o.grp)).map (fun r => clOfSlot (g.slotAt r))).eraseDups.length ≤ 1 then .cl else .di
    | none => .di)
  | x => x
def execFence (o : FenceOp) (s : State) : Host.Outcome State Fault Refusal :=
  scalarI (.fence o) [] (fun k s => do
    ensure (!(o.scope == .grp && s.groupBad k o.grp)) 0x01
    let sc := s.fenceScope k o
    match (s.slot k).sc with
    | some op =>
      if s.gtcAt k < op.tick then parkOn (.tick op.tick)
      else pure ((s.acquirePart k o.ord sc).modSlot k (fun x => { x with sc := none }))
    | none =>
      let s1 := s.releasePart k o.ord sc
      if o.ord = .sc then .error (.parkWith (s1.modSlot k (fun x => { x with sc := some ⟨s.scDone k, [], []⟩ })) (.tick (s.scDone k)))
      else pure (s1.acquirePart k o.ord sc)) s
/-- `fence.i`: the clause buffer and the core's instruction cache are discarded; the next fetch reads the enclosing clause again (R187, R262), or after
the last instruction of the clause the header that follows it (R186). -/
def execFenceI (s : State) : Host.Outcome State Fault Refusal :=
  strandWith .fenceI 0 [] [] allLanes false (fun k s =>
    .ok (((s.advance k).modSlot k (fun x => { x with clause := none, resuming := (x.clause.bind (fun c => c.at_ x.pc)).isSome })).modCore (coreOf k) (fun c => { c with icache := [] }))) s

/-! ### Cache maintenance (R261) -/

/-- Translates each page of a range, of a kind that `ok` admits: the physical ranges, in ascending order. -/
def State.rangePages (s : State) (k : Nat) (acc : Acc) (kind : Nat) (ok : Xl → Bool) (va n : Nat) : Nat → Res (List (Nat × Nat × Xl) × State)
  | 0 => .ok ([], s)
  | fuel + 1 =>
    if n = 0 then .ok ([], s)
    else do
      let m := Nat.min n (65536 - va % 65536)
      let (x, s1) ← ofX kind va (some (s.slot k).m0) (s.xlate (coreOf k) (s.partOfSlot k) (s.slot k).asid acc va)
      if !ok x then raiseV 0x07 (natW va)
      let (t, s2) ← s1.rangePages k acc kind ok (va + m) (n - m) fuel
      pure ((x.pa, m, x) :: t, s2)
/-- Is [lo, lo+n) of a unit of `n` bytes touched by a list of physical ranges. -/
def inRanges (rs : List (Nat × Nat × Xl)) (lo n : Nat) : Bool := rs.any (fun r => decide (r.1 < lo + n) && decide (lo < r.1 + r.2.1))
/-- A cache instruction over a range: bounds and permission, alignment, every page translated, then the effect on the ranges. -/
def rangeI (i : Instr) (o : R2) (perm : Nat) (w : Bool) (al : Nat) (go : List (Nat × Nat × Xl) → Nat → State → State) (s : State) : Host.Outcome State Fault Refusal :=
  scalarI i [] (fun k s => do
    let (n, s1) ← rdSc k 1 o.a s
    if n = 0 then pure s1
    else
      let p := (s.slot k).preg o.d
      match checkAccess p 0 n.toNat perm with
      | none => raise 0x04
      | some va =>
        ensure (va % al == 0 && n.toNat % al == 0) 0x05
        if pSP p then pure s1
        else
          let (rs, s2) ← s1.rangePages k (if w then accW (s.slot k).priv else accR (s.slot k).priv) (b2n w) (fun _ => true) va n.toNat (n.toNat / 65536 + 2)
          pure (go rs (coreOf k) s2)) s
/-- The lane L1 sectors of a core in a range. -/
def State.l1In (s : State) (c : Nat) (rs : List (Nat × Nat × Xl)) : List Nat := (mkeys (s.core c).l1).filter (fun x => inRanges rs (64 * x) 64)
def execL1wb (o : R2) (s : State) : Host.Outcome State Fault Refusal :=
  rangeI (.l1wb o) o 1 false 1 (fun rs c s => (s.l1In c rs).foldl (fun t x => t.wbSector c x) s) s
def execL1inv (o : R2) (s : State) : Host.Outcome State Fault Refusal :=
  rangeI (.l1inv o) o 2 true 64 (fun rs c s => (s.l1In c rs).foldl (fun t x => t.invSector c x) s) s
def execL1wbi (o : R2) (s : State) : Host.Outcome State Fault Refusal :=
  rangeI (.l1wbi o) o 2 true 1 (fun rs c s => (s.l1In c rs).foldl (fun t x => t.flushSector c x) s) s
def execCdcf (o : R2) (s : State) : Host.Outcome State Fault Refusal :=
  rangeI (.cdcf o) o 1 false 1 (fun rs c s => ((mkeys (s.core c).cdc).filter (fun b => inRanges rs (128 * b) 128)).foldl (fun t b => t.cdcFlush c b) s) s
def execL1wbAll (s : State) : Host.Outcome State Fault Refusal := scalarI .l1wbAll [] (fun k s => .ok (s.wbAllL1 (coreOf k))) s
def execL1invAll (s : State) : Host.Outcome State Fault Refusal := sysI .l1invAll [] (fun k s => .ok (s.invAllL1 (coreOf k))) s
def execL1wbiAll (s : State) : Host.Outcome State Fault Refusal :=
  scalarI .l1wbiAll [] (fun k s => .ok ((s.wbAllL1 (coreOf k)).invAllL1 (coreOf k))) s
def execCdcfAll (s : State) : Host.Outcome State Fault Refusal :=
  sysI .cdcfAll [] (fun k s => .ok ((mkeys (s.core (coreOf k)).cdc).foldl (fun t b => t.cdcFlush (coreOf k) b) s)) s

/-! ### Pointers (R263, R264) -/

/-- An instruction that writes a pointer register from its sources. -/
def ptrI (i : Instr) (d : Nat) (srcs : List Nat) (f : Slot → List W64 → Res (BitVec 128)) (s : State) : Host.Outcome State Fault Refusal :=
  scalarI i [] (fun k s => do
    let (vs, s1) ← rdScs k 1 srcs s
    let p ← f (s.slot k) vs
    pure (s1.modSlot k (fun x => x.setP d p))) s
/-- A pointer with field [lo+len-1 : lo] replaced. -/
def setPF (p : BitVec 128) (lo len v : Nat) : BitVec 128 := BitVec.ofNat 128 (p.toNat - pfld p lo len * 2 ^ lo + v % 2 ^ len * 2 ^ lo)
/-- `padd` of a signed amount. -/
def pAdd (p : BitVec 128) (d : Int) : BitVec 128 :=
  let c : Int := pCur p + d
  let q := setPF p 0 56 (wrap 56 c)
  if 0 ≤ c ∧ c < 2 ^ 56 then q else setPF q 63 1 0
/-- The bounds that `pnarrow` gives: LE and LM of R264. -/
def narrowLen (l : Nat) : Nat → Nat → Option (Nat × Nat)
  | 0, _ => none
  | fuel + 1, le =>
    let u := 2 ^ (le + 6)
    let lm := (l + u - 1) / u
    if lm ≤ 511 then some (le, lm) else narrowLen l fuel (le + 1)
def pNarrow (p : BitVec 128) (n : Nat) : Option (BitVec 128) :=
  let b := pCur p / 64 * 64
  if !pTag p || !pHas p 16 then none
  else match narrowLen (pCur p + n - b) 32 0 with
    | none => none
    | some (le, lm) =>
      if b < pBase p ∨ pLim p < b + lm * 2 ^ (le + 6) then none
      else some (setPF (setPF (setPF p 64 50 (b / 64)) 123 5 le) 114 9 lm)
def pGet (p : BitVec 128) (f : Nat) : W64 :=
  if f = 3 then natW (pPerm p + 32 * b2n (pSP p) + 64 * b2n (pTag p))
  else if !pTag p then 0
  else if f = 0 then intW (pCur p - (pBase p : Int))
  else if f = 1 then natW (pLen p)
  else intW (pLim p - (pCur p : Int))
def pTest (p : BitVec 128) (n perms : Nat) : Bool := pTag p && pHas p perms && decide (pBase p ≤ pCur p) && decide (pCur p + n ≤ pLim p)
def execPld (d b : Nat) (n : BitVec 16) (s : State) : Host.Outcome State Fault Refusal :=
  scalarI (.pld d b n) [] (fun k s => do
    let (v, s1) ← rdSc k 1 b s
    let (p, s2) ← s1.loadPtr k ((s.slot k).preg 1) (n.toNat + v.toNat)
    pure (s2.modSlot k (fun x => x.setP d p))) s
def execPmov (o : R2) (s : State) : Host.Outcome State Fault Refusal := ptrI (.pmov o) o.d [] (fun x _ => .ok (x.preg o.a)) s
def execPadd (o : R3) (s : State) : Host.Outcome State Fault Refusal := ptrI (.padd o) o.d [o.b] (fun x v => .ok (pAdd (x.preg o.a) (lrw v 0).toInt)) s
def execPnarrow (o : R3) (s : State) : Host.Outcome State Fault Refusal :=
  ptrI (.pnarrow o) o.d [o.b] (fun x v => match pNarrow (x.preg o.a) (lrw v 0).toNat with
    | some p => .ok p
    | none => raise 0x04) s
def execPperm (o : R3) (s : State) : Host.Outcome State Fault Refusal :=
  ptrI (.pperm o) o.d [o.b] (fun x v => .ok (setPF (x.preg o.a) 56 5 (pPerm (x.preg o.a) &&& wf (lrw v 0) 0 5))) s
def execPget (o : R2N) (s : State) : Host.Outcome State Fault Refusal :=
  scalarI (.pget o) [o.d] (fun k s => wrSc k o.d (pGet ((s.slot k).preg o.a) o.n) s) s
def execPtest (o : PTest) (s : State) : Host.Outcome State Fault Refusal :=
  scalarI (.ptest o) [o.d] (fun k s => do
    let (v, s1) ← rdSc k 1 o.b s
    wrSc k o.d (natW (b2n (pTest ((s.slot k).preg o.a) v.toNat o.perms))) s1) s

end Sys2Proof.Machine
end

