-- ==== Sys2Proof/Machine/Launch.lean ====
section
/-! DEFINITION. Launch records: the checks that depend on the record alone (R326, R423), shared by `launch` and the front end. -/

namespace Sys2Proof.Machine

/-- Reserved bits of a word of a launch record. -/
def lrReserved (i : Nat) (w : W64) : Bool :=
  if i = 0 then wf w 5 3 != 0 || wf w 13 3 != 0 || wf w 35 1 != 0 || wf w 56 8 != 0
  else if i = 3 then wf w 48 16 != 0
  else if i = 4 then wf w 28 36 != 0
  else if i = 5 then wf w 34 30 != 0
  else if i = 6 then wf w 2 14 != 0 || wf w 28 36 != 0
  else if i = 7 ∨ i = 18 then wf w 56 8 != 0
  else if i = 16 then wf w 30 34 != 0
  else if i = 19 then wf w 18 46 != 0
  else decide (20 ≤ i) && w != 0
/-- A format slot that R108 refuses; a slot of zero is unused, as in the records of R359 and R361, and traps where an instruction names it
(DEDUCED, log entry 96). -/
def fmtBad (v : W64) : Bool :=
  let kind := wf v 0 4
  let p := wf v 4 5
  let ab := decide (kind < 2)
  v != 0 && (wf v 18 46 != 0 || decide (3 < kind) ||
  (if kind = 2 then wf v 13 2 == 3 || p != 0 || wf v 9 2 != 0
   else decide (1 < wf v 11 2) || p == 0 || decide (16 < p) || wf v 13 2 != 0 || wf v 17 1 != 0 ||
     (if ab then wf v 15 2 != 0 else wf v 9 2 != 0)))
/-- An A slot and a B slot of equal PANEL beyond the range of R104. -/
def pairBad (a b : W64) : Bool :=
  a != 0 && wf a 0 4 == 0 && wf b 0 4 == 1 && wf a 9 2 == wf b 9 2 && decide (4294966271 < 128 * 2 ^ wf a 9 2 * 2 ^ (wf a 4 5 + wf b 4 5 - 2))
/-- A group-table entry that R327 refuses, for a gang of `rows` × `cols` × `n`. -/
def groupEntBad (rows cols n : Nat) (e : W64) : Bool :=
  if bitAt e 63 then
    (e &&& 0x7FFFFFFFE0E0E0E0) != 0 || wf e 16 5 == 0 || wf e 24 5 == 0 || decide (rows < wf e 0 5 + wf e 16 5) || decide (cols < wf e 8 5 + wf e 24 5)
  else
    wf e 48 15 != 0 || wf e 16 16 == 0 || wf e 32 16 == 0 || decide (rows * cols * n ≤ wf e 0 16 + (wf e 16 16 - 1) * wf e 32 16)
/-- A gang with a record and a group table, for the tests of membership. -/
def protoGang (l gt : List W64) : Gang :=
  { id := 0, die := 0, part := 0, lrec := l, groups := gt, row0 := 0, col0 := 0, p0 := 0, p1 := 0, p14 := 0, asid := 0, prio := 0, released := false,
    retired := false, work := 0, live := [], halted := [], phases := [], arrivals := [], queue := none, tray := none, ranges := [], img := 0, cl := [] }
/-- Reason 3: the group table (R55, R327). -/
def groupsBad (l gt : List W64) : Bool :=
  let g := protoGang l gt
  gt.any (groupEntBad g.rows g.cols g.S) ||
  (List.range g.nStrands).any (fun r => decide (4 < ((List.range gt.length).filter (fun j => g.member (j + 1) r)).length))
/-- The segments that a local-store image reaches, from the lowest segment of SEGS other than 0 (R200). -/
def imageBase (segs : Nat) : Option Nat := [1, 2, 3, 4, 5, 6, 7].find? (fun j => segs / 2 ^ j % 2 == 1)
def imageBad (segs len : Nat) : Bool :=
  len != 0 && (match imageBase segs with
    | none => true
    | some j => (List.range ((len - 1) / 32768 + 1)).any (fun i => segs / 2 ^ (j + i) % 2 == 0))
/-- The first defect of a record: its reason and the offset of its field (R423). `dev` is a `launch` from device code. -/
def recordBad (l : List W64) (dev : Bool) : Option (Nat × Nat) :=
  let w (i : Nat) : W64 := lrw l i
  let g := protoGang l []
  let wd := wf (w 0) 25 3
  let bud := wf (w 0) 20 5
  let hb := wf (w 0) 30 5
  let smax := (if wd = 4 then 7 else 15) - b2n g.msg
  let len := wf (w 19) 0 18
  let fm (i : Nat) : W64 := w (8 + i)
  match (List.range 32).find? (fun i => lrReserved i (w i)) with
  | some i => some (1, 8 * i)
  | none =>
    if g.rows = 0 ∨ 16 < g.rows ∨ g.cols = 0 ∨ 24 < g.cols ∨ 384 < g.rows * g.cols ∨ g.S = 0 ∨ smax < g.S ∨ bud = 0 ∨ 16 < bud ∨ 4 < wd
      ∨ (if g.msg then decide (hb = 0 ∨ 16 < hb) else hb != 0) then some (2, 0)
    else if !g.mlease ∧ wf (w 3) 24 24 ≠ 0 then some (2, 0x18)
    else if wf (w 5) 0 4 ≠ 0 then some (2, 0x28)
    else if wf (w 6) 0 2 = 3 then some (2, 0x30)
    else if dev ∧ (wf (w 7) 0 56 = 0 ∨ 253 < wf (w 7) 0 56) ∨ !dev ∧ wf (w 7) 0 6 ≠ 0 then some (2, 0x38)
    else if wf (w 16) 0 6 ≠ 0 then some (2, 0x80)
    else if wf (w 18) 0 6 ≠ 0 ∨ len = 0 ∧ w 18 ≠ 0 then some (2, 0x90)
    else if len % 8 ≠ 0 ∨ 0x38000 < len ∨ imageBad (wf (w 0) 48 8) len then some (2, 0x98)
    else match (List.range 8).find? (fun i => fmtBad (fm i)) with
      | some i => some (4, 0x40 + 8 * i)
      | none =>
        match (List.range 8).find? (fun i => (List.range 8).any (fun j => pairBad (fm i) (fm j))) with
        | some i => some (4, 0x40 + 8 * i)
        | none => if 0x40000 < wf (w 16) 0 18 + 64 * wf (w 16) 18 12 * g.S then some (7, 0x80) else none
/-- DETAIL of a failed record (R423). -/
def recDetail (reason off : Nat) : W64 := natW (reason * 65536 + off)
/-- The trap of a failed record (R272, R271). -/
def recTrap {α : Type} (v : W64) (reason off : Nat) : Res α := .error (.trap ⟨0x1A, some v, none, recDetail reason off⟩)

end Sys2Proof.Machine
end

