-- ==== Sys2Proof/Machine/Sync.lean ====
section
/-! DEFINITION. Barriers, producer binding, counters, tasks and `launch` (R265 to R272, R417 to R421). -/

namespace Sys2Proof.Machine

/-! ### Barriers -/

def Slot.mark? (x : Slot) (nb : Bool) (n : Nat) : Option Mark := x.marks.find? (fun m => m.nb == nb && m.num == n)
def Slot.unmark (x : Slot) (nb : Bool) (n : Nat) : Slot := { x with marks := x.marks.filter (fun m => !(m.nb == nb && m.num == n)) }
/-- Records an arrival; an offset beyond the code is that of an arrival that no wait resumes (R419). -/
def noOff : Nat := 2 ^ 24
def Slot.setMark (x : Slot) (m : Mark) : Slot := { x.unmark m.nb m.num with marks := (x.unmark m.nb m.num).marks ++ [m] }
/-- The descriptor of group barrier `n` (R417). -/
def groupDesc (g : Gang) (n : Nat) : W64 := barDesc false false (g.arrived n).length (g.liveOf n).length n
def nbarDesc (b : NBar) (n : Nat) : W64 := barDesc true false b.arr.length b.sa n
/-- An arrival at a group barrier (R56, R61, R420). -/
def State.arriveGroup (s : State) (k n off : Nat) : Res State :=
  match s.myGang k, (s.slot k).job with
  | some g, .gang _ r =>
    if !g.member n r || (g.arrived n).contains r then raiseV 0x0E (groupDesc g n)
    else .ok (((s.wbAllL1 (coreOf k)).modGang g.id (fun y => y.arrive n r)).modSlot k (fun x => x.setMark ⟨false, n, g.phase n, off⟩))
  | some g, _ => raiseV 0x0E (groupDesc g n)
  | none, _ => raiseV 0x0E (barDesc false false 0 0 n)
/-- An arrival at a numbered barrier with count `v` (R57, R266, R420, R421). -/
def State.arriveNumbered (s : State) (k n off : Nat) (v : W64) : Res State :=
  let cl := clOfSlot k
  let b := s.nbar cl n
  let r := match (s.slot k).job with
    | .gang _ r => r
    | _ => 65536 + k
  let put (b' : NBar) (ph : Nat) : Res State :=
    .ok (((s.wbAllL1 (coreOf k)).setNbar cl n b'.settle).modSlot k (fun x => x.setMark ⟨true, n, ph, off⟩))
  if !s.holdsLease k then raiseV 0x0E (barDesc true false 0 0 n)
  else if v.toNat = 0 ∨ 240 < v.toNat then raiseV 0x0F (nbarDesc b n)
  else if b.sa ≠ 0 ∧ b.sa ≤ b.arr.length then
    if b.arr2.isEmpty then put { b with arr2 := [r], sa2 := v.toNat } (b.phase + 1)
    else if b.arr2.contains r ∨ b.sa2 ≤ b.arr2.length then raiseV 0x0E (nbarDesc b n)
    else if v.toNat ≠ b.sa2 then raiseV 0x0F (nbarDesc b n)
    else put { b with arr2 := b.arr2 ++ [r] } (b.phase + 1)
  else if b.arr.contains r then raiseV 0x0E (nbarDesc b n)
  else if b.sa ≠ 0 ∧ v.toNat ≠ b.sa then raiseV 0x0F (nbarDesc b n)
  else put { b with arr := b.arr ++ [r], sa := v.toNat } b.phase
/-- The wait for the phase of the strand's latest arrival (R265); its completion is an acquire (R153). -/
def State.barrierWait (s : State) (k : Nat) (nb : Bool) (n : Nat) : Res State :=
  match (s.slot k).mark? nb n with
  | none => .ok s
  | some m =>
    let a : Await := if nb then .numbered n m.phase else .group (((s.slot k).job.gangOf).getD 0) n m.phase
    if s.awaitMet k a then .ok ((s.modSlot k (fun x => x.unmark nb n)).acqL1 (coreOf k)) else .error (.parkWith s a)
/-- Forced reconvergence before a barrier at the strand's program counter (R50, R421): `none` when the barrier itself is performed. -/
def State.barrierPaths (s : State) (k : Nat) (nb : Bool) : Option (Res State) :=
  let x := s.slot k
  if x.th then none
  else match x.reconv with
    | some r =>
      if r.done then none
      else if x.pc = r.off then
        some (.ok ((s.modSlot k (fun y => { y with reconv := some { r with lanes := r.lanes ||| x.m0 } })).reconvNext k (x.depth + 2)))
      else some (.error (.trapWith (s.reconvMismatch k) ⟨0x0F, some (natW (b2n r.nb * 2 ^ 63 + 2 ^ 62 + r.off)), some x.m0, 0⟩))
    | none =>
      if (s.pendAt k).isNone then none
      else some (.ok ((s.modSlot k (fun y => { y with reconv := some ⟨x.pc, nb, x.m0, 0, 0, [], [], false⟩ })).reconvNext k (x.depth + 2)))
/-- A barrier instruction: an arrival, a wait, or both. -/
def barrierI (i : Instr) (o : Bar) (arrive wait : Bool) (s : State) : Host.Outcome State Fault Refusal :=
  strandWith i 0 [] [] allLanes false (fun k s => do
    ensure (o.nb || !s.groupBad k o.n) 0x01
    let x := s.slot k
    let mine := match x.mark? o.nb o.n with
      | some m => arrive && wait && m.off == x.pc
      | none => false
    let s0 := match x.reconv with
      | some r => if r.done ∧ r.off ≠ x.pc then s.modSlot k (fun y => { y with reconv := none }) else s
      | none => s
    match if mine then none else s0.barrierPaths k o.nb with
    | some r => r
    | none =>
      let s1 ← if !arrive || mine then pure s0
        else if o.nb then do
          let (v, t) ← rdSc k 1 o.a s0
          t.arriveNumbered k o.n (if wait then x.pc else noOff) v
        else s0.arriveGroup k o.n (if wait then x.pc else noOff)
      let s2 ← if wait then s1.barrierWait k o.nb o.n else pure s1
      pure ((s2.modSlot k (fun y => { y with reconv := if y.th then y.reconv else none })).advance k)) s
def execBarArrive (o : Bar) (s : State) : Host.Outcome State Fault Refusal := barrierI (.barArrive o) o true false s
def execBarWait (o : Bar) (s : State) : Host.Outcome State Fault Refusal := barrierI (.barWait o) o false true s
def execBarSync (o : Bar) (s : State) : Host.Outcome State Fault Refusal := barrierI (.barSync o) o true true s
/-- `gbar`: `bar.sync g0` on the die barrier network (R267). -/
def execGbar (s : State) : Host.Outcome State Fault Refusal := barrierI .gbar ⟨false, 0, 0⟩ true true s

/-! ### Producer binding (R268) -/

/-- Binds a location to a producer: four bindings, the oldest replaced. -/
def Slot.bind (x : Slot) (b : Bind) : Slot :=
  let l := x.binds.filter (fun c => c.loc != b.loc)
  { x with binds := (if 4 ≤ l.length then l.drop 1 else l) ++ [b] }
/-- The local-store word of an operand: aligned, then in range; TVAL the operand (R268, R270). -/
def wordAt (v : W64) : Res Nat := do
  ensureV (v.toNat % 8 == 0) 0x05 v
  ensureV (decide (v.toNat ≤ 0x3FFF8)) 0x04 v
  pure (v.toNat / 8)
def execExpect (o : Expect) (s : State) : Host.Outcome State Fault Refusal :=
  scalarI (.expect o) [] (fun k s => do
    let (vs, s1) ← rdScs k 1 [o.a, match o.t with
      | .ls b => b
      | _ => 0] s
    let loc : ExpLoc ← match o.t with
      | .reg d => pure (.reg d)
      | .inbox => pure .inbox
      | .ls _ => (do
        let w ← wordAt (lrw vs 1)
        pure (.ls w))
    let v := lrw vs 0
    match s.myGang k with
    | none => raiseV 0x1B v
    | some g =>
      ensureV (rankOk v g.nStrands) 0x1B v
      pure (s1.modSlot k (fun x => x.bind ⟨loc, v.toNat, g.halted.contains v.toNat⟩))) s

/-! ### Counters (R269, R270) -/

/-- The core of the partition that a source number names with slot field 0. -/
def State.partCore (s : State) (k n : Nat) : Option Nat :=
  (coreOfSrc n).bind (fun c => if n % 16 = 0 ∧ s.partOf (clOfCore c) = s.partOf (clOfSlot k) then some c else none)
def execCntDec (a b : Nat) (s : State) : Host.Outcome State Fault Refusal :=
  scalarI (.cntDec a b) [] (fun k s => do
    let (vs, s1) ← rdScs k 1 [a, b] s
    let v := lrw vs 0
    match if wf v 34 30 = 0 then s.partCore k (wf v 0 16) else none with
    | none => raiseV 0x1B v
    | some c =>
      ensureV (wf v 16 3 == 0) 0x05 v
      if !s1.credit c then parkOn (.credit c false (wf v 16 18))
      pure ((s1.relTo k c).sendNet ⟨0, .cntdec, srcOfSlot k, c, 0, 0, wf v 16 18, natW (wf (lrw vs 1) 0 32), 0, 0, false, false, false, false, false, 0⟩).1) s
def execCntWait (o : R2) (s : State) : Host.Outcome State Fault Refusal :=
  scalarI (.cntWait o) [] (fun k s => do
    let (v, s1) ← rdSc k 1 o.a s
    let w ← wordAt v
    let c := coreOf k
    if s.wordPois c w then s.poisStop k [.lsw c w] ⟨0x11, some v, some 1, 0⟩
    let x := s1.lsWord c w
    ensureV (!bitAt x 42) 0x1B v
    if wf x 0 32 = 0 then wrSc k o.d 0 s1
    else
      let y := setF (setF (setF (setF x 43 16 (s.slot k).gen) 42 1 1) 38 4 (slotNo k)) 32 6 o.d
      pure ((s1.lsWrite c (8 * w) 8 y.toNat).modSlot k (fun z => z.setSReg o.d { z.sreg o.d with full := false, pois := false }))) s

/-! ### Tasks (R60 to R62, R271) -/

def execTsendNew (o : R2) (s : State) : Host.Outcome State Fault Refusal :=
  scalarI (.tsendNew o) [o.d] (fun k s => do
    let (v, s1) ← rdSc k 1 o.a s
    ensureV (wf v 9 55 == 0) 0x01 v
    let c := coreOf k
    let i := v.toNat
    if i < 64 ∨ 447 < i then recTrap v 2 0x100
    let _ ← s1.lsLoad k (64 * i) 64
    let w0 := s1.trec c i 0
    if wf w0 37 3 ≠ 0 ∨ wf w0 56 8 ≠ 0 then recTrap v 1 0
    if wf w0 32 5 = 0 ∨ 16 < wf w0 32 5 ∨ 2 ≤ wf w0 42 2 then recTrap v 2 0
    ensureV (!(s1.ctx c i).live) 0x1B v
    let x := s.slot k
    let p1 := x.preg 1
    let (code, s2) ← match s1.loadPtr k p1 (wf w0 24 8) with
      | .ok r => (.ok r : Res (BitVec 128 × State))
      | .error (.trap t) => if t.code = 0x04 then recTrap v 6 0 else .error (.trap t)
      | .error e => .error e
    if !(pTag code && pHas code 5) then recTrap v 6 0
    let gen := s1.recGen c i + 1
    let ctx : TaskCtx := ⟨code, p1, x.preg 14, x.gseed, x.ranks, x.utvec, x.udeleg, x.fmt, x.asid, true, 0⟩
    let s3 := s2.modCore c (fun y => { y with tctx := mput y.tctx i ctx })
    let s4 := (s3.setRec c i 1 (setF (s3.trec c i 1) 32 32 gen.toNat)).setRecState c i 0
    let s5 ← wrSc k o.d (handleOf c i gen) s4
    pure (if wf (s1.trec c i 1) 0 32 = 0 then s5.rqEnter c i else s5)) s
def execTsend (a b : Nat) (s : State) : Host.Outcome State Fault Refusal :=
  scalarI (.tsend a b) [] (fun k s => do
    let (vs, s1) ← rdScs k 1 [a, b] s
    let h := lrw vs 0
    match if wf h 25 7 = 0 then s.partCore k (wf h 0 16) else none with
    | none => raiseV 0x1B h
    | some c =>
      if !s1.credit c then parkOn (.credit c false (64 * wf h 16 9))
      pure ((s1.relTo k c).sendNet ⟨0, .taskdec, srcOfSlot k, c, 0, wf h 32 32, wf h 16 9, natW (wf (lrw vs 1) 0 32), 0, 0, false, false, false, false, false, 0⟩).1) s

/-! ### Device-side launch (R63, R272, R330) -/

/-- The priority of a child gang (R330). -/
def State.childPrio (s : State) (k : Nat) : Nat :=
  match (s.slot k).job with
  | .task c i _ => wf (s.trec c i 0) 40 2
  | _ => match s.myGang k with
    | some g => g.prio
    | none => 0
def execLaunch (a : Nat) (s : State) : Host.Outcome State Fault Refusal :=
  scalarI (.launch a) [] (fun k s => do
    let (v, s1) ← rdSc k 1 a s
    ensureV (v.toNat % 64 == 0) 0x05 v
    ensureV (decide (v.toNat + 256 ≤ 262144)) 0x04 v
    let c := coreOf k
    let _ ← s1.lsLoad k v.toNat 256
    let l := (List.range 32).map (fun j => s1.lsWord c (v.toNat / 8 + j))
    match recordBad l true with
    | some (r, off) => recTrap v r off
    | none =>
      let gc := wf (lrw l 17) 56 8
      let ga := wf (lrw l 17) 0 56
      if gc ≠ 0 ∧ (ga % 8 ≠ 0 ∨ 262144 < ga + 8 * gc) then recTrap v 3 0x88
      let _ ← s1.lsLoad k (if gc = 0 then 0 else ga) (8 * gc)
      let gt := (List.range gc).map (fun j => s1.lsWord c (ga / 8 + j))
      if groupsBad l gt then recTrap v 3 0x88
      if 4 ≤ (s.core c).tray.length then .error (.park .tray)
      let x := s.slot k
      pure ((s1.wbAllL1 c).modCore c (fun y => { y with tray := y.tray ++ [⟨l, gt, k, v.toNat, x.preg 1, x.asid, s.childPrio k, false, false⟩] }))) s

end Sys2Proof.Machine
end

