-- ==== Sys2Proof/Machine/Slots.lean ====
section
/-! DEFINITION. Slot control, ready queues, `yield` and `wfi` (R273 to R275, R364). -/

namespace Sys2Proof.Machine

/-- Is slot 15 of a core its message slot (R52, R258). -/
def State.msgSlot (s : State) (c : Nat) : Bool :=
  match (s.core c).gang.bind s.gang? with
  | some g => g.msg
  | none => false
/-- The slot that an operand names for slot control: 1 to 15, and not the message slot; a width-64 strand is named by either of its slots. Only slot 0
controls slots: to a strand of another slot every slot is a bad one (R33, DEDUCED, log entry 80). -/
def State.ctlSlot (s : State) (k : Nat) (v : W64) : Option Nat :=
  let c := coreOf k
  if slotNo k ≠ 0 ∨ v.toNat = 0 ∨ 15 < v.toNat ∨ v.toNat = 15 ∧ s.msgSlot c then none
  else match (s.slot (16 * c + v.toNat)).pairOf with
    | some n => some (16 * c + n)
    | none => some (16 * c + v.toNat)
/-- A slot-control instruction: sD receives the status. -/
def slotI (i : Instr) (d : Nat) (srcs : List Nat) (body : Nat → List W64 → State → Res (Nat × State)) (s : State) : Host.Outcome State Fault Refusal :=
  sysI i [d] (fun k s => do
    let (vs, s1) ← rdScs k 1 srcs s
    let (st, s2) ← body k vs s1
    wrSc k d (natW st) s2) s
/-- Slot 0 executes an instruction that restarts the core's watchdog (R476). -/
def State.watch (s : State) (k : Nat) : State := if slotNo k = 0 then s.modCore (coreOf k) (fun c => { c with wdog := s.gtcAt k }) else s
def execSlotStart (o : R3) (s : State) : Host.Outcome State Fault Refusal :=
  slotI (.slotStart o) o.d [o.a, o.b] (fun k vs s => match s.ctlSlot k (lrw vs 0) with
    | none => .ok (3, s.watch k)
    | some t => .ok ((s.watch k).startRank t (lrw vs 1).toNat)) s
def execSlotStartTask (o : R3) (s : State) : Host.Outcome State Fault Refusal :=
  slotI (.slotStartTask o) o.d [o.a, o.b] (fun k vs s => match s.ctlSlot k (lrw vs 0) with
    | none => .ok (3, s.watch k)
    | some t => .ok ((s.watch k).startTask t (lrw vs 1))) s
/-- Status of a slot's state (R273). -/
def Phase.code : Phase → Nat
  | .free => 0
  | .running => 1
  | .parked => 2
  | .spilled => 3
  | .halted => 4
def execSlotReap (o : R2) (s : State) : Host.Outcome State Fault Refusal :=
  slotI (.slotReap o) o.d [o.a] (fun k vs s => match s.ctlSlot k (lrw vs 0) with
    | none => .ok (7, s)
    | some t =>
      let ph := (s.slot t).phase
      .ok (ph.code, if ph = .free ∨ ph = .halted then s else s.retire t 0 false)) s
/-- Does a save area lie on binding pages, aligned (R137, R273, R487), in the address space of the root slot that asks (DESIGN CHOICE, log entry 94). -/
def State.saveOk (s : State) (k : Nat) (a : W64) (wide : Bool) : Bool :=
  let n := if wide then 0xA000 else 0x5000
  decide (a.toNat % 256 = 0) && (match s.rangePages k accSave 1 (fun _ => true) a.toNat n 4 with
    | .ok _ => true
    | .error _ => false)
def execSlotSpill (o : R3) (s : State) : Host.Outcome State Fault Refusal :=
  slotI (.slotSpill o) o.d [o.a, o.b] (fun k vs s => match s.ctlSlot k (lrw vs 0) with
    | none => .ok (7, s)
    | some t =>
      let x := s.slot t
      if x.phase ≠ .running ∧ x.phase ≠ .parked then .ok (1, s)
      else if !s.saveOk k (lrw vs 1) x.wide then .ok (2, s)
      else if x.replyDue then parkOn (.reply t)
      else .ok (0, s.spillTo t (lrw vs 1))) s
/-- `slot.load`; a save area that lies on no binding page any more is refused (R487; the status is a DESIGN CHOICE, log entry 12). -/
def execSlotLoad (o : R2) (s : State) : Host.Outcome State Fault Refusal :=
  slotI (.slotLoad o) o.d [o.a] (fun k vs s => match s.ctlSlot k (lrw vs 0) with
    | none => .ok (7, s)
    | some t => .ok (if (s.slot t).phase = .spilled ∧ !s.saveOk k (s.slot t).savea (s.slot t).wide then (7, s) else s.loadFrom t)) s

/-! ### Ready queues (R274) -/

def execRqPush (a : Nat) (s : State) : Host.Outcome State Fault Refusal :=
  sysI (.rqPush a) [] (fun k s => do
    let (h, s1) ← rdSc k 1 a s
    let c := coreOf k
    let i := wf h 16 9
    let st := recState (s.trec c i 0)
    ensureV (s.partCore k (wf h 0 16) == some c && wf h 25 7 == 0 && (s.ctx c i).live && (s.recGen c i).toNat == wf h 32 32 && (st == 3 || st == 4)) 0x1B h
    pure (s1.rqEnter c i)) s
def execRqPop (o : R2) (s : State) : Host.Outcome State Fault Refusal :=
  sysI (.rqPop o) [o.d] (fun k s => do
    let (v, s1) ← rdSc k 1 o.a s
    ensureV (wf v 4 60 == 0) 0x01 v
    match s1.rqPop (coreOf k) v.toNat with
    | some (h, s2) => wrSc k o.d h (s2.watch k)
    | none => wrSc k o.d (BitVec.allOnes 64) (s1.watch k)) s

/-! ### `yield` and `wfi` (R275) -/

/-- Does a `yield` trap: IP.PREQ, or in a task a ready task of higher priority. -/
def State.yields (s : State) (k : Nat) : Bool :=
  let x := s.slot k
  bitAt x.ip 4 || (match x.job with
    | .task c i _ => [1, 2, 3].any (fun p => decide (wf (s.trec c i 0) 40 2 < p) && !(rqOf (s.core (coreOf k)) p).isEmpty)
    | _ => false)
def execYield (s : State) : Host.Outcome State Fault Refusal :=
  strandWith .yield 0 [] [] allLanes false (fun k s =>
    .ok (if !(s.slot k).th && s.yields k then (s.advance k).takeIrq k 0x84 else s.advance k)) s
def execWfi (s : State) : Host.Outcome State Fault Refusal :=
  sysI .wfi [] (fun k s =>
    let clear := (s.modCore (coreOf k) (fun c => { c with rqEvent := false })).watch k
    match (s.slot k).park with
    | some _ => if s.awaitMet k .irq then .ok clear else parkOn .irq
    | none => if (s.irqOf k).isSome then .ok clear else .error (.parkWith clear .irq)) s

end Sys2Proof.Machine
end

