-- ==== Sys2Proof/Machine/System.lean ====
section
/-! DEFINITION. Control registers, entries into handlers and the return from them with its replacement values, TLB invalidation and hothouse
instructions (R76 to R82, R276 to R279, R397, R437). -/

namespace Sys2Proof.Machine

/-! ### Control registers (R76, R80, R277) -/

/-- Features of the partition, and FEAT7: the clock and the weight of the core's queue (R80). -/
def State.feat (s : State) (k n : Nat) : W64 :=
  if n < 7 then s.cfg (dieOfSlot k) (s.partOfSlot k) (0x0C0 + 8 * n)
  else natW (2 ^ 63 + wf (s.cluster (clOfSlot k)).clwgt0 (4 * (coreOf k % 16)) 4 * 2 ^ 32 + s.clk (dieOfSlot k))
/-- The level that may read an address, and the value read. -/
def State.crRead (s : State) (k a : Nat) : Option (Nat × W64) :=
  let x := s.slot k
  if a = 0x000 then some (0, x.status)
  else if a = 0x001 then some (0, x.cause)
  else if a = 0x002 then some (0, x.epc)
  else if a = 0x003 then some (0, x.tval)
  else if a = 0x004 then some (0, x.fmask)
  else if a = 0x005 then some (0, x.sowst)
  else if a = 0x006 then some (0, x.sowsth)
  else if a = 0x007 then some (1, natW x.tvec)
  else if a = 0x008 then some (0, natW x.utvec)
  else if a = 0x009 then some (0, x.udeleg)
  else if a = 0x00A then some (1, x.ie)
  else if a = 0x00B then some (1, s.ipOf k)
  else if a = 0x00C then some (1, x.escr)
  else if a = 0x00D then some (0, x.uscr)
  else if a = 0x010 then some (0, x.timecmp)
  else if a = 0x011 then some (0, x.wlim)
  else if a = 0x012 then some (0, x.outdst)
  else if a = 0x013 then some (0, x.msbase)
  else if a = 0x014 then some (1, x.savea)
  else if a = 0x015 then some (0, x.gseed)
  else if a = 0x016 then some (0, x.ranks)
  else if a = 0x017 then some (0, x.fflags)
  else if 0x020 ≤ a ∧ a ≤ 0x027 then some (0, s.feat k (a - 0x020))
  else if a = 0x028 then some (0, natW (2 ^ 63 + s.partOfSlot k % 16 * 65536 + srcOfSlot k))
  else if a = 0x029 then some (0, x.lfm)
  else if a = 0x030 then some (0, natW (s.cluster (clOfSlot k)).seq0.toNat)
  else if a = 0x031 then some (0, natW (s.cluster (clOfSlot k)).seq1.toNat)
  else if 0x040 ≤ a ∧ a ≤ 0x07F then some (0, mget 0 x.replv (a - 0x040))
  else none
/-- A value with the fields of a mask taken from a write; the others keep what they hold (R6, R277). -/
def keepRo (old v mask : W64) : W64 := (old &&& ~~~mask) ||| (v &&& mask)
/-- STATUS as a write leaves it: PRIV keeps its value, and so does PPRIV when 3, a reserved code, is written (DESIGN CHOICE, log entry 21). -/
def writeStatus (old v : W64) : W64 := keepRo old v (if wf v 2 2 = 3 then 0xF0 else 0xFC)
/-- The level that may write an address, and the slot after the write; `none` for a register that no level may write. -/
def Slot.crWrite (x : Slot) (a : Nat) (v : W64) : Option (Nat × Slot) :=
  if a = 0x000 then some (1, { x with status := writeStatus x.status v })
  else if a = 0x001 then some (1, { x with cause := v &&& 0x1FF })
  else if a = 0x002 then some (1, { x with epc := v })
  else if a = 0x003 then some (1, { x with tval := v })
  else if a = 0x004 then some (1, { x with fmask := v })
  else if a = 0x005 then some (1, { x with sowst := v &&& 0x8000003FFFFFFFFF })
  else if a = 0x006 then some (1, { x with sowsth := v &&& 0xFFFFFFFF })
  else if a = 0x007 then some (1, { x with tvec := wf v 0 24 })
  else if a = 0x008 then some (1, { x with utvec := wf v 0 24 })
  else if a = 0x009 then some (1, { x with udeleg := v &&& 0xF })
  else if a = 0x00A then some (1, { x with ie := v &&& 0x1F })
  else if a = 0x00C then some (1, { x with escr := v })
  else if a = 0x00D then some (0, { x with uscr := v })
  else if a = 0x010 then some (0, { x with timecmp := v })
  else if a = 0x011 then some (0, { x with wlim := v &&& 0xFFFFFFFF })
  else if a = 0x012 then some (0, { x with outdst := v &&& 0xFFFFFFFF0FFFFFFF })
  else if a = 0x013 then some (0, { x with msbase := keepRo x.msbase v 0x00003FFF0003FFFF })
  else if a = 0x014 then some (1, { x with savea := v &&& 0x00FFFFFFFFFFFF00 })
  else if a = 0x015 then some (1, { x with gseed := v })
  else if a = 0x017 then some (0, { x with fflags := v &&& 0x3F })
  else if 0x040 ≤ a ∧ a ≤ 0x07F then some (0, { x with replv := mset 0 x.replv (a - 0x040) v })
  else none
/-- Reads a control register at the strand's level. -/
def State.cgetR (s : State) (k a : Nat) : Res W64 := do
  match s.crRead k a with
  | none => raise 0x01
  | some (lvl, v) =>
    ensure (decide (lvl ≤ (s.slot k).priv)) 0x02
    pure v
/-- Writes a control register: the address, the level, then MSBASE while words are in use. -/
def State.cputR (s : State) (k a : Nat) (v : W64) : Res State := do
  let x := s.slot k
  match x.crWrite a v with
  | none => raise 0x01
  | some (lvl, y) =>
    ensure (decide (lvl ≤ x.priv)) 0x02
    ensure (!(a == 0x013 && x.msUsed != 0)) 0x01
    pure (s.setSlot k y)
/-- A read of SEQ0 observes the completions that it covers: an acquire at cluster scope (R151). -/
def State.seqAcq (s : State) (k a : Nat) : State := if a = 0x030 then s.acqL1 (coreOf k) else s
/-- The lowest level that may read an address; `none` for one that names no register. -/
def crReadLevel (a : Nat) : Option Nat :=
  if [0x007, 0x00A, 0x00B, 0x00C, 0x014].contains a then some 1
  else if a ≤ 0x00D ∨ 0x010 ≤ a ∧ a ≤ 0x017 ∨ 0x020 ≤ a ∧ a ≤ 0x029 ∨ a = 0x030 ∨ a = 0x031 ∨ 0x040 ≤ a ∧ a ≤ 0x07F then some 0
  else none
/-- The checks of a control-register instruction that come before its operands are read: the address, then the levels (R191, R277). -/
def Slot.crRefuse (r w : Bool) (a : Nat) (dsts : List Nat) (x : Slot) : Option Nat :=
  match (if r then crReadLevel a else some 0), (if w then (x.crWrite a 0).map (·.1) else some 0) with
  | some l, some m => if x.priv < l ∨ x.priv < m then some 0x02 else x.refuse 0 dsts []
  | _, _ => some 0x01
def execCget (d : Nat) (c : BitVec 12) (s : State) : Host.Outcome State Fault Refusal :=
  strandIf (.cget d c) (Slot.crRefuse true false c.toNat [d]) allLanes true (fun k s => do
    let v ← s.cgetR k c.toNat
    wrSc k d v (s.seqAcq k c.toNat)) s
def execCput (c : BitVec 12) (a : Nat) (s : State) : Host.Outcome State Fault Refusal :=
  strandIf (.cput c a) (Slot.crRefuse false true c.toNat []) allLanes true (fun k s => do
    let (v, s1) ← rdSc k 1 a s
    s1.cputR k c.toNat v) s
def execCswap (d : Nat) (c : BitVec 12) (a : Nat) (s : State) : Host.Outcome State Fault Refusal :=
  strandIf (.cswap d c a) (Slot.crRefuse true true c.toNat [d]) allLanes true (fun k s => do
    let (v, s1) ← rdSc k 1 a s
    let old ← s1.cgetR k c.toNat
    let s2 ← s1.cputR k c.toNat v
    wrSc k d old s2) s
def execCfq (d n : Nat) (s : State) : Host.Outcome State Fault Refusal := scalarI (.cfq d n) [d] (fun k s => wrSc k d (s.feat k n) s) s

/-! ### Entries into handlers (R276) -/

def execSys (n : BitVec 16) (s : State) : Host.Outcome State Fault Refusal := jumpI (.sys n) (fun _ _ => raiseV 0x18 (natW n.toNat)) s
def execTrap (a : Nat) (n : BitVec 16) (s : State) : Host.Outcome State Fault Refusal :=
  scalarI (.trap a n) [] (fun k s => do
    let (v, s1) ← rdSc k 1 a s
    if v = 0 then pure s1 else raiseV 0x18 (natW (0x10000 + n.toNat))) s
def execEbreak (n : BitVec 16) (s : State) : Host.Outcome State Fault Refusal := jumpI (.ebreak n) (fun _ _ => raiseV 0x19 (natW n.toNat)) s

/-! ### Replacement values (R82 step 1, R437) -/

/-- Where an instruction's result goes: a scalar register, lanes of a vector register or pair, bits of a mask that a compare writes, a whole mask. -/
inductive Dest where
  | none
  | s (d : Nat)
  | v (wide : Bool) (d : Nat)
  | bits (d : Nat)
  | mask (d : Nat)
/-- The destination that REPLV replaces; `wide` is a width-64 strand. -/
def destOf (wide : Bool) : Instr → Dest
  | .add o => .s o.d
  | .sub o => .s o.d
  | .mul o => .s o.d
  | .addi o => .s o.d
  | .mulh o => .s o.d
  | .div o => .s o.d
  | .rem o => .s o.d
  | .shl o => .s o.d
  | .shr o => .s o.d
  | .sra o => .s o.d
  | .slt o => .s o.d
  | .sltn o => .s o.d
  | .min o => .s o.d
  | .max o => .s o.d
  | .bext o => .s o.d
  | .bdep o => .s o.d
  | .fmin o => .s o.d
  | .fmax o => .s o.d
  | .and o => .s o.d
  | .or o => .s o.d
  | .xor o => .s o.d
  | .clz o => .s o.d
  | .ctz o => .s o.d
  | .popc o => .s o.d
  | .fclass o => .s o.d
  | .sext o => .s o.d
  | .zext o => .s o.d
  | .mov o => .s o.d
  | .andi o => .s o.d
  | .ori o => .s o.d
  | .xori o => .s o.d
  | .shli o => .s o.d
  | .shri o => .s o.d
  | .srai o => .s o.d
  | .lih o => .s o.d
  | .fadd o => .s o.d
  | .fsub o => .s o.d
  | .fmul o => .s o.d
  | .ffma o => .s o.d
  | .fdiv o => .s o.d
  | .fsqrt o => .s o.d
  | .fcmp o => .s o.d
  | .fcvt o => .s o.d
  | .mpopc o => .s o.d
  | .mpopcBits o => .s o.d
  | .mfirst o => .s o.d
  | .mpeek o => .s o.d
  | .cntWait o => .s o.d
  | .tsendNew o => .s o.d
  | .rqPop o => .s o.d
  | .slotReap o => .s o.d
  | .slotLoad o => .s o.d
  | .pget o => .s o.d
  | .slotStart o => .s o.d
  | .slotStartTask o => .s o.d
  | .slotSpill o => .s o.d
  | .ptest o => .s o.d
  | .ld o => .s o.d
  | .lds o => .s o.d
  | .ldff o => .s o.d
  | .ldf o => .s o.d
  | .vext o => .s o.d
  | .mpop d => .s d
  | .cswap d _ _ => .s d
  | .fwResDef _ _ => .none
  | .cpyMl o => .s o.d
  | .cpyLm o => .s o.d
  | .cpyLl o => .s o.d
  | .cpyMr o => .s o.d
  | .mset o => .mask o.d
  | .vadd o => .v o.ty.is64 o.d
  | .vsub o => .v o.ty.is64 o.d
  | .vmul o => .v o.ty.is64 o.d
  | .vmulh o => .v o.ty.is64 o.d
  | .vmad o => .v o.ty.is64 o.d
  | .vand o => .v o.ty.is64 o.d
  | .vor o => .v o.ty.is64 o.d
  | .vxor o => .v o.ty.is64 o.d
  | .vnot o => .v o.ty.is64 o.d
  | .vshl o => .v o.ty.is64 o.d
  | .vshr o => .v o.ty.is64 o.d
  | .vsra o => .v o.ty.is64 o.d
  | .vmin o => .v o.ty.is64 o.d
  | .vmax o => .v o.ty.is64 o.d
  | .vabs o => .v o.ty.is64 o.d
  | .vsel o => .v o.ty.is64 o.d
  | .vsext o => .v o.ty.is64 o.d
  | .vzext o => .v o.ty.is64 o.d
  | .vbs o => .v o.ty.is64 o.d
  | .vins o => .v o.ty.is64 o.d
  | .vfadd o => .v o.ty.is64 o.d
  | .vfsub o => .v o.ty.is64 o.d
  | .vfmul o => .v o.ty.is64 o.d
  | .vffma o => .v o.ty.is64 o.d
  | .vfdiv o => .v o.ty.is64 o.d
  | .vfsqrt o => .v o.ty.is64 o.d
  | .vfmin o => .v o.ty.is64 o.d
  | .vfmax o => .v o.ty.is64 o.d
  | .vfround o => .v o.ty.is64 o.d
  | .vshuf o => .v o.ty.is64 o.d
  | .vbcast o => .v o.ty.is64 o.d
  | .vrot o => .v o.ty.is64 o.d
  | .vred o => .v o.ty.is64 o.d
  | .vscan o => .v o.ty.is64 o.d
  | .vclz o => .v false o.d
  | .vpopc o => .v false o.d
  | .vfrcp o => .v false o.d
  | .vfrsq o => .v false o.d
  | .vfexp2 o => .v false o.d
  | .vflog2 o => .v false o.d
  | .vqblkExp o => .v false o.d
  | .vqblkMan o => .v false o.d
  | .vbpt o => .v false o.d
  | .vhadd o => .v false o.d
  | .vhmul o => .v false o.d
  | .vhfma o => .v false o.d
  | .vldacc o => .v false o.d
  | .vmatch o => .v wide o.d
  | .vfcvt o => .v o.dty.is64 o.d
  | .vld o => .v (szN o.sz == 8) o.d
  | .vldu o => .v (szN o.sz == 8) o.d
  | .lld o => .v (szN o.sz == 8) o.d
  | .vcmp o => .bits o.d
  | .vfcmp o => .bits o.d
  | _ => .none
/-- The atomic and its fields, for a lane or scalar atomic. -/
def vatomOf : Instr → Option (AKind × VAtom)
  | .vaadd o => some (.add, o)
  | .vamin o => some (.min, o)
  | .vamax o => some (.max, o)
  | .vaand o => some (.and, o)
  | .vaor o => some (.or, o)
  | .vaxor o => some (.xor, o)
  | .vaxch o => some (.xch, o)
  | .vacas o => some (.cas, o)
  | _ => none
def atomOf : Instr → Option (AKind × Atom)
  | .aadd o => some (.add, o)
  | .amin o => some (.min, o)
  | .amax o => some (.max, o)
  | .aand o => some (.and, o)
  | .aor o => some (.or, o)
  | .axor o => some (.xor, o)
  | .axch o => some (.xch, o)
  | .acas o => some (.cas, o)
  | _ => none
def Slot.repl (x : Slot) (l : Nat) : W64 := mget 0 x.replv l
/-- The slot with the poisoned lanes of registers holding REPLV, clean (R437). -/
def Slot.subV (x : Slot) (fm : W64) (wide : Bool) (regs : List Nat) : Slot :=
  (lanesOf fm).foldl (fun y l => regs.foldl (fun z r =>
    if (x.vreg r l).pois then z.setVReg r l ⟨BitVec.ofNat 32 (if wide ∧ r % 2 = 1 then (x.repl l).toNat / 2 ^ 32 else (x.repl l).toNat), true, false⟩ else z) y) x
/-- Gives registers back what a substitution took from them. -/
def Slot.backV (x old : Slot) (fm : W64) (regs : List Nat) : Slot :=
  (lanesOf fm).foldl (fun y l => regs.foldl (fun z r => if (old.vreg r l).pois then z.setVReg r l (old.vreg r l) else z) y) x
/-- A read-modify-write whose memory reads as `r`, poisoned or not: memory := op(r, operand). -/
def State.rmwRepl (s : State) (k n : Nat) (q : Ref) (f : Nat → Option Nat) (r : Nat) : State :=
  let c := coreOf k
  match f r with
  | none => s
  | some v =>
    if q.ls then s.lsWrite c q.addr n v
    else (s.flushSector c (q.addr / 64)).cwrite (s.partOf (clOfCore c)) (dieOfCore c) q.addr n v
/-- Completes the lanes of a lane instruction as though the poisoned data had read as REPLV; the truth value is a demotion point (R49, R437). -/
def fixLanes (i : Instr) (fm : W64) (k : Nat) (s : State) : Res (Bool × State) :=
  let x := s.slot k
  match i with
  | .vst o => do
    let regs := o.x.toList ++ regsOf (szN o.sz == 8) o.d
    let (_, t) ← memVst o fm k (s.setSlot k (x.subV fm (szN o.sz == 8) regs))
    pure (false, t.modSlot k (fun y => y.backV x fm regs))
  | .lst o => do
    let regs := o.x.toList ++ regsOf (szN o.sz == 8) o.d
    let (_, t) ← memLst o fm k (s.setSlot k (x.subV fm (szN o.sz == 8) regs))
    pure (false, t.modSlot k (fun y => y.backV x fm regs))
  | i => match vatomOf i with
    | some (op, o) =>
      let wd := o.ty.is64
      let n := o.ty.width / 8
      let regs := vatomVecs o (op = .cas)
      let inReg := x.poisLanes fm regs
      let inMem := fm &&& ~~~inReg
      let srcs := regs.filter (fun r => !(regsOf wd o.d).contains r)
      do
        let (dem, s1) ← if inReg = 0 then pure (false, s) else (do
          let (dem, t) ← memVatom op { o with ord := if o.ord = .sc then .ar else o.ord } inReg k (s.setSlot k (x.subV inReg wd regs))
          pure (dem, t.modSlot k (fun y => y.backV x inReg srcs)))
        if inMem = 0 then pure (dem, s1)
        else
          let (s2, refs, pf) ← checkRes (checkAll (fun t d l => t.refOf k (x.preg o.p) d n 11 (accA x.priv) l) (ptrOffs o.x 0 (x.preg o.p) x inMem) (s1.releasePart k o.ord o.scope) [] []) none
          let s3 ← memDone s2 pf [] [] none 2
          let rep (q : Ref) : Nat := (x.repl q.lane).toNat % 2 ^ o.ty.width
          let new (q : Ref) (v : Nat) : Option Nat × Nat := atomNew op o.ty v (x.lane wd o.d q.lane) (x.lane wd o.c q.lane)
          pure (dem || refs.any (fun q => (new q (rep q)).1.isNone), (refs.foldl (fun t q =>
            (t.rmwRepl k n q (fun v => (new q v).1) (rep q)).modSlot k (fun y => (y.setLane wd o.d q.lane (rep q)).flag (new q (rep q)).2)) s3).acquirePart k o.ord o.scope)
    | none => .ok (false, match destOf x.wide i with
      | .v wd d => s.setSlot k ((lanesOf fm).foldl (fun y l => y.setLane wd d l (x.repl l).toNat) x)
      | .bits d => s.setSlot k (x.setM d ((x.mreg d &&& ~~~fm) ||| maskOf ((lanesOf fm).filter (fun l => bitAt (x.repl l) 0))))
      | _ => s)
/-- Scalar registers s1 to s59 with their poison replaced by REPLV0, and back. -/
def Slot.subS (x : Slot) (regs : List Nat) : Slot :=
  regs.foldl (fun y r => if r < 60 ∧ (x.sreg r).pois then y.setSReg r ⟨x.repl 0, true, false⟩ else y) x
def Slot.backS (x old : Slot) (regs : List Nat) : Slot := regs.foldl (fun y r => if r < 60 ∧ (old.sreg r).pois then y.setSReg r (old.sreg r) else y) x
/-- A scalar instruction with poisoned data operands, run with REPLV0 in their place. While the block that it writes is not in the CDC, `eret` waits. -/
def rerunS (k : Nat) (regs : List Nat) (run : State → Host.Outcome State Fault Refusal) (s : State) : Res State :=
  let x := s.slot k
  match run (s.setSlot k (x.subS regs)) with
  | .next t => match (t.slot k).park.map (·.on) with
    | some (Await.cdc b w) => parkOn (Await.cdc b w)
    | _ => .ok (t.modSlot k (fun y => y.backS x regs))
  | _ => .ok s
/-- Completes a control-thread instruction: `none` where the strand goes on after it, `some` the state in which the instruction itself has set the
strand's position (a store, a remote write). -/
def fixScalar (i : Instr) (k : Nat) (s : State) : Res (Option State × State) :=
  let x := s.slot k
  let own (regs : List Nat) (run : State → Host.Outcome State Fault Refusal) : Res (Option State × State) := do
    let t ← rerunS k regs run s
    pure (some t, t)
  match i with
  | .st o => own [xreg o.x, o.d] (execSt o)
  | .sts o => own [o.p, o.d] (execSts o)
  | .stf o => own [if o.ls then o.p else xreg o.x, o.d] (execStf o)
  | .rput o => own [o.s, o.r] (execRput o)
  | .sputfe o => own [o.s, o.r, xreg o.x] (execSputfe o)
  | .amsg o => own [o.d, o.a, o.b] (execAmsg o)
  | .ldf o => do
    let (a, _) ← fePlace o 3 k (s.setSlot k (x.subS [o.p, xreg o.x]))
    let t ← wrSc k o.d (x.repl 0) (s.setEmpty (coreOf k) (a / 8) true)
    pure (none, t)
  | i => match atomOf i with
    | some (op, o) =>
      let regs := [o.d, xreg o.x] ++ if op = .cas then [o.c] else []
      let run (o : Atom) : State → Host.Outcome State Fault Refusal := atomI i op o
      let o' := { o with ord := if o.ord = .sc then .ar else o.ord }
      if regs.any (fun r => decide (r < 60) && (x.sreg r).pois) then do
        let t ← rerunS k (regs.filter (· != o.d)) (run o') (s.setSlot k (x.subS [o.d]))
        pure (some t, t)
      else do
        let n := o.ty.width / 8
        let (vs, _) ← rdScs k 1 regs s
        let (q, s1) ← s.ptrRef k (x.preg o.p) (lrw vs 1).toInt n 11 (accA x.priv) 2
        let r := (x.repl 0).toNat % 2 ^ o.ty.width
        let new (v : Nat) : Option Nat × Nat := atomNew op o.ty v ((lrw vs 0).toNat % 2 ^ o.ty.width) (lrw vs 2).toNat
        let s2 := ((s1.releasePart k o.ord o.scope).rmwRepl k n q (fun v => (new v).1) r).acquirePart k o.ord o.scope
        let s3 ← wrSc k o.d (natW (if o.ty = .s32 then wrap 64 (toSigned 32 r) else r)) (s2.modSlot k (fun y => y.flag (new r).2))
        pure (none, s3.markDem k (new r).1.isNone)
    | none => do
      let t ← match destOf x.wide i with
        | .s d => wrSc k d (x.repl 0) s
        | .mask d => pure (s.modSlot k (fun y => y.setM d (x.repl 0)))
        | _ => pure s
      pure (none, t)
/-- Does an instruction act in lanes, so that FMASK names the lanes to complete. -/
def laneInstr (i : Instr) : Bool :=
  (match i with
    | .vcmp _ | .vfcmp _ => true
    | i => (sowBody i).isSome)

/-! ### The return from a handler (R82, R225, R396, R397, R400) -/

/-- Causes whose FMASK is a lane mask that limits the rerun (R378, R397). -/
def laneCause (c : Nat) : Bool := c == 0x04 || c == 0x05 || c == 0x06 || c == 0x07 || c == 0x09 || c == 0x12 || c == 0x13 || c == 0x16
/-- Causes that a `vcall`, or a `ret` that continues one, reports for lanes (R398). -/
def vcallCause (c : Nat) : Bool := c == 0x01 || c == 0x03 || c == 0x08 || c == 0x1C
def isVcall (i : Instr) : Bool := match i with
  | .vcall _ _ | .ret => true
  | _ => false
/-- The sown word of the lanes of FMASK, for a poisoned group (R225). -/
def fixSow (k a : Nat) (fm : W64) (s : State) : Res State :=
  let x := s.slot k
  let bad := x.poisLanes fm [a, a + 1]
  if bad ≠ 0 then .ok (s.setSlot k (x.subV bad true [a, a + 1]))
  else do
    let (dem, s1) ← match lowest fm with
      | some l => (match decode (sowWord x a l) with
        | .ok i => fixLanes i fm k s
        | .error _ => pure (false, s))
      | none => pure (false, s)
    pure (s1.modSlot k (fun y =>
      { y with sowDem := y.sowDem || dem, sowst := y.sowst &&& ~~~(fm &&& 0xFFFFFFFF), sowsth := y.sowsth &&& ~~~(natW (fm.toNat / 2 ^ 32)) }))
/-- Arrivals that no longer belong to a wait that resumes here (R419). -/
def Slot.settleMarks (x : Slot) (pc : Nat) : Slot := { x with marks := x.marks.map (fun m => if m.off = pc then m else { m with off := noOff }) }
/-- A strand goes on after an instruction at `epc` that `eret` has completed: a demotion point that it met takes effect now (R49). -/
def State.demoteDue (s : State) (k epc : Nat) (dem : Bool) : State :=
  let s1 := s.modSlot k (fun y => { y with demAt := if y.th then y.demAt else none })
  if dem || !(s.slot k).th && (s.slot k).demAt == some epc then s1.demote k (epc + 2) else s1
/-- The trap return of the strand in slot `k`. DESIGN CHOICE: a cause with a lane mask limits the instruction at EPC to the FMASK lanes also where the
handler has moved EPC, so that it runs there for the first time (R82, step 4; log entry 81). -/
def State.eretStep (s : State) (k : Nat) : Res State := do
  let x := s.slot k
  let code := wf x.cause 0 8
  let fm := x.fmask &&& laneMask x.lanes
  let s0 := (s.eretRestore k).modSlot k (fun y => { y with kern := none, reported := false })
  let p0 := (s0.slot k).preg 0
  let epc := x.epc.toNat
  let repl := code == 0x10 || code == 0x11
  let i? : Option Instr := match s0.codeWord k p0 epc with
    | .ok (w, _) => (match decode w.toNat with
      | .ok i => some i
      | .error _ => none)
    | .error _ => none
  let finish (t : State) (pc : Nat) : Res State := do
    let t1 ← t.resumeAt k pc
    pure (t1.modSlot k (fun y => y.settleMarks pc))
  let sow? : Option Nat := match i? with
    | some (.sow a _) => if bitAt x.sowst 63 then some a else none
    | _ => none
  match sow? with
  | some a =>
    let s1 ← if repl then fixSow k a fm s0 else pure s0
    let y := s1.slot k
    let pend := natW (y.sowst.toNat % 2 ^ 32 + y.sowsth.toNat % 2 ^ 32 * 2 ^ 32) &&& y.m7
    if pend = 0 then
      let t ← finish (s1.modSlot k (fun z => { z with sowst := 0, sowsth := 0, sowDem := false })) (epc + 2)
      pure (t.demoteDue k epc y.sowDem)
    else
      let t ← finish s1 epc
      pure (t.modSlot k (fun z => { z with resumed := true }))
  | none =>
    if repl then
      match i? with
      | none => finish s0 (epc + 2)
      | some i =>
        if laneInstr i then
          let (dem, s1) ← fixLanes i fm k s0
          let t ← finish s1 (epc + 2)
          pure (t.demoteDue k epc dem)
        else if x.fmask = 0 then finish s0 (epc + 2)
        else
          let s1 ← finish s0 epc
          let (own, s2) ← fixScalar i k s1
          match own with
          | some t => pure t
          | none => do
            let t ← finish s2 (epc + 2)
            pure (t.demoteDue k epc false)
    else if code = 0x18 ∨ code = 0x19 then finish s0 (epc + 2)
    else
      let t ← finish s0 epc
      let lanes := (laneCause code || (vcallCause code && (i?.map isVcall).getD false)) && !x.reported
      pure (t.modSlot k (fun y =>
        if lanes then { y with replay := some x.fmask }
        else match y.replayHeld with
          | some (pc, m) => if 128 ≤ code ∧ pc = epc then { y with replay := some m, replayHeld := none } else y
          | none => y))
/-- The scope of the `.sc` atomic that a word is, or that the sown word of the lowest FMASK lane is (R225, R249). -/
def Slot.scWord (x : Slot) (w : Nat) : Option Scope :=
  let ofI (i : Instr) : Option Scope := match vatomOf i, atomOf i with
    | some (_, o), _ => if o.ord = .sc then some o.scope else none
    | _, some (_, o) => if o.ord = .sc then some o.scope else none
    | _, _ => none
  match decode w with
  | .ok (.sow a _) =>
    if bitAt x.sowst 63 && x.poisLanes x.fmask [a, a + 1] == 0 then (lowest x.fmask).bind (fun l => match decode (sowWord x a l) with
      | .ok i => ofI i
      | .error _ => none)
    else none
  | .ok i => ofI i
  | .error _ => none
/-- `eret`. An `.sc` atomic that it completes for poisoned data is a new SC operation, for which it waits (R249). -/
def execEret (s : State) : Host.Outcome State Fault Refusal :=
  strandWith .eret 0 [] [] allLanes false (fun k s => do
    let x := s.slot k
    ensure x.th 0x01
    let code := wf x.cause 0 8
    let p0 := if bitAt x.cause 8 then x.preg 0 else x.shadow0
    let sc? : Option Scope := match s.codeWord k p0 x.epc.toNat with
      | .ok (w, _) => x.scWord w.toNat
      | .error _ => none
    match x.sc with
    | some c => if s.gtcAt k < c.tick then parkOn (.tick c.tick) else ((s.watch k).modSlot k (fun y => { y with sc := none, park := none })).eretStep k
    | none =>
      match (if code = 0x10 ∨ code = 0x11 then sc? else none) with
      | some sc => .error (.parkWith ((s.releasePart k .sc sc).modSlot k (fun y => { y with sc := some ⟨s.scDone k, [], []⟩ })) (.tick (s.scDone k)))
      | none => (s.watch k).eretStep k) s

/-! ### TLB invalidation (R116, R278) -/

/-- The pages of commands not started whose translation an invalidation reaches, at any page size, no longer stand (R116, R469). -/
def Cmd.unstand (c : Cmd) (p : Nat) (hit : Tlb → Bool) : Cmd :=
  if c.started || c.part != p then c
  else { c with pages := c.pages.map (fun q => if [0, 1, 2].any (fun l => hit ⟨p, c.asid, q.vp / 2 ^ (10 * l), l, 0⟩) then { q with ok := false } else q) }
/-- Drops TLB entries of a partition on every die. -/
def State.tlbDrop (s : State) (p : Nat) (hit : Tlb → Bool) : State :=
  let keep (t : Tlb) : Bool := !(t.part == p && hit t)
  let s1 := (mkeys s.cores).foldl (fun t c => t.modCore c (fun x => { x with itlb := x.itlb.filter keep, dtlb := x.dtlb.filter keep })) s
  (mkeys s1.clusters).foldl (fun t c => t.modCluster c (fun x =>
    { x with l2tlb := x.l2tlb.filter keep, cmds := x.cmds.map (fun m => m.unstand p hit), pend := x.pend.map (fun m => m.unstand p hit) })) s1
/-- `tlb.inv`: unused bits must be zero. -/
def tlbI (i : Instr) (a b : Nat) (bad : W64 → W64 → Bool) (hit : W64 → W64 → Tlb → Bool) (s : State) : Host.Outcome State Fault Refusal :=
  sysI i [] (fun k s => do
    let (vs, s1) ← rdScs k 1 [a, b] s
    ensure (!bad (lrw vs 0) (lrw vs 1)) 0x01
    pure (s1.tlbDrop (s.partOfSlot k) (hit (lrw vs 0) (lrw vs 1)))) s
def execTlbInvPage (a b : Nat) (s : State) : Host.Outcome State Fault Refusal :=
  tlbI (.tlbInvPage a b) a b (fun x y => wf x 56 8 != 0 || wf y 12 52 != 0) (fun x y t => t.hit t.part (wf y 0 12) x.toNat) s
def execTlbInvSpace (a b : Nat) (s : State) : Host.Outcome State Fault Refusal :=
  tlbI (.tlbInvSpace a b) a b (fun x y => x != 0 || wf y 12 52 != 0) (fun _ y t => t.asid == wf y 0 12) s
def execTlbInvAll (a b : Nat) (s : State) : Host.Outcome State Fault Refusal :=
  tlbI (.tlbInvAll a b) a b (fun x y => x != 0 || y != 0) (fun _ _ _ => true) s

/-! ### Hothouse lines (R132, R279) -/

/-- Each line of a physical range reads zero; `present` says whether it stays in its location. -/
def State.zeroLines (s : State) (k pa n : Nat) (present : Bool) : State :=
  (List.range (n / 128)).foldl (fun t j =>
    let a := pa + 128 * j
    let t1 := t.cwrite (t.partOf (clOfSlot k)) (dieOfSlot k) a 128 0
    if present then t1
    else t1.modDie (t1.homeOf a) (fun x => { x with hotLines := x.hotLines.filter (· != (a - hotBase) / 65536 % 512 * 512 + a % 65536 / 128) })) s
/-- `hh.dsc` and `hh.zero`: checks in the order of R117, then every line of the range. -/
def hotI (i : Instr) (a b : Nat) (present : Bool) (s : State) : Host.Outcome State Fault Refusal :=
  scalarI i [] (fun k s => do
    let (n, s1) ← rdSc k 1 b s
    let x := s.slot k
    let p := x.preg a
    if pSP p then raise 0x04
    match checkAccess p 0 n.toNat 2 with
    | none => raise 0x04
    | some va =>
      ensure (va % 128 == 0 && n.toNat % 128 == 0) 0x05
      let (rs, s2) ← s1.rangePages k (accW x.priv) 1 (fun q => q.ty == 2) va n.toNat (n.toNat / 65536 + 2)
      let s3 := (s2.l1In (coreOf k) rs).foldl (fun t y => t.invSector (coreOf k) y) s2
      pure (rs.foldl (fun t r => t.zeroLines k r.1 r.2.1 present) s3)) s
def execHhDsc (a b : Nat) (s : State) : Host.Outcome State Fault Refusal := hotI (.hhDsc a b) a b false s
def execHhZero (a b : Nat) (s : State) : Host.Outcome State Fault Refusal := hotI (.hhZero a b) a b true s

end Sys2Proof.Machine
end

