-- ==== Sys2Proof/Machine/Engines.lean ====
section
/-! DEFINITION. The cluster engine: copy commands, their acceptance, start and completion, furrows, and the trellis (R281 to R302, R467 to R472). -/

namespace Sys2Proof.Machine

/-! ### The issuing block and its local stores (R282) -/

/-- Is core `ci` of the cluster in the block of the strand in slot `k`. -/
def State.inBlock (s : State) (k ci : Nat) : Bool :=
  let c := clOfSlot k * 16 + ci
  match s.myGang k with
  | some g => g.cores.contains c
  | none => c == coreOf k

/-! ### Footprints and hazards (R152, R288, R290) -/

/-- The 64 KiB pages of [va, va+n) and the bytes in each. -/
def pageSplit (va n : Nat) : List (Nat × Nat) :=
  if n = 0 then [] else (List.range ((va + n - 1) / 65536 - va / 65536 + 1)).map (fun i =>
    let p := va / 65536 + i
    let lo := Nat.max va (p * 65536)
    (lo, Nat.min (va + n) (p * 65536 + 65536) - lo))
/-- Virtual address of row `j`. -/
def Cmd.row (c : Cmd) (j : Nat) : Nat := (c.base + j * c.mstr) % 2 ^ 56
def Cmd.page (c : Cmd) (va : Nat) : Option CPage := c.pages.find? (fun p => p.vp == va / 65536)
/-- Physical address of a byte, when its page has one. -/
def Cmd.phys (c : Cmd) (va : Nat) : Option Nat := (c.page va).bind (fun p => p.pa.map (· + va % 65536))
/-- First virtual address of the footprint on a page. -/
def Cmd.firstOn (c : Cmd) (vp : Nat) : Nat :=
  ((List.range c.rows).findSome? (fun j =>
    let r := c.row j
    if r < (vp + 1) * 65536 ∧ vp * 65536 < r + c.len then some (Nat.max r (vp * 65536)) else none)).getD (vp * 65536)
/-- Physical ranges of the memory side. -/
def Cmd.memRanges (c : Cmd) : List (Nat × Nat × Nat) :=
  if c.dir = .ll then []
  else (List.range c.rows).flatMap (fun j => (pageSplit (c.row j) c.len).filterMap (fun e => (c.phys e.1).map (fun pa => (0, pa, e.2))))
/-- Bytes on the local-store side: bit planes at a `.bp` destination. -/
def Cmd.lsBytes (c : Cmd) (dst : Bool) : Nat := if dst && c.es != 0 then c.prec * c.rows * (c.len / c.es) / 8 else c.rows * c.len
def Cmd.lsRanges (c : Cmd) (dst : Bool) : List (Nat × Nat × Nat) :=
  match if dst then c.dst else c.src with
  | some (.ls core off) => [(core + 1, off, c.lsBytes dst)]
  | _ => []
def Cmd.reads (c : Cmd) : List (Nat × Nat × Nat) := (if c.dir = .lm then [] else c.memRanges) ++ c.lsRanges false
def Cmd.writes (c : Cmd) : List (Nat × Nat × Nat) := (if c.dir = .lm then c.memRanges else []) ++ c.lsRanges true
def meet (a b : List (Nat × Nat × Nat)) : Bool :=
  a.any (fun x => b.any (fun y => x.1 == y.1 && decide (x.2.1 < y.2.1 + y.2.2) && decide (y.2.1 < x.2.1 + x.2.2)))
/-- Read-after-write, write-after-read or write-after-write. -/
def conflict (r w : List (Nat × Nat × Nat)) (old : Cmd) : Bool := meet r old.writes || meet w old.reads || meet w old.writes
/-- No earlier incomplete command conflicts with a command. -/
def Cluster.clear (x : Cluster) (c : Cmd) : Bool :=
  x.cmds.all (fun d => decide (c.seq ≤ d.seq) || !conflict c.reads c.writes d) &&
  x.matHaz.all (fun h => decide (c.seq < h.1) || !(meet c.reads h.2.2 || meet c.writes h.2.1 || meet c.writes h.2.2))

/-! ### Issue checks of `cpy` (R284 to R287) -/

/-- A local-store descriptor that breaks its layout. -/
def descBad (v : W64) (bp : Bool) : Bool :=
  wf v 32 32 != 0 || wf v 25 2 != 0 || (!bp && wf v 22 3 != 0) || (if bitAt v 31 then wf v 0 22 != 0 else wf v 27 4 != 0)
def sideOf (k : Nat) (v : W64) : Side := if bitAt v 31 then .furrow (wf v 27 4) none else .ls (clOfSlot k * 16 + wf v 18 4) (wf v 0 18)
/-- The resource checks of one local-store side of `n` bytes. -/
def State.checkSide (s : State) (k n : Nat) (v : W64) : Res Unit :=
  let cl := clOfSlot k
  if bitAt v 31 then
    let f := wf v 27 4
    match s.furrow? cl f with
    | some y => ensureV (y.owner == s.ownerOf k && decide (n ≤ 64 * y.ssz)) 0x14 (natW f)
    | none => raiseV 0x14 (natW f)
  else ensureV (s.inBlock k (wf v 18 4) && decide (wf v 0 18 + n ≤ 262144)) 0x14 v
/-- Translates the pages of a list. -/
def State.xlatePages (s : State) (k : Nat) (acc : Acc) (kind : Nat) : List Nat → List CPage → Res (List CPage × State)
  | [], ps => .ok (ps, s)
  | va :: t, ps =>
    if ps.any (fun p => p.vp == va / 65536) then s.xlatePages k acc kind t ps
    else do
      let (x, s1) ← s.xlateS k acc kind va
      s1.xlatePages k acc kind t (ps ++ [⟨va / 65536, some (x.pa / 65536 * 65536), x.direct, true⟩])
def cpyEs : Option Ty → Nat
  | some ty => ty.width / 8
  | none => 0
/-- The checks of R287 in their order; the command that passes them. -/
def State.cpyCmd (s : State) (k : Nat) (o : Cpy) (dir : Dir) (va vb vc : W64) : Res (Cmd × State) := do
  let x := s.slot k
  let cl := clOfSlot k
  let p := x.preg o.a
  let rows := wf vc 20 8 + 1
  let len := wf vc 0 19
  let mstr := wf vc 32 32
  let mr := decide (dir = .mr)
  let ll := decide (dir = .ll)
  let bp := o.bp.isSome && dir != .lm
  -- 1: layouts
  if mr then
    ensureV (wf vb 9 55 == 0 && !(bitAt vb 7 && x.width != 64) && (bitAt vb 8 || (decide (1 ≤ wf vb 0 7) && decide (wf vb 0 7 ≤ 59) && wf vb 0 7 != o.d))) 0x01 vb
  else ensureV (!descBad vb bp) 0x01 vb
  ensureV (!bitAt vc 19 && decide (8 ≤ len) && decide (len ≤ 262144) && !(ll && mstr != 0)) 0x01 vc
  ensureV (!(mr && (rows != 1 || mstr != 0 || len != (if bitAt vb 8 then 128 else 8)))) 0x01 vc
  ensureV (!(ll && descBad va false)) 0x01 va
  ensureV (!(mr && bitAt vb 8 && decide (x.budget ≤ wf vb 0 7))) 0x08 vb
  -- 2: alignment
  ensureV (ll || pCur p % 8 == 0) 0x05 (natW (pCur p))
  ensureV (mstr % 8 == 0) 0x05 vc
  ensureV (!ll || wf va 0 3 == 0) 0x05 va
  ensureV (mr || wf vb 0 3 == 0) 0x05 vb
  ensureV (len % 8 == 0) 0x05 vc
  -- 3: the slot of `.bp`
  let slot := lrw x.fmt (wf vb 22 3)
  let es := if bp then cpyEs o.bp else 0
  let prec := wf slot 4 5
  ensure (!bp || ((wf slot 0 4 == 0 || wf slot 0 4 == 1 || wf slot 0 4 == 3) && prec != 0 && len % (128 * es) == 0)) 0x15
  -- 4: resources and local-store footprints
  let n := rows * len
  let nd := if bp then prec * rows * (len / es) / 8 else n
  if ll then s.checkSide k n va
  if !mr then s.checkSide k (if dir = .lm then n else nd) vb
  ensureV (!(ll && !bitAt va 31 && !bitAt vb 31 && meet [(wf va 18 4, wf va 0 18, n)] [(wf vb 18 4, wf vb 0 18, nd)])) 0x14 vb
  ensureV (!(dir == .lm && rows != 1 && decide (mstr < len))) 0x14 vc
  ensureV (o.on.all (fun t => s.ownsTerm cl t (s.ownerOf k))) 0x14 (natW (o.on.getD 0))
  -- 5: CheckAccess of every row
  let perm := if dir = .lm then 2 else 1
  if !ll then
    match (List.range rows).find? (fun j : Nat => pSP p || (checkAccess p (((j * mstr : Nat)) : Int) len perm).isNone) with
    | some j => raiseV 0x04 (natW (pCur p + j * mstr))
    | none => pure ()
  -- 6: translation of every page
  let vas := if ll then [] else (List.range rows).flatMap (fun j => (pageSplit ((pCur p + j * mstr) % 2 ^ 56) len).map (·.1))
  let (pages, s1) ← s.xlatePages k (if dir = .lm then accW x.priv else accR x.priv) (if dir = .lm then 1 else 0) vas []
  pure ({ ticket := 0, seq := 0, numReg := o.d, dir := dir, slot := k, gen := x.gen, owner := s.ownerOf k, part := s.partOfSlot k, asid := x.asid,
          user := x.priv == 0, base := pCur p, mstr := mstr, rows := rows, len := len, tag := wf vc 28 4
          src := if ll then some (sideOf k va) else if dir = .lm then some (sideOf k vb) else none
          dst := if dir = .ml ∨ ll then some (sideOf k vb) else none
          reg := if mr then some (bitAt vb 8, bitAt vb 7, wf vb 0 7) else none
          mc := o.mc, es := es, prec := prec, fslot := if bp then wf vb 22 3 else 0, term := o.on
          startable := false, started := false, grp := none, moved := false, pages := pages, err := none }, s1)

/-! ### Acceptance (R19, R288, R291) -/

/-- Where the strand that issued a command stands: a task keeps its name when it is pre-empted and reloaded into another slot (R46, R289). -/
def State.cmdPlace (s : State) (c : Cmd) : Place :=
  match c.owner with
  | .task core i g => s.taskPlace core i g
  | _ => s.strandAt c.slot c.gen false
/-- Lanes of a vector target: those of the named half in the slices that the strand holds. -/
def Slot.fillLanes (x : Slot) (h : Bool) : List Nat := ((List.range 32).map (· + if h then 32 else 0)).filter (fun l => x.slices / 2 ^ (l / 8) % 2 == 1)
/-- Acceptance makes the target of `cpy.mr` empty: a vector target in every lane of every slice that the strand holds, both halves at width 64. -/
def Slot.emptyTarget (x : Slot) : Option (Bool × Bool × Nat) → Slot
  | some (true, _, n) => (x.fillLanes false ++ x.fillLanes true).foldl (fun y l => y.setVReg n l { y.vreg n l with full := false }) x
  | some (false, _, n) => x.setSReg n { x.sreg n with full := false }
  | none => x
/-- Multicast commands that the combining node merges: everything but core, destination offset and number agrees. -/
def Cmd.identical (a b : Cmd) : Bool :=
  a.dir == b.dir && a.memRanges == b.memRanges && a.rows == b.rows && a.len == b.len && a.es == b.es && a.fslot == b.fslot && a.prec == b.prec &&
  a.tag == b.tag && a.term == b.term && a.part == b.part
/-- A multicast command joins an open window of another core's identical command, or opens one. -/
def Cluster.combine (x : Cluster) (c : Cmd) (cyc : Nat) : Cluster :=
  if !c.mc then x
  else match x.wins.find? (fun w => x.cmds.any (fun d => d.seq == w.first && d.identical c && coreOf d.slot != coreOf c.slot)) with
    | some w => { x with wins := x.wins.map (fun v => if v.first = w.first then { v with seqs := v.seqs ++ [c.seq] } else v) }
    | none => { x with wins := x.wins ++ [⟨c.seq, [c.seq], cyc⟩] }
/-- Can the engine take a command: fewer than 64 places are taken (R152, R318). -/
def Cluster.room (x : Cluster) : Bool := decide (x.cmds.length + b2n x.matHaz.isSome < 64)
/-- The engine takes a command: its number, the window, and the emptied target. -/
def State.acceptCmd (s : State) (cl : Nat) (c : Cmd) : W32 × State :=
  let x := s.cluster cl
  let d := { c with seq := x.nextSeq }
  let y : Cluster := { x with nextSeq := x.nextSeq + 1, cmds := x.cmds ++ [d] }
  let s1 := s.setCluster cl ((y.combine d s.cycle).settle.latch)
  (BitVec.ofNat 32 x.nextSeq, s1.modPlace (s1.cmdPlace c) (fun z => z.emptyTarget c.reg))
/-- A copy command: its checks, the write-back of the issuing core's L1 (R151), and acceptance, or the wait for it. -/
def cpyI (i : Instr) (o : Cpy) (dir : Dir) (s : State) : Host.Outcome State Fault Refusal :=
  scalarI i [o.d] (fun k s => do
    let cl := clOfSlot k
    let (va, s0) ← if dir = .ll then rdSc k 1 o.a s else pure (0, s)
    let (vb, s1) ← rdSc k 1 o.b s0
    let (vc, s2) ← rdSc k 1 o.c s1
    let (c, s3) ← s2.cpyCmd k o dir va vb vc
    let s4 := s3.wbAllL1 (coreOf k)
    let x := s4.cluster cl
    if x.room && x.pend.isEmpty then
      let (n, s5) := s4.acceptCmd cl c
      wrSc k o.d (natW n.toNat) s5
    else
      let t := x.nextTicket
      .error (.parkWith (s4.setCluster cl { x with nextTicket := t + 1, pend := x.pend ++ [{ c with ticket := t }] }) (.accept t))) s
def execCpyMl (o : Cpy) (s : State) : Host.Outcome State Fault Refusal := cpyI (.cpyMl o) o .ml s
def execCpyLm (o : Cpy) (s : State) : Host.Outcome State Fault Refusal := cpyI (.cpyLm o) o .lm s
def execCpyLl (o : Cpy) (s : State) : Host.Outcome State Fault Refusal := cpyI (.cpyLl o) o .ll s
def execCpyMr (o : Cpy) (s : State) : Host.Outcome State Fault Refusal := cpyI (.cpyMr o) o .mr s
/-- Event COMMAND_ACCEPTANCE (R288): the oldest waiting command is taken. Its strand, resident or spilled (R46), takes the number when it goes on. -/
def execCommandAcceptance (cl : Nat) (s : State) : Host.Outcome State Fault Refusal :=
  let x := s.cluster cl
  match x.pend with
  | [] => .next s
  | c :: t =>
    if !x.room then .next s
    else
      let (n, s1) := (s.setCluster cl { x with pend := t }).acceptCmd cl c
      .next (s1.modPlace (s1.cmdPlace c) (fun z => { z with park := z.park.map (fun p => { p with on := .accepted c.numReg n.toNat }) }))

/-! ### Start (R289, R297, R301, R469) -/

/-- Why a page of a command cannot be used (R467): 1 invalid, 2 protection, 3 hothouse reservation, 4 no fabric decoder entry. -/
def errOf (c : Nat) : Nat := if c % 256 = 0x07 then 2 else if c % 256 = 0x12 ∨ c % 256 = 0x13 then 3 else 1
def State.noFabric (s : State) (d pa : Nat) : Bool :=
  match regionOf pa with
  | .fabric => (s.fabDecode d pa).isNone
  | _ => false
/-- Translates again the pages whose translation was invalidated after acceptance; a failing page has no address, and the first failure is kept. -/
def State.startPages (s : State) (cl : Nat) (c : Cmd) : Cmd × State :=
  let acc := if c.dir = .lm then accW (if c.user then 0 else 1) else accR (if c.user then 0 else 1)
  let d := dieOfCl cl
  c.pages.foldl (fun (r : Cmd × State) p =>
    let (c, s) := r
    let (q, e, s1) := if p.ok then (p, 0, s) else
      match s.walk d c.part c.asid (p.vp * 65536) acc with
      | .ok (_, _, x, s1) => ({ p with pa := some (x.pa / 65536 * 65536), direct := x.direct, ok := true }, 0, s1)
      | .error (e, s1) => ({ p with pa := none, ok := true }, errOf e, s1)
    let e := if e = 0 ∧ q.pa.any (s1.noFabric d) then 4 else e
    let q := if e = 0 then { q with pa := q.pa.map s1.redirect } else { q with pa := none }
    ({ c with pages := c.pages.map (fun u => if u.vp = q.vp then q else u), err := if e ≠ 0 ∧ c.err.isNone then some (c.firstOn q.vp, e) else c.err }, s1)) (c, s)
/-- May a command start, its furrow sides apart: its term, the order of its term, its window, and the hazards. -/
def Cluster.ready (x : Cluster) (c : Cmd) : Bool :=
  !c.started && c.startable && x.clear c && x.wins.all (fun w => !w.seqs.contains c.seq) &&
  (c.term.isNone || x.cmds.all (fun d => d.started || d.term != c.term || decide (c.seq ≤ d.seq)))
/-- Puts a command at the end of a furrow's queue, once. -/
def enq (q : List Waiter) (w : Waiter) : List Waiter := if q.contains w then q else q ++ [w]
def State.queueAt (s : State) (cl : Nat) (src : Bool) (f : Nat) (w : Waiter) : State :=
  s.modCluster cl (fun x => match x.furrows.find? (fun e => e.1 == f) with
    | some (_, y) => { x with furrows := mput x.furrows f (if src then { y with takq := enq y.takq w } else { y with resq := enq y.resq w }) }
    | none => x)
def State.turnAt (s : State) (cl : Nat) (src : Bool) (f : Nat) (w : Waiter) : Bool :=
  let y := mget Furrow.zero (s.cluster cl).furrows f
  if src then decide (y.filled ≠ 0) && s.headWaiter cl y.takq == some w else decide (y.free ≠ 0) && s.headWaiter cl y.resq == some w
/-- Takes or reserves the next slot of a furrow: its index. -/
def State.slotAt (s : State) (cl : Nat) (src : Bool) (f : Nat) (w : Waiter) : Nat × State :=
  let y := mget Furrow.zero (s.cluster cl).furrows f
  let put (z : Furrow) : State := s.modCluster cl (fun x => { x with furrows := mput x.furrows f z })
  if src then (y.tak, put { y with tak := y.tak + 1, takq := y.takq.filter (· != w) }) else (y.res, put { y with res := y.res + 1, resq := y.resq.filter (· != w) })
/-- The commands that start together: the merged group, or one. -/
def Cluster.group (x : Cluster) (c : Cmd) : List Cmd := if c.grp.isNone then [c] else x.cmds.filter (fun d => d.grp == c.grp)
def sideSlot (s : State) (cl : Nat) (src : Bool) (w : Waiter) : Option Side → Option Side × State
  | some (.furrow f _) => let (i, t) := s.slotAt cl src f w; (some (.furrow f (some i)), t)
  | o => (o, s)
/-- Starts one command: its furrow slots, and its translations. -/
def State.startCmd (s : State) (cl : Nat) (c : Cmd) : State :=
  let w := Waiter.cmd c.seq
  let (src, s1) := sideSlot s cl true w c.src
  let (dst, s2) := sideSlot s1 cl false w c.dst
  let (d, s3) := s2.startPages cl { c with src := src, dst := dst, started := true }
  s3.modCluster cl (fun x => { x with cmds := x.cmds.map (fun e => if e.seq = c.seq then d else e) })
def State.sidesReady (s : State) (cl : Nat) (c : Cmd) : Bool :=
  let w := Waiter.cmd c.seq
  ((c.src.bind Side.furrow?).all (fun f => s.turnAt cl true f w)) && ((c.dst.bind Side.furrow?).all (fun f => s.turnAt cl false f w))
/-- Event COMMAND_START (R289): a command whose hazards and term allow it arrives at its furrows, and starts when it has their slots. -/
def State.tryStart (s : State) (cl seq : Nat) : State :=
  match (s.cluster cl).cmds.find? (fun c => c.seq == seq) with
  | none => s
  | some c =>
    let g := (s.cluster cl).group c
    if !g.all (s.cluster cl).ready then s
    else
      let s1 := g.foldl (fun t d =>
        let t1 := match d.src.bind Side.furrow? with
          | some f => t.queueAt cl true f (.cmd d.seq)
          | none => t
        match d.dst.bind Side.furrow? with
        | some f => t1.queueAt cl false f (.cmd d.seq)
        | none => t1) s
      (g.foldl (fun o d => o.bind (fun t => if t.sidesReady cl d then some (t.startCmd cl d) else none)) (some s1)).getD s1
def execCommandStart (cl seq : Nat) (s : State) : Host.Outcome State Fault Refusal := .next (s.tryStart cl seq)

/-! ### Data movement (R289, R290, R438) -/

/-- Reads an 8-byte word of the memory side: value, poison, state. A failing page reads as poison (R469). -/
def State.engRead (s : State) (cl : Nat) (c : Cmd) (va : Nat) : W64 × Bool × State :=
  match c.phys va with
  | none => (0, true, s)
  | some pa =>
    let (st, v, s1) := s.cread (if c.part < 16 then some c.part else none) (dieOfCl cl) (s.redirect pa) 8
    (if st = 0 then natW v else 0, st != 0, s1)
/-- Writes an 8-byte word of the memory side; a write to a failing page is dropped. -/
def State.engWrite (s : State) (cl : Nat) (c : Cmd) (va : Nat) (v : W64) (pois : Bool) : State :=
  match c.phys va with
  | none => s
  | some pa =>
    let pa := s.redirect pa
    let s1 := s.cwrite (if c.part < 16 then some c.part else none) (dieOfCl cl) pa 8 v.toNat
    if pois then s1.poisonSector (pa / 64) else s1
/-- Core and offset of a local-store side. -/
def State.sidePlace (s : State) (cl : Nat) : Option Side → Nat × Nat
  | some (.ls core off) => (core, off)
  | some (.furrow f ix) =>
    let y := mget Furrow.zero (s.cluster cl).furrows f
    (y.core, y.offset (ix.getD 0))
  | none => (0, 0)
/-- Writes a local-store word, with its poison. The engine's fill of an empty word is acquired where it lands (R153). -/
def State.lsPutWord (s : State) (core off : Nat) (v : W64) (pois : Bool) : State :=
  let s1 := (s.lsWrite core off 8 v.toNat).setPoisW core (off / 8) pois
  if s.wordEmpty core (off / 8) then s1.acqL1 core else s1
/-- Word `i` of row `j` of the source. -/
def State.srcWord (s : State) (cl : Nat) (c : Cmd) (j i : Nat) : W64 × Bool × State :=
  if c.dir = .ml ∨ c.dir = .mr then s.engRead cl c (c.row j + 8 * i)
  else
    let (core, off) := s.sidePlace cl c.src
    let w := (off + j * c.len) / 8 + i
    (s.lsWord core w, s.wordPois core w, (s.findErr (16 * core) [.lsw core w]).2)
/-- The words of row `j`, with their poison. -/
def State.srcRow (s : State) (cl : Nat) (c : Cmd) (j : Nat) : List (W64 × Bool) × State :=
  (List.range (c.len / 8)).foldl (fun r i =>
    let (v, p, t) := r.2.srcWord cl c j i
    (r.1 ++ [(v, p)], t)) ([], s)
def rowNat (ws : List (W64 × Bool)) : Nat := ws.foldr (fun w a => w.1.toNat + 2 ^ 64 * a) 0
/-- Bit plane `b` of a row: 64 elements a word; a word that holds a bit of a poisoned element is poisoned. -/
def State.putPlanes (s : State) (core off : Nat) (c : Cmd) (j : Nat) (ws : List (W64 × Bool)) : State :=
  let kk := c.len / c.es
  let x := rowNat ws
  let bit (b e : Nat) : Nat := wrap 16 (toSigned (8 * c.es) (x / 2 ^ (8 * c.es * e))) / 2 ^ b % 2
  (List.range c.prec).foldl (fun t b =>
    (List.range (kk / 64)).foldl (fun u i =>
      let v := (List.range 64).foldl (fun a e => a + bit b (64 * i + e) * 2 ^ e) 0
      let ps := ((ws.drop (8 * c.es * i)).take (8 * c.es)).any (·.2)
      u.lsPutWord core (off + b * (c.rows * kk / 8) + j * (kk / 8) + 8 * i) (natW v) ps) t) s
/-- Delivers row `j` of a command to its destination. -/
def State.putRow (s : State) (cl : Nat) (c : Cmd) (j : Nat) (ws : List (W64 × Bool)) : State :=
  let (core, off) := s.sidePlace cl c.dst
  if c.es ≠ 0 then s.putPlanes core off c j ws
  else (List.range ws.length).foldl (fun u i =>
    let w := nth (0, false) ws i
    if c.dir = .lm then u.engWrite cl c (c.row j + 8 * i) w.1 w.2 else u.lsPutWord core (off + j * c.len + 8 * i) w.1 w.2) s
/-- Moves every row: one fetch by `c`, delivered to the destination of every command of `g` (R19). -/
def State.moveRows (s : State) (cl : Nat) (c : Cmd) (g : List Cmd) : State :=
  (List.range c.rows).foldl (fun t j =>
    let (ws, t1) := t.srcRow cl c j
    g.foldl (fun u d => u.putRow cl d j ws) t1) s
/-- Is the target of a register fill empty, so that the fill does not wait (R51). -/
def State.fillReady (s : State) (c : Cmd) : Bool :=
  match c.reg with
  | some (false, _, n) => s.atPlace (s.cmdPlace c) (fun x => !(x.sreg n).full)
  | some (true, h, n) => s.atPlace (s.cmdPlace c) (fun x => (x.fillLanes h).all (fun l => !(x.vreg n l).full))
  | none => true
/-- Writes the lanes of a vector target, two a word. -/
def Slot.fillVec (x : Slot) (h : Bool) (n : Nat) (ws : List (W64 × Bool)) : Slot :=
  (x.fillLanes h).foldl (fun y l =>
    let w := nth (0, false) ws (l % 32 / 2)
    y.setVReg n l ⟨BitVec.ofNat 32 (w.1.toNat / 2 ^ (32 * (l % 2))), true, w.2⟩) x
/-- The fill of `cpy.mr`; the acquire of the read that consumes it is made where it lands (R153). -/
def State.engFill (s : State) (cl : Nat) (c : Cmd) : State :=
  let (ws, s1) := s.srcRow cl c 0
  let put (f : Slot → Slot) : State := (s1.fillAt (s1.cmdPlace c) (dieOfCl cl) c.part f).acqL1 (coreOf c.slot)
  match c.reg with
  | some (false, _, n) =>
    let w := nth (0, false) ws 0
    put (fun x => x.fill n w.1 w.2)
  | some (true, h, n) => put (fun x => x.fillVec h n ws)
  | none => s1

/-! ### Completion (R151, R292, R297, R469) -/

/-- A completed command leaves the engine: furrows, SEQ0, its pulse, and its error event. -/
def State.finishCmd (s : State) (cl : Nat) (c : Cmd) : State :=
  let s1 := s.modCluster cl (fun x => x.without (fun d => d.seq == c.seq))
  let s2 := match c.dst with
    | some (.furrow f (some i)) => s1.publish cl f i
    | _ => s1
  let s3 := match c.src with
    | some (.furrow f (some i)) => s2.giveBack cl f i
    | _ => s2
  let s4 := if c.tag = 0 then s3 else s3.pulse cl 0 c.tag 1 c.owner
  let s5 := match c.err with
    | some (va, r) => s4.clEvent cl c.part 0x60 c.owner.num (natW va) (natW (r * 2 ^ 32 + c.seq % 2 ^ 32))
    | none => s4
  s5.reapAll cl
/-- Runs the data motion of a command as its gang's agent, for the gang number of the events that it writes (R382). -/
def State.onBehalf (s : State) (c : Cmd) (f : State → State) : State :=
  match c.owner with
  | .gang g => if (s.slot c.slot).job.gangOf = some g then
      { f { s with cur := .slot c.slot, uio := s.uio.filter (fun e => e.1 != .slot c.slot) } with cur := s.cur, uio := s.uio } else f s
  | .task .. | .strand .. => f s
/-- The data of a command, and of every command merged with it, reaches its destinations. -/
def State.moveData (s : State) (cl : Nat) (c : Cmd) : State :=
  if c.moved then s
  else if c.dir = .mr then s.onBehalf c (fun t => t.engFill cl c)
  else
    let g := (s.cluster cl).group c
    let s1 := s.onBehalf c (fun t => t.moveRows cl (g.headD c) g)
    s1.modCluster cl (fun x => { x with cmds := x.cmds.map (fun d => if g.any (fun e => e.seq == d.seq) then { d with moved := true } else d) })
/-- Event COMMAND_COMPLETION (R292). -/
def State.completeCmd (s : State) (cl seq : Nat) : State :=
  match (s.cluster cl).cmds.find? (fun c => c.seq == seq) with
  | none => s
  | some c => if !c.started || !s.fillReady c then s else (s.moveData cl c).finishCmd cl c
def execCommandCompletion (cl seq : Nat) (s : State) : Host.Outcome State Fault Refusal := .next (s.completeCmd cl seq)
/-- Event COMBINING_WINDOW_CLOSE (R19): the oldest window closes, and its commands are fetched as one. -/
def execCombiningWindowClose (cl : Nat) (s : State) : Host.Outcome State Fault Refusal :=
  .next (s.modCluster cl (fun x => match x.wins with
    | [] => x
    | w :: t => { x with wins := t, cmds := x.cmds.map (fun c => if w.seqs.contains c.seq ∧ 2 ≤ w.seqs.length then { c with grp := some w.first } else c) }))
/-- Event ENGINE_STATE_ERROR (R472): started commands complete, the gangs of the cluster are aborted, and the engines are reinitialised. -/
def execEngineStateError (cl : Nat) (s : State) : Host.Outcome State Fault Refusal :=
  let started := ((s.cluster cl).cmds.filter (·.started)).map (·.seq)
  let s1 := started.foldl (fun t n => t.completeCmd cl n) s
  let gs := (s.gangs.filter (fun g => !g.retired && g.clusters.contains cl)).map (·.id)
  let s2 := gs.foldl (fun t g => t.abortGang g) s1
  let s3 := s2.discard cl (fun _ => true)
  let s4 := s3.modCluster cl (fun x =>
    { x with furrows := [], counters := [], terms := [], lease := none, wins := [], pend := [], cmds := [], seq1 := 0, seqPhase := .idle, seqClause := none
             loops := [], acc := [], folds := [], halves := [], ka := 1, kb := 1, rowp := BitVec.allOnes 128, colp := BitVec.allOnes 128, nbars := [], matHaz := none })
  .next ((s4.modCluster cl Cluster.settle).logTo (dieOfCl cl) (s.partOf cl) (evEntry (srcOfCl cl 16) 0x62 1 3 0 0))

/-! ### `cpy.wait` (R293) -/

def execCpyWait (a : Nat) (s : State) : Host.Outcome State Fault Refusal :=
  scalarI (.cpyWait a) [] (fun k s => do
    let (v, s1) ← rdSc k 1 a s
    let n := BitVec.ofNat 32 v.toNat
    if covers (s.cluster (clOfSlot k)).seq0 n then pure (s1.acqL1 (coreOf k)) else parkOn (.seq0 n)) s

/-! ### Furrows (R294 to R298) -/

/-- The furrow that the strand's block owns, or a violation with the furrow's number. -/
def State.myFurrow (s : State) (k f : Nat) : Res Furrow :=
  match s.furrow? (clOfSlot k) f with
  | some y => if y.owner = s.ownerOf k then .ok y else raiseV 0x14 (natW f)
  | none => raiseV 0x14 (natW f)
/-- `fw.take` and `fw.res`: the next slot in turn, as a descriptor. -/
def furrowSlot (i : Instr) (src : Bool) (d f : Nat) (s : State) : Host.Outcome State Fault Refusal :=
  scalarI i [d] (fun k s => do
    let cl := clOfSlot k
    let y ← s.myFurrow k f
    let w := Waiter.strand k (s.slot k).gen
    let q := if src then y.takq else y.resq
    let first := ((s.headWaiter cl q).getD w) == w
    if first && (if src then y.filled else y.free) != 0 then
      let (ix, s1) := s.slotAt cl src f w
      wrSc k d (natW (y.core % 16 * 2 ^ 18 + y.offset ix)) (s1.acqL1 (coreOf k))
    else .error (.parkWith (s.queueAt cl src f w) (if src then .furrowFilled f else .furrowFree f))) s
def execFwTake (d f : Nat) (s : State) : Host.Outcome State Fault Refusal := furrowSlot (.fwTake d f) true d f s
def execFwRes (d f : Nat) (s : State) : Host.Outcome State Fault Refusal := furrowSlot (.fwRes d f) false d f s
/-- The index of the slot that a descriptor names among the indices of [lo, hi) without a mark. -/
def Furrow.named (y : Furrow) (v : W64) (lo hi : Nat) (marks : List Nat) : Option Nat :=
  if wf v 22 42 ≠ 0 ∨ wf v 18 4 ≠ y.core % 16 then none
  else ((List.range (hi - lo)).map (· + lo)).find? (fun i => y.offset i == wf v 0 18 && !marks.contains i)
def execFwGive (f a : Nat) (s : State) : Host.Outcome State Fault Refusal :=
  scalarI (.fwGive f a) [] (fun k s => do
    let (v, s1) ← rdSc k 1 a s
    ensureV (!descBad v false) 0x01 v
    let y ← s1.myFurrow k f
    match y.named v y.giv y.tak y.returned with
    | none => raiseV 0x14 v
    | some i => pure ((s1.wbAllL1 (coreOf k)).giveBack (clOfSlot k) f i)) s
def execFwPub (f a : Nat) (s : State) : Host.Outcome State Fault Refusal :=
  scalarI (.fwPub f a) [] (fun k s => do
    let (v, s1) ← rdSc k 1 a s
    ensureV (!descBad v false) 0x01 v
    let y ← s1.myFurrow k f
    match y.named v y.pub y.res y.done with
    | none => raiseV 0x14 v
    | some i => pure ((s1.wbAllL1 (coreOf k)).publish (clOfSlot k) f i)) s
/-- No slot is reserved, filled or taken, and no accepted command names the furrow (R294). -/
def State.furrowIdle (s : State) (cl f : Nat) (y : Furrow) : Bool :=
  y.res == y.pub && y.pub == y.tak && y.tak == y.giv && (s.cluster cl).cmds.all (fun c => !c.furrows.contains f)
/-- `fw.res.def` (R294). -/
def execFwResDef (f a : Nat) (s : State) : Host.Outcome State Fault Refusal :=
  scalarI (.fwResDef f a) [] (fun k s => do
    let (v, s1) ← rdSc k 1 a s
    let cl := clOfSlot k
    let mine := match s1.furrow? cl f with
      | some y => y.owner == s1.ownerOf k && s1.furrowIdle cl f y
      | none => false
    if v = 0 then
      ensureV mine 0x14 (natW f)
      pure (s1.modCluster cl (fun x => { x with furrows := mdel x.furrows f }))
    else
      ensureV (wf v 42 22 == 0 && wf v 36 6 != 0 && wf v 24 12 != 0 && wf v 22 2 == 0 && wf v 0 6 == 0) 0x01 v
      ensureV (mine || (s1.furrow? cl f).isNone) 0x14 (natW f)
      ensureV (s1.inBlock k (wf v 18 4) && decide (wf v 0 18 + (wf v 36 6 + 1) * 64 * wf v 24 12 ≤ 262144)) 0x14 v
      pure (s1.modCluster cl (fun x => { x with
        furrows := mput x.furrows f ⟨s1.ownerOf k, cl * 16 + wf v 18 4, wf v 0 18, wf v 24 12, wf v 36 6, 0, 0, 0, 0, [], [], [], []⟩ }))) s

/-! ### Trellis (R299 to R302) -/

/-- `trl.set cN` (R299). -/
def execTrlSetCounter (n a : Nat) (s : State) : Host.Outcome State Fault Refusal :=
  scalarI (.trlSetCounter n a) [] (fun k s => do
    let (v, s1) ← rdSc k 1 a s
    let cl := clOfSlot k
    ensureV (wf v 32 32 == 0 && wf v 10 6 == 0 && wf v 4 4 == 0 && !(wf v 8 2 == 0 && wf v 0 4 == 0)) 0x01 v
    ensureV ((s1.counter? cl n).all (fun c => c.owner == s1.ownerOf k)) 0x14 (natW n)
    pure (s1.modCluster cl (fun x => Cluster.latch { x with
      counters := mput x.counters n ⟨s1.ownerOf k, wf v 8 2, wf v 0 4, BitVec.ofNat 16 (wf v 16 16)⟩ }))) s
def litBad (v : Nat) : Bool := fld v 20 11 != 0
def litOf (v : Nat) : Option Lit := if fld v 31 1 = 1 then some ⟨fld v 16 4, BitVec.ofNat 16 (fld v 0 16)⟩ else none
/-- `trl.set tN` (R300). -/
def execTrlSetTerm (n a b : Nat) (s : State) : Host.Outcome State Fault Refusal :=
  scalarI (.trlSetTerm n a b) [] (fun k s => do
    let (va, s1) ← rdSc k 1 a s
    let (vb, s2) ← rdSc k 1 b s1
    let cl := clOfSlot k
    ensureV (!litBad (wf va 0 32) && !litBad (wf va 32 32)) 0x01 va
    ensureV (!litBad (wf vb 0 32) && !litBad (wf vb 32 32)) 0x01 vb
    ensureV ((s2.term? cl n).all (fun c => c.owner == s2.ownerOf k)) 0x14 (natW n)
    let t : Term := ⟨s2.ownerOf k, litOf (wf va 0 32), litOf (wf va 32 32), litOf (wf vb 0 32), litOf (wf vb 32 32)⟩
    match ([t.l0, t.l1, t.l2, t.l3].filterMap id).find? (fun l => !s2.ownsCounter cl l.cnt (s2.ownerOf k)) with
    | some l => raiseV 0x14 (natW l.cnt)
    | none => pure (s2.modCluster cl (fun x => Cluster.latch { x with terms := mput x.terms n t }))) s
/-- `trl.clr cN` (R302). -/
def execTrlClrCounter (n : Nat) (s : State) : Host.Outcome State Fault Refusal :=
  scalarI (.trlClrCounter n) [] (fun k s => do
    let cl := clOfSlot k
    let named (t : Term) : Bool := ([t.l0, t.l1, t.l2, t.l3].filterMap id).any (fun l => l.cnt == n)
    ensureV (s.ownsCounter cl n (s.ownerOf k) && (s.cluster cl).terms.all (fun e => !(named e.2 && s.ownerLive cl e.2.owner))) 0x14 (natW n)
    pure (s.modCluster cl (fun x => { x with counters := mdel x.counters n }))) s
/-- `trl.clr tN` (R302). -/
def execTrlClrTerm (n : Nat) (s : State) : Host.Outcome State Fault Refusal :=
  scalarI (.trlClrTerm n) [] (fun k s => do
    let cl := clOfSlot k
    ensureV (s.ownsTerm cl n (s.ownerOf k) && (s.cluster cl).cmds.all (fun c => !(c.term == some n && !c.startable))) 0x14 (natW n)
    pure (s.modCluster cl (fun x => { x with terms := mdel x.terms n }))) s

end Sys2Proof.Machine
end

