-- ==== Sys2Proof/Machine/Matrix.lean ====
section
/-! DEFINITION. The matrix sequencer and engine: operand loads, products, folds, conversion, loops and numbered barriers (R303 to R318, R408). -/

namespace Sys2Proof.Machine

/-- Why an instruction of the stream does not complete: the sequencer stops with a cause (and a tile), or it waits. -/
inductive SeqStop where
  | stop (code tile : Nat)
  | wait (s : State)
abbrev SRes := Except SeqStop
def sFail {α : Type} (code : Nat) : SRes α := .error (.stop code 0)
def sEnsure (b : Bool) (code : Nat) : SRes Unit := if b then .ok () else sFail code
/-- Issue of a matrix-stream instruction; a strand that reaches one traps (R188). `adv`: the next instruction of the clause follows. -/
def matrixI (i : Instr) (adv : Bool) (body : Nat → Gang → State → SRes State) (s : State) : Host.Outcome State Fault Refusal :=
  match s.cur with
  | .slot k => .next (s.takeTrap k 0x01 (s.slot k).pc (wordOf i) (s.slot k).m0 0)
  | .seq cl =>
    match body cl ((s.gang? (s.cluster cl).seqGang).getD (protoGang [] [])) s with
    | .ok t => .next (if adv then t.modCluster cl (fun x => { x with seqPc := x.seqPc + 2 }) else t)
    | .error (.stop code tile) => .next (s.seqStop cl code tile)
    | .error (.wait t) => .next t

/-! ### Footprints in the hazard unit (R318) -/

/-- Enters the hazard unit, or waits for the overlapping commands that reached it before. -/
def State.matrixHaz (s : State) (cl : Nat) (r w : List (Nat × Nat × Nat)) : SRes State :=
  let x := s.cluster cl
  match x.matHaz with
  | none =>
    if !x.room then .error (.wait s)
    else if x.cmds.any (conflict r w) then .error (.wait (s.setCluster cl { x with matHaz := some (x.nextSeq, r, w) }))
    else .ok s
  | some h => if x.cmds.any (fun c => decide (c.seq < h.1) && conflict r w c) then .error (.wait s) else .ok (s.setCluster cl { x with matHaz := none })
/-- A core of the gang block (R312, R315). -/
def blockCore (g : Gang) (cl ci : Nat) : Bool := g.cores.contains (16 * cl + ci)
def Gang.fmtAt (g : Gang) (n : Nat) : W64 := lrw g.lrec (8 + n)

/-! ### Operand loads (R303, R312) -/

def halfKey (isB half : Bool) : Nat := 2 * b2n isB + b2n half
/-- A half whose chunk is no longer whole: no slot names it. -/
def Half.broken (h : Half) : Half := { h with slot := 8, planes := [] }
/-- `xlda` and `xldb`. -/
def matLoad (isB : Bool) (o : XLoad) (cl : Nat) (g : Gang) (s : State) : SRes State := do
  let x := s.cluster cl
  let f := g.fmtAt o.slot
  let p := wf f 4 5
  sEnsure (wf f 0 4 == b2n isB && p != 0 && !(decide (8 < p) && o.half)) 0x15
  let kk := if isB then x.kb else x.ka
  let i0 := (x.loops.headD (0, 0)).2
  let i1 := ((x.loops.drop 1).headD (0, 0)).2
  let ch := o.chunk + o.step0 * i0 + o.step1 * i1
  let base := 16 * o.off16
  let row := 16 * kk
  let scale := wf f 11 2 == 1
  let exps := base + p * (128 * row) + ch / 2 ^ wf f 9 2 * 128
  let core := 16 * cl + o.core
  let last := base + (p - 1) * (128 * row) + 127 * row + 16 * ch + 16
  sEnsure (decide (ch < kk) && blockCore g cl o.core && decide (last ≤ 262144) && (!scale || decide (exps + 128 ≤ 262144))) 0x14
  let at_ (b r : Nat) : Nat := base + b * (128 * row) + r * row + 16 * ch
  let fp := (List.range p).flatMap (fun b => (List.range 128).map (fun r => (core + 1, at_ b r, 16))) ++ (if scale then [(core + 1, exps, 128)] else [])
  let s1 ← s.matrixHaz cl fp []
  let h : Half :=
    { slot := o.slot
      planes := (List.range p).map (fun b => (List.range 128).map (fun r => s1.lsRead core (at_ b r) 16))
      exps := (List.range 128).map (fun r => if scale then s1.lsByte core (exps + r) else 0)
      pois := fp.any (fun e => (wordsOf e.2.1 e.2.2).any (fun w => s1.wordPois core w)) }
  let s1 := if h.pois then (s1.findErr (16 * core) (fp.flatMap (fun e => (wordsOf e.2.1 e.2.2).map (.lsw core)))).2 else s1
  pure (s1.modCluster cl (fun y =>
    let y1 : Cluster := { y with halves := mput y.halves (halfKey isB o.half) h }
    if 8 < p then { y1 with halves := mput y1.halves (halfKey isB true) h.broken }
    else if o.half then
      (match y1.halves.find? (fun e => e.1 == halfKey isB false && decide (8 < e.2.planes.length)) with
      | some (_, a) => { y1 with halves := mput y1.halves (halfKey isB false) a.broken }
      | none => y1)
    else y1))
def execXlda (o : XLoad) (s : State) : Host.Outcome State Fault Refusal := matrixI (.xlda o) true (matLoad false o) s
def execXldb (o : XLoad) (s : State) : Host.Outcome State Fault Refusal := matrixI (.xldb o) true (matLoad true o) s

/-! ### The accumulator store (R102 to R106) -/

/-- Applies a function of row and column to the cells of a tile. -/
def Cluster.mapTile (x : Cluster) (t : Nat) (f : Nat → Nat → Cell → Cell) : Cluster :=
  let lo := t * 16384
  let new := (List.range 16384).filterMap (fun i =>
    let c := f (i / 128) (i % 128) (mget Cell.reset x.acc (lo + i))
    if c = Cell.reset then none else some (lo + i, c))
  { x with acc := x.acc.filter (fun e => decide (e.1 < lo)) ++ new ++ x.acc.filter (fun e => decide (lo + 16384 ≤ e.1)) }
/-- Ones in the planes' AND, over the 128 elements of a chunk. -/
def ones : Nat → Nat → Nat
  | 0, _ => 0
  | n + 1, x => x % 2 + ones n (x / 2)
/-- Weight of plane b of p (R99). -/
def weight (p b : Nat) : Int := if b + 1 = p then -((2 ^ b : Nat) : Int) else ((2 ^ b : Nat) : Int)
/-- Exact dot product of a row of A and a column of B. -/
def dot (a b : Half) (r c : Nat) : Int :=
  let pa := a.planes.length
  let pb := b.planes.length
  (List.range pa).foldl (fun t i => (List.range pb).foldl (fun u j =>
    u + weight pa i * weight pb j * (ones 128 (nth 0 (nth [] a.planes i) r &&& nth 0 (nth [] b.planes j) c) : Nat)) t) 0
def addMod (z : Nat) (x : Int) (m : Nat) : Nat := (((z : Int) + x) % (m : Int)).toNat
/-- `xmul` (R313). -/
def matMul (o : XMul) (cl : Nat) (g : Gang) (s : State) : SRes State :=
  let x := s.cluster cl
  let fa := g.fmtAt o.aslot
  let fb := g.fmtAt o.bslot
  match x.halves.find? (fun e => e.1 == halfKey false o.ahalf), x.halves.find? (fun e => e.1 == halfKey true o.bhalf) with
  | some (_, a), some (_, b) => do
    sEnsure (a.slot == o.aslot && b.slot == o.bslot && wf fa 0 4 == 0 && wf fb 0 4 == 1 && wf fa 9 2 == wf fb 9 2 && !pairBad fa fb) 0x15
    pure (s.setCluster cl (x.mapTile o.tile (fun r c v =>
      let v := if x.rowp.getLsbD r && x.colp.getLsbD c then
          let d := dot a b r c
          { v with r47 := addMod v.r47 d 2047, r48 := addMod v.r48 d 2048, r49 := addMod v.r49 d 2049 }
        else v
      if a.pois || b.pois then { v with pois := true } else v)))
  | _, _ => sFail 0x15
def execXmul (o : XMul) (s : State) : Host.Outcome State Fault Refusal := matrixI (.xmul o) true (matMul o) s
/-- Core rank of the lowest-ranked core of the gang block (R97). -/
def blockRank (g : Gang) (cl : Nat) : Nat := ((List.range g.cores.length).find? (fun i => clOfCore (g.coreAt i) == cl)).getD 0
/-- The random value of a cell for `xfold` (0) or `xcvt` (1) (R97). -/
def cellRand (g : Gang) (cl tile r c op ctr : Nat) : Nat :=
  randomValue (lrw g.lrec 2).toNat (0xFFFF * 2 ^ 48 + blockRank g cl % 65536 * 2 ^ 32 + tile * 2 ^ 30 + r * 2 ^ 23 + c * 2 ^ 16 + op) ctr
/-- F + X × 2^e, exact and rounded once to FP32 (R105). -/
def foldAdd (f : Nat) (x e : Int) (md : Rnd) (u : Nat) : Nat :=
  if x = 0 then f else (addV f32 md u (unpack f32 f) (.fin (decide (x < 0)) x.natAbs e)).1
/-- `xfold` (R105, R314). -/
def matFold (o : XFold) (cl : Nat) (g : Gang) (s : State) : SRes State :=
  let x := s.cluster cl
  let f := g.fmtAt o.slot
  if wf f 0 4 ≠ 2 then sFail 0x15
  else match x.halves.find? (fun e => e.1 == halfKey false o.ahalf), x.halves.find? (fun e => e.1 == halfKey true o.bhalf) with
  | some (_, a), some (_, b) =>
    let ctr := mget 0 x.folds o.tile
    let md : Rnd := if bitAt f 17 then .rsto else .rne
    let y := x.mapTile o.tile (fun r c v =>
      let e := toSigned 8 (nth 0 a.exps r).toNat + toSigned 8 (nth 0 b.exps c).toNat
      { v with fold := BitVec.ofNat 32 (foldAdd v.fold.toNat (crtSigned v.r47 v.r48 v.r49) e md (cellRand g cl o.tile r c 0 ctr)), r47 := 0, r48 := 0, r49 := 0 })
    .ok (s.setCluster cl { y with folds := mset 0 y.folds o.tile ((ctr + 1) % 2 ^ 32) })
  | _, _ => sFail 0x15
def execXfold (o : XFold) (s : State) : Host.Outcome State Fault Refusal := matrixI (.xfold o) true (matFold o) s

/-! ### Output conversion (R109, R315) -/

/-- Exact product of values: NaN, infinity or a finite value. -/
def prodFV : List FV → FV
  | [] => .fin false 1 0
  | v :: t => match v, prodFV t with
    | .nan q, _ => .nan q
    | _, .nan q => .nan q
    | .inf a, .inf b => .inf (a != b)
    | .inf a, .fin b m _ | .fin b m _, .inf a => if m = 0 then .nan false else .inf (a != b)
    | .fin a m e, .fin b n d => .fin (a != b) (m * n) (e + d)
/-- F × sr × sc rounded once to the output type. -/
def cvtOut (d : Fmt) (md : Rnd) (u : Nat) (sat : Bool) (vs : List Nat) : Nat :=
  match prodFV (vs.map (unpack f32)) with
  | .nan _ => d.nan
  | .inf n => if sat then d.maxBits n else d.infBits n
  | .fin n m e => (roundF d md u sat n m e false).1
def outFmt (f : W64) : Fmt := match wf f 13 2 with
  | 0 => f32
  | 1 => bf16
  | _ => f16
/-- `xcvt`. A word is written whole when all its cells are. -/
def matCvt (o : XCvt) (cl : Nat) (g : Gang) (s : State) : SRes State := do
  let x := s.cluster cl
  let f := g.fmtAt o.slot
  sEnsure (wf f 0 4 == 2) 0x15
  let d := outFmt f
  let n := if wf f 13 2 = 0 then 4 else 2
  let bySr := bitAt f 11
  let bySc := bitAt f 12
  let base := 16 * o.off16
  let soff := 1024 * o.soff
  let core := 16 * cl + o.core
  let score := 16 * cl + o.score
  sEnsure (blockCore g cl o.core && decide (base + 16384 * n ≤ 262144)) 0x14
  sEnsure (!(bySr || bySc) || (blockCore g cl o.score && decide (soff + (if bySc then 1024 else 512) ≤ 262144))) 0x14
  let cell (r c : Nat) : Cell := mget Cell.reset x.acc (o.tile * 16384 + r * 128 + c)
  if (List.range 16384).any (fun i => (cell (i / 128) (i % 128)).pois) then .error (.stop 0x16 o.tile)
  let s1 ← s.matrixHaz cl [] [(core + 1, base, 16384 * n)]
  let ctr := mget 0 x.folds o.tile
  let md : Rnd := if bitAt f 15 then .rsto else .rne
  let val (r c : Nat) : Nat :=
    cvtOut d md (cellRand g cl o.tile r c 1 ctr) (bitAt f 16)
      ((cell r c).fold.toNat :: (if bySr then [s1.lsRead score (soff + 4 * r) 4] else []) ++ (if bySc then [s1.lsRead score (soff + 512 + 4 * c) 4] else []))
  let bad (r c : Nat) : Bool := bySr && s1.wordPois score ((soff + 4 * r) / 8) || bySc && s1.wordPois score ((soff + 512 + 4 * c) / 8)
  let s1 := if bySr || bySc then (s1.findErr (16 * score) ((wordsOf soff (if bySc then 1024 else 512)).map (.lsw score))).2 else s1
  let per := 8 / n
  pure ((List.range (16384 / per)).foldl (fun t w =>
    let r := w * per / 128
    let c0 := w * per % 128
    let cs := ((List.range per).map (· + c0)).filter (fun c => x.rowp.getLsbD r && x.colp.getLsbD c)
    let off := base + 8 * w
    let t1 := if cs.length = per then t.lsWrite core off 8 (cs.foldr (fun c a => val r c + 256 ^ n * a) 0)
      else cs.foldl (fun u c => u.lsWrite core (base + (r * 128 + c) * n) n (val r c)) t
    if cs.any (bad r) then t1.setPoisW core (off / 8) true else t1) s1)
def execXcvt (o : XCvt) (s : State) : Host.Outcome State Fault Refusal := matrixI (.xcvt o) true (matCvt o) s

/-! ### Tiles, edge predicates and formats (R304, R312, R316) -/

def execXzero (t : Nat) (s : State) : Host.Outcome State Fault Refusal :=
  matrixI (.xzero t) true (fun cl _ s => .ok (s.modCluster cl (fun x =>
    { x with acc := x.acc.filter (fun e => e.1 / 16384 != t), folds := mdel x.folds t }))) s
/-- Ones at `count` places from `first`. -/
def edge (first count : Nat) : BitVec 128 := BitVec.ofNat 128 ((2 ^ count - 1) * 2 ^ first)
def execXrow (first count : Nat) (s : State) : Host.Outcome State Fault Refusal :=
  matrixI (.xrow first count) true (fun cl _ s => .ok (s.modCluster cl (fun x => { x with rowp := edge first count }))) s
def execXcol (first count : Nat) (s : State) : Host.Outcome State Fault Refusal :=
  matrixI (.xcol first count) true (fun cl _ s => .ok (s.modCluster cl (fun x => { x with colp := edge first count }))) s
def execXfmt (ka kb : Nat) (s : State) : Host.Outcome State Fault Refusal :=
  matrixI (.xfmt ka kb) true (fun cl _ s => .ok (s.modCluster cl (fun x => { x with ka := ka, kb := kb }))) s

/-! ### Numbered barriers (R308) -/

/-- The sequencer's arrival at barrier `n`: not while the current phase holds one. -/
def State.seqArrive (s : State) (cl n : Nat) : State :=
  let b := s.nbar cl n
  s.setNbar cl n ({ b with seq := true }).settle
def State.setSeqPhase (s : State) (cl : Nat) (p : SeqPhase) : State := s.modCluster cl (fun x => { x with seqPhase := p })
/-- Waits while the phase in which the sequencer wants to arrive holds its earlier arrival. -/
def State.seqTurn (s : State) (cl n : Nat) : SRes Unit :=
  if (s.nbar cl n).seq then .error (.wait (s.setSeqPhase cl (.posting n (s.nbar cl n).phase))) else .ok ()
def execXwait (n : Nat) (s : State) : Host.Outcome State Fault Refusal :=
  matrixI (.xwait n) true (fun cl _ s => do
    match (s.cluster cl).seqPhase with
    | .waiting _ ph =>
      if ph < (s.nbar cl n).phase then pure (s.setSeqPhase cl .running) else .error (.wait s)
    | _ =>
      s.seqTurn cl n
      let ph := (s.nbar cl n).phase
      let t := s.seqArrive cl n
      if ph < (t.nbar cl n).phase then pure (t.setSeqPhase cl .running) else .error (.wait (t.setSeqPhase cl (.waiting n ph)))) s
def execXpost (n : Nat) (s : State) : Host.Outcome State Fault Refusal :=
  matrixI (.xpost n) true (fun cl g s => do
    s.seqTurn cl n
    let t := ((s.seqArrive cl n).setSeqPhase cl .running).modCluster cl (fun x => { x with seq1 := x.seq1 + 1 })
    pure (t.pulse cl 1 n 1 (.gang g.id))) s

/-! ### Loops and the end of the stream (R307, R310, R317) -/

def execXloopBegin (count : Nat) (s : State) : Host.Outcome State Fault Refusal :=
  matrixI (.xloopBegin count) true (fun cl _ s => do
    sEnsure (decide ((s.cluster cl).loops.length < 4)) 0x01
    pure (s.modCluster cl (fun x => { x with loops := (count, 0) :: x.loops }))) s
/-- A code word of the stream: the gang's code pointer, translated at U; any failing translation is 0x07 (R408, R487). -/
def State.seqWord (s : State) (cl : Nat) (g : Gang) (off : Int) : SRes (W64 × State) :=
  if off < 0 ∨ off ≥ 16777216 ∨ pSP g.p0 then sFail 0x03
  else match checkAccess g.p0 (4 * off) 8 5 with
  | none => sFail 0x03
  | some va =>
    match s.walk (dieOfCl cl) g.part g.asid va (accX 0) with
    | .error _ => sFail 0x07
    | .ok (_, _, x, s1) =>
      let (st, v, s2) := s1.cread64 (some g.part) (dieOfCl cl) x.pa
      if st = 0 then .ok (v, s2) else sFail 0x07
def execXloop (off : BitVec 16) (s : State) : Host.Outcome State Fault Refusal :=
  matrixI (.xloop off) false (fun cl g s => do
    let x := s.cluster cl
    match x.loops with
    | [] => sFail 0x01
    | (count, i) :: t =>
      if i + 1 < count then do
        let tgt : Int := x.seqPc + off.toInt
        sEnsure (tgt % 2 == 0) 0x05
        let (w, s1) ← s.seqWord cl g tgt
        sEnsure (isHdr w && bitAt w 51) 0x01
        pure (s1.modCluster cl (fun y => { y with loops := (count, i + 1) :: t, seqPc := tgt.toNat, seqClause := none, seqHdr := false }))
      else pure (s.setCluster cl { x with loops := t, seqPc := x.seqPc + 2 })) s
def execXend (s : State) : Host.Outcome State Fault Refusal :=
  matrixI .xend true (fun cl _ s => .ok (s.modCluster cl (fun x => { x with loops := [], seqPhase := .idle, seqClause := none }))) s

end Sys2Proof.Machine
end

