-- ==== Sys2Proof/Machine/EvStrand.lean ====
section
/-! DEFINITION. Events of strands and slots: clause fetch with its header waits, resumption of parks, wait limits, the timer level, and interrupt entry
(R32, R38, R79, R184 to R187, R394, R408 to R412). -/

namespace Sys2Proof.Machine

/-! ### Clause headers (R184, R185, R394, R408) -/

/-- A wait condition of a header, from its 24 bits. -/
structure HWait where
  kind : Nat
  sel : Nat
  thr : Nat
deriving DecidableEq, Repr
def hdrWaits (w : W64) : List HWait := [0, 24].map (fun lo => ⟨wf w (lo + 22) 2, wf w (lo + 16) 6, wf w lo 16⟩)
def hdrCount (w : W64) : Nat := wf w 52 4 + 1
/-- A wait condition that breaks its layout; a matrix stream allows only KIND 0 and 1. -/
def HWait.bad (matrix : Bool) (x : HWait) : Bool :=
  match x.kind with
  | 0 => x.sel != 0 || x.thr != 0
  | 1 => decide (16 ≤ x.sel)
  | _ => matrix || x.thr != 0 || x.sel == 0 || decide (60 ≤ x.sel)
def hdrBad (matrix : Bool) (w : W64) : Bool := bitAt w 51 != matrix || wf w 48 3 != 0 || (hdrWaits w).any (HWait.bad matrix)
/-- Does a block own every counter that a header's waits name. -/
def State.hdrOwned (s : State) (cl : Nat) (o : Owner) (w : W64) : Bool := (hdrWaits w).all (fun x => x.kind != 1 || s.ownsCounter cl x.sel o)
def Cluster.ctrReached (x : Cluster) (c thr : Nat) : Bool := reached (mget ⟨.gang 0, 0, 0, 0⟩ x.counters c).val (BitVec.ofNat 16 thr)
/-- Evaluates a strand's header waits in order: the park of the first that does not hold. -/
def State.evalWaits (s : State) (k : Nat) (hdr : W64) : List HWait → Res Unit
  | [] => .ok ()
  | w :: t => do
    let x := s.cluster (clOfSlot k)
    match w.kind with
    | 0 => pure ()
    | 1 => if x.ctrReached w.sel w.thr then pure () else parkOn (.counter w.sel w.thr)
    | kd => do
      let r := (s.slot k).sreg w.sel
      if !r.full then parkOn (.sreg w.sel)
      if r.pois then s.poisStop k [.sreg k w.sel] ⟨0x11, some hdr, some 1, 0⟩
      let n := BitVec.ofNat 32 r.val.toNat
      if kd = 2 then (if covers x.seq0 n then pure () else parkOn (.seq0 n))
      else if covers x.seq1 n then pure () else parkOn (.seq1 n)
    s.evalWaits k hdr t
/-- The waits of a fetched clause; when both hold, the first instruction is next, and what they observed is acquired (R151). -/
def State.hdrStep (s : State) (k : Nat) (c : Clause) : Res State := do
  ensureV (s.hdrOwned (clOfSlot k) (s.ownerOf k) c.hdr) 0x14 c.hdr
  s.evalWaits k c.hdr (hdrWaits c.hdr)
  let s1 := if (hdrWaits c.hdr).all (fun w => w.kind == 0) then s else s.acqL1 (coreOf k)
  pure (s1.modSlot k (fun x => { x with pc := c.off + 2, hdrWait := false, park := none }))
/-- Fetches the clause whose header stands at the program counter (R186, R393, R394). An odd entry that is no branch, call or resume target has no 0x05
(R177; DESIGN CHOICE, log entry 95). -/
def State.fetchClause (s : State) (k : Nat) : Res State := do
  let pc := (s.slot k).pc
  let p0 := (s.slot k).preg 0
  let (w, s1) ← s.codeWord k p0 pc
  ensureV (isHdr w) 0x01 w
  let n := hdrCount w
  ensureV (checkAccess p0 (4 * pc) (8 * (n + 1)) 5).isSome 0x03 (natW pc)
  ensureV (!hdrBad false w) 0x01 w
  let (ws, s2) ← s1.clauseWords k p0 pc n
  pure (s2.modSlot k (fun x => { x with clause := some ⟨pc, w, ws⟩, hdrWait := true }))
/-- A stop of a fetch takes effect: FMASK is m0, TVAL as raised. -/
def State.fetchStop (s : State) (k : Nat) : Stop → State
  | .park a => s.doPark k a true
  | .parkWith s' a => s'.doPark k a true
  | e => s.stop k 0 (s.slot k).m0 e
/-- A strand's clause fetch: a resumption reads back to its clause; otherwise the header is fetched, and its waits are evaluated. -/
def State.strandFetch (s : State) (k : Nat) : State :=
  let x := s.slot k
  if x.phase ≠ .running then s
  else if x.resuming then
    match s.resumeAt k x.pc with
    | .ok t => t.modSlot k (fun y => { y with replay := x.replay, resumed := x.resumed, park := x.park })
    | .error e => s.fetchStop k e
  else match (if x.hdrWait then x.clause else none) with
    | some c => (match s.hdrStep k c with
      | .ok t => t
      | .error e => s.fetchStop k e)
    | none => (match s.fetchClause k with
      | .error e => s.fetchStop k e
      | .ok t => (match (t.slot k).clause with
        | none => t
        | some c => (match t.hdrStep k c with
          | .ok u => u
          | .error e => t.fetchStop k e)))
/-- The words of a matrix clause after its header. -/
def State.seqWords (s : State) (cl : Nat) (g : Gang) (off : Nat) : Nat → SRes (List W64 × State)
  | 0 => .ok ([], s)
  | n + 1 => do
    let (w, s1) ← s.seqWord cl g (off + 2 : Nat)
    let (ws, s2) ← s1.seqWords cl g (off + 2) n
    pure (w :: ws, s2)
/-- The sequencer fetches the clause at its position (R408). -/
def State.fetchMatrix (s : State) (cl : Nat) (g : Gang) : SRes State := do
  let pc := (s.cluster cl).seqPc
  let (w, s1) ← s.seqWord cl g pc
  sEnsure (isHdr w) 0x01
  let n := hdrCount w
  sEnsure (checkAccess g.p0 (4 * pc) (8 * (n + 1)) 5).isSome 0x03
  sEnsure (!hdrBad true w) 0x01
  sEnsure (s1.hdrOwned cl (.gang g.id) w) 0x14
  let (ws, s2) ← s1.seqWords cl g pc n
  pure (s2.modCluster cl (fun x => { x with seqClause := some ⟨pc, w, ws⟩, seqHdr := true, seqPhase := .running }))
/-- The waits of a matrix clause's header: the first instruction is next when they hold. -/
def State.matrixWaits (s : State) (cl : Nat) : State :=
  let x := s.cluster cl
  match x.seqClause with
  | none => s
  | some c =>
    if (hdrWaits c.hdr).all (fun w => w.kind == 0 || x.ctrReached w.sel w.thr) then
      s.setCluster cl { x with seqHdr := false, seqPc := c.off + 2, seqPhase := .running }
    else s.setCluster cl { x with seqPhase := .hdrWait }
def State.seqFetch (s : State) (cl : Nat) : State :=
  let x := s.cluster cl
  if x.seqPhase ≠ .running ∧ x.seqPhase ≠ .hdrWait then s
  else if x.seqHdr && x.seqClause.isSome then s.matrixWaits cl
  else match s.gang? x.seqGang with
    | none => s
    | some g => (match s.fetchMatrix cl g with
      | .ok t => t.matrixWaits cl
      | .error (.stop code tile) => s.seqStop cl code tile
      | .error (.wait t) => t)
/-- Event CLAUSE_FETCH. -/
def execClauseFetch (a : Agent) (s : State) : Host.Outcome State Fault Refusal :=
  .next (match a with
    | .slot k => s.strandFetch k
    | .seq cl => s.seqFetch cl)

/-! ### Parks (R32, R37, R280, R409 to R412) -/

/-- Event PARK_RESUME: the awaited event has completed. A strand parked for an answer continues after its instruction, or takes the refusal (R280,
R426), as one does whose write of a hothouse line is answered (R170), and one whose command the engine has taken writes its number (R288); every other instruction or header is issued
again. Either way the slot issues next in one of its own cycles, at least one cycle later (R32). -/
def State.resumePark (s : State) (k : Nat) : State :=
  let x := { s.slot k with ready := s.cycle + 1 }
  match x.phase, x.park with
  | .parked, some p =>
    if !s.awaitMet k p.on then s
    else match p.on with
      | .remote .. =>
        let ok := match x.remote with
          | some r => r.done == some true
          | none => false
        let s1 := s.setSlot k { x with phase := .running, park := none, remote := none }
        if ok then s1.advance k else s1.takeTrap k 0x1B x.pc x.outdst x.trapLanes 0
      | .accepted d n =>
        (match wrSc k d (natW n) (s.setSlot k { x with phase := .running }) with
        | .ok t => t.advance k
        | .error e => (s.setSlot k { x with phase := .running }).stop k (x.word.getD 0) x.trapLanes e)
      | .wrack _ => (s.setSlot k { x with phase := .running, park := none }).advance k
      | _ => s.setSlot k { x with phase := .running }
  | _, _ => s
def execParkResume (slot : Nat) (s : State) : Host.Outcome State Fault Refusal := .next (s.resumePark slot)
/-- TVAL of an expired wait: the wait descriptor, or the barrier's (R410, R417). -/
def State.expiryTval (s : State) (k : Nat) (a : Await) : W64 :=
  match a with
  | .group g n _ => (match s.gang? g with
    | some x => groupDesc x n
    | none => barDesc false false 0 0 n)
  | .numbered n _ => nbarDesc (s.nbar (clOfSlot k) n) n
  | a => waitDesc a a.peer
/-- Takes back what a parked instruction has sent: a command that waits for acceptance (R411). -/
def State.unsend (s : State) (k : Nat) (a : Await) : State :=
  match a with
  | .accept t => s.modCluster (clOfSlot k) (fun x => { x with pend := x.pend.filter (fun c => c.ticket != t) })
  | _ => s
/-- Has a park reached its limit with its event still outstanding: parks on memory replies and page faults have none (R38, R411). -/
def State.expired (s : State) (k : Nat) : Bool :=
  let x := s.slot k
  match x.phase, x.park with
  | .parked, some p => p.limit != 0 && decide (p.limit ≤ p.ticks) && p.on.wkind != 17 && !s.awaitMet k p.on
  | _, _ => false
/-- Event WAIT_LIMIT_EXPIRY: the trap at the parked instruction, or for a remote write the request to withdraw it first (R412). -/
def State.expire (s : State) (k : Nat) : State :=
  let x := s.slot k
  match x.park with
  | none => s
  | some p =>
    if !s.expired k then s
    else match p.on with
      | .remote id .. => { s with net := s.net.map (fun n => if n.id = id then { n with withdraw := true } else n) }
      | a => (s.unsend k a).takeTrap k (if a.wkind = 16 then 0x0D else 0x0B) x.pc (s.expiryTval k a) x.trapLanes 0
def execWaitLimitExpiry (slot : Nat) (s : State) : Host.Outcome State Fault Refusal := .next (s.expire slot)

/-! ### Interrupts (R79) -/

/-- Event TIMER_PENDING: TIMER is a level of the GTC and TIMECMP, which IP shows without a stored bit (R79). -/
def execTimerPending (_slot : Nat) (s : State) : Host.Outcome State Fault Refusal := .next s
/-- Does a strand wait at a clause header, which is a boundary (R185, R187). -/
def Slot.atHeader (x : Slot) : Bool := (x.phase == .parked || x.phase == .running) && x.park.any (·.header)
/-- May an interrupt be taken now: the strand is at a boundary, not inside an instruction that has been issued. -/
def State.atBoundary (s : State) (k : Nat) : Bool :=
  let x := s.slot k
  (x.phase == .running && x.park.isNone || x.atHeader) && x.pairOf.isNone && x.sc.isNone && x.kern.isNone && x.seqRep.isNone
/-- Event INTERRUPT_ENTRY: the pending enabled interrupt first in order is taken. -/
def State.enterIrq (s : State) (k : Nat) : State :=
  if !s.atBoundary k then s
  else match s.irqOf k with
    | some code => s.takeIrq k code
    | none => s
def execInterruptEntry (slot : Nat) (s : State) : Host.Outcome State Fault Refusal := .next (s.enterIrq slot)
/-- A report of the sequencer is taken at the boundary (R309). -/
def State.takeReport (s : State) (k : Nat) : State :=
  let x := s.slot k
  match x.seqRep with
  | some (code, tv) => ((s.setSlot k { x with seqRep := none }).takeTrap k code x.pc tv 0 0).modSlot k (fun y => { y with reported := true })
  | none => s

end Sys2Proof.Machine
end

