-- ==== Sys2Proof/Machine/EvNet.lean ====
section
/-! DEFINITION. Events of the message network: remote writes, active messages, `out` messages, withdrawals, decrements and answers (R51, R124, R125,
R149, R256 to R258, R269 to R271, R280, R335, R412). -/

namespace Sys2Proof.Machine

/-- A message in flight, of a kind. -/
def State.netOf (s : State) (id : Nat) (kd : NetKind) : Option Net := (s.net? id).bind (fun n => if n.kind = kd then some n else none)
/-- The message has reached a full location: it waits there behind those that arrived before it. -/
def State.waitNet (s : State) (n : Net) : State :=
  if n.waiting then s
  else { s with net := s.net.filter (fun m => m.id != n.id) ++ [{ n with waiting := true, since := s.nextWait }], nextWait := s.nextWait + 1 }
/-- Do two remote writes have one location. -/
def Net.samePlace (a b : Net) : Bool := a.kind == b.kind && a.core == b.core && a.at_ == b.at_ && (a.kind != .rput || (a.slot == b.slot && a.gen == b.gen))
/-- No earlier arrival waits for the message's location, and no strand that has waited longer to write the word (R51, R254). -/
def State.firstAt (s : State) (n : Net) : Bool :=
  ((s.net.filter (fun m => m.waiting && m.samePlace n)).head?.map (·.id)).getD n.id == n.id &&
    (n.kind != .sputfe || !s.lsOlder n.core (if n.waiting then n.since else s.nextWait) (n.at_ / 8) (.lsEmpty (n.at_ / 8)))
/-- A performed remote write leaves the network and answers its sender. -/
def State.performed (s : State) (n : Net) : State := if n.ack then (s.dropNet n.id).answer n true else s.dropNet n.id
/-- Is the strand that a fill names still to start (R335). -/
def State.toStart (s : State) (n : Net) : Bool :=
  let k := 16 * n.core + n.slot
  n.val2 == 0 && (s.slot k).gen + 1 == n.gen && (s.core n.core).gang.isSome && s.strandAt k n.gen false == .gone

/-! ### Race log (R125) -/

/-- Appends a resolved write to the core's ring; WRAP is set when an entry that nothing has read is overwritten. -/
def State.raceLog (s : State) (c src off : Nat) : State :=
  let r := (s.core c).rlogctl
  if !bitAt r 0 then s
  else
    let a := wf r 14 38 * 16384 + 16 * wf r 2 10
    let s1 := (s.cwrite (s.partOf (clOfCore c)) (dieOfCore c) a 8 (s.gtcCore c)).cwrite (s.partOf (clOfCore c)) (dieOfCore c) (a + 8) 8 (src + off * 2 ^ 32)
    s1.modCore c (fun x =>
      { x with rlogctl := setBit (setF x.rlogctl 2 10 (wf r 2 10 + 1)) 1 (bitAt r 1 || decide (1024 ≤ x.rlogRead)), rlogRead := Nat.min 1024 (x.rlogRead + 1) })

/-! ### Remote writes -/

/-- Performs a remote write whose location is free, or leaves it there. -/
def State.tryWrite (s : State) (n : Net) : State :=
  if !s.firstAt n then s.waitNet n
  else match n.kind with
    | .rput =>
      let k := 16 * n.core + n.slot
      let low := n.val2 == 1
      if s.toStart n then s
      else if s.regFree k n.gen n.at_ low then ((s.fillReg k n.gen n.at_ low n.val n.pois).acqFrom n.src n.core).performed n
      else s.waitNet n
    | .sputfe =>
      if s.wordEmpty n.core (n.at_ / 8) then
        ((((s.lsWrite n.core n.at_ 8 n.val.toNat).setPoisW n.core (n.at_ / 8) n.pois).raceLog n.core n.src n.at_).acqFrom n.src n.core).performed n
      else s.waitNet n
    | _ => s
def execRputDelivery (id : Nat) (s : State) : Host.Outcome State Fault Refusal :=
  .next (match s.netOf id .rput with
    | some n => if n.waiting then s else s.tryWrite n
    | none => s)
def execSputfeDelivery (id : Nat) (s : State) : Host.Outcome State Fault Refusal :=
  .next (match s.netOf id .sputfe with
    | some n => if n.waiting then s else s.tryWrite n
    | none => s)
/-- Event REMOTE_WRITE_RELEASE: a write that waited at a full location completes after the location has emptied. -/
def execRemoteWriteRelease (id : Nat) (s : State) : Host.Outcome State Fault Refusal :=
  .next (match s.net? id with
    | some n => if n.waiting then s.tryWrite n else s
    | none => s)

/-! ### Active messages (R258) -/

/-- Event AMSG_DELIVERY: the message enters the inbox of 64 of the target core, while the gang holds the core. -/
def State.takeAmsg (s : State) (n : Net) : State :=
  let c := s.core n.core
  if c.gang ≠ some n.gen then (s.deadLetter (dieOfCore n.core) ((s.partOf (clOfCore n.core)).getD 0)).performed n
  else if 64 ≤ c.inbox.length + c.amq.length then s
  else ((s.setCore n.core { c with amq := c.amq ++ [⟨n.at_, n.val, n.val2, n.rank⟩] }).acqFrom n.src n.core).performed n
def execAmsgDelivery (id : Nat) (s : State) : Host.Outcome State Fault Refusal :=
  .next (match s.netOf id .amsg with
    | some n => s.takeAmsg n
    | none => s)
/-- The start values of a handler: the gang's pointers, the handler budget, and the message in s1 to s3; its strand rank is not stated (log entry 17), nor is
p15, which is untagged (DESIGN CHOICE, log entry 79). -/
def State.handlerStart (s : State) (g : Gang) (c : Nat) (m : AMsg) : Start :=
  let l := g.lrec
  { budget := 8 * wf (lrw l 0) 30 5, width := 32, job := .handler g.id, segs := 0, p0 := g.p0, p1 := g.p1, p14 := g.p14, p15 := 0, gseed := lrw l 2
    ranks := ranksOf g.id ((Config.openWord s.free).toNat % 65536) (g.rankOf c), utvec := wf (lrw l 4) 0 24, udeleg := natW (wf (lrw l 4) 24 4)
    tvec := s.wtv c, fmt := (List.range 8).map g.fmtAt, asid := g.asid, pc := m.entry, args := [m.b, m.c, natW m.rank] }
/-- Event ACTIVE_MESSAGE_HANDLER_START: slot 15 runs the oldest message's handler. -/
def State.startHandler (s : State) (c : Nat) : State :=
  let x := s.core c
  match x.amq, x.gang.bind s.gang? with
  | m :: t, some g =>
    let b := s.handlerStart g c m
    if !g.msg || (s.slot (16 * c + 15)).phase != .free || !s.poolFits c b.entries then s
    else ({ s with free := s.free + 1 }.setCore c { x with amq := t }).startStrand (16 * c + 15) b
  | _, _ => s
def execActiveMessageHandlerStart (core : Nat) (s : State) : Host.Outcome State Fault Refusal := .next (s.startHandler core)

/-! ### `out` messages (R335) -/

/-- The message is the oldest in flight from its source to its core. -/
def State.firstOut (s : State) (n : Net) : Bool :=
  ((s.net.find? (fun m => m.kind == .out && m.src == n.src && m.core == n.core)).map (·.id)) == some n.id
def execMessageDelivery (id : Nat) (s : State) : Host.Outcome State Fault Refusal :=
  .next (match s.netOf id .out with
    | none => s
    | some n =>
      if !s.firstOut n then s
      else match s.deliver n with
        | .accept t => t.performed n
        | .refuse t => if n.ack then (t.dropNet id).answer n false else t.dropNet id
        | .forward c i => { s with net := s.net.map (fun m => if m.id = id then { m with core := c, at_ := i } else m) }
        | .wait => s)

/-! ### Withdrawal and answers (R280, R412) -/

/-- Event WITHDRAWAL_REQUEST: the target drops a write that it has not performed. -/
def execWithdrawalRequest (id : Nat) (s : State) : Host.Outcome State Fault Refusal :=
  .next (match s.net? id with
    | some n =>
      if n.withdraw then
        let t := (s.dropNet id).answer n false
        { t with answers := t.answers.map (fun a => if a.id = id then { a with withdrawn := true } else a) }
      else s
    | none => s)
/-- Event ACCEPTANCE_OR_REFUSAL: an answer reaches its sender. Acceptance and refusal are recorded at the strand, or in its save area; a confirmed
withdrawal is the trap of the sender's limit, or the sequencer's report that asked for it. -/
def State.takeAnswer (s : State) (a : Ans) : State :=
  let t := { s with answers := s.answers.filter (fun b => b.id != a.id) }
  let put (x : Slot) : Slot := match x.remote with
    | some r => if r.id = a.id then { x with remote := some { r with done := some a.ok } } else x
    | none => x
  match s.placeOf a.slot (fun _ x => x.remote.any (fun r => r.id == a.id)) with
  | .slot k =>
    let x := s.slot k
    if !a.withdrawn then t.modSlot k put
    else match x.park with
      | some p =>
        let u := t.modSlot k (fun y => { y with remote := none })
        if x.seqRep.isSome then u.takeReport k else u.takeTrap k 0x0B x.pc (waitDesc p.on p.on.peer) x.trapLanes 0
      | none => t
  | .save k ad => if a.withdrawn then s else t.modSave k ad put
  | .gone => t
def execAcceptanceOrRefusal (id : Nat) (s : State) : Host.Outcome State Fault Refusal :=
  .next (match s.answers.find? (fun a => a.id == id) with
    | some a => s.takeAnswer a
    | none => s)

/-! ### Decrements (R61, R270) -/

def execCounterDecrement (id : Nat) (s : State) : Host.Outcome State Fault Refusal :=
  .next (match s.netOf id .cntdec with
    | some n => ((s.countDec n.core n.at_ n.val.toNat).acqFrom n.src n.core).dropNet id
    | none => s)
def execTaskDecrement (id : Nat) (s : State) : Host.Outcome State Fault Refusal :=
  .next (match s.netOf id .taskdec with
    | some n => ((s.taskDec n.core n.at_ (BitVec.ofNat 32 n.gen) n.val.toNat).acqFrom n.src n.core).dropNet id
    | none => s)

end Sys2Proof.Machine
end

