-- ==== Sys2Proof/Machine/Kernel.lean ====
section
/-! DEFINITION. The Sloem kernel as the built-in behaviour of a root slot that is not delegated, its events, and the start and failure of a core's kernel
(R332 to R337, R354, R364, R367, R368, R386, R444, R445, R476, R477, R488). -/

namespace Sys2Proof.Machine

/-- Does the Sloem kernel serve a core. -/
def Core.native (x : Core) : Bool := x.started && x.deleg.isNone && !x.quarantined
/-- The kernel's own save areas, by record index, or 512 + slot for a lent slot (log entry 12). -/
def kernelArea (c i : Nat) : W64 := natW (2 ^ 61 + (srcOfCore c * 1024 + i) * 256)
def kernLog (s : State) (c code : Nat) (dom : Nat) (tval detail : W64) : State :=
  s.logTo (dieOfCore c) (s.partOf (clOfCore c)) (evEntry (srcOfCore c) code 4 dom tval detail)

/-! ### Failure of a core's kernel (R476, R477) -/

/-- Steps 1 to 4: the gangs with a strand on the core are aborted, its slots reaped, and the tasks homed on it exit. -/
def State.failCore (s : State) (c reason : Nat) : State :=
  let recent := (s.core c).fails.filter (fun t => decide (s.gtcCore c < t + 10 ^ 9))
  let s1 := s.modCore c (fun x => { x with quarantined := true, fails := s.gtcCore c :: recent, deleg := none })
  let s2 := match (s.core c).gang with
    | some g => s1.abortGang g
    | none => s1
  let s3 := (List.range 16).foldl (fun t j => match (t.slot (16 * c + j)).phase with
    | .free | .halted => t
    | _ => if (t.slot (16 * c + j)).pairOf.isSome then t else t.retire (16 * c + j) 0 false) s2
  let homed := (mkeys (s3.core c).tctx).filter (fun i => (s3.ctx c i).live)
  let s4 := homed.foldl (fun t i => t.setRecState c i 5) s3
  let s5 := (s4.core c).heldq.foldl (fun t _ => t.deadLetter (dieOfCore c) ((t.partOf (clOfCore c)).getD 0)) s4
  let s6 := s5.modCore c (fun x => { x with heldq := [], inbox := [], amq := [], tctx := [], rq := [[], [], [], []], rpend := [], fwd := [] })
  kernLog s6 c 0x72 2 (natW reason) (natW (recent.filter (fun t => decide (s.gtcCore c < t + 10 ^ 9))).length)
/-- Event WATCHDOG_EXPIRY: slot 0 of a delegated core has not executed `wfi`, `slot.start`, `rq.pop` or `eret` for 2^22 ticks. -/
def State.watchdogDue (s : State) (c : Nat) : Bool :=
  let x := s.core c
  x.started && x.deleg.isSome && !x.quarantined && decide (x.wdog + 2 ^ 22 ≤ s.gtcCore c)
def execWatchdogExpiry (core : Nat) (s : State) : Host.Outcome State Fault Refusal := .next (if s.watchdogDue core then s.failCore core 2 else s)

/-! ### Start of a core's kernel (R354, R367, R368) -/

/-- Reads the runtime descriptor of a die's TRTCFG: module pointers, MAIN, RTV, WTV, ASID and SAVE, when it can be used. -/
def State.runtimeOf (s : State) (c p : Nat) : Option (BitVec 128 × BitVec 128 × Nat × Nat × Nat × Nat × W64) :=
  let d := dieOfCore c
  let a := wf (s.cfg d p 0x098) 5 47 * 32
  let (st, v, s1) := s.cread (some p) d a 32
  let w (i : Nat) : W64 := natW (v / 2 ^ (64 * i))
  if st ≠ 0 ∨ wf (w 0) 56 8 ≠ 0 ∨ wf (w 0) 0 6 ≠ 0 ∨ wf (w 1) 48 16 ≠ 0 ∨ wf (w 2) 36 28 ≠ 0 ∨ wf (w 3) 56 8 ≠ 0 ∨ wf (w 3) 0 8 ≠ 0 then none
  else match s1.walk d p (wf (w 2) 24 12) (wf (w 0) 0 56) (accPld 1) with
    | .error _ => none
    | .ok (_, _, x, s2) =>
      let (st2, m, _) := s2.cread (some p) d x.pa 32
      let p0 : BitVec 128 := BitVec.ofNat 128 m
      let p1 : BitVec 128 := BitVec.ofNat 128 (m / 2 ^ 128)
      if st2 ≠ 0 ∨ !(pTag p0 && pHas p0 5) ∨ !(pTag p1 && pHas p1 1) then none
      else some (p0, p1, wf (w 1) 0 24, wf (w 1) 24 24, wf (w 2) 0 24, wf (w 2) 24 12, w 3)
/-- The root strand of a core at a start: privilege F, lanes 0 to 7 live (R33, R354). -/
def State.rootStart (s : State) (c : Nat) : Slot :=
  let lanes := laneMask 8
  { Slot.reset with phase := .running, pc := Config.kernelTvec, tvec := Config.kernelTvec, status := 2, job := .root, width := 8, slices := 1
                    gen := (s.slot (16 * c)).gen + 1, m := mset 0 (mset 0 [] 7 lanes) 0 lanes }
/-- The strand of the native kernel on a core, lowered to S (R33). -/
def State.nativeRoot (s : State) (c : Nat) : Slot := { s.rootStart c with status := 1, kern := some .self }.setP 0 Config.kernelCode
/-- The kernel of a core starts on slot 0 at F and lowers itself to S once the core's start state is set (R354). A core with a usable runtime descriptor
is then delegated, and slot 0 enters MAIN (R368). The native kernel's own instructions are the model's kernel events (log entry 10). -/
def State.startCore (s : State) (c : Nat) : State :=
  let s1 := s.modCore c (fun x => { x with started := true, deleg := none, wdog := s.gtcCore c, lbTick := s.gtcCore c / 16384 })
  let native := s1.setSlot (16 * c) ({ s.rootStart c with kern := some .self }.setP 0 Config.kernelCode)
  match s.partOf (clOfCore c) with
  | none => native
  | some p =>
    let r := s.cfg (dieOfCore c) p 0x098
    if !bitAt r 63 then native
    else match s.runtimeOf c p with
      | none => native.logPart (dieOfCore c) p (evEntry (srcOfCore c) 0x79 4 3 (natW (srcOfCore c)) (natW (wf r 5 47 * 32)))
      | some (p0, p1, main, rtv, wtv, asid, save) =>
        let x := { s.rootStart c with pc := main, tvec := rtv, status := 0x11, asid := asid }
        (s1.modCore c (fun y => { y with deleg := some ⟨p0, wtv⟩, k := mset 0 (mset 0 y.k 4 0x0800) 5 save })).setSlot (16 * c) ((x.setP 0 p0).setP 1 p1)
/-- What the native kernel's strand does for itself: it lowers itself from F to S, and it takes an interrupt that is latched at its slot, whose bit this
clears, and returns (R354, R488). -/
def State.rootStep (s : State) (k : Nat) : State :=
  let x := s.slot k
  if x.priv = 2 then s.modSlot k (fun y => { y with status := 1 })
  else match (if bitAt x.ip 4 then some 0x84 else if bitAt x.ip 2 then some 0x82 else if bitAt x.ip 3 then some 0x83 else none : Option Nat) with
    | some code => ((s.takeIrq k code).eretRestore k).modSlot k (fun y => { y with pc := x.pc, kern := some .self })
    | none => s
/-- Event CORE_RETURN_TO_SERVICE (R477, steps 5 and 6): fewer than three failures stand within 10^9 ticks. -/
def execCoreReturnToService (core : Nat) (s : State) : Host.Outcome State Fault Refusal :=
  .next (let x := s.core core
    if x.quarantined && decide ((x.fails.filter (fun t => decide (s.gtcCore core < t + 10 ^ 9))).length < 3) then
      let s1 := (List.range 8).foldl (fun t j => t.zeroSeg core j) s
      let s2 := s1.modCore core (fun y => { y with quarantined := false, k := [], kold := [], kpois := [] })
      (kernLog s2 core 0x73 2 0 0).startCore core
    else s)

/-! ### Aborts (R386) -/

/-- A task that the kernel ends: one entry, and its slot is reaped. -/
def State.endTask (s : State) (k : Nat) : State := (kernLog s (coreOf k) 0x01 1 0 0).retire k 0 false
/-- The abort of what runs in a slot. -/
def State.abortSlot (s : State) (k : Nat) : State :=
  match (s.slot k).job with
  | .gang g _ | .handler g => s.abortGang g
  | .task .. => s.endTask k
  | _ => if slotNo k = 0 then s.failCore (coreOf k) 1 else s.retire k 0 false

/-! ### Page faults (R336, R444, R445) -/

def State.ringSize (s : State) (d p : Nat) : Nat := 128 * 2 ^ Nat.min 4 (wf (s.cfg d p 0x028) 8 3)
def State.outstanding (s : State) (d p : Nat) : List FaultRec := mget [] (s.die d).faults p
/-- Can a record be written now. -/
def State.ringRoom (s : State) (d p : Nat) : Bool := bitAt (s.cfg d p 0x028) 11 && decide ((s.outstanding d p).length < s.ringSize d p)
/-- Where the strand of a fault record stands: it waits in its slot for the ring, or for the answer to an index (R336). -/
def State.faultPlace (s : State) (k : Nat) (a : Await) : Place := s.placeOf k (fun j x => j == k && x.park.any (fun p => p.on == a))
/-- Writes a fault record and raises the ring's vector; the strand then awaits the answer to its index. -/
def State.postFault (s : State) (d p : Nat) (r : FaultRec) : State :=
  let x := mget 0 (s.die d).frNext p % 65536
  let ctl := s.cfg d p 0x028
  let a := wf ctl 12 40 * 4096 + 32 * (x % s.ringSize d p)
  let y := s.slot r.slot
  let w8 := srcOfSlot r.slot + r.acc * 2 ^ 16 + y.asid % 4096 * 2 ^ 20 + s.gangNo r.slot * 2 ^ 32
  let v := r.at_ + w8 * 2 ^ 64 + r.va.toNat * 2 ^ 128 + r.fmask.toNat * 2 ^ 192
  let s1 := s.cwrite (some p) d a 32 v
  let s2 := s1.modDie d (fun z => { z with faults := mput z.faults p (mget [] z.faults p ++ [{ r with idx := x }]), frNext := mput z.frNext p (x + 1) })
  (s2.emit (.msix p (wf ctl 0 8))).modPlace (s2.faultPlace r.slot .faultRing) (fun z => { z with phase := .parked, park := some ⟨.fault x, 0, 0, false, 0⟩, kern := none })
/-- Forwards a page fault: the strand waits for the ring, which takes the record at once when it has room. -/
def State.forward (s : State) (k acc : Nat) : State :=
  let x := s.slot k
  let d := dieOfSlot k
  let p := s.partOfSlot k
  let r : FaultRec := ⟨k, x.gen, 0, acc, x.tval, x.fmask, s.gtcOf d % 2 ^ 64⟩
  let s1 := s.modSlot k (fun z => { z with phase := .parked, park := some ⟨.faultRing, 0, 0, false, 0⟩, kern := none })
  if s1.ringRoom d p then s1.postFault d p r else s1.modDie d (fun z => { z with faultq := mput z.faultq p (mget [] z.faultq p ++ [r]) })
/-- Does the strand of a record still wait for the ring. -/
def State.faultLive (s : State) (r : FaultRec) : Bool := s.faultPlace r.slot .faultRing != .gone
/-- Changes the strand that waits on `a` where its partition is swapped out, in its context (R338). -/
def State.modAway (s : State) (k : Nat) (a : Await) (f : Slot → Slot) : State :=
  (List.range 4).foldl (fun t d => t.modDie d (fun y => { y with swaps := y.swaps.map (fun w => { w with
    slots := w.slots.map (fun e => if e.1 = k ∧ e.2.park.any (fun p => p.on == a) then (e.1, f e.2) else e) }) })) s
/-- Event FAULT_RING_RETRY: every 4,096 ticks the waiting records are tried again in order. -/
def State.retryRing (s : State) (d p : Nat) : Nat → State
  | 0 => s
  | n + 1 =>
    match mget [] (s.die d).faultq p with
    | [] => s
    | r :: t =>
      if !s.ringRoom d p || s.paused d p then s
      else
        let s1 := s.modDie d (fun z => { z with faultq := mput z.faultq p t })
        (if s.faultLive r then s1.postFault d p r else s1).retryRing d p n
def execFaultRingRetry (die part : Nat) (s : State) : Host.Outcome State Fault Refusal := .next (s.retryRing die part (mget [] (s.die die).faultq part).length)
/-- Event FRREPLY: the answer to an outstanding record, applied when its strand is resident. -/
def State.reply (s : State) (d p : Nat) (v : W64) : State :=
  let st := wf v 16 2
  match (s.outstanding d p).find? (fun r => r.idx == wf v 0 16) with
  | none => s
  | some r =>
    if st = 3 then s
    else
      let s1 := s.modDie d (fun z => { z with faults := mput z.faults p ((mget [] z.faults p).filter (fun q => q.idx != r.idx)) })
      let f (z : Slot) : Slot := { z with kern := some (if st = 0 then .resume else if st = 1 then .deny else .abort) }
      match s1.faultPlace r.slot (.fault r.idx) with
      | .gone => s1.modAway r.slot (.fault r.idx) f
      | p => s1.modPlace p f
def execFrreply (die part : Nat) (v : W64) (s : State) : Host.Outcome State Fault Refusal := .next (s.reply die part v)

/-! ### Pre-emption, lent slots and ready tasks (R61, R333, R337, R364) -/

/-- Has the wait of a held strand ended. -/
def State.heldMet (s : State) (k : Nat) (img : Slot) : Bool :=
  match img.phase, img.park with
  | .parked, some p =>
    let t := s.setSlot k { img with held := none }
    t.awaitMet k p.on || (img.orphan p.on).isSome || img.seqRep.isSome || img.kern.isSome || (p.on == .inbox && (s.core (coreOf k)).heldq.any (t.msgFor k))
  | _, _ => true
/-- A lent slot without a borrower is Spilled for its held strand again, and the strand is reloaded when the pool has room. -/
def State.unlend (s : State) (k : Nat) : State :=
  let x := s.slot k
  match x.held with
  | none => s
  | some (a, g) =>
    match s.saveAt k a with
    | none => s.setSlot k { x with held := none, phase := .free }
    | some img =>
      let t := s.setSlot k { Slot.reset with phase := .spilled, job := img.job, gen := g, savea := a, budget := img.budget, width := img.width, segs := img.segs, asid := img.asid }
      let (st, u) := t.loadFrom k
      if st = 0 then u else s
/-- A slot whose strand has gone: Free, or Spilled for its held strand, with that strand's save-area address back in SAVEA (R364). -/
def Slot.emptied (x : Slot) : Option (W64 × Nat) → Slot
  | some h => { x with phase := .spilled, held := some h, savea := h.1 }
  | none => { x with phase := .free, held := none }
/-- R337, steps 1 to 3: the task's state goes to its save area, STATE becomes 4, and the task is queued again; the slot is Free, or its held strand's. -/
def State.preempt (s : State) (k : Nat) : State :=
  match (s.slot k).job with
  | .task c i _ =>
    let x := s.slot k
    let s1 := s.setSlot k { x with kern := some .resume }
    let s2 := (s1.setRecState c i 4).spillTo k (kernelArea c i)
    (s2.modSlot k (fun y => { Slot.reset with gen := y.gen, savea := y.savea }.emptied x.held)).rqEnter c i
  | _ => s.modSlot k (fun y => { y with kern := some .resume })
/-- Event SPILL: the spill engine moves a pre-empted task's state to its save area (R45, R337). -/
def execSpill (slot : Nat) (s : State) : Host.Outcome State Fault Refusal :=
  .next (if (s.slot slot).kern = some .preempt then s.preempt slot else s)
/-- The trap return that the kernel performs for a strand. -/
def State.kernReturn (s : State) (k : Nat) : State :=
  match s.eretStep k with
  | .ok t => t
  | .error e => s.stop k (natW 0xD200000000000000) (s.slot k).m0 e
/-- Serves the trap of a slot (R386, R488). -/
def State.kernStep (s : State) (k : Nat) : State :=
  let x := s.slot k
  match x.kern with
  | none => s
  | some .abort => s.abortSlot k
  | some (.fault acc) => s.forward k acc
  | some .preempt => s.preempt k
  | some .self => s.rootStep k
  | some .deny =>
    let s1 := (s.setSlot k { x with phase := .running, park := none, kern := none }).eretRestore k
    s1.takeTrap k 0x07 x.epc.toNat x.tval x.fmask 0
  | some .resume =>
    let code := wf x.cause 0 8
    let ie := if code = 0x81 ∨ code = 0x80 ∧ !x.job.isTask then setBit x.ie (code - 0x80) false else x.ie
    (s.setSlot k { x with phase := .running, park := none, ie := ie }).kernReturn k
/-- Event SLOT_FREED: a halted slot is Free; a lent slot awaits another borrower, or its held strand. -/
def State.freeSlot (s : State) (k : Nat) : State :=
  if (s.slot k).phase ≠ .halted then s
  else s.modSlot k (fun x => { x with pairOf := none, kern := none }.emptied x.held)
def execSlotFreed (slot : Nat) (s : State) : Host.Outcome State Fault Refusal := .next (s.freeSlot slot)
/-- Slots that a placed gang will take at its release. -/
def State.slotReserved (s : State) (c j : Nat) : Bool :=
  ((s.core c).gang.bind s.gang?).any (fun g => !g.released && decide (1 ≤ (if lrWidth g.lrec = 64 then j % 8 else j) ∧ (if lrWidth g.lrec = 64 then j % 8 else j) ≤ g.S))
/-- May the kernel start a task in a slot now: it is Free, or lent and without a borrower, while the wait of its held strand has not ended (R364). -/
def State.usable (s : State) (c j : Nat) : Bool :=
  let x := s.slot (16 * c + j)
  !s.slotReserved c j && x.pairOf.isNone && !(j == 15 && s.msgSlot c) && 
    (x.phase == .free || x.phase == .spilled && x.held.any (fun h => (s.saveAt (16 * c + j) h.1).any (fun img => !s.heldMet (16 * c + j) img)))
def State.anyFree (s : State) (c : Nat) : Bool := (List.range 16).any (fun j => j != 0 && s.usable c j)
/-- A full quantum at a start or a resumption (R337). -/
def State.quantum (s : State) (k : Nat) : State :=
  let q := wf (s.cfg (dieOfSlot k) (s.partOfSlot k) 0x048) 0 32
  s.modSlot k (fun x => if q = 0 then { x with ie := setBit x.ie 0 false, timecmp := BitVec.allOnes 64 }
    else { x with ie := setBit x.ie 0 true, timecmp := natW (s.gtcAt k + q) })
/-- The save area of a pre-empted task. -/
def State.taskSave (s : State) (c i : Nat) : Option Save := s.saves.find? (fun v => v.addr == kernelArea c i)
/-- Reloads a pre-empted task into slot `k`; it keeps the name of its first start (R289, R335). -/
def State.reloadTask (s : State) (k : Nat) (v : Save) : Nat × State :=
  let x := s.slot k
  let img := { v.img with gen := x.gen, held := x.held, born := some (v.img.bornAt v.slot) }
  let s1 := { s with saves := s.saves.map (fun w : Save => if w.addr = v.addr then { w with slot := k, img := img } else w) }
  let s2 := s1.setSlot k { Slot.reset with phase := .spilled, job := img.job, gen := x.gen, savea := v.addr, budget := img.budget, width := img.width, segs := img.segs, asid := img.asid, held := x.held }
  s2.loadFrom k
/-- Starts or resumes the first ready task of a core in a usable slot; nothing when the pool is short. -/
def State.dispatch (s : State) (c : Nat) : State :=
  match (List.range 16).find? (fun j => j != 0 && s.usable c j), s.rqPop c 15 with
  | some j, some (h, s1) =>
    let k := 16 * c + j
    let i := wf h 16 9
    let (st, s2) := match s.taskSave c i with
      | some v => s1.reloadTask k v
      | none => s1.startTask k h
    if st = 0 then s2.quantum k else s
  | _, _ => s
def State.readyTask (s : State) (c : Nat) : Bool := (s.core c).rq.any (fun q => !q.isEmpty)
/-- A gang strand that has been parked for 262,144 resident ticks on anything but a memory reply or a page fault. -/
def State.longWait (s : State) (k : Nat) : Bool :=
  let x := s.slot k
  match x.phase, x.park, x.job with
  | .parked, some p, .gang .. => p.on.wkind != 17 && decide (262144 ≤ p.ticks) && x.pairOf.isNone && x.held.isNone
  | _, _, _ => false
/-- Event LONG_WAIT_SPILL (R333): a queued task and no Free slot lend the slot. -/
def State.lendDue (s : State) (k : Nat) : Bool :=
  let c := coreOf k
  s.longWait k && (s.core c).native && s.readyTask c && !s.anyFree c
def State.lend (s : State) (k : Nat) : State :=
  let a := kernelArea (coreOf k) (512 + slotNo k)
  let x := s.slot k
  (s.spillTo k a).modSlot k (fun y => { Slot.reset with phase := .spilled, gen := y.gen, savea := x.savea, held := some (a, x.gen) })
def execLongWaitSpill (slot : Nat) (s : State) : Host.Outcome State Fault Refusal := .next (if s.lendDue slot then s.lend slot else s)
/-- The root's service of a lent slot whose held strand's wait has ended: IP.PREQ to the borrower, or the reload. -/
def State.serveLent (s : State) (k : Nat) : State :=
  let x := s.slot k
  match x.phase with
  | .running | .parked => s.raiseIp k 4
  | .spilled => s.unlend k
  | _ => s
def State.lentDue (s : State) (k : Nat) : Bool :=
  let x := s.slot k
  match x.held with
  | none => false
  | some (a, _) => (match s.saveAt k a with
    | some img => s.heldMet k img && (x.phase == .spilled && s.poolFits (coreOf k) img.entries || (x.phase == .running || x.phase == .parked) && !bitAt x.ip 4 && x.kern.isNone && !x.th)
    | none => x.phase == .spilled)

/-! ### Load balancing (R334) -/

/-- Is record `i` of core `c` a task that another core moved there (R334). -/
def State.movedIn (s : State) (c i : Nat) : Bool := (mkeys s.cores).any (fun h => (s.core h).fwd.any (fun f => f.core == c && f.idx2 == i))
/-- The load figure: home tasks in STATE 1 or 2; the home record of a task that moved away keeps STATE 2 until its exit (R334). -/
def State.loadFigure (s : State) (c : Nat) : Nat :=
  ((mkeys (s.core c).tctx).filter (fun i => (s.ctx c i).live && !s.movedIn c i && [1, 2].contains (recState (s.trec c i 0)))).length
/-- Grid neighbours in the partition, up, down, left, right (R14). -/
def State.neighbours (s : State) (c : Nat) : List Nat :=
  let r := gridRow c
  let k := gridCol c
  let d := dieOfCore c
  ((if 0 < r then [gridCore d (r - 1) k] else []) ++ (if r < 15 then [gridCore d (r + 1) k] else []) ++
    (if 0 < k then [gridCore d r (k - 1)] else []) ++ (if k < 23 then [gridCore d r (k + 1)] else [])).filter
    (fun n => (s.core n).native && s.partOf (clOfCore n) == s.partOf (clOfCore c))
/-- The task to move: of the lowest priority with one, the most recently queued of MOVE 0 on its home core that has not run. -/
def State.movable (s : State) (c : Nat) : Option (Nat × W64) :=
  [0, 1, 2, 3].findSome? (fun p =>
    ((rqOf (s.core c) p).reverse.find? (fun h =>
      let i := wf h 16 9
      wf (s.trec c i 0) 42 2 == 0 && !s.movedIn c i && (s.taskSave c i).isNone)).map (fun h => (p, h)))
/-- Moves one task to a neighbour; skipped when it has no free index or the forward table is full. The move is a release and an acquire, so that the
task's first instruction follows the decrement that made it ready (R153). -/
def State.moveTask (s : State) (c n : Nat) : State :=
  match s.movable c, ((List.range 384).map (· + 64)).find? (fun i => !(s.ctx n i).live) with
  | some (p, h), some j =>
    if 64 ≤ (s.core c).fwd.length then s
    else
      let i := wf h 16 9
      let ctx := s.ctx c i
      let s1 := s.modCore c (fun x => { x with rq := setNth x.rq p ((rqOf x p).erase h), fwd := x.fwd ++ [⟨i, s.recGen c i, n, j⟩] })
      let s2 := (List.range 8).foldl (fun t w => t.setRec n j w (s.trec c i w)) s1
      ((((s2.modCore n (fun x => { x with tctx := mput x.tctx j ctx })).rqEnter n j).rqFill c p).wbAllL1 c).acqL1 n
  | _, _ => s
/-- One core's moves by the figures taken at the exchange. -/
def State.balance (s : State) (figs : List (Nat × Nat)) (c : Nat) : State :=
  let mine := mget 0 figs c
  (s.neighbours c).foldl (fun t n =>
    let theirs := mget 0 figs n
    if theirs + 2 ≤ mine then (List.range (Nat.max 1 ((mine - theirs) / 5))).foldl (fun u _ => u.moveTask c n) t else t) s
/-- Event LOAD_BALANCE_EXCHANGE. -/
def State.exchangeDue (s : State) : Bool := (mkeys s.cores).any (fun c => (s.core c).native && decide ((s.core c).lbTick < s.gtcCore c / 16384))
def execLoadBalanceExchange (s : State) : Host.Outcome State Fault Refusal :=
  .next (if !s.exchangeDue then s else
    let cs := (mkeys s.cores).filter (fun c => (s.core c).native)
    let figs := cs.map (fun c => (c, s.loadFigure c))
    let s1 := cs.foldl (fun t c => t.balance figs c) s
    cs.foldl (fun t c => t.modCore c (fun x => { x with lbTick := s.gtcCore c / 16384 })) s1)

end Sys2Proof.Machine
end

