-- ==== Sys2Proof/Machine/EvQueue.lean ====
section
/-! DEFINITION. The front end: queues and their packets, seed trays, arbitration, placement and release of gangs, signals and doorbells
(R53, R54, R176, R200, R306, R319 to R331, R342, R348, R424, R473, R474, R487). -/

namespace Sys2Proof.Machine

/-! ### Queues and descriptors (R319, R324, R473) -/

def State.queue? (s : State) (d p q : Nat) : Option Queue := (s.die d).queues.find? (fun e => e.part == p && e.q == q)
/-- The die whose front end serves a queue. -/
def State.queueDie (s : State) (p q : Nat) : Option Nat := (List.range 4).find? (fun d => (s.queue? d p q).isSome)
def State.modQueue (s : State) (d p q : Nat) (f : Queue → Queue) : State :=
  s.modDie d (fun x => { x with queues := x.queues.map (fun e => if e.part == p && e.q == q then f e else e) })
/-- Word `j` of a descriptor. -/
def State.qWord (s : State) (d p q j : Nat) : W64 := s.rd64 (s.qdesc d p q + 8 * j)
def State.setQWord (s : State) (d p q j : Nat) (v : W64) : State := s.cwrite (some p) d (s.qdesc d p q + 8 * j) 8 v.toNat
def State.rdIdx (s : State) (d p q : Nat) : Nat := (s.qWord d p q 2).toNat
def State.qAsid (s : State) (d p q : Nat) : Nat := wf (s.qWord d p q 1) 10 12
/-- The largest value written to a queue's notify line (R321). -/
def State.kick (s : State) (d p q : Nat) : Nat := (s.rd64 (wf (s.cfg d p 0x020) 18 34 * 262144 + 64 * wf (s.qWord d p q 1) 22 12)).toNat
def State.maxPrio (s : State) (d p : Nat) : Nat := wf (s.cfg d p 0x068) 62 2
/-- A queue's priority, limited by MAXPRIO (R325). -/
def State.qPrio (s : State) (d p q : Nat) : Nat := Nat.min (wf (s.qWord d p q 1) 6 2) (s.maxPrio d p)
/-- Source number of a die's front end (R24). -/
def srcOfFe (d : Nat) : Nat := srcOfUnit d 19 0
/-- Stops a queue (R473): ERR, unmapped, RDIDX at the failing packet, event 0x70. -/
def State.stopQueue (s : State) (d p q reason : Nat) : State :=
  let s1 := s.setQWord d p q 3 (setBit (s.qWord d p q 3) 1 true)
  let s2 := s1.modQueue d p q (fun e => { e with mapped := false, asked := 0 })
  s2.logPart d p (evEntry (srcOfFe d) 0x70 4 3 (natW (reason * 65536 + q)) (natW (s.rdIdx d p q)))
/-- Advances past the packet at the head. -/
def State.advanceQ (s : State) (d p q : Nat) : State :=
  let s1 := s.setQWord d p q 2 (natW (s.rdIdx d p q + 1))
  let w3 := s1.qWord d p q 3
  let s2 := if bitAt w3 0 then s1.setQWord d p q 3 (setBit w3 0 false) else s1
  { s2.modQueue d p q (fun e => { e with idle := s2.nextMsg + 1, wait := none, met := false, edge := false, flushing := false, edgeR := [], blocked := false }) with
    nextMsg := s2.nextMsg + 1 }
/-- Parks a queue on WAIT or EDGE: it is unmapped at once (R324). -/
def State.parkQ (s : State) (d p q : Nat) (f : Queue → Queue) : State :=
  (s.setQWord d p q 3 (setBit (s.qWord d p q 3) 0 true)).modQueue d p q (fun e => { f e with mapped := false, asked := 0 })
/-- Is there no work between RDIDX and the kick value (R324). -/
def State.idleQ (s : State) (d : Nat) (e : Queue) : Bool := s.kick d e.part e.q == s.rdIdx d e.part e.q

/-! ### Packets (R320) -/

/-- Bits that word `j` of a packet of a kind may hold. -/
def packetMask (kind j : Nat) : W64 :=
  match kind, j with
  | 1, 0 => 0xFF
  | 1, 1 => 0x00FFFFFFFFFFFF00
  | 2, 0 => 0x3FF
  | 2, 1 | 3, 1 => 0xFFF
  | 2, 2 | 3, 2 => 0xFFFFFFFFFFFFFFFF
  | 3, 0 => 0xFFF007FF
  | 4, 0 => 0xFF
  | 4, 1 | 4, 3 | 4, 5 => 0x00FFFFFFFFFFFFC0
  | 4, 2 | 4, 4 | 4, 6 => 0xFFFFFFFFFFFFFFC0
  | 5, 0 => 0x1FF
  | 5, 1 => 0x00FFFFFFFFFFFFF8
  | _, _ => 0
/-- Reasons 1 and 2 of R473. -/
def packetBad (ws : List W64) : Option Nat :=
  let w0 := lrw ws 0
  let kind := wf w0 0 8
  if kind = 0 ∨ 6 ≤ kind then some 1
  else if (List.range 8).any (fun j => lrw ws j &&& ~~~packetMask kind j != 0) then some 2
  else if kind = 2 ∧ wf w0 8 2 = 3 ∨ kind = 3 ∧ bitAt w0 10 ∧ Config.msixVectors ≤ wf w0 20 12 then some 2
  else none
/-- What stands at the head of a mapped queue: nothing to take, a defect with its reason, or a packet. -/
inductive Head where
  | idle
  | bad (reason : Nat)
  | pkt (ws : List W64)
/-- A descriptor with a nonzero reserved field or LOGN outside 4 to 16, which the device rejects (R6, R319; reason 2 of R473, log entry 60). -/
def State.descBad (s : State) (d p q : Nat) : Bool :=
  let w0 := s.qWord d p q 0
  let w1 := s.qWord d p q 1
  wf w0 52 12 != 0 || wf w0 0 6 != 0 || wf w1 34 30 != 0 || wf (s.qWord d p q 3) 2 62 != 0 ||
    [4, 5, 6, 7].any (fun j => s.qWord d p q j != 0) || wf w1 1 5 < 4 || 16 < wf w1 1 5
def State.headOf (s : State) (d p q : Nat) : Head × State :=
  let w1 := s.qWord d p q 1
  let n := 2 ^ wf w1 1 5
  let rd := s.rdIdx d p q
  if !bitAt (s.cfg d p 0) 0 ∨ s.paused d p ∨ !bitAt w1 0 ∨ bitAt (s.qWord d p q 3) 1 ∨ !(s.queue? d p q).any (fun e => e.mapped) then (.idle, s)
  else if s.descBad d p q then (.bad 2, s)
  else if rd + n < s.kick d p q then (.bad 3, s)
  else if s.kick d p q ≤ rd then (.idle, s)
  else
    let (st, v, s1) := s.cread (some p) d (wf (s.qWord d p q 0) 6 46 * 64 + 64 * (rd % n)) 64
    if st ≠ 0 then (.bad 4, s1)
    else
      let ws := (List.range 8).map (fun j => natW (v / 2 ^ (64 * j)))
      match packetBad ws with
      | some r => (.bad r, s1)
      | none => (.pkt ws, s1)
/-- A signal's die does not hold the partition or is isolated: reason 6 of R473. -/
def State.signalBad (s : State) (p idx : Nat) : Bool := !bitAt (s.cfg (idx / 1024 % 4) p 0) 0 || (s.die (idx / 1024 % 4)).isolated
/-- Processes the head of a mapped queue when it is a packet of a kind; a defective head stops the queue. -/
def State.withHead (s : State) (p q kind : Nat) (f : Nat → Queue → List W64 → State → State) : State :=
  match s.queueDie p q with
  | none => s
  | some d =>
    match s.queue? d p q, s.headOf d p q with
    | some _, (.bad r, s1) => s1.stopQueue d p q r
    | some e, (.pkt ws, s1) => if wf (lrw ws 0) 0 8 = kind then f d e ws s1 else s
    | _, _ => s

/-! ### Kicks, registration and mapping (R319, R321, R324, R474) -/

/-- Event NOTIFY_KICK: a write of bytes 0 to 7 of line `q` of the partition's notify window, performed at the page's home (R348). -/
def execNotifyKick (part q : Nat) (v : W64) (s : State) : Host.Outcome State Fault Refusal :=
  .next (match s.diesOf part with
    | [] => s
    | d :: _ =>
      let pa := wf (s.cfg d part 0x020) 18 34 * 262144 + 64 * (q % 4096)
      let h := s.homeOf pa
      if !bitAt (s.cfg d part 0x020) 0 then s
      else if !s.reach h pa then s.unreachEvent (some part) h pa
      else (((s.grabBlk h (blkOf pa)).ckptHold pa).touchLine pa).notifyWrite d part (q % 4096) pa 8 v.toNat 255)
/-- Event QUEUE_REGISTER: V = 1 is written with the ring and the control word, after V = 0; ERR and PARKED clear, RDIDX stays as written. -/
def execQueueRegister (part q : Nat) (ring ctl : W64) (s : State) : Host.Outcome State Fault Refusal :=
  .next (match s.diesOf part with
    | [] => s
    | d :: _ => ((s.setQWord d part q 0 ring).setQWord d part q 1 (setBit ctl 0 false)).setQWord d part q 1 (setBit ctl 0 true))
/-- Event QUEUE_REMOVE: V = 0 is written, while the queue is empty and not parked, or stopped. -/
def execQueueRemove (part q : Nat) (s : State) : Host.Outcome State Fault Refusal :=
  .next (match s.diesOf part with
    | [] => s
    | d :: _ =>
      let w1 := s.qWord d part q 1
      let w3 := s.qWord d part q 3
      if bitAt w1 0 ∧ (bitAt w3 1 ∨ s.kick d part q ≤ s.rdIdx d part q ∧ !bitAt w3 0) then s.setQWord d part q 1 (setBit w1 0 false) else s)
/-- The queue that has been idle longest among those of a selection. -/
def State.idlest (s : State) (d : Nat) (sel : Queue → Bool) : Option Queue :=
  ((s.die d).queues.filter (fun e => e.mapped && sel e && s.idleQ d e)).foldl (fun b e => match b with
    | none => some e
    | some x => if e.idle < x.idle then some e else b) none
/-- The slot that a queue of a partition can have: `none` when there is none, else the queue to unmap for it, if one must go. -/
def State.slotFor (s : State) (d p : Nat) : Option (Option Queue) :=
  let used := (s.die d).queues.filter (fun e => e.mapped)
  if wf (s.cfg d p 0x068) 48 8 ≤ (used.filter (fun e => e.part == p)).length then (s.idlest d (fun e => e.part == p)).map some
  else if 64 ≤ used.length then (s.idlest d (fun _ => true)).map some
  else some none
/-- Is an earlier or higher request servable before that of `e`. -/
def State.mapFirst (s : State) (d : Nat) (e : Queue) : Bool :=
  (s.die d).queues.all (fun x => x.asked == 0 || x.mapped || (s.slotFor d x.part).isNone ||
    decide (s.qPrio d x.part x.q < s.qPrio d e.part e.q) || s.qPrio d x.part x.q == s.qPrio d e.part e.q && decide (e.asked ≤ x.asked))
/-- Event QUEUE_MAP: the first servable request takes a slot. -/
def State.mapQueue (s : State) (p q : Nat) : State :=
  match s.queueDie p q with
  | none => s
  | some d =>
    match s.queue? d p q, s.slotFor d p with
    | some e, some out =>
      if e.mapped || e.asked == 0 || !s.mapFirst d e then s
      else
        let s1 := match out with
          | some x => s.modQueue d x.part x.q (fun y => { y with mapped := false })
          | none => s
        s1.modQueue d p q (fun y => { y with mapped := true, asked := 0 })
    | _, _ => s
def execQueueMap (part q : Nat) (s : State) : Host.Outcome State Fault Refusal := .next (s.mapQueue part q)

/-! ### WAIT, SIGNAL, MARK, EDGE (R322, R323, R176) -/

def execWait (part q : Nat) (s : State) : Host.Outcome State Fault Refusal :=
  .next (s.withHead part q 2 (fun d e ws t =>
    let idx := wf (lrw ws 1) 0 12
    let cond := wf (lrw ws 0) 8 2
    if t.signalBad part idx then t.stopQueue d part q 6
    else if e.met || condHolds cond (t.signal part idx) (lrw ws 2) then t.advanceQ d part q
    else t.parkQ d part q (fun y => { y with wait := some (idx, cond, lrw ws 2) })))
def execSignal (part q : Nat) (s : State) : Host.Outcome State Fault Refusal :=
  .next (s.withHead part q 3 (fun d e ws t =>
    let w0 := lrw ws 0
    let idx := wf (lrw ws 1) 0 12
    if t.signalBad part idx then t.stopQueue d part q 6
    else if bitAt w0 8 && !e.gangs.isEmpty then t
    else
      let t1 := t.setSignal part idx (if bitAt w0 9 then t.signal part idx + lrw ws 2 else lrw ws 2)
      (if bitAt w0 10 then t1.emit (.msix part (wf w0 20 12)) else t1).advanceQ d part q))
def execMark (part q : Nat) (s : State) : Host.Outcome State Fault Refusal :=
  .next (s.withHead part q 5 (fun d e ws t =>
    let va := (lrw ws 1).toNat
    if bitAt (lrw ws 0) 8 && !e.gangs.isEmpty then t
    else match t.walk d part (t.qAsid d part q) va (accW 1) with
      | .error (_, t1) => t1.stopQueue d part q 5
      | .ok (_, _, x, t1) => (t1.cwrite (some part) d x.pa 8 (t1.gtcOf d)).advanceQ d part q))
/-- The physical pieces of a virtual range, page by page, with only validity required (R487). -/
def State.rangePas (s : State) (d p asid : Nat) (acc : Acc) (va len : Nat) : Nat → XR (List (Nat × Nat) × State)
  | 0 => .ok ([], s)
  | n + 1 =>
    if len = 0 then .ok ([], s)
    else do
      let m := Nat.min len (65536 - va % 65536)
      let (_, _, x, s1) ← s.walk d p asid va acc
      let (rs, s2) ← s1.rangePas d p asid acc (va + m) (len - m) n
      pure ((x.pa, m) :: rs, s2)
def pieces (va len : Nat) : Nat := (len + va % 65536) / 65536 + 1
/-- The pieces of several ranges. -/
def State.rangesPas (s : State) (d p asid : Nat) (acc : Acc) : List (Nat × Nat) → XR (List (Nat × Nat) × State)
  | [] => .ok ([], s)
  | (va, len) :: t => do
    let (a, s1) ← s.rangePas d p asid acc va len (pieces va len)
    let (b, s2) ← s1.rangesPas d p asid acc t
    pure (a ++ b, s2)
def edgeRanges (ws : List W64) : List (Nat × Nat) := ([1, 3, 5].map (fun j => ((lrw ws j).toNat, (lrw ws (j + 1)).toNat))).filter (fun r => r.2 != 0)
/-- L1 sectors of a core in physical ranges. -/
def State.l1Of (s : State) (c : Nat) (rs : List (Nat × Nat)) : List Nat :=
  (mkeys (s.core c).l1).filter (fun x => rs.any (fun r => decide (r.1 ≤ 64 * x) && decide (64 * x < r.1 + r.2)))
/-- Event EDGE: the packet parks the queue; its write-backs run once the producer has retired. -/
def execEdge (part q : Nat) (s : State) : Host.Outcome State Fault Refusal :=
  .next (s.withHead part q 4 (fun d e ws t =>
    if e.edge then t
    else match t.rangesPas d part (t.qAsid d part q) accValid (edgeRanges ws) with
      | .error (_, t1) => t1.stopQueue d part q 5
      | .ok (_, t1) =>
        let gone := match e.producer with
          | some g => !(t1.gang? g).any (fun x => !x.retired)
          | none => true
        t1.parkQ d part q (fun y => { y with edge := true, flushing := gone, edgeR := edgeRanges ws })))
/-- Event EDGE_FLUSH_COMPLETE: every core of every cluster that ran the producer has written back and invalidated the ranges; the packet is taken. -/
def State.flushEdge (s : State) (p q : Nat) : State :=
  match s.queueDie p q with
  | none => s
  | some d =>
    match s.queue? d p q with
    | none => s
    | some e =>
      if !e.flushing then s
      else
        let cls := match e.producer.bind s.gang? with
          | some g => g.clusters
          | none => []
        match s.rangesPas d p (s.qAsid d p q) accValid e.edgeR with
        | .error (_, s1) => s1.stopQueue d p q 5
        | .ok (rs, s1) =>
          let cs := cls.flatMap (fun l => (List.range 16).map (fun i => 16 * l + i))
          let s2 := cs.foldl (fun t c => (t.l1Of c rs).foldl (fun u x => u.flushSector c x) t) s1
          ((s2.advanceQ d p q).modQueue d p q (fun y => { y with ranges := y.ranges ++ e.edgeR })).askQueue d p q
def execEdgeFlushComplete (part q : Nat) (s : State) : Host.Outcome State Fault Refusal := .next (s.flushEdge part q)

/-! ### Reading launch records (R326, R327, R423, R487) -/

/-- A rejection: reason and offset of R423, with the state it leaves. -/
abbrev AR (α : Type) := Except (Nat × Nat × State) α
/-- `n` bytes of virtual memory, little-endian, as the front end reads them; reason 9 when it cannot. -/
def State.vread (s : State) (d p asid : Nat) (acc : Acc) (off va n : Nat) : AR (Nat × State) :=
  match s.rangePas d p asid acc va n (pieces va n) with
  | .error (_, s1) => .error (9, off, s1)
  | .ok (rs, s1) =>
    rs.foldlM (m := Except (Nat × Nat × State)) (fun (a : Nat × State × Nat) (r : Nat × Nat) =>
      let (st, v, t) := a.2.1.cread (some p) d r.1 r.2
      if st ≠ 0 then .error (9, off, t) else .ok (a.1 + v * 256 ^ a.2.2, t, a.2.2 + r.2)) (0, s1, 0) |>.map (fun a => (a.1, a.2.1))
def wordsOfNat (v n : Nat) : List W64 := (List.range n).map (fun j => natW (v / 2 ^ (64 * j)))
/-- Pointers p0, p1 and p14 of a GANG packet's module block; its reserved entry must be zero (R6, R327, log entry 59). -/
def State.modulePtrs (s : State) (d p : Nat) (l : List W64) : AR (List (BitVec 128) × State) := do
  let (v, s1) ← s.vread d p (wf (lrw l 0) 36 12) (accPld 1) 0x38 (wf (lrw l 7) 0 56) 64
  if v / 2 ^ 384 ≠ 0 then throw (1, 0x38, s1)
  pure ([0, 1, 2].map (fun j => BitVec.ofNat 128 (v / 2 ^ (128 * j))), s1)
/-- Pointers p0, p1 and p14 of a device-side launch: entries of its parent's p1, with the checks of `pld`. -/
def State.trayPtrs (s : State) (d p : Nat) (e : Tray) : AR (List (BitVec 128) × State) :=
  let b := wf (lrw e.lrec 7) 0 8
  [b, b + 1, b + 2].foldlM (m := Except (Nat × Nat × State)) (fun (a : List (BitVec 128) × State) (j : Nat) =>
    match if pSP e.p1 then none else checkAccess e.p1 (16 * j) 16 1 with
    | none => .error (6, 0x38, a.2)
    | some va => do
      let (v, t) ← a.2.vread d p e.asid (accPld 1) 0x38 va 16
      pure (a.1 ++ [BitVec.ofNat 128 v], t)) ([], s)
/-- Can a rectangle stand with its top-left core in a row and column, for the cores that `ok` allows. -/
def rectAt (d rows cols : Nat) (ok : Nat → Bool) (pos : Nat) : Bool :=
  let r := pos / 24
  let c := pos % 24
  decide (r + rows ≤ 16) && decide (c + cols ≤ 24) &&
    (List.range rows).all (fun i => (List.range cols).all (fun j => ok (gridCore d (r + i) (c + j))))
/-- Is a core free for a record's gang (R329). -/
def State.coreFree (s : State) (d p : Nat) (l : List W64) (c : Nat) : Bool :=
  let x := s.core c
  let n := (protoGang l []).S
  let w := lrWidth l
  let need := 8 * (8 * wf (lrw l 0) 20 5) * popcount (natW (slicesOf w)) * n
  dieOfCore c == d && s.partOf (clOfCore c) == some p && (s.cluster (clOfCore c)).enabled && x.started && !x.quarantined && x.gang.isNone && s.poolFits c need &&
    (List.range n).all (fun j => (s.slot (16 * c + 1 + j)).phase == .free && (w != 64 || (s.slot (16 * c + 9 + j)).phase == .free)) &&
    (!(protoGang l []).mlease || (s.cluster (clOfCore c)).lease.isNone)
/-- The first position of R329. -/
def State.placeFor (s : State) (d p : Nat) (l : List W64) : Option Nat :=
  (List.range 384).find? (rectAt d (protoGang l []).rows (protoGang l []).cols (s.coreFree d p l))
/-- Could the partition's clusters on the die ever hold the rectangle (R424). -/
def State.everFits (s : State) (d p : Nat) (l : List W64) : Bool :=
  (List.range 384).any (rectAt d (protoGang l []).rows (protoGang l []).cols (fun c => s.partOf (clOfCore c) == some p))
/-- An address-space entry that a launch may name (R115). -/
def State.asidOk (s : State) (d p asid : Nat) : Bool × State :=
  let (st, e, s1) := s.cread64 (some p) d (wf (s.cfg d p 0x018) 13 39 * 8192 + 8 * asid)
  (st == 0 && bitAt e 0 && wf e 1 12 == 0 && wf e 52 12 == 0, s1)
/-- A record that the front end accepts, as the gang it describes; the position is chosen later. -/
def State.admitGang (s : State) (d p : Nat) (l gt : List W64) (mods : State → AR (List (BitVec 128) × State)) : AR (Gang × State) := do
  let asid := wf (lrw l 0) 36 12
  let (ok, s1) := s.asidOk d p asid
  if !ok then throw (5, 0, s1)
  let (ps, s2) ← mods s1
  let ptr (j : Nat) : BitVec 128 := nth 0 ps j
  if !(pTag (ptr 0) && pHas (ptr 0) 5) || !(pTag (ptr 1) && pHas (ptr 1) 1) then throw (6, 0x38, s2)
  if groupsBad l gt then throw (3, 0x88, s2)
  let (img, s3) ← s2.vread d p asid (accR 1) 0x90 (wf (lrw l 18) 0 56) (wf (lrw l 19) 0 18)
  if !s3.everFits d p l then throw (8, 0, s3)
  pure ({ protoGang l gt with die := d, part := p, p0 := ptr 0, p1 := ptr 1, p14 := ptr 2, asid := asid, img := img }, s3)
/-- A rejected record: its log entry and its completion action (R424). -/
def State.rejectRec (s : State) (d p src : Nat) (tval : W64) (l : Option (List W64)) (reason off : Nat) : State :=
  let s1 := s.logPart d p (evEntry src 0x1A 4 2 tval (recDetail reason off))
  match l with
  | some r => if wf (lrw r 6) 0 2 = 3 then s1 else s1.complete p d r
  | none => s1

/-! ### Arbitration (R325) -/

/-- A head that could launch: key (a queue's number, or 4,096 + core), partition, priority, cores. -/
structure Cand where
  key : Nat
  part : Nat
  prio : Nat
  cost : Nat
deriving DecidableEq, Repr
/-- Is a gang of an origin placed and not yet released. -/
def State.placing (s : State) (f : Gang → Bool) : Bool := s.gangs.any (fun g => !g.released && !g.retired && f g)
def State.queueCand (s : State) (d : Nat) (e : Queue) : Option Cand :=
  if e.blocked || s.placing (fun g => g.queue == some e.q && g.part == e.part) then none
  else match (s.headOf d e.part e.q).1 with
    | .pkt ws =>
      if wf (lrw ws 0) 0 8 ≠ 1 then none
      else
        let l := match s.vread d e.part (s.qAsid d e.part e.q) (accR 1) 0x100 (lrw ws 1).toNat 8 with
          | .ok (v, _) => wordsOfNat v 1
          | .error _ => []
        some ⟨e.q, e.part, s.qPrio d e.part e.q, (protoGang l []).rows * (protoGang l []).cols⟩
    | _ => none
def State.trayCand (s : State) (d c : Nat) : Option Cand :=
  match (s.core c).tray, s.partOf (clOfCore c) with
  | e :: _, some p =>
    if e.blocked || s.paused d p || s.placing (fun g => g.tray == some c) then none
    else some ⟨4096 + c, p, Nat.min e.prio (s.maxPrio d p), (protoGang e.lrec []).rows * (protoGang e.lrec []).cols⟩
  | _, _ => none
def State.cands (s : State) (d : Nat) : List Cand :=
  (s.die d).queues.filterMap (s.queueCand d) ++ ((mkeys s.cores).filter (fun c => dieOfCore c == d)).filterMap (s.trayCand d)
/-- The next of a partition's candidates after the key served last, queues before trays. -/
def nextKey (l : List Cand) (last : Nat) : Option Cand :=
  let least (l : List Cand) : Option Cand := l.foldl (fun b e => match b with
    | none => some e
    | some x => if e.key < x.key then some e else b) none
  (least (l.filter (fun c => decide (last ≤ c.key)))).orElse (fun _ => least l)
/-- Deficit round-robin over partitions 0 to 15: deficits under 0 to 15, the partition in turn under 16, whether its round has begun under 17, and
one more than the key that each partition was served last under 32 + p. -/
def State.arbLoop (s : State) (d : Nat) (cs : List Cand) : Nat → SMap Nat → Option (Cand × SMap Nat)
  | 0, _ => none
  | n + 1, a =>
    let p := mget 0 a 16
    let mine := cs.filter (fun c => c.part == p)
    let def0 := if mine.isEmpty then 0 else if mget 0 a 17 = 0 then mget 0 a p + 16 * Nat.max 1 (wf (s.cfg d p 0x068) 8 8) else mget 0 a p
    let a1 := mset 0 (mset 0 a p def0) 17 1
    match nextKey mine (mget 0 a (32 + p)) with
    | some c => if c.cost ≤ def0 then some (c, mset 0 (mset 0 a1 p (def0 - c.cost)) (32 + p) (c.key + 1))
      else s.arbLoop d cs n (mset 0 (mset 0 a1 16 ((p + 1) % 16)) 17 0)
    | none => s.arbLoop d cs n (mset 0 (mset 0 a1 16 ((p + 1) % 16)) 17 0)
/-- The head that the front end of a die takes next, and the arbiter's state when it launches. -/
def State.arbPick (s : State) (d : Nat) : Option (Cand × SMap Nat) :=
  let cs := s.cands d
  let top := (cs.map (·.prio)).foldl Nat.max 0
  s.arbLoop d (cs.filter (fun c => c.prio == top)) 432 (s.die d).arb

/-! ### Placement (R329) -/

/-- The number after a gang's: the low 16 bits are its visible number, and 0xFFFF names no gang (R80, R382). -/
def gangAfter (n : Nat) : Nat := if n % 65536 = 65534 then n + 2 else n + 1
/-- Places a gang, or leaves its head to be passed over. -/
def State.place (s : State) (d p : Nat) (g : Gang) (arb : SMap Nat) (blocked : State → State) : State :=
  match s.placeFor d p g.lrec with
  | none => blocked s
  | some pos =>
    let x : Gang := { g with id := s.nextGang, row0 := pos / 24, col0 := pos % 24, live := List.range g.nStrands }
    let s1 : State := { s with gangs := s.gangs ++ [x], nextGang := gangAfter s.nextGang }
    let s2 := x.cores.foldl (fun t c => t.modCore c (fun y => { y with gang := some x.id })) s1
    let s3 := if x.mlease then x.clusters.foldl (fun t c => t.modCluster c (fun y => { y with lease := some x.id })) s2 else s2
    s3.modDie d (fun y => { y with arb := arb })
/-- Event GANG: the launch record of the packet that the arbiter picks is read and its gang placed. -/
def execGang (part q : Nat) (s : State) : Host.Outcome State Fault Refusal :=
  .next (s.withHead part q 1 (fun d e ws t =>
    match t.arbPick d with
    | none => t
    | some (c, arb) =>
      if c.key ≠ q ∨ c.part ≠ part then t
      else
        let va := (lrw ws 1).toNat
        let reject (u : State) (l : Option (List W64)) (r off : Nat) : State :=
          ((u.rejectRec d part (srcOfFe d) (natW va) l r off).advanceQ d part q).modQueue d part q (fun y => { y with ranges := [] })
        match t.vread d part (t.qAsid d part q) (accR 1) 0x100 va 256 with
        | .error (r, off, u) => reject u none r off
        | .ok (v, t1) =>
          let l := wordsOfNat v 32
          let gc := wf (lrw l 17) 56 8
          match recordBad l false with
          | some (r, off) => reject t1 (some l) r off
          | none =>
            match t1.vread d part (wf (lrw l 0) 36 12) (accR 1) 0x88 (wf (lrw l 17) 0 56) (8 * gc) with
            | .error (r, off, u) => reject u (some l) r off
            | .ok (gv, t2) =>
              match t2.admitGang d part l (wordsOfNat gv gc) (fun u => u.modulePtrs d part l) with
              | .error (r, off, u) => reject u (some l) r off
              | .ok (g, t3) => t3.place d part { g with prio := c.prio, queue := some q, ranges := e.ranges } arb
                  (fun u => u.modQueue d part q (fun y => { y with blocked := true }))))
/-- Launch transport failed: event 0x71, for the front end or the issuing core (R467, R475). -/
def State.transportFailed (s : State) (d p who g : Nat) : State :=
  s.logPart d p { evEntry (srcOfFe d) 0x71 4 3 (natW who) 0 with gang := g }
/-- Event SEED_TRAY_DRAIN: the front end reads the oldest entry of a core's seed tray and places its gang, or drops it; an entry read with an uncorrectable
error is dropped without a completion action (R475). -/
def State.drainTray (s : State) (core : Nat) : State :=
  let d := dieOfCore core
  match (s.core core).tray, s.arbPick d with
  | e :: _, some (c, arb) =>
    if c.key ≠ 4096 + core then s
    else if e.bad then (s.transportFailed d c.part (srcOfCore core) 65535).modCore core (fun y => { y with tray := y.tray.drop 1 })
    else match s.admitGang d c.part e.lrec e.gtab (fun u => u.trayPtrs d c.part e) with
      | .error (r, off, u) =>
        (u.rejectRec d c.part (srcOfSlot e.slot) (natW e.ls) (some e.lrec) r off).modCore core (fun y => { y with tray := y.tray.drop 1 })
      | .ok (g, t) => t.place d c.part { g with prio := c.prio, tray := some core } arb
          (fun u => u.modCore core (fun y => { y with tray := { e with blocked := true } :: y.tray.drop 1 }))
  | _, _ => s
def execSeedTrayDrain (core : Nat) (s : State) : Host.Outcome State Fault Refusal := .next (s.drainTray core)

/-! ### Release (R53, R54, R176, R200, R306, R330) -/

/-- The first 4 KiB of code from ENTRY, by physical address div 8. -/
def State.codeImage (s : State) (g : Gang) : List (Nat × W64) :=
  (List.range 512).filterMap (fun (i : Nat) =>
    match checkAccess g.p0 (4 * (wf (lrw g.lrec 3) 0 24) + 8 * i) 8 5 with
    | none => none
    | some va => match s.walk g.die g.part g.asid va (accX 0) with
      | .ok (_, _, x, t) => if x.direct then none else if (t.readChk (some g.part) g.die x.pa 8).1 = 0 then some (x.pa / 8, t.rd64 x.pa) else none
      | .error _ => none)
/-- Step 1 on one core: segments, local-store image, code and the range invalidations of the EDGE before the gang. -/
def State.seedCore (s : State) (g : Gang) (code : List (Nat × W64)) (rs : List (Nat × Nat)) (c : Nat) : State :=
  let segs := wf (lrw g.lrec 0) 48 8
  let len := wf (lrw g.lrec 19) 0 18
  let s1 := s.powerSegs c segs
  let s2 := if len = 0 then s1 else s1.lsWrite c (0x8000 * (imageBase segs).getD 1) len g.img
  let s3 := s2.modCore c (fun y => code.foldl (fun z e => z.icPut e.1 e.2) y)
  (s3.l1Of c rs).foldl (fun t x => t.invSector c x) s3
/-- The lease begins, and the sequencer goes to the matrix entry (R306). -/
def State.beginLease (s : State) (g : Gang) (cl : Nat) : State :=
  s.modCluster cl (fun x => { x with acc := [], folds := [], halves := [], seq1 := 0, rowp := BitVec.allOnes 128, colp := BitVec.allOnes 128, ka := 1, kb := 1
                                     loops := [], nbars := [], seqPhase := .running, seqPc := wf (lrw g.lrec 3) 24 24, seqClause := none, seqHdr := false
                                     seqGang := g.id, matHaz := none, lease := some g.id })
/-- Can every core whose kernel starts strands start those of the gang now. -/
def State.startable (s : State) (g : Gang) : Bool :=
  g.cores.all (fun c => !(s.core c).native || (s.core c).gang == some g.id && s.poolFits c ((s.gangStart g c 0).entries * g.S) &&
      (List.range g.S).all (fun j => (s.slot (16 * c + 1 + j)).phase == .free && (lrWidth g.lrec != 64 || (s.slot (16 * c + 9 + j)).phase == .free)))
/-- The packet or seed-tray entry of a gang is taken. -/
def State.takeHead (s : State) (x : Gang) (f : Queue → Queue) : State :=
  match x.queue, x.tray with
  | some q, _ => (s.advanceQ x.die x.part q).modQueue x.die x.part q (fun e => { f e with ranges := [] })
  | none, some c => s.modCore c (fun y => { y with tray := y.tray.drop 1 })
  | none, none => s
/-- A propagation-tree flit goes to a core: one that fails its check is sent again once (R475). -/
def Core.sent (x : Core) : Core := { x with flitBad := x.flitBad - 2 }
/-- Step 1 reaches the cores of the rectangle in order; `none` when no flit fails twice, else the cores that had the flits and the core that did not. -/
def State.flitLost (s : State) (x : Gang) : Option (List Nat × Nat) :=
  (x.cores.find? (fun c => decide (2 ≤ (s.core c).flitBad))).map (fun c => (x.cores.takeWhile (· != c), c))
/-- A launch that fails in step 1: the cores already started are reaped, the gang ends with its completion action and event 0x71, and the packet or
seed-tray entry is taken (R475). -/
def State.launchFails (s : State) (x : Gang) (had : List Nat) (c : Nat) : State :=
  let s1 := (had ++ [c]).foldl (fun t i => t.modCore i Core.sent) s
  let s2 := (s1.modGang x.id (fun y => { y with live := [], img := 0 })).retireGang x.id
  let s3 := had.foldl (fun t i => t.powerDown i 0) s2
  (s3.transportFailed x.die x.part (match x.tray with
    | some i => srcOfCore i
    | none => srcOfFe x.die) (x.id % 65536)).takeHead x id
/-- Event GANG_RELEASE: the four steps of R53; the packet or seed-tray entry is taken. On a delegated core the runtime starts the strands (R368). -/
def State.releaseGang (s : State) (g : Nat) : State :=
  match s.gang? g with
  | none => s
  | some x =>
    if x.released || x.retired || !s.startable x then s
    else match s.flitLost x with
    | some (had, c) => s.launchFails x had c
    | none =>
      let (rs, s0) := match x.queue with
        | some q => (match s.rangesPas x.die x.part (s.qAsid x.die x.part q) accValid x.ranges with
          | .ok r => r
          | .error (_, t) => ([], t))
        | none => ([], s)
      let code := s0.codeImage x
      let s1 := x.cores.foldl (fun t c => (t.seedCore x code rs c).modCore c Core.sent) s0
      let s2 := if x.mlease then x.clusters.foldl (fun t c => t.beginLease x c) s1 else s1
      let s3 := s2.modGang g (fun y => { y with released := true, img := 0 })
      let s4 := x.cores.foldl (fun t c =>
        if (t.core c).native then (List.range x.S).foldl (fun u j => (u.startRank (16 * c + 1 + j) j).2) t else t) s3
      s4.takeHead x (fun e => { e with gangs := e.gangs ++ [g], producer := some g })
def execGangRelease (g : Nat) (s : State) : Host.Outcome State Fault Refusal := .next (s.releaseGang g)

/-! ### The virtual function's windows (R323, R342, R348) -/

/-- Event SIGNAL_WINDOW_SET. -/
def execSignalWindowSet (part idx : Nat) (v : W64) (s : State) : Host.Outcome State Fault Refusal :=
  .next (if s.signalBad part (idx % 4096) then s else s.setSignal part (idx % 4096) v)
/-- Event SIGNAL_WINDOW_ADD. -/
def execSignalWindowAdd (part idx : Nat) (v : W64) (s : State) : Host.Outcome State Fault Refusal :=
  .next (if s.signalBad part (idx % 4096) then s else s.setSignal part (idx % 4096) (s.signal part (idx % 4096) + v))

end Sys2Proof.Machine
end

