-- ==== Sys2Proof/Machine/EvToken.lean ====
section
/-! DEFINITION. Events of tokens within a die: transient and persistent requests, collections and responses, recounts, peeks, lane L1 replacement and walks
(R114, R148, R156 to R161, R455). -/

namespace Sys2Proof.Machine

/-! ### Requests, collections and tokens (R159, R160) -/

/-- Does a strand of the core still need the block in its CDC. -/
def State.needs (s : State) (c blk : Nat) : Option Bool :=
  let ps := (List.range 16).filterMap (fun j => match (s.slot (16 * c + j)).park with
    | some p => (match p.on with
      | .cdc b w => if b = blk then some w else none
      | _ => none)
    | none => none)
  if ps.isEmpty then none else some (ps.any id)
/-- A miss of a core's CDC sends a transient request; one that has reached the slice and waits there is served when the die and the host allow it. -/
def State.miss (s : State) (c blk : Nat) (w : Bool) : State :=
  match s.treq? c blk with
  | some r => if r.write = w ∧ !r.sent ∧ !r.persistent then s.serveReq r else s
  | none =>
    if s.needs c blk = some w ∧ !s.cdcOk c blk w then
      s.modDie (dieOfCore c) (fun x => { x with treqs := x.treqs ++ [⟨c, blk, w, 1, s.cycle, false, false, false, false, false⟩] })
    else s
/-- Event TREQ: a read miss asks for one token and the data. -/
def execTreq (core blk : Nat) (s : State) : Host.Outcome State Fault Refusal := .next (s.miss core blk false)
/-- Event TREQX: a write miss asks for all tokens. -/
def execTreqx (core blk : Nat) (s : State) : Host.Outcome State Fault Refusal := .next (s.miss core blk true)
/-- Event TCOLL: the owner-token holder sends one token and a copy, or every CDC of a cluster sends all it holds. -/
def execTcoll (id : Nat) (s : State) : Host.Outcome State Fault Refusal := .next (s.onCoh id .tcoll State.takeTcoll)
/-- Event TOKDATA: tokens arrive at a CDC. -/
def execTokdata (id : Nat) (s : State) : Host.Outcome State Fault Refusal := .next (s.onCoh id .tokdata State.takeTok)
/-- Event TRANSIENT_REQUEST_REISSUE: 2,048 cycles have passed without the tokens; those that arrived are kept. -/
def State.reissueDue (s : State) (r : TReq) : Bool := !r.persistent && decide (r.issues < 4) && decide (r.since + 2048 ≤ s.cycle)
def execTransientRequestReissue (core blk : Nat) (s : State) : Host.Outcome State Fault Refusal :=
  .next (match s.treq? core blk with
    | none => s
    | some r =>
      if s.cdcOk core blk r.write then s.dropTreq core blk
      else if !s.reissueDue r then s
      else
        let q := { r with issues := r.issues + 1, since := s.cycle, sent := false }
        (s.modTreq core blk (fun _ => q)).serveReq q)
/-- Event PERSISTENT_REQUEST: after four issues the request goes into the slice's table of 16, or waits at the slice for a place. -/
def State.tableUsed (s : State) (d blk : Nat) : Nat :=
  ((s.die d).treqs.filter (fun r => r.table && sliceOf (128 * r.blk) == sliceOf (128 * blk))).length
def State.persistDue (s : State) (r : TReq) : Bool := (!r.persistent && decide (4 ≤ r.issues) && decide (r.since + 2048 ≤ s.cycle)) ||
  r.persistent && !r.table && decide (s.tableUsed (dieOfCore r.core) r.blk < 16)
def execPersistentRequest (core blk : Nat) (s : State) : Host.Outcome State Fault Refusal :=
  .next (match s.treq? core blk with
    | none => s
    | some r =>
      if !s.persistDue r then s
      else s.modTreq core blk (fun q => { q with persistent := true, table := decide (s.tableUsed (dieOfCore core) blk < 16), sent := false }))
/-- Event PERSISTENT_ACTIVATION: the batch is the requests present in the table, without those that wait at the slice for a place (DESIGN CHOICE, log entry
84); its lowest source number is served next (R25, R160). An active request that tokens have come back for is served again. -/
def State.actDue (s : State) (d blk : Nat) : Bool :=
  (s.die d).treqs.any (fun r => r.blk == blk && r.table) && (s.die d).treqs.all (fun r => !(r.blk == blk && r.active))
def State.activate (s : State) (d blk : Nat) : State :=
  if !s.actDue d blk then s.serveBlk d blk
  else
    let mine (r : TReq) : Bool := r.blk == blk && r.table
    let s1 := if (s.die d).treqs.any (fun r => mine r && r.batch) then s
      else s.modDie d (fun x => { x with treqs := x.treqs.map (fun r => if mine r then { r with batch := true } else r) })
    match ((s1.die d).treqs.filter (fun r => mine r && r.batch)).foldl (fun b r => match b with
        | none => some r
        | some q => if r.core < q.core then some r else b) (none : Option TReq) with
    | none => s1
    | some r =>
      let q := { r with active := true, since := s1.cycle, sent := false }
      (s1.modTreq r.core blk (fun _ => q)).serveActive q
def execPersistentActivation (die blk : Nat) (s : State) : Host.Outcome State Fault Refusal := .next (s.activate die blk)
/-- Event DEACTIVATION: the active requester has performed its access; it keeps its tokens. -/
def State.deactDue (s : State) (r : TReq) : Bool := r.active && (s.needs r.core r.blk).isNone
def execDeactivation (core blk : Nat) (s : State) : Host.Outcome State Fault Refusal :=
  .next (match s.treq? core blk with
    | some r => if s.deactDue r then s.dropTreq core blk else s
    | none => s)

/-! ### Recount (R455) -/

/-- A die holds the block: it has 512 tokens for it (R156). -/
def State.dieHolds (s : State) (d blk : Nat) : Bool := if s.homed d blk then !s.othersIn d blk (fun x => x == 2 || x == 4) else s.ownSt d blk != 0
/-- Event TOKEN_RECOUNT: an active request without deactivation for 65,536 cycles. -/
def State.recountDue (s : State) (d blk : Nat) : Bool :=
  (s.die d).treqs.any (fun r => r.blk == blk && r.active && decide (r.since + 65536 ≤ s.cycle)) && s.dieHolds d blk
def State.recount (s : State) (d blk : Nat) : State :=
  if !s.recountDue d blk then s
  else
    let ts := s.tokens d blk
    let n := (ts.map (·.n)).foldl (· + ·) 0
    let owners := (ts.filter (·.owner)).length
    let lost := !(n == 512 && owners == 1)
    let poison := lost && owners != 1 && !(!s.homed d blk && s.ownSt d blk == 1)
    let s1 := s.fullSlice d blk (ts.any (·.dirty))
    let s2 := if poison then s1.poisonBlock blk else s1
    let s3 := s2.logTo d (s.askerPart d blk) (evEntry (srcOfSlice d (sliceOf (128 * blk))) 0x50 3 0
      (natW (Nat.min n 1023 + b2n (owners != 0) * 1024 + b2n poison * 2048)) (natW (128 * blk)))
    ((s3.die d).treqs.filter (fun r => r.blk == blk && r.active)).foldl (fun t r =>
      let q := { r with since := t.cycle, sent := false }
      (t.modTreq r.core blk (fun _ => q)).serveActive q) s3
def execTokenRecount (die blk : Nat) (s : State) : Host.Outcome State Fault Refusal := .next (s.recount die blk)

/-! ### Peeks, replacement, walks (R114, R148, R161) -/

/-- Event L1_REPLACEMENT_WRITEBACK: a sector leaves the lane L1; its dirty bytes are written back. -/
def execL1ReplacementWriteback (core sector : Nat) (s : State) : Host.Outcome State Fault Refusal := .next (s.flushSector core sector)
/-- Event PEEK: a fill of the two sectors of a block into the lane L1; written bytes are kept, and no token moves. -/
def State.fillSector (s : State) (c sec : Nat) : State :=
  let e := mget l1Empty (s.core c).l1 sec
  let d := dieOfCore c
  if !s.reach d (64 * sec) ∨ (s.readChk (s.partOf (clOfCore c)) d (64 * sec) 64).1 ≠ 0 then s
  else
    let v := s.rdN (64 * sec) 64
    let data := (List.range 64).foldl (fun a i => if bitAt e.valid i then a - a / 256 ^ i % 256 * 256 ^ i + e.data.toNat / 256 ^ i % 256 * 256 ^ i else a) v
    (s.l1Room c sec).modCore c (fun x => { x with l1 := mput x.l1 sec { e with valid := BitVec.allOnes 64, data := BitVec.ofNat 512 data } })
def execPeek (core blk : Nat) (s : State) : Host.Outcome State Fault Refusal :=
  .next (if coherent (128 * blk) then (s.fillSector core (2 * blk)).fillSector core (2 * blk + 1) else s)
/-- Event PAGE_TABLE_WALK: a walk of the core's walker, which sets AC and D and fills the TLBs, or leaves the fault to the access that asked. -/
def execPageTableWalk (core part asid : Nat) (va : Nat) (write user fetch : Bool) (s : State) : Host.Outcome State Fault Refusal :=
  .next (let priv := if user then 0 else 1
    let acc := if fetch then accX priv else if write then accW priv else accR priv
    match s.xlate core part asid acc va with
    | .ok (_, t) => t
    | .error (_, t) => t)

end Sys2Proof.Machine
end

