-- ==== Sys2Proof/Machine/EvDir.lean ====
section
/-! DEFINITION. Events of the directory between dies: requests, forwards, grants, eviction notices, displacement, writes of hothouse lines, anomalies and
overdue transactions (R155, R163 to R170, R173, R456, R457). A die's state changes in the directory when the die acts; a requester's when its data or
permission arrives. -/

namespace Sys2Proof.Machine

/-! ### Requests of dies (R165) -/

/-- Has a die asked its home already, or does its eviction notice stand unanswered (R166). -/
def State.asking (s : State) (d blk : Nat) : Bool :=
  let h := s.die (s.homeOf (128 * blk))
  (mget ⟨.rds, 4, [], false, 0, false, [], false, false, false⟩ h.txns blk).req == d || s.coh.any (fun m => m.kind.cls == 0 && m.blk == blk && m.src == d && m.kind != .wrhh) || h.waitq.any (fun e => e.1 == blk && e.2.2 == d) || (s.die d).notes.contains blk
def State.unserved (s : State) (d blk : Nat) (w : Bool) : Bool := (s.die d).treqs.any (fun r => r.blk == blk && r.write == w && !r.sent)
def State.wantS (s : State) (d blk : Nat) : Bool :=
  s.unserved d blk false && !s.asking d blk && (!s.permRead d blk || s.homed d blk && (s.tokens d blk).all (fun t => t.n == 0))
def State.canUpg (s : State) (d blk : Nat) : Bool := !s.homed d blk && s.ownSt d blk == 1 && !s.othersIn d blk (fun x => decide (2 ≤ x))
def State.wantX (s : State) (d blk : Nat) : Bool := s.unserved d blk true && !s.asking d blk && !s.permWrite d blk
/-- A request of a die leaves for the home, when `want` says so, or arrives there and is served or waits (R154, R155). -/
def State.reqMsg (s : State) (die blk : Nat) (kd : CohKind) (want : Bool) : State :=
  match s.coh.find? (fun m => m.kind == kd && m.blk == blk && m.src == die) with
  | some m => s.onCoh m.id kd State.takeReq
  | none => if want then s.sendCoh (cohMsg kd (s.homeOf (128 * blk)) die blk die 0 false false) else s
/-- Event RDS. -/
def execRds (die blk : Nat) (s : State) : Host.Outcome State Fault Refusal := .next (s.reqMsg die blk .rds (s.wantS die blk))
/-- Event RDX. -/
def execRdx (die blk : Nat) (s : State) : Host.Outcome State Fault Refusal := .next (s.reqMsg die blk .rdx (s.wantX die blk && !s.canUpg die blk))
/-- Event UPG. -/
def execUpg (die blk : Nat) (s : State) : Host.Outcome State Fault Refusal := .next (s.reqMsg die blk .upg (s.wantX die blk && s.canUpg die blk))

/-! ### Messages of a transaction (R165 to R168) -/

/-- Event FWDS: the owner sends the data to the requester and the acknowledgement home. -/
def execFwds (id : Nat) (s : State) : Host.Outcome State Fault Refusal := .next (s.onCoh id .fwds (State.atHolder State.takeFwds))
/-- Event FWDX: the owner drops its copy and sends the data to the writer. -/
def execFwdx (id : Nat) (s : State) : Host.Outcome State Fault Refusal := .next (s.onCoh id .fwdx (State.atHolder State.takeFwdx))
/-- Event INV: a sharer drops its copy. -/
def execInv (id : Nat) (s : State) : Host.Outcome State Fault Refusal := .next (s.onCoh id .inv (State.atHolder State.takeInv))
/-- Event BINV: a die gives a displaced block up, with its data from O or M. -/
def execBinv (id : Nat) (s : State) : Host.Outcome State Fault Refusal := .next (s.onCoh id .binv (State.atHolder State.takeBinv))
/-- Event INV_ACK. -/
def execInvAck (id : Nat) (s : State) : Host.Outcome State Fault Refusal := .next (s.onCoh id .invAck (State.atHome State.answered))
/-- Event FWD_ACK. -/
def execFwdAck (id : Nat) (s : State) : Host.Outcome State Fault Refusal := .next (s.onCoh id .fwdAck (State.atHome State.answered))
/-- Event BINVACK. -/
def execBinvack (id : Nat) (s : State) : Host.Outcome State Fault Refusal := .next (s.onCoh id .binvack (State.atHome State.takeBinvack))
/-- Event BINVDATA: the data goes into the home slice as dirty data. -/
def execBinvdata (id : Nat) (s : State) : Host.Outcome State Fault Refusal := .next (s.onCoh id .binvdata (State.atHome State.takeBinvdata))
/-- Event GONE. -/
def execGone (id : Nat) (s : State) : Host.Outcome State Fault Refusal := .next (s.onCoh id .gone (State.atHome State.takeGone))
/-- Event DATAS. -/
def execDatas (id : Nat) (s : State) : Host.Outcome State Fault Refusal := .next (s.onCoh id .datas State.takeData)
/-- Event DATAX. -/
def execDatax (id : Nat) (s : State) : Host.Outcome State Fault Refusal := .next (s.onCoh id .datax State.takeData)
/-- Event UPGACK. -/
def execUpgack (id : Nat) (s : State) : Host.Outcome State Fault Refusal := .next (s.onCoh id .upgack State.takeUpgack)
/-- Event CMP: the transaction ends, and waiting requests follow. -/
def execCmp (id : Nat) (s : State) : Host.Outcome State Fault Refusal := .next (s.onCoh id .cmp State.takeCmp)
/-- Event NOTEI. -/
def execNotei (id : Nat) (s : State) : Host.Outcome State Fault Refusal := .next (s.onCoh id .notei (State.takeNote false))
/-- Event NOTEDAT. -/
def execNotedat (id : Nat) (s : State) : Host.Outcome State Fault Refusal := .next (s.onCoh id .notedat (State.takeNote true))
/-- Event NOTEACK. -/
def execNoteack (id : Nat) (s : State) : Host.Outcome State Fault Refusal := .next (s.onCoh id .noteack State.takeNoteack)

/-! ### Lost notices (R456) -/

/-- Event NOTICE_ANOMALY_TIMEOUT: an owner answered Gone and its notice has not come within 65,536 cycles. -/
def State.noticeLate (s : State) (blk : Nat) : Option Nat :=
  ((s.txn? (s.homeOf (128 * blk)) blk).bind (fun x => x.gone.find? (fun g => decide (2 ≤ s.dirSt blk g.1) && decide (g.2 + 65536 ≤ s.cycle)))).map (·.1)
def execNoticeAnomalyTimeout (blk : Nat) (s : State) : Host.Outcome State Fault Refusal :=
  .next (match s.noticeLate blk with
    | none => s
    | some e =>
      let h := s.homeOf (128 * blk)
      let s1 := ((s.anomaly h blk 3).setSt blk e 0).regain h blk true
      let s2 := s1.poisonBlock blk
      match s2.txn? h blk with
      | some x => ((s2.setTxn h blk { x with gone := x.gone.filter (fun g => g.1 != e) }).tryGrant h blk).goOn h blk
      | none => s2)

/-! ### Writes of hothouse lines (R170) -/

/-- Event WRHH: the host die invalidates every shared copy, collects its tokens, merges the bytes and answers. -/
def State.takeWrhh (m : Coh) (t : State) : State :=
  let u := t.cwriteMask (t.partOf (clOfSlot m.src)) m.die (128 * m.blk) 128 m.data.toNat m.mask.toNat
  { u with coh := u.coh ++ [{ m with kind := .wrack, die := dieOfSlot m.src, src := m.die }] }
def execWrhh (id : Nat) (s : State) : Host.Outcome State Fault Refusal := .next (s.onCoh id .wrhh State.takeWrhh)
/-- Event WRACK: the answer reaches the writer, whose store completes. -/
def execWrack (id : Nat) (s : State) : Host.Outcome State Fault Refusal := .next (s.onCoh id .wrack (fun _ t => t))

/-! ### Overdue transactions (R457) -/

def overdueCycles : Nat := 2 ^ 21
/-- Event TRANSACTION_OVERDUE. -/
def State.overdue (s : State) (blk : Nat) : State :=
  match s.txn? (s.homeOf (128 * blk)) blk with
  | none => s
  | some x => if s.cycle < x.since + overdueCycles then s else s.overdueAct blk x
def execTransactionOverdue (blk : Nat) (s : State) : Host.Outcome State Fault Refusal := .next (s.overdue blk)

end Sys2Proof.Machine
end

