-- ==== Sys2Proof/Machine/EvHost.lean ====
section
/-! DEFINITION. The host, peers and CXL ports: back-invalidations, CXL.mem and UIO requests, host-homed blocks, link and viral events
(R171 to R174, R349, R350, R439, R440, R458, R463 to R465). -/

namespace Sys2Proof.Machine

/-! ### Ports (R463 to R465) -/

def portReg (n : Nat) : Nat := 0x68 + 8 * n
def portNo (d n : Nat) : W64 := natW (n % 4 + 4 * d)
def State.modPort (s : State) (d n : Nat) (f : W64 → W64) : State := s.setMg d (portReg n) (f (s.mg d (portReg n)))
/-- Event 0x42, poison received from outside (R434, R439). -/
def State.poisonIn (s : State) (d n pa : Nat) : State :=
  (s.poisonSector (pa / 64)).logDie (s.homeOf pa) (evEntry (srcOfUnit d 25 n) 0x42 2 0 (portNo d n) (natW (128 * blkOf pa)))
/-- Steps 1 to 3 of R458 for a line: what the host may have modified is poisoned, the entry is freed, event 0x56 when it is a timeout. -/
def State.freeLine (s : State) (line : Nat) (timeout : Bool) : State :=
  let h := s.homeOf (64 * line)
  let v := mget 0 (s.die h).filter line
  let s1 := if v % 4 = 2 then s.poisonSector line else s
  let s2 := s1.modDie h (fun x => { x with filter := mdel x.filter line, bisnp := x.bisnp.filter (fun e => e.1 != line) })
  let s3 := if timeout then s2.logDie h (evEntry (srcOfHome h) 0x56 3 0 (portNo s.primary 0) (natW (64 * line))) else s2
  (s3.tryGrant h (line / 2)).serveBlk h (line / 2)
/-- Every back-invalidation in flight is answered inside the device. -/
def State.answerAll (s : State) : State :=
  ((List.range 4).flatMap (fun d => (s.die d).bisnp.map (·.1))).foldl (fun t l => t.freeLine l false) s
/-- A port enters viral with event 0x5C (R465). -/
def State.enterViral (s : State) (d n cause : Nat) : State :=
  let s1 := (s.modPort d n (fun r => setBit r 63 true)).logDie d (evEntry (srcOfUnit d 25 n) 0x5C 3 0 (portNo d n) (natW cause))
  if d = s.primary ∧ n = 0 then s1.answerAll else s1
/-- Event CXL_VIRAL_ENTRY: an indication of the link partner, or an uncorrectable error of the port, which UNC counts. -/
def execCxlViralEntry (die port : Nat) (err : Bool) (s : State) : Host.Outcome State Fault Refusal :=
  .next (if err then (s.modPort die port (fun r => setF r 32 16 (Nat.min 65535 (wf r 32 16 + 1)))).enterViral die port 1 else s.enterViral die port 0)
/-- A device fault places every port in viral and is reported to the host (R388, R465). -/
def State.faultDevice (s : State) : State :=
  let s1 : State := { s with deviceFault := true }
  ((List.range 12).foldl (fun t i => t.enterViral (i / 3) (i % 3) 3) s1).emit (.cxlError s.primary)
/-- Event CXLPS_VIRAL_CLEAR: 1 written to VIRAL while UP is 1, unless a device fault stands; no line is held through the port. -/
def State.clearViral (s : State) (die port : Nat) : State :=
  let r := s.mg die (portReg port)
  if !bitAt r 63 || !bitAt r 62 || s.deviceFault then s
  else
    let s1 := s.setMg die (portReg port) (setBit r 63 false)
    if port = 0 then (List.range 4).foldl (fun t h => t.modDie h (fun x => { x with filter := x.filter.filter (fun e => e.2 / 4 != die) })) s1 else s1
def execCxlpsViralClear (die port : Nat) (s : State) : Host.Outcome State Fault Refusal := .next (s.clearViral die port)
/-- Event CXL_LINK_DOWN: UP clears, event 0x5B; the tick of the last flit received is not part of the state (log entry 17). -/
def execCxlLinkDown (die port : Nat) (s : State) : Host.Outcome State Fault Refusal :=
  .next (let r := s.mg die (portReg port)
    if !bitAt r 62 then s
    else
      let s1 := s.setMg die (portReg port) (setF (setF (setBit r 62 false) 56 2 0) 48 5 0)
      let s2 := { s1.logDie die (evEntry (srcOfUnit die 25 port) 0x5B 3 0 (portNo die port) (Config.openWord s.free)) with free := s.free + 1 }
      if die = s.primary ∧ port = 0 then s2.answerAll else s2)
/-- Event CXL_LINK_UP: the port has trained at a speed and width. -/
def execCxlLinkUp (die port speed width : Nat) (s : State) : Host.Outcome State Fault Refusal :=
  .next (s.modPort die port (fun r => setF (setF (setBit r 62 true) 56 2 speed) 48 5 width))
/-- Event LINK_LAYER_RETRY: CORR counts a retried flit; every multiple of 4,096 writes event 0x5A. -/
def execLinkLayerRetry (die port : Nat) (s : State) : Host.Outcome State Fault Refusal :=
  .next (let r := s.mg die (portReg port)
    let n := wf r 0 32 + 1
    if 2 ^ 32 ≤ n then s
    else
      let s1 := s.setMg die (portReg port) (setF r 0 32 n)
      if n % 4096 = 0 then s1.logDie die (evEntry (srcOfUnit die 25 port) 0x5A 3 0 (portNo die port) (natW n)) else s1)

/-! ### Back-invalidation (R171, R458) -/

def HReq.addr : HReq → Nat
  | .read _ _ line _ => 64 * line
  | .write _ _ line .. => 64 * line
  | .peerRead _ _ a _ => a
  | .peerWrite _ _ a .. => a
/-- Does a request of a peer wait for a line of the host's, to read it, or for `w` to write it (R171, R350). -/
def HReq.needs (r : HReq) (line : Nat) (w : Bool) : Bool := match r with
  | .peerRead _ _ a _ => !w && blkOf a == line / 2
  | .peerWrite _ _ a .. => w && blkOf a == line / 2
  | _ => false
/-- Does an agent wait for a line that the host holds in A, to read it; or, for `w`, in S or A, to write it. -/
def State.snoopDue (s : State) (line : Nat) (w : Bool) : Bool :=
  let h := s.homeOf (64 * line)
  let b := line / 2
  let v := mget 0 (s.die h).filter line % 4
  let txn := (s.txn? h b).any (fun t => t.waiting.isEmpty && t.gone.isEmpty && !t.granted && !t.fwd && t.kind != .binv && (t.kind != .rds) == w)
  let own := if w then s.unserved h b true && s.permWrite h b else s.unserved h b false && s.permRead h b
  let strand := s.slots.any (fun e => e.2.park.any (fun p => p.on == .hostLine line w))
  !s.snooped line && (if w then v != 0 else v == 2) && (txn || own || strand || (s.die h).hostq.any (fun r => r.needs line w))
/-- The snoop leaves through the primary host port, or is answered inside the device. -/
def State.snoop (s : State) (line : Nat) (inv : Bool) : State := if s.hostGone then s.freeLine line false else s.sendSnoop line inv
/-- A set of the filter with more than 16 lines: one is displaced (the sets and which line are the model's choice, log entry 9). -/
def State.filterOver (s : State) (h : Nat) : Option Nat :=
  let f := (s.die h).filter
  (f.find? (fun e => !s.snooped e.1 && decide (16 < (f.filter (fun g => g.1 % 32768 == e.1 % 32768)).length))).map (·.1)
/-- Event BISNPDATA. -/
def execBisnpdata (line : Nat) (s : State) : Host.Outcome State Fault Refusal := .next (if s.snoopDue line false then s.snoop line false else s)
/-- Event BISNPINV, for a grant of write tokens or a displaced filter entry. -/
def execBisnpinv (line : Nat) (s : State) : Host.Outcome State Fault Refusal :=
  .next (if s.snoopDue line true || s.filterOver (s.homeOf (64 * line)) == some line then s.snoop line true else s)
/-- Event BIRSP: the host's answer. A line that it keeps in S after BISnpInv is asked for again. -/
def execBirsp (line : Nat) (shared : Bool) (s : State) : Host.Outcome State Fault Refusal :=
  .next (if !s.snooped line then s
    else
      let h := s.homeOf (64 * line)
      let v := mget 0 (s.die h).filter line
      let s1 := s.modDie h (fun x => { x with bisnp := x.bisnp.filter (fun e => e.1 != line)
                                              filter := if shared then mput x.filter line (1 + v / 4 * 4) else mdel x.filter line })
      (s1.tryGrant h (line / 2)).serveBlk h (line / 2))
/-- Event BICONFLICT: a host request has met the snoop; the handshake runs until the answer. -/
def execBiconflict (line : Nat) (s : State) : Host.Outcome State Fault Refusal :=
  .next (s.modDie (s.homeOf (64 * line)) (fun x => { x with bisnp := x.bisnp.map (fun e => if e.1 = line then (e.1, e.2.1, e.2.2.1, true) else e) }))
/-- Event BACK_INVALIDATION_TIMEOUT: no answer within 1 ms; the primary host port enters viral. -/
def State.snoopLate (s : State) (line : Nat) : Bool :=
  (s.die (s.homeOf (64 * line))).bisnp.any (fun e => e.1 == line && decide (e.2.2.1 + 10 ^ 6 ≤ s.gtcOf (s.homeOf (64 * line))))
def execBackInvalidationTimeout (line : Nat) (s : State) : Host.Outcome State Fault Refusal :=
  .next (if s.snoopLate line then (s.freeLine line true).enterViral s.primary 0 2 else s)

/-! ### CXL.mem and UIO requests (R171, R172, R350, R439) -/

/-- The filter records the state that the host takes: 0 I, 1 S, 2 A, through a port of a die; another MetaValue leaves it as it is (R171). -/
def State.hostTakes (s : State) (die line mf : Nat) : State :=
  s.modDie (s.homeOf (64 * line)) (fun x => { x with
    filter := if mf = 0 then mdel x.filter line else if mf ≤ 2 then mput x.filter line (mf + 4 * die) else x.filter })
/-- Is a request from outside to wait at the home: for a back-invalidation of its line, or a transaction for its block (R155, R171). -/
def State.homeBusy (s : State) (pa : Nat) : Bool := s.snooped (pa / 64) || mhas (s.die (s.homeOf pa)).txns (blkOf pa)
/-- A write from outside reaches the home slice (R172, R439); a line that the host owns has no copy in the device. -/
def State.outsideWrite (s : State) (owned : Bool) (die port pa n v mask : Nat) (pois : Bool) : State :=
  let s1 := (if owned then s else s.homeTakes (blkOf pa)).commitMask none (s.homeOf pa) pa n v mask
  if pois then (sectorsOf pa n).foldl (fun t x => t.poisonIn die port (64 * x)) s1 else s1
/-- A request from outside is performed; `none` while it waits. A request on a viral port, or for memory of an isolated die, completes at once (R462, R465). -/
def State.outside (s : State) (r : HReq) : Option State :=
  let pa := r.addr
  let h := s.homeOf pa
  let gone (die port : Nat) : Bool := s.portViral die port || (s.die h).isolated
  match r with
  | .read die port line mf =>
    if gone die port then some (s.emit (.hostData line 0 true))
    else if s.homeBusy pa then none
    else
      let (st, s2) := (if mf = 2 then s.homeTakes (line / 2) else (s.shareDev h (line / 2)).takeOne h (line / 2)).readChk none h pa 64
      some ((s2.hostTakes die line mf).emit (.hostData line (BitVec.ofNat 512 (s2.rdN pa 64)) (st != 0)))
  | .write die port line mf mask data pois =>
    let owned := mget 0 (s.die h).filter line % 4 == 2
    if gone die port then some s
    else if !owned && s.homeBusy pa then none
    else some ((s.outsideWrite owned die port pa 64 data.toNat mask.toNat pois).hostTakes die line mf)
  | .peerRead die port a len =>
    if gone die port then some (s.emit (.peerData a 0 true))
    else if s.homeBusy pa || (s.hostHolds (blkOf pa) == 2 && !s.hostGone) then none
    else
      let (st, v, s1) := s.cread none h a len
      some (s1.emit (.peerData a (BitVec.ofNat 512 v) (st != 0)))
  | .peerWrite die port a len data pois =>
    if gone die port then some s
    else if s.homeBusy pa || (s.hostHolds (blkOf pa) != 0 && !s.hostGone) then none
    else some ((s.backInval (blkOf pa)).outsideWrite false die port a len data.toNat (2 ^ len - 1) pois)
/-- A request from outside arrives at the home of its address: it is performed, or waits its turn, and one that meets a back-invalidation in flight for its line
begins the conflict handshake (R155, R171). Memory that is not HBM is not exposed. -/
def State.arrive (s : State) (r : HReq) : State :=
  let h := s.homeOf r.addr
  if 0x9000000000 ≤ r.addr then s
  else match (if (s.die h).hostq.any (fun q => blkOf q.addr == blkOf r.addr) then none else s.outside r) with
    | some t => t
    | none => s.modDie h (fun x => { x with
        hostq := x.hostq ++ [r]
        bisnp := x.bisnp.map (fun e => if e.1 = r.addr / 64 then (e.1, e.2.1, e.2.2.1, true) else e) })
/-- The first request that waits at a home and can go on; requests for one block keep their order. -/
def State.hostNext (s : State) (h : Nat) : Option State :=
  let q := (s.die h).hostq
  (List.range q.length).findSome? (fun i => match q[i]? with
    | none => none
    | some r =>
      if (q.take i).any (fun p => blkOf p.addr == blkOf r.addr) then none
      else (s.modDie h (fun x => { x with hostq := x.hostq.eraseIdx i })).outside r)
/-- Event HOST_MEM_READ: a CXL.mem read of a line of device HBM that arrives on a host port (R344). -/
def execHostMemRead (die port line : Nat) (mf : Nat) (s : State) : Host.Outcome State Fault Refusal :=
  .next (if port = 0 then s.arrive (.read die port line mf) else s)
/-- Event HOST_MEM_WRITE: a CXL.mem write on a host port, with the state that the host takes. -/
def execHostMemWrite (die port line : Nat) (mask : W64) (data : BitVec 512) (md : MemMeta) (s : State) : Host.Outcome State Fault Refusal :=
  .next (if port = 0 then s.arrive (.write die port line md.mf mask data md.pois) else s)
/-- Event PEER_UIO_WRITE: at most 64 bytes within one sector, through a fabric port. -/
def execPeerUioWrite (die port addr : Nat) (len : Nat) (data : BitVec 512) (pois : Bool) (s : State) : Host.Outcome State Fault Refusal :=
  .next (if port = 0 then s else s.arrive (.peerWrite die port addr (Nat.min len (64 - addr % 64)) data pois))
/-- Event PEER_UIO_READ. -/
def execPeerUioRead (die port addr len : Nat) (s : State) : Host.Outcome State Fault Refusal :=
  .next (if port = 0 then s else s.arrive (.peerRead die port addr (Nat.min len (64 - addr % 64))))
/-- Event UIO_TIMEOUT: an agent's fabric access has no completion after 1 ms. It is reissued once on the other fabric port when that is up; after that,
or when it is not, the access completes as unreachable (R440). -/
def execUioTimeout (a : Agent) (s : State) : Host.Outcome State Fault Refusal :=
  .next (let d := match a with
      | .slot k => dieOfSlot k
      | .seq l => dieOfCl l
    let rest := s.uio.filter (fun e => e.1 != a)
    if !s.uio.any (fun e => e.1 == a) && s.portUp d 1 && s.portUp d 2 then { s with uio := rest ++ [(a, false)] } else { s with uio := rest ++ [(a, true)] })

/-! ### Host memory (R173, R174) -/

/-- Event HOST_BLOCK_FILL: the CXL.cache reads of both lines of a block, RdShared or RdOwn, have completed; the waiting transaction goes on. -/
def execHostBlockFill (blk : Nat) (write pois : Bool) (s : State) : Host.Outcome State Fault Refusal :=
  .next (let h := s.homeOf (128 * blk)
    match s.txn? h blk with
    | none => s
    | some t =>
      if !s.needsHost h blk t || !t.waiting.isEmpty || !t.gone.isEmpty || write == (t.kind == .rds) then s
      else
        let s1 := ((s.setTxn h blk { t with filled := true }).emit (.hostRead (2 * blk) write)).emit (.hostRead (2 * blk + 1) write)
        (if pois then (s1.poisonIn s.primary 0 (128 * blk)).poisonIn s.primary 0 (128 * blk + 64) else s1).tryGrant h blk)
/-- Event H2D_SNOOP: the device answers for the line, and puts both lines of the block into one state, invalid or shared: for the other line it sends
DirtyEvict, CleanEvict or nothing (R174). -/
def execH2dSnoop (line : Nat) (invalidate : Bool) (s : State) : Host.Outcome State Fault Refusal :=
  .next (let b := line / 2
    if coherent (64 * line) && !s.homed (s.homeOf (64 * line)) b then
      let s1 := s.settle b
      let dirty := (List.range 4).any (fun d => s1.dieDirty d b || s1.dirSt b d == 4)
      let held := (List.range 4).any (fun d => s1.dirSt b d != 0)
      let s2 := if invalidate then ((List.range 4).foldl (fun t d => t.loseDie d b) s1).setDirSts b [0, 0, 0, 0]
        else ((List.range 4).foldl (fun t d => (t.takeOne d b).cleanDie d b) s1).setDirSts b ((s1.dirSts b).map (fun x => if x = 0 then 0 else 1))
      let s3 := s2.emit (.snoopAnswer line dirty)
      if dirty || invalidate && held then s3.emit (.evict (if line % 2 = 0 then line + 1 else line - 1) dirty) else s3
    else s)

end Sys2Proof.Machine
end

