-- ==== Sys2Proof/Machine/EvMigr.lean ====
section
/-! DEFINITION. Migration of pages, the redirect table, hothouse reservations and forced-out pages, hot rows and the scrub
(R120, R121, R130 to R133, R169, R430, R431, R434, R441 to R443, R446 to R451). -/

namespace Sys2Proof.Machine

/-! ### Entries and their tables (R112, R113) -/

/-- Addresses of the 8-byte words of memory in which some byte is listed. -/
def State.words (s : State) : List Nat := (s.mem.map (fun e => e.1 / 8 * 8)).eraseDups
/-- The partition whose address-space table names a level-3 table. -/
def State.rootOf (s : State) (table : Nat) : Option Nat :=
  (List.range 16).find? (fun p => (s.diesOf p).any (fun d =>
    let ast := wf (s.cfg d p 0x018) 13 39 * 8192
    s.words.any (fun a => decide (ast ≤ a) && decide (a < ast + 32768) && bitAt (s.rd64 a) 0 && wf (s.rd64 a) 13 39 * 8192 == table)))
/-- Level, virtual address and partition of the entry at an address, when a table in use holds it. -/
def State.chain (s : State) : Nat → Nat → Option (Nat × Nat × Nat)
  | 0, _ => none
  | n + 1, a =>
    let table := a / 8192 * 8192
    let i := a % 8192 / 8
    match s.rootOf table with
    | some p => some (3, i * 2 ^ 46, p)
    | none => s.words.findSome? (fun b =>
        let e := s.rd64 b
        if pteV e ∧ pteTy e = 0 ∧ pteAddr e = table then
          (match s.chain n b with
          | some (l + 1, va, p) => some (l, va + i * 2 ^ pageBits l, p)
          | _ => none)
        else none)
/-- The entry of the page at a hothouse index, with its virtual address and partition. -/
def State.hotEntry (s : State) (d idx : Nat) : Option (Nat × Nat × Nat) :=
  s.words.findSome? (fun a =>
    let e := s.rd64 a
    if pteV e && pteTy e == 2 && leafBase e == hotAddr d idx 0 then
      (match s.chain 4 a with
      | some (0, va, p) => some (a, va, p)
      | _ => none)
    else none)

/-! ### Moving a range of memory (R120, R169) -/

/-- Blocks of a range that any structure of the protocols lists. -/
def State.blocksIn (s : State) (lo n : Nat) : List Nat :=
  let dies := (List.range 4).flatMap (fun d =>
    let x := s.die d
    mkeys x.dir ++ mkeys x.slice ++ x.filter.map (·.1 / 2) ++ mkeys x.txns ++ x.treqs.map (·.blk) ++ x.waitq.map (·.1))
  let all := dies ++ (mkeys s.cores).flatMap (fun c => mkeys (s.core c).cdc) ++ s.coh.map (·.blk)
  (all.filter (fun b => decide (lo ≤ 128 * b) && decide (128 * b < lo + n))).eraseDups
/-- Every cached copy of a range is recalled: tokens, other dies' copies, the host's lines. -/
def State.recallRange (s : State) (lo n : Nat) : State := (s.blocksIn lo n).foldl (fun t b => (t.backInval b).recallAll b) s
/-- Writes of hothouse lines that the home has accepted complete at the old place (step 2 of R120). -/
def State.endWrites (s : State) (lo n : Nat) : State :=
  ((s.coh.filter (fun m : Coh => m.kind == .wrhh && decide (lo ≤ 128 * m.blk) && decide (128 * m.blk < lo + n))).map (·.id)).foldl (fun t i =>
    match t.coh.find? (fun m => m.id == i) with
    | some m => (t.dropCoh i).takeWrhh m
    | none => t) s
def moveAddr (old new n a : Nat) : Nat := if old ≤ a ∧ a < old + n then new + (a - old) else a
def Slot.moveRefs (x : Slot) (old new n : Nat) : Slot :=
  { x with sc := x.sc.map (fun c => { c with refs := c.refs.map (fun r => if r.ls then r else { r with addr := moveAddr old new n r.addr }) }) }
def Cmd.movePages (c : Cmd) (old new n : Nat) : Cmd := { c with pages := c.pages.map (fun q => { q with pa := q.pa.map (moveAddr old new n) }) }
/-- What agents hold by physical address follows the frame: lane L1 sectors, pages of commands, accesses in progress; cached code is dropped. -/
def State.follow (s : State) (old new n : Nat) : State :=
  let s1 := (mkeys s.cores).foldl (fun t c => t.modCore c (fun x =>
    { x with l1 := x.l1.foldl (fun m e => mput m (moveAddr old new n (64 * e.1) / 64) e.2) [], icache := x.icache.filter (fun e => !(decide (old ≤ 8 * e.1) && decide (8 * e.1 < old + n))) })) s
  let s2 := (mkeys s1.clusters).foldl (fun t c => t.modCluster c (fun x =>
    { x with cmds := x.cmds.map (fun m => m.movePages old new n), pend := x.pend.map (fun m => m.movePages old new n) })) s1
  let s3 := ((mkeys s2.slots).filter (fun k => (s2.slot k).sc.isSome)).foldl (fun t k => t.modSlot k (fun x => x.moveRefs old new n)) s2
  let s4 := { s3 with saves := s3.saves.map (fun v => { v with img := v.img.moveRefs old new n }) }
  (List.range 4).foldl (fun t d => t.modDie d (fun x => { x with swaps := x.swaps.map (fun w => { w with
    slots := w.slots.map (fun e => (e.1, e.2.moveRefs old new n))
    clusters := w.clusters.map (fun e => (e.1, { e.2 with cmds := e.2.cmds.map (fun m => m.movePages old new n), pend := e.2.pend.map (fun m => m.movePages old new n) })) }) })) s4
/-- TLB entries of one frame are dropped everywhere. -/
def State.dropFrame (s : State) (base n : Nat) : State :=
  let keep (t : Tlb) : Bool := !(decide (base ≤ leafBase t.pte) && decide (leafBase t.pte < base + n))
  let s1 := (mkeys s.cores).foldl (fun t c => t.modCore c (fun x => { x with itlb := x.itlb.filter keep, dtlb := x.dtlb.filter keep })) s
  (mkeys s1.clusters).foldl (fun t c => t.modCluster c (fun x => { x with l2tlb := x.l2tlb.filter keep })) s1
/-- Errors that a read finds in a range become poison with event 0x41. -/
def State.checkRange (s : State) (pa n : Nat) : State :=
  (s.bad.filter (fun x => decide (pa ≤ 64 * x) && decide (64 * x < pa + n))).foldl (fun t x =>
    (t.poisonSector x).memEvent none (t.homeOf (64 * x)) (t.unitOf (64 * x)) 0x41 0 0 (natW (64 * x / 128 * 128))) s
/-- The lines of an index leave; a checkpoint copies them first (R356). -/
def State.clearHot (s : State) (d idx : Nat) : State :=
  let s := s.ckptHold (hotAddr d idx 0)
  let lo := hotAddr d idx 0 - hotBase
  let t : State := { s with hot := s.hot.filter (fun e => decide (e.1 < lo) || decide (lo + 65536 ≤ e.1)), pois := s.pois.filter (fun x => !(decide (hotAddr d idx 0 ≤ 64 * x) && decide (64 * x < hotAddr d idx 0 + 65536))) }
  t.modDie d (fun x => { x with hotLines := x.hotLines.filter (fun l => l / 512 != idx) })
/-- Moves one 64 KiB part (steps 2 and 3 of R120). -/
def State.movePart (s : State) (src dst : Nat) : State :=
  let s1 := ((((s.endWrites src 65536).ckptHold src).ckptHold dst).recallRange src 65536).recallRange dst 65536
  let s2 := ((s1.checkRange src 65536).copyRange src dst 65536).follow src dst 65536
  let lines := ((s2.die (s2.homeOf src)).hotLines.filter (fun l => l / 512 == (src - hotBase) / 65536 % 512)).map (fun l => (dst - hotBase) / 65536 % 512 * 512 + l % 512)
  let s3 := if isHot dst then s2.modDie (s2.homeOf dst) (fun x => { x with hotLines := lines.foldl insertSorted x.hotLines }) else s2
  if isHot src then s3.clearHot (s.homeOf src) ((src - hotBase) / 65536 % 512) else s3

/-! ### Forcing out (R133, R448 to R451) -/

/-- Takes the next valid frame of a partition's fallback list; a bad entry is consumed with event 0x46. -/
def State.takeFrame (s : State) (d p : Nat) : Nat → Option Nat × State
  | 0 => (none, s)
  | n + 1 =>
    let r := s.cfg d p 0x058
    let cnt := wf r 0 10
    if cnt = 0 then (none, s)
    else
      let a := wf r 12 40 * 4096 + 8 * mget 0 (s.die d).fbHead p
      let (st, e, s1) := s.cread64 (some p) d a
      let s2 := (s1.setCfg d p 0x058 (setF r 0 10 (cnt - 1))).modDie d (fun x => { x with fbHead := mput x.fbHead p (mget 0 x.fbHead p + 1) })
      let f := wf e 16 36 * 65536
      if st ≠ 0 ∨ wf e 0 16 ≠ 0 ∨ wf e 52 12 ≠ 0 ∨ 0x9000000000 ≤ f then
        (s2.logPart d p (evEntry (srcOfHome d) 0x46 2 0 e (natW a))).takeFrame d p n
      else (some f, s2)
/-- Forces out the page at an index (R133): its lines go to a frame of the list and the entry becomes TYPE 1; without a frame the index is stranded and
event 0x13 is written, once for each stranding. -/
def State.forceOut (s : State) (d p idx : Nat) : State :=
  match s.hotEntry d idx with
  | none => (s.clearHot d idx).modDie d (fun x => { x with stranded := x.stranded.filter (· != p * 512 + idx) })
  | some (a, va, _) =>
    match s.takeFrame d p 512 with
    | (some f, s1) =>
      let e := s1.rd64 a
      let s2 := (s1.movePart (hotAddr d idx 0) f).dropFrame (hotAddr d idx 0) 65536
      let e' := setF (setF (setF e 1 2 1) 13 39 (f / 8192)) 10 2 0
      (s2.cwrite (some p) d a 8 e'.toNat).modDie d (fun x => { x with stranded := x.stranded.filter (· != p * 512 + idx) })
    | (none, s1) =>
      if (s1.die d).stranded.contains (p * 512 + idx) then s1
      else (s1.modDie d (fun x => { x with stranded := insertSorted x.stranded (p * 512 + idx) })).logPart d p
        (evEntry (srcOfHome d) 0x13 2 0 (natW (idx + 512 * d)) (natW va))
/-- Indices of a run. -/
def runOf (r : W64) : List Nat := (List.range (wf r 16 10)).map (· + wf r 0 9)
/-- Event HHRES_WRITE: pages at indices outside the new run are forced out in ascending order; a stranded index that it covers again is so no longer. -/
def State.writeHhres (s : State) (die part : Nat) (v : W64) : State :=
  let old := s.cfg die part 0x050
  let v := v &&& 0x3FF01FF
  let gone := (runOf old).filter (fun i => !(runOf v).contains i)
  let s1 := (s.setCfg die part 0x050 v).modDie die (fun x => { x with stranded := x.stranded.filter (fun e => !(e / 512 == part && (runOf v).contains (e % 512))) })
  gone.foldl (fun t i => t.forceOut die part i) s1
def execHhresWrite (die part : Nat) (v : W64) (s : State) : Host.Outcome State Fault Refusal := .next (s.writeHhres die part v)
/-- Event HHFB_WRITE: a list with frames starts forcing out the stranded pages in ascending order. -/
def State.writeHhfb (s : State) (die part : Nat) (v : W64) : State :=
  let s1 := (s.setCfg die part 0x058 (v &&& 0xFFFFFFFFFF3FF)).modDie die (fun x => { x with fbHead := mput x.fbHead part 0 })
  if wf v 0 10 = 0 then s1
  else ((s1.die die).stranded.filter (fun e => e / 512 == part)).foldl (fun t e => t.forceOut die part (e % 512)) s1
def execHhfbWrite (die part : Nat) (v : W64) (s : State) : Host.Outcome State Fault Refusal := .next (s.writeHhfb die part v)

/-! ### Migration (R120, R121, R446, R447) -/

def migBusy (r : W64) : Bool := bitAt r 1
def State.migStatus (s : State) (d st : Nat) (busy : Bool) : State := s.setMg d 0x50 (natW (st * 2 ^ 62 + b2n busy * 2))
/-- Ends a migration before its last step with status 2 and event 0x45; moved parts go back (R447). -/
def State.abortMigr (s : State) (d : Nat) : State :=
  match (s.die d).migr with
  | none => s
  | some m =>
    let s1 := (List.range m.moved).foldl (fun t i => t.movePart (m.new + 65536 * i) (m.old + 65536 * i)) s
    let s2 := s1.modDie d (fun x => { x with migr := none, redir := x.redir.filter (fun r => r.old != m.old) })
    (s2.migStatus d 2 false).logDie d (evEntry (srcOfUnit d 26 0) 0x45 2 0 2 (natW m.pte))
/-- The free indices of a partition's run on a die: no line is present there, no entry names them, and none is stranded (R120, R133). -/
def State.freeIndex (s : State) (d p i : Nat) : Bool :=
  s.inRun d p i && !(s.die d).hotLines.any (fun l => l / 512 == i) && (s.hotEntry d i).isNone && !(s.die d).stranded.contains (p * 512 + i)
/-- Where a hothouse page goes: the index that MIGDST names when it is free, else the lowest free one of the run (DESIGN CHOICE, log entry 87). -/
def State.indexFor (s : State) (d p i : Nat) : Option Nat := if s.freeIndex d p i then some i else (runOf (s.cfg d p 0x050)).find? (s.freeIndex d p)
/-- Event MIGCTL_GO: checks of R447; a command for a page that is migrating completes with the busy status. A page that is forced out for want of an index
has the frame of the fallback list as its new frame, since MIGDST names none (DESIGN CHOICE, log entry 87). -/
def State.migrate (s : State) (d : Nat) (v : W64) : State :=
  if !bitAt v 0 || migBusy (s.mg d 0x50) then s
  else
    let a := wf (s.mg d 0x40) 3 49 * 8
    let dst := s.mg d 0x48
    let (st, e, s1) := s.cread64 none d a
    let refuse := s1.migStatus d 3 false
    let old := leafBase e
    let ad := wf dst 13 39 * 8192
    if st ≠ 0 ∨ !pteV e ∨ (pteTy e ≠ 1 ∧ pteTy e ≠ 2) ∨ wf (s.mg d 0x40) 0 3 ≠ 0 ∨ wf (s.mg d 0x40) 52 12 ≠ 0 ∨ s1.homeOf old ≠ d then refuse
    else if (List.range 4).any (fun x => (s1.die x).migr.any (fun m => m.pte == a)) then s1.migStatus d 1 false
    else match s1.chain 4 a with
      | none => refuse
      | some (level, _, p) =>
        if pteTy e = 1 then
          if level = 3 ∨ ad % 2 ^ pageBits level ≠ 0 ∨ 0x9000000000 < ad + 2 ^ pageBits level then refuse
          else (s1.modDie d (fun x => { x with migr := some ⟨a, ad, old, ad, 2 ^ (10 * level), 0⟩ })).migStatus d 0 true
        else
          let nd := ad / 33554432 % 4
          let ni := ad / 65536 % 512
          if ad % 65536 ≠ 0 ∨ 2 ^ 27 ≤ ad then refuse
          else match s1.indexFor nd p ni with
            | some i => (s1.modDie d (fun x => { x with migr := some ⟨a, nd * 33554432 + i * 65536, old, hotAddr nd i 0, 1, 0⟩ })).migStatus d 0 true
            | none =>
              if wf (s1.cfg d p 0x058) 0 10 = 0 then refuse
              else (s1.forceOut d p ((old - hotBase) / 65536 % 512)).migStatus d 0 false
def execMigctlGo (die : Nat) (v : W64) (s : State) : Host.Outcome State Fault Refusal := .next (s.migrate die v)
/-- May the next part go: the last part needs a place in the redirect table (R121). -/
def State.migReady (s : State) (d : Nat) : Bool := match (s.die d).migr with
  | some m => m.moved != 0 || decide ((s.die d).redir.length < 64)
  | none => false
/-- Event MIGRATION_PART: one part moves; with the last, the entry names the new frame. -/
def State.migPart (s : State) (d : Nat) : State :=
  match (s.die d).migr with
  | none => s
  | some m =>
    if !s.migReady d then s
    else
      let s1 := s.movePart (m.old + 65536 * m.moved) (m.new + 65536 * m.moved)
      let s2 := s1.modDie d (fun x => { x with
        redir := if m.moved = 0 then x.redir ++ [⟨m.old, m.new, 65536⟩] else x.redir.map (fun r => if r.old = m.old then { r with len := r.len + 65536 } else r)
        migr := some { m with moved := m.moved + 1 } })
      if m.moved + 1 < m.parts then s2
      else
        let e := setF (s2.rd64 m.pte) 13 39 (m.dst / 8192)
        ((s2.cwrite none d m.pte 8 e.toNat).modDie d (fun x => { x with migr := none })).migStatus d 0 false
def execMigrationPart (die : Nat) (s : State) : Host.Outcome State Fault Refusal := .next (s.migPart die)
/-- Event REDIRECT_FORWARD: a core's request at an old frame is forwarded with a redirect notice, and the core drops its TLB entries for the page. -/
def execRedirectForward (core pa : Nat) (s : State) : Host.Outcome State Fault Refusal :=
  .next (match (List.range 4).findSome? (fun d => (s.die d).redir.find? (fun r => decide (r.old ≤ pa) && decide (pa < r.old + r.len))) with
    | none => s
    | some r =>
      let keep (t : Tlb) : Bool := !(decide (leafBase t.pte ≤ r.old) && decide (r.old < leafBase t.pte + 2 ^ pageBits t.level))
      (s.modCore core (fun x => { x with itlb := x.itlb.filter keep, dtlb := x.dtlb.filter keep })).modCluster (clOfCore core)
        (fun x => { x with l2tlb := x.l2tlb.filter keep }))
/-- Event REDIRECT_ENTRY_FREE: every cluster has invalidated the page's TLB entries. -/
def execRedirectEntryFree (die idx : Nat) (s : State) : Host.Outcome State Fault Refusal :=
  .next (match (s.die die).redir[idx]? with
    | none => s
    | some r =>
      if (s.die die).migr.any (fun m => m.old == r.old) then s
      else (s.dropFrame r.old r.len).modDie die (fun x => { x with redir := x.redir.filter (fun q => q != r) }))

/-! ### Hot rows and the scrub (R430, R434, R441 to R443) -/

def State.rowThr (s : State) (d : Nat) : Nat := Nat.max 16 (wf (s.mg d 0x18) 16 16)
def State.capWays (s : State) (d : Nat) : Nat := Nat.min 2 (s.die d).capW
/-- Event ROW_CAPTURE: the count of a row (TVAL of event 0x44: stack, bank, row) has reached a further multiple of THR. The row is captured while its stack
has capture ways left (log entry 9), else its neighbours are refreshed. -/
def execRowCapture (die row : Nat) (s : State) : Host.Outcome State Fault Refusal :=
  .next (let x := s.die die
    if !bitAt (s.mg die 0x18) 63 || x.captured.contains row then s
    else
      let n := mget 0 x.rows row + s.rowThr die
      let s1 := s.modDie die (fun y => { y with rows := mput y.rows row n })
      if (x.captured.filter (fun r => r % 16 == row % 16)).length < s.capWays die ∧ n = s.rowThr die then
        s1.modDie die (fun y => { y with captured := y.captured ++ [row] })
      else
        let s2 := (s1.emit (.refresh die (row - 65536))).emit (.refresh die (row + 65536))
        if x.refreshed.contains row then s2
        else (s2.modDie die (fun y => { y with refreshed := y.refreshed ++ [row] })).logDie die (evEntry (srcOfUnit die 23 (row % 16)) 0x44 2 0 (natW row) (natW n)))
/-- Event HOT_ROW_WINDOW_END. -/
def State.windowDue (s : State) (d : Nat) : Bool := decide ((s.die d).rowStart + Nat.max 1 (wf (s.mg d 0x18) 40 8) * 10 ^ 6 ≤ s.gtcOf d)
def execHotRowWindowEnd (die : Nat) (s : State) : Host.Outcome State Fault Refusal :=
  .next (if s.windowDue die then s.modDie die (fun x => { x with rows := [], captured := [], refreshed := [], rowStart := s.gtcOf die, capW := wf (s.mg die 0x18) 0 2 }) else s)
/-- Event HBM_SCRUB: every uncorrectable sector of the die's HBM is poisoned, with event 0x41 in the device log. -/
def execHbmScrub (die : Nat) (s : State) : Host.Outcome State Fault Refusal := .next (s.checkRange (die * 0x2400000000) 0x2400000000)

end Sys2Proof.Machine
end

