-- ==== Sys2Proof/Machine/EvCkpt.lean ====
section
/-! DEFINITION. Whole-memory checkpoints, snapshots and the race log's overwrite flag (R125, R355 to R358, R452). -/

namespace Sys2Proof.Machine

/-! ### Checkpoints (R355, R356, R452) -/

/-- CKCTL, on the die of the primary host port. -/
def State.ckctl (s : State) : W64 := s.mg s.primary 0x180
def State.ckBusy (s : State) : Bool := bitAt s.ckctl 1
/-- Can die `d`'s image be written: PA[51:50] is 3, no reserved bit is set, and a fabric decoder entry of the die matches. -/
def State.imageOk (s : State) (d : Nat) : Bool :=
  let r := s.mg s.primary (0x188 + 8 * d)
  wf r 50 2 == 3 && wf r 0 12 == 0 && wf r 52 12 == 0 && (s.fabDecode d (wf r 12 40 * 4096)).isSome
/-- Event CKCTL_GO: GEN and PORTS are written with every value; GO starts a checkpoint unless one is in progress. -/
def State.startCkpt (s : State) (v : W64) : State :=
  let r := setF (setF s.ckctl 48 16 (wf v 48 16)) 12 3 (wf v 12 3)
  let s1 := s.setMg s.primary 0x180 r
  if !bitAt v 0 || s.ckBusy then s1
  else
    let s2 : State := { s1.setMg s.primary 0x180 (setBit (setBit r 1 true) 2 false) with
      ckpt := some { cut := s.gtc + 1024, gen := wf r 48 16, cutDone := [], copied := [], active := false } }
    match (List.range 4).find? (fun d => !s2.imageOk d) with
    | some d => s2.ckptFail d 0
    | none => s2
def execCkctlGo (v : W64) (s : State) : Host.Outcome State Fault Refusal := .next (s.startCkpt v)
/-- Is the cut of a die due: tick T has come, and the die has not written its lane L1 back. -/
def State.cutDue (s : State) (d : Nat) : Bool := match s.ckpt with
  | some c => decide (c.cut ≤ s.gtcOf d) && !c.cutDone.contains d && !(s.die d).isolated
  | none => false
/-- Writes the header of a die's image with status 0. -/
def State.newHeader (s : State) (d : Nat) (c : Ckpt) : State :=
  let a := s.imageAddr d 0 - 4096
  if !s.ckReach d then s.ckptFail d 0
  else
    let s1 := (sectorsOf a 4096).foldl (fun t x => t.cleanSector x) (s.wrN a 0 4096)
    ((s1.putHeader d 0 (natW c.gen)).putHeader d 8 (natW c.cut)).putHeader d 16 (natW d)
/-- Event CHECKPOINT_CUT: at tick T every core of the die writes back its dirty lane L1 sectors; when every die has, the copy begins. -/
def State.cutDie (s : State) (d : Nat) : State :=
  if !s.cutDue d then s
  else
    let s1 := ((mkeys s.cores).filter (fun c => dieOfCore c == d)).foldl (fun t c => t.wbAllL1 c) s
    let s2 : State := { s1 with ckpt := s1.ckpt.map (fun c => { c with cutDone := c.cutDone ++ [d] }) }
    match s2.ckpt with
    | none => s2
    | some c =>
      if s2.cutOver c then
        (List.range 4).foldl (fun t e => if t.ckpt.isSome then t.newHeader e c else t) { s2 with ckpt := some { c with active := true } }
      else s2
def execCheckpointCut (die : Nat) (s : State) : Host.Outcome State Fault Refusal := .next (s.cutDie die)
/-- Does an image hold a unit: a part of HBM, or a hothouse index that a partition reserves. -/
def State.unitIn (s : State) (d u : Nat) : Bool :=
  decide (u < hbmUnits) || decide (u < hbmUnits + 512) && (List.range 16).any (fun p => s.inRun d p (u - hbmUnits))
/-- The first unit of the copy phase that is still to be copied, at or after unit `u` of a die (the order is the model's). -/
def State.nextUnit (s : State) (c : Ckpt) (d : Nat) : Option Nat :=
  let done := (c.copied.filter (fun e => e.1 == d)).map (·.2)
  (List.range (done.length + 1)).find? (fun u => decide (u < hbmUnits) && !done.contains u) |>.orElse (fun _ =>
    if done.length < hbmUnits then none else ((List.range 512).map (· + hbmUnits)).find? (fun u => s.unitIn d u && !done.contains u))
/-- Event CHECKPOINT_PART_COPY. -/
def State.copyPart (s : State) (d u : Nat) : State := match s.ckpt with
  | some c => if c.active && !c.copied.contains (d, u) && s.unitIn d u && decide (d < 4) then s.copyUnit d u else s
  | none => s
def execCheckpointPartCopy (die unit : Nat) (s : State) : Host.Outcome State Fault Refusal := .next (s.copyPart die unit)
/-- Has every unit of every die been copied. -/
def State.ckptDone (s : State) : Bool := match s.ckpt with
  | some c => c.active && (List.range 4).all (fun d => (s.nextUnit c d).isNone)
  | none => false
/-- Event CHECKPOINT_END: the engine writes status 1 into every header and clears BUSY. -/
def State.endCkpt (s : State) : State :=
  if !s.ckptDone then s
  else
    let s1 := (List.range 4).foldl (fun t d => t.putHeader d 24 1) { s with ckpt := none }
    s1.setMg s.primary 0x180 (setBit s.ckctl 1 false)
def execCheckpointEnd (s : State) : Host.Outcome State Fault Refusal := .next s.endCkpt

/-! ### Snapshots (R358) -/

/-- The dies that a write to a die's SNAPCTL reaches: the master's is copied to all four. -/
def State.snapDies (s : State) (d : Nat) : List Nat := if d = s.primary then [0, 1, 2, 3] else [d]
/-- An arming, or a new tick, takes place in the present tick. -/
def State.armedNow (s : State) (d : Nat) : State := s.modDie d (fun x => { x with armAt := s.gtcOf d })
def State.modSnap (s : State) (d : Nat) (f : W64 → W64) : State := s.setMg d 0x30 (f (s.mg d 0x30))
/-- Event SNAPCTL_ARM. -/
def State.arm (s : State) (die : Nat) : State := (s.snapDies die).foldl (fun t d => (t.modSnap d (fun r => setBit r 0 true)).armedNow d) s
def execSnapctlArm (die : Nat) (s : State) : Host.Outcome State Fault Refusal := .next (s.arm die)
/-- Event SNAPCTL_NOW: arms with SNAPTICK := GTC + 256. -/
def State.armNow (s : State) (die : Nat) : State :=
  (s.snapDies die).foldl (fun t d => ((t.modSnap d (fun r => setBit r 0 true)).setMg d 0x38 (natW (s.gtcOf d + 256))).armedNow d) s
def execSnapctlNow (die : Nat) (s : State) : Host.Outcome State Fault Refusal := .next (s.armNow die)
/-- Event SNAPCTL_DONE_CLEAR: the latched values are released. -/
def State.releaseSnap (s : State) (die : Nat) : State :=
  (s.snapDies die).foldl (fun t d => (t.modSnap d (fun r => setBit r 2 false)).modDie d (fun x => { x with snap := none })) s
def execSnapctlDoneClear (die : Nat) (s : State) : Host.Outcome State Fault Refusal := .next (s.releaseSnap die)
/-- A write of ARM := 0 disarms. -/
def State.disarm (s : State) (d : Nat) : State := (s.snapDies d).foldl (fun t e => t.modSnap e (fun r => setBit r 0 false)) s
/-- Event SNAPSHOT_LATCH: the GTC has reached SNAPTICK, or had passed it in the tick before, in which it was armed; a trigger that comes while DONE is 1 latches nothing and is counted in MISS. -/
def State.latchDue (s : State) (d : Nat) : Bool :=
  let t := (s.mg d 0x38).toNat
  bitAt (s.mg d 0x30) 0 && (t == s.gtcOf d || decide (t < s.gtcOf d) && decide ((s.die d).armAt < s.gtcOf d))
def State.latchSnap (s : State) (d : Nat) : State :=
  let r := s.mg d 0x30
  if !s.latchDue d then s
  else if bitAt r 2 then s.setMg d 0x30 (setF (setBit r 0 false) 8 8 (Nat.min 255 (wf r 8 8 + 1)))
  else (s.setMg d 0x30 (setBit (setBit r 0 false) 2 true)).modDie d (fun x => { x with snap := some {
      tick := s.gtcOf d, regs := x.mgmt, dir := x.dir.map (fun e => (e.1, s.dirWord d e.1 e.2)), clusters := s.clusters.filter (fun e => dieOfCl e.1 == d)
      cores := s.cores.filter (fun e => dieOfCore e.1 == d), slots := s.slots.filter (fun e => dieOfSlot e.1 == d) } })
def execSnapshotLatch (die : Nat) (s : State) : Host.Outcome State Fault Refusal := .next (s.latchSnap die)

/-! ### Race log (R125) -/

/-- Event RLOGCTL_WRAP_CLEAR; system software has read the ring (log entry 22). -/
def State.clearWrap (s : State) (core : Nat) : State := s.modCore core (fun x => { x with rlogctl := setBit x.rlogctl 1 false, rlogRead := 0 })
def execRlogctlWrapClear (core : Nat) (s : State) : Host.Outcome State Fault Refusal := .next (s.clearWrap core)

end Sys2Proof.Machine
end

