-- ==== Sys2Proof/Machine/EvPart.lean ====
section
/-! DEFINITION. Partitions: creation and dissolution, the doorbell, reset, swap and resume (R338, R339, R342, R343, R347, R478 to R481). -/

namespace Sys2Proof.Machine

/-! ### Registers and clusters of a partition (R347, R478, R479) -/

def rstBusy (r : W64) : Bool := bitAt r 1
def swpBusy (r : W64) : Bool := bitAt r 3
def State.modCfg (s : State) (d p off : Nat) (f : W64 → W64) : State := s.setCfg d p off (f (s.cfg d p off))
/-- Firmware's source number on a die (R24). -/
def srcOfFw (d : Nat) : Nat := srcOfUnit d 27 0
/-- Clusters that CLMASK names on a die. -/
def State.maskCls (s : State) (d p : Nat) : List Nat := ((List.range 24).filter (bitAt (s.cfg d p 0x008))).map (· + 24 * d)
/-- Does a partition hold a cluster. -/
def State.holds (s : State) (p cl : Nat) : Bool :=
  let d := dieOfCl cl
  bitAt (s.cfg d p 0) 0 && bitAt (s.partMask d p) (cl % 24) && !s.away d p
/-- From now on a partition holds the clusters that CLMASK names on a die. -/
def State.dropHeld (s : State) (d p : Nat) : State := s.modDie d (fun x => { x with heldMask := mdel x.heldMask p })
/-- No other partition holds a cluster. -/
def State.clFree (s : State) (p cl : Nat) : Bool := (List.range 16).all (fun q => q == p || !s.holds q cl)
def coresOf (cls : List Nat) : List Nat := cls.flatMap (fun c => (List.range 16).map (· + 16 * c))
def slotsOf (cls : List Nat) : List Nat := cls.flatMap (fun c => (List.range 256).map (· + 256 * c))

/-! ### LIVE and the doorbell (R342, R347) -/

/-- Event PCTL_LIVE_SET: creates the partition on the die, when its clusters are free and its feature contract is that of stepping B1. -/
def State.liveSet (s : State) (d p : Nat) : State :=
  let r := s.cfg d p 0
  if bitAt r 0 || !(s.maskCls d p).all (s.clFree p) || wf (s.cfg d p 0x0C0) 0 8 != 1 ||
    !(List.range 6).all (fun n => s.cfg d p (0x0C8 + 8 * n) == 0) then s
  else s.setCfg d p 0 1
def execPctlLiveSet (die part : Nat) (s : State) : Host.Outcome State Fault Refusal := .next (s.liveSet die part)
/-- Event PCTL_LIVE_CLEAR: dissolves the partition on the die after a reset, while no reset and no swap runs. -/
def State.liveClear (s : State) (d p : Nat) : State :=
  let r := s.cfg d p 0x088
  if bitAt (s.cfg d p 0) 0 && bitAt r 2 && !rstBusy r && !swpBusy (s.cfg d p 0x090) then (s.setCfg d p 0 0).dropHeld d p else s
def execPctlLiveClear (die part : Nat) (s : State) : Host.Outcome State Fault Refusal := .next (s.liveClear die part)
/-- Event DOORBELL: "partition external" at the root slot of the partition's first core; held in the context of a partition that is swapped out, and
dropped while a reset runs. -/
def State.ring (s : State) (p : Nat) : State :=
  if (s.diesOf p).any (fun d => rstBusy (s.cfg d p 0x088)) then s
  else match (s.diesOf p).findSome? (fun d => ((s.die d).swaps.find? (fun w => w.part == p)).map (fun w => (d, w))) with
    | some (d, w) =>
      let k := 256 * w.cls.headD 0
      s.modDie d (fun x => { x with swaps := x.swaps.map (fun v =>
        if v.part = p then { v with slots := mput v.slots k { mget Slot.reset v.slots k with ip := setBit (mget Slot.reset v.slots k).ip 2 true } } else v) })
    | none => match s.clustersOf p with
      | cl :: _ => s.raiseIp (256 * cl) 2
      | [] => s
def execDoorbell (part : Nat) (s : State) : Host.Outcome State Fault Refusal := .next (s.ring part)
/-- Has a core of a partition a registered task that has not exited. -/
def tasksIn (cores : SMap Core) : Bool := cores.any (fun e => e.2.tctx.any (fun t => t.2.live))
/-- VFSTAT (R348): no gang, no task and no reset in progress; swapped out; live. -/
def State.vfStat (s : State) (p : Nat) : W64 :=
  let ds := s.diesOf p
  let out := ds.any (fun d => s.swappedOut d p)
  let busy := s.gangs.any (fun g => g.part == p && !g.retired) || tasksIn (s.cores.filter (fun e => s.partOf (clOfCore e.1) == some p)) ||
    ds.any (fun d => (s.die d).swaps.any (fun w => w.part == p && tasksIn w.cores)) || ds.any (fun d => rstBusy (s.cfg d p 0x088))
  natW (b2n (!busy) + 2 * b2n out + 4 * b2n !ds.isEmpty)
/-- What an aligned 8-byte read of BAR0 of a partition's virtual function returns (R348). -/
def State.vfRead (s : State) (p off : Nat) : W64 :=
  if off % 8 ≠ 0 then 0
  else if off < 0x40000 then
    match s.diesOf p with
    | d :: _ => if off % 64 = 0 ∧ bitAt (s.cfg d p 0x020) 0 then natW (s.kick d p (off / 64)) else 0
    | [] => 0
  else if off < 0x50000 then
    let i := off / 8 % 4096
    if s.signalBad p i then 0 else s.signal p i
  else if off = 0x50008 then s.vfStat p
  else 0

/-! ### What a reset and a swap share -/

/-- The commands that have started in a cluster complete; a fill that waits for its register stays (R343, R338). -/
def State.drainCl (s : State) (cl : Nat) : State := (((s.cluster cl).cmds.filter (·.started)).map (·.seq)).foldl (fun t n => t.completeCmd cl n) s
/-- Transactions of cores are completed or answered: stores that wait for a host die are performed, and token requests are withdrawn. -/
def State.endTxns (s : State) (cs : List Nat) : State :=
  let ids := (s.coh.filter (fun m : Coh => m.kind == CohKind.wrhh && cs.contains (coreOf m.src))).map (·.id)
  let s1 := ids.foldl (fun t i => match t.coh.find? (fun m => m.id == i) with
    | some m => ((t.dropCoh i).takeWrhh m).dropCoh i
    | none => t) s
  (List.range 4).foldl (fun t d =>
    let bs := (((t.die d).treqs.filter (fun r => cs.contains r.core)).map (·.blk)).eraseDups
    (bs.foldl (fun u b => u.settle b) t).modDie d (fun x => { x with treqs := x.treqs.filter (fun r => !cs.contains r.core) })) s1
/-- Every token of a core's CDC goes to its slice. -/
def State.flushCdc (s : State) (c : Nat) : State := (mkeys (s.core c).cdc).foldl (fun t b => t.cdcFlush c b) s
/-- What stays with a core when its contents leave it: its management registers, that its kernel runs, and the count of its cycles. -/
def Core.vacant (x : Core) : Core :=
  { Core.reset with started := x.started, lbTick := x.lbTick, rlogctl := x.rlogctl, rlogRead := x.rlogRead, pwctl := x.pwctl, cyc0 := x.cyc0 }
/-- What stays with a cluster. -/
def Cluster.vacant (x : Cluster) : Cluster := { Cluster.reset with clwgt0 := x.clwgt0, clwgt1 := x.clwgt1, deficit := x.deficit, enabled := x.enabled, ramp := x.ramp }
def inKeys (ks : List Nat) (size k : Nat) : Bool := ks.contains (k / size)
/-- Takes every strand, core, cluster and local store of clusters out of the machine; the kernel's strand begins anew on every started core (R33). -/
def State.vacate (s : State) (cls : List Nat) : State :=
  let cs := coresOf cls
  let kept := s.slots.filter (fun e => !cls.contains (clOfSlot e.1))
  { s with
    slots := (cs.filter (fun c => (s.core c).started)).foldl (fun m c => mput m (16 * c) (s.nativeRoot c)) kept
    cores := s.cores.map (fun e => if cls.contains (clOfCore e.1) then (e.1, e.2.vacant) else e)
    clusters := s.clusters.map (fun e => if cls.contains e.1 then (e.1, e.2.vacant) else e)
    ls := s.ls.filter (fun e => !inKeys cs 262144 e.1)
    lsEmpty := s.lsEmpty.filter (fun e => !inKeys cs 32768 e)
    lsPois := s.lsPois.filter (fun e => !inKeys cs 32768 e)
    net := s.net.filter (fun n => !cs.contains n.core)
    answers := s.answers.filter (fun a => !cs.contains (coreOf a.slot))
    uio := s.uio.filter (fun e => match e.1 with
      | .slot k => !cls.contains (clOfSlot k)
      | .seq l => !cls.contains l) }

/-! ### Reset (R343, R478) -/

/-- TLB entries of a partition are dropped everywhere. -/
def State.dropPart (s : State) (p : Nat) : State :=
  let keep (t : Tlb) : Bool := t.part != p
  let s1 := (mkeys s.cores).foldl (fun t c => t.modCore c (fun x => { x with itlb := x.itlb.filter keep, dtlb := x.dtlb.filter keep })) s
  (mkeys s1.clusters).foldl (fun t c => t.modCluster c (fun x => { x with l2tlb := x.l2tlb.filter keep })) s1
/-- The steps of R343 on the clusters of the partition, and on what the dies hold for it. -/
def State.resetSteps (s : State) (p : Nat) (ds cls : List Nat) : State :=
  let cs := coresOf cls
  -- 1: queues and seed trays are unmapped, and the cores stop
  let s1 := (List.range 4).foldl (fun t d => t.modDie d (fun x => { x with queues := x.queues.filter (fun e => e.part != p) })) s
  -- 2: engines
  let s2 := cls.foldl (fun t c => (t.drainCl c).discard c (fun _ => true)) s1
  -- 3: transactions
  let s3 := cs.foldl (fun t c => t.flushCdc c) (s2.endTxns cs)
  -- 4: translations; 5: stores
  let s4 := cs.foldl (fun t c => t.modCore c (fun x => { x with cyc0 := s.cycle })) ((s3.dropPart p).vacate cls)
  let s5 := ds.foldl (fun t d => (runOf (t.cfg d p 0x050)).foldl (fun u i => (u.recallRange (hotAddr d i 0) 65536).clearHot d i) t) s4
  -- 6: signals, held messages, dead letters, and what stands elsewhere for the partition's strands
  let s6 := ds.foldl (fun t d => (t.setCfg d p 0x080 0).modDie d (fun x => { x with
    signals := x.signals.filter (fun e => e.1 / 1024 != p), stranded := x.stranded.filter (fun e => e / 512 != p), faults := mdel x.faults p
    faultq := mdel x.faultq p, swaps := x.swaps.filter (fun w => w.part != p) })) s5
  { s6 with gangs := s6.gangs.filter (fun g => g.part != p), saves := s6.saves.filter (fun v => v.part != p) }
/-- Event PRSTCTL_GO: the steps run at once on every die of the partition, which stays busy until PARTITION_RESET_COMPLETE. A partition that was swapped out
returns onto the clusters of CLMASK when they are free, and else holds none (DESIGN CHOICE, log entry 82). -/
def State.startReset (s : State) (d p : Nat) : State :=
  let ds := s.diesOf p
  if !bitAt (s.cfg d p 0) 0 || rstBusy (s.cfg d p 0x088) then s
  else
    let cls := s.clustersOf p
    let back (e : Nat) : Bool := (s.maskCls e p).all (s.clFree p)
    let s1 := ds.foldl (fun t e => (((t.modCfg e p 0x088 (fun r => setBit r 1 true)).modCfg e p 0x090 (fun r =>
      if swpBusy r then natW (3 * 2 ^ 62) else setBit r 4 false)).modDie e (fun x => { x with
        resetPart := mput x.resetPart p (s.gtcOf e)
        heldMask := if s.away e p && !back e then mput x.heldMask p 0 else x.heldMask }))) s
    let s2 := if s1.ckBusy && s1.ckpt.isSome then s1.ckptFail (ds.headD 0) 0 else s1
    let s3 := (List.range 4).foldl (fun t e =>
      match (t.die e).migr.bind (fun m => t.chain 4 m.pte) with
      | some (_, _, q) => if q = p then t.abortMigr e else t
      | none => t) s2
    s3.resetSteps p ds cls
def execPrstctlGo (die part : Nat) (s : State) : Host.Outcome State Fault Refusal := .next (s.startReset die part)
def State.clearDone (s : State) (d p : Nat) : State := s.modCfg d p 0x088 (fun r => setBit r 2 false)
def execPrstctlDoneClear (die part : Nat) (s : State) : Host.Outcome State Fault Refusal := .next (s.clearDone die part)
/-- Event PARTITION_RESET_COMPLETE: DONE is set, event 0x74 is written in each die's device error log, and the kernels of its cores start. -/
def State.resetDone (s : State) (p : Nat) : State :=
  let ds := (s.diesOf p).filter (fun d => rstBusy (s.cfg d p 0x088))
  if ds.isEmpty then s
  else
    let s1 := ds.foldl (fun t d => (t.modCfg d p 0x088 (fun r => setBit (setBit r 1 false) 2 true)).logDie d
      (evEntry (srcOfFw d) 0x74 4 0 (natW (s.gtcOf d - mget 0 (s.die d).resetPart p)) (natW p))) s
    let cls := (s1.clustersOf p).filter (fun c => (s1.cluster c).enabled && ds.contains (dieOfCl c))
    (coresOf cls).foldl (fun t c => t.startCore c) s1
def execPartitionResetComplete (part : Nat) (s : State) : Host.Outcome State Fault Refusal := .next (s.resetDone part)

/-! ### Swap out (R338, R339, R479, R480) -/

/-- The hothouse pages of a partition on a die that hold lines, in ascending index, with their lines' bytes. -/
def State.hotPages (s : State) (d p : Nat) : List (Nat × Nat) :=
  ((runOf (s.cfg d p 0x050)).map (fun i => (i, 128 * ((s.die d).hotLines.filter (fun l => l / 512 == i)).length))).filter (fun e => e.2 != 0)
/-- Pages that fit into what the cold-frame share has left, and those that do not. -/
def fitPages (pages : List (Nat × Nat)) (room : Nat) : List Nat × List Nat :=
  let r := pages.foldl (fun (a : Nat × List Nat × List Nat) e => if e.2 ≤ a.1 then (a.1 - e.2, a.2.1 ++ [e.1], a.2.2) else (a.1, a.2.1, a.2.2 ++ [e.1])) (room, [], [])
  (r.2.1, r.2.2)
/-- Bytes of a partition's context on a die: 11 MiB a cluster at most, else a free value. -/
def State.ctxSize (s : State) (cls : List Nat) : Nat :=
  ((List.range cls.length).map (fun i => Nat.min 11534336 (Config.swapBytes (s.free + i)))).foldl (· + ·) 0
def State.cfsBytes (s : State) (d p : Nat) : Nat := wf (s.cfg d p 0x068) 23 7 * 2 ^ 20
def State.noRoom (s : State) (d p need : Nat) : Bool :=
  decide (s.cfsBytes d p + wf (s.cfg d p 0x040) 0 32 * 65536 < need) ||
    (!(fitPages (s.hotPages d p) (s.cfsBytes d p - need)).2.isEmpty && wf (s.cfg d p 0x058) 0 10 == 0)
/-- A refused swap changes nothing but STATUS, with event 0x75. -/
def State.refuseSwap (s : State) (d p st need : Nat) : State :=
  (s.modCfg d p 0x090 (fun r => setF r 62 2 st)).logDie d (evEntry (srcOfFw d) 0x75 4 0 (natW st) (natW need))
/-- Carries hothouse pages into a context. -/
def State.takeHot (s : State) (d : Nat) (ixs : List Nat) (w : Swap) : State × Swap :=
  ixs.foldl (fun r i =>
    let s := r.1.recallRange (hotAddr d i 0) 65536
    let lo := hotAddr d i 0 - hotBase
    (s.clearHot d i, { r.2 with
      hot := r.2.hot ++ s.hot.filter (fun e => decide (lo ≤ e.1) && decide (e.1 < lo + 65536))
      hotLines := r.2.hotLines ++ (s.die d).hotLines.filter (fun l => l / 512 == i)
      hotPois := r.2.hotPois ++ s.pois.filter (fun x => decide (hotAddr d i 0 ≤ 64 * x) && decide (64 * x < hotAddr d i 0 + 65536)) })) (s, w)
/-- Steps 3 to 6 of R338 on a die: the context leaves the clusters. -/
def State.saveDie (s : State) (d p : Nat) (fits : List Nat) : State :=
  let cls := (s.clustersOf p).filter (fun c => dieOfCl c == d)
  let cs := coresOf cls
  let s1 := cls.foldl (fun t c => t.drainCl c) s
  let s2 := cs.foldl (fun t c => ((t.wbAllL1 c).invAllL1 c).flushCdc c) (s1.endTxns cs)
  let w : Swap := {
    part := p, cls := cls
    slots := s2.slots.filter (fun e => cls.contains (clOfSlot e.1))
    cores := (s2.cores.filter (fun e => cls.contains (clOfCore e.1))).map (fun e => (e.1, { e.2 with icache := [], itlb := [], dtlb := [] }))
    clusters := (s2.clusters.filter (fun e => cls.contains e.1)).map (fun e => (e.1, { e.2 with l2tlb := [] }))
    ls := s2.ls.filter (fun e => inKeys cs 262144 e.1), lsEmpty := s2.lsEmpty.filter (inKeys cs 32768), lsPois := s2.lsPois.filter (inKeys cs 32768)
    hot := [], hotLines := [], hotPois := []
    net := s2.net.filter (fun n => cs.contains n.core), answers := s2.answers.filter (fun a => cs.contains (coreOf a.slot)) }
  let (s3, w) := (s2.vacate cls).takeHot d fits w
  s3.modDie d (fun x => { x with swaps := x.swaps ++ [w] })
/-- Event PSWCTL_SWAP_OUT: a refused swap changes nothing; otherwise launches complete their release, pages that the share cannot hold are forced out,
and each die's context is saved. -/
def State.swapOut (s : State) (d p : Nat) : State :=
  let r := s.cfg d p 0x090
  let ds := s.diesOf p
  let cls (e : Nat) : List Nat := (s.clustersOf p).filter (fun c => dieOfCl c == e)
  if swpBusy r then s
  else if !bitAt (s.cfg d p 0) 0 || s.swappedOut d p || rstBusy (s.cfg d p 0x088) then s.refuseSwap d p 1 (s.ctxSize (cls d))
  else
    let s0 : State := { s with free := s.free + 96 }
    match ds.find? (fun e => s.noRoom e p (s.ctxSize (cls e))) with
    | some e => s0.refuseSwap d p 2 (s.ctxSize (cls e))
    | none =>
      let s1 := ((s0.gangs.filter (fun g => g.part == p && !g.released && !g.retired)).map (·.id)).foldl (fun t g => t.releaseGang g) s0
      ds.foldl (fun t e =>
        let (fits, rest) := fitPages (t.hotPages e p) (t.cfsBytes e p - s.ctxSize (cls e))
        let t1 := rest.foldl (fun u i => u.forceOut e p i) t
        (t1.saveDie e p fits).modCfg e p 0x090 (fun r => setF (setBit r 3 true) 62 2 0)) s1
def execPswctlSwapOut (die part : Nat) (v : W64) (s : State) : Host.Outcome State Fault Refusal :=
  .next (if bitAt v 0 && !bitAt v 1 then s.swapOut die part else s)

/-! ### Resume (R338, R479, R481) -/

/-- Numbers of cores, slots and sources when a partition's clusters change places. -/
def renCore (f : Nat → Nat) (c : Nat) : Nat := f (c / 16) * 16 + c % 16
def renSlot (f : Nat → Nat) (k : Nat) : Nat := f (k / 256) * 256 + k % 256
def renSrc (f : Nat → Nat) (n : Nat) : Nat := match coreOfSrc n with
  | some c => srcOfSlot (16 * renCore f c + n % 16)
  | none => n
def renArea (f : Nat → Nat) (a : W64) : W64 :=
  if a.toNat / 2 ^ 61 = 1 then
    let n := a.toNat % 2 ^ 61 / 256
    natW (2 ^ 61 + (renSrc f (n / 1024) * 1024 + n % 1024) * 256)
  else a
def Await.ren (f : Nat → Nat) : Await → Await
  | .remote i a p w => .remote i a (renSrc f p) w
  | .heldRoom c => .heldRoom (renCore f c)
  | .credit c o w => .credit (renCore f c) o w
  | .reply k => .reply (renSlot f k)
  | a => a
def Slot.ren (f : Nat → Nat) (x : Slot) : Slot :=
  { x with
    park := x.park.map (fun p => { p with on := p.on.ren f })
    job := match x.job with
      | .task c i g => .task (renCore f c) i g
      | j => j
    savea := renArea f x.savea, held := x.held.map (fun h => (renArea f h.1, h.2)), born := x.born.map (fun b => (renSlot f b.1, b.2)) }
def Owner.ren (f : Nat → Nat) : Owner → Owner
  | .strand k g => .strand (renSlot f k) g
  | .task c i g => .task (renCore f c) i g
  | o => o
def Side.ren (f : Nat → Nat) : Side → Side
  | .ls c o => .ls (renCore f c) o
  | x => x
def Cmd.ren (f : Nat → Nat) (c : Cmd) : Cmd :=
  { c with slot := renSlot f c.slot, owner := c.owner.ren f, src := c.src.map (Side.ren f), dst := c.dst.map (Side.ren f)
           pages := c.pages.map (fun p => { p with ok := false }) }
def Waiter.ren (f : Nat → Nat) : Waiter → Waiter
  | .strand k g => .strand (renSlot f k) g
  | w => w
def renRange (f : Nat → Nat) (r : Nat × Nat × Nat) : Nat × Nat × Nat := if r.1 = 0 then r else (renCore f (r.1 - 1) + 1, r.2)
def renJoin (f : Nat → Nat) (r : Nat) : Nat := if r < 65536 then r else 65536 + renSlot f (r - 65536)
def Cluster.ren (f : Nat → Nat) (x : Cluster) : Cluster :=
  { x with
    pend := x.pend.map (Cmd.ren f), cmds := x.cmds.map (Cmd.ren f)
    furrows := x.furrows.map (fun e => (e.1, { e.2 with owner := e.2.owner.ren f, core := renCore f e.2.core, resq := e.2.resq.map (Waiter.ren f)
                                                        takq := e.2.takq.map (Waiter.ren f) }))
    counters := x.counters.map (fun e => (e.1, { e.2 with owner := e.2.owner.ren f })), terms := x.terms.map (fun e => (e.1, { e.2 with owner := e.2.owner.ren f }))
    nbars := x.nbars.map (fun e => (e.1, { e.2 with arr := e.2.arr.map (renJoin f), arr2 := e.2.arr2.map (renJoin f) }))
    matHaz := x.matHaz.map (fun h => (h.1, h.2.1.map (renRange f), h.2.2.map (renRange f))) }
def Core.ren (f : Nat → Nat) (x : Core) : Core :=
  { x with
    tctx := x.tctx.map (fun e => (e.1, { e.2 with save := renArea f e.2.save })), fwd := x.fwd.map (fun e => { e with core := renCore f e.core })
    tray := x.tray.map (fun e => { e with slot := renSlot f e.slot }) }
def Gang.ren (f : Nat → Nat) (g : Gang) : Gang :=
  let o := { g with cl := [] }
  { g with tray := g.tray.map (renCore f), cl := o.clusters.foldl (fun m c => mput m c (f (mget c g.cl c))) [] }
def Net.ren (f : Nat → Nat) (n : Net) : Net := { n with core := renCore f n.core, src := renSrc f n.src }
/-- Puts a die's context into the clusters of its cluster mask, one for one; registers of the new clusters and cores stay theirs. -/
def State.loadDie (s : State) (d : Nat) (f : Nat → Nat) (w : Swap) : State :=
  let s1 := w.clusters.foldl (fun t e => t.modCluster (f e.1) (fun y =>
    { e.2.ren f with clwgt0 := y.clwgt0, clwgt1 := y.clwgt1, deficit := y.deficit, enabled := y.enabled, ramp := y.ramp })) s
  let s2 := w.cores.foldl (fun t e => t.modCore (renCore f e.1) (fun y => { e.2.ren f with rlogctl := y.rlogctl, rlogRead := y.rlogRead, pwctl := y.pwctl, cyc0 := y.cyc0 })) s1
  let s3 := w.slots.foldl (fun t e => t.setSlot (renSlot f e.1) (e.2.ren f)) s2
  let lsKeyR (k : Nat) : Nat := renCore f (k / 262144) * 262144 + k % 262144
  let wKeyR (k : Nat) : Nat := renCore f (k / 32768) * 32768 + k % 32768
  let s4 : State := { s3 with
    ls := w.ls.foldl (fun m e => mput m (lsKeyR e.1) e.2) s3.ls
    lsEmpty := w.lsEmpty.foldl (fun m k => insertSorted m (wKeyR k)) s3.lsEmpty, lsPois := w.lsPois.foldl (fun m k => insertSorted m (wKeyR k)) s3.lsPois
    net := s3.net ++ w.net.map (Net.ren f), answers := s3.answers ++ w.answers.map (fun a => { a with slot := renSlot f a.slot })
    hot := w.hot.foldl (fun m e => mput m e.1 e.2) s3.hot, pois := w.hotPois.foldl insertSorted s3.pois }
  s4.modDie d (fun x => { x with
    hotLines := w.hotLines.foldl insertSorted x.hotLines, swaps := x.swaps.filter (fun v => v.part != w.part)
    faults := x.faults.map (fun e => if e.1 = w.part then (e.1, e.2.map (fun r => { r with slot := renSlot f r.slot })) else e)
    faultq := x.faultq.map (fun e => if e.1 = w.part then (e.1, e.2.map (fun r => { r with slot := renSlot f r.slot })) else e) })
/-- The context of a partition on a die. -/
def State.swapOf (s : State) (d p : Nat) : Option Swap := (s.die d).swaps.find? (fun w => w.part == p)
/-- Event PSWCTL_RESUME: the partition returns onto the clusters of its cluster masks, refused unless they are free and as many as before. -/
def State.resume (s : State) (d p : Nat) : State :=
  let ds := s.diesOf p
  if swpBusy (s.cfg d p 0x090) then s
  else if !s.swappedOut d p || rstBusy (s.cfg d p 0x088) ||
      !ds.all (fun e => (s.maskCls e p).all (s.clFree p) && (s.maskCls e p).length == ((s.swapOf e p).map (fun w => w.cls.length)).getD 0) then s.refuseSwap d p 1 0
  else
    let pairs := ds.flatMap (fun e => match s.swapOf e p with
      | some w => w.cls.zip (s.maskCls e p)
      | none => [])
    let f (c : Nat) : Nat := ((pairs.find? (fun e => e.1 == c)).map (·.2)).getD c
    let s1 := ds.foldl (fun t e => match t.swapOf e p with
      | some w => ((t.loadDie e f w).dropHeld e p).modCfg e p 0x090 (fun r => setF (setBit r 3 true) 62 2 0)
      | none => (t.dropHeld e p).modCfg e p 0x090 (fun r => setF (setBit r 3 true) 62 2 0)) s
    { s1 with
      gangs := s1.gangs.map (fun g => if g.part = p then g.ren f else g)
      saves := s1.saves.map (fun v => if v.part = p then { v with slot := renSlot f v.slot, addr := renArea f v.addr, img := v.img.ren f } else v) }
def execPswctlResume (die part : Nat) (v : W64) (s : State) : Host.Outcome State Fault Refusal :=
  .next (if bitAt v 0 && bitAt v 1 then s.resume die part else s)
/-- Event SWAP_COMPLETE: BUSY clears; the partition is out, or back. -/
def State.swapDone (s : State) (p : Nat) : State :=
  ((s.diesOf p).filter (fun d => swpBusy (s.cfg d p 0x090))).foldl (fun t d =>
    (if s.swappedOut d p then t else t.dropHeld d p).modCfg d p 0x090 (fun r => setBit (setBit r 3 false) 4 (!bitAt r 4))) s
def execSwapComplete (part : Nat) (s : State) : Host.Outcome State Fault Refusal := .next (s.swapDone part)

end Sys2Proof.Machine
end

