-- ==== Sys2Proof/Machine/EvLink.lean ====
section
/-! DEFINITION. Die links, isolation of a die, and thermal and power limits (R7, R351, R459 to R462, R484 to R486). -/

namespace Sys2Proof.Machine

/-! ### Die links (R7, R24, R351, R459 to R461) -/

/-- The next die of the ring D0, D1, D3, D2, clockwise (R8). -/
def ringNext (d : Nat) : Nat := if d = 0 then 1 else if d = 1 then 3 else if d = 3 then 2 else 0
def ringPrev (d : Nat) : Nat := if d = 0 then 2 else if d = 2 then 3 else if d = 3 then 1 else 0
/-- The controller at the other end of a die's link, 0 clockwise and 1 counter-clockwise. -/
def otherEnd (d n : Nat) : Nat × Nat := if n = 0 then (ringNext d, 1) else (ringPrev d, 0)
def dlReg (n : Nat) : Nat := 0x58 + 8 * n
def State.dl (s : State) (d n : Nat) : W64 := s.mg d (dlReg n)
/-- Changes DLSTn at both ends of a link. -/
def State.modLink (s : State) (d n : Nat) (f : W64 → W64) : State :=
  let (e, m) := otherEnd d n
  (s.setMg d (dlReg n) (f (s.dl d n))).setMg e (dlReg m) (f (s.dl e m))
/-- A saturating 16-bit count in a register. -/
def bump16 (r : W64) (lo : Nat) : W64 := setF r lo 16 (Nat.min 65535 (wf r lo 16 + 1))
def srcOfLink (d n : Nat) : Nat := srcOfUnit d 22 n
/-- A link fails: FAIL and event 0x58 at both controllers (the flits that were re-sent are not part of the state, log entry 17), migrations over the link
are aborted, and a die without links is to be isolated. -/
def State.failLink (s : State) (d n : Nat) : State :=
  let n := n % 2
  let (e, m) := otherEnd d n
  if bitAt (s.dl d n) 63 then s
  else
    let s1 := s.modLink d n (fun r => setBit r 63 true)
    let log (t : State) (a i : Nat) : State := { t.logDie a (evEntry (srcOfLink a i) 0x58 3 0 (natW i) (Config.openWord t.free)) with free := t.free + 1 }
    let s2 := log (log s1 d n) e m
    let lost (t : State) (a b : Nat) : State := if (t.die a).migr.any (fun g => t.homeOf g.new == b) then t.abortMigr a else t
    let s3 := lost (lost s2 d e) e d
    [d, e].foldl (fun t a => if bitAt (t.dl a 0) 63 && bitAt (t.dl a 1) 63 then t.modDie a (fun x => { x with isoReq := !x.isolated }) else t) s3
def execDieLinkFailure (die link : Nat) (s : State) : Host.Outcome State Fault Refusal := .next (s.failLink die link)
/-- CRC failures of a module in the current millisecond. -/
def State.crcOf (s : State) (d n mod : Nat) : Nat :=
  let v := mget 0 (s.die d).crc (n * 48 + mod)
  if v / 65536 = s.gtcOf d / 10 ^ 6 then v % 65536 else 0
/-- Event DIE_LINK_CRC_ERROR: the failure is counted against the module, and the flit is replayed. -/
def execDieLinkCrcError (die link mod : Nat) (s : State) : Host.Outcome State Fault Refusal :=
  .next (let n := link % 2
    let c := Nat.min 65535 (s.crcOf die n mod + 1)
    (s.modDie die (fun x => { x with crc := mput x.crc (n * 48 + mod) (s.gtcOf die / 10 ^ 6 * 65536 + c) })).setMg die (dlReg n) (bump16 (s.dl die n) 16))
/-- Is a module to be retired: it failed more than 256 times within the millisecond, or its link is retraining and it fails to. -/
def State.retireDue (s : State) (d n mod : Nat) : Bool :=
  decide (mod < 48) && !(s.die d).retiredMods.contains (n * 48 + mod) && !bitAt (s.dl d n) 63 && (decide (256 < s.crcOf d n mod) || (s.die d).training.contains n)
/-- Event DIE_LINK_MODULE_RETIRE: the link retrains without the module, or fails with fewer than 24. -/
def State.retireMod (s : State) (d n mod : Nat) : State :=
  if !s.retireDue d n mod then s
  else
    let (e, m) := otherEnd d n
    let left := wf (s.dl d n) 48 6 - 1
    let s1 := (s.modLink d n (fun r => setF r 48 6 left)).modDie d (fun x => { x with retiredMods := insertSorted x.retiredMods (n * 48 + mod) })
    let s2 := (s1.modDie e (fun x => { x with retiredMods := insertSorted x.retiredMods (m * 48 + mod) })).logDie d
      (evEntry (srcOfLink d n) 0x57 3 0 (natW (n + 2 * left)) (natW mod))
    if left < 24 then s2.failLink d n
    else
      let s3 := s2.modLink d n (fun r => bump16 r 0)
      (s3.modDie d (fun x => { x with training := insertSorted x.training n })).modDie e (fun x => { x with training := insertSorted x.training m })
def execDieLinkModuleRetire (die link mod : Nat) (s : State) : Host.Outcome State Fault Refusal := .next (s.retireMod die (link % 2) mod)
/-- Event DIE_LINK_RETRAIN_DONE: buffered traffic resumes in order. -/
def execDieLinkRetrainDone (die link : Nat) (s : State) : Host.Outcome State Fault Refusal :=
  .next (let (e, m) := otherEnd die (link % 2)
    (s.modDie die (fun x => { x with training := x.training.filter (· != link % 2) })).modDie e (fun x => { x with training := x.training.filter (· != m) }))

/-! ### Isolation (R462) -/

/-- Blocks that a home records for a die, with its state. -/
def State.heldBy (s : State) (h d : Nat) : List (Nat × Nat) := ((s.die h).dir ++ (s.die h).hostdir).map (fun e => (e.1, nth 0 e.2.st d))
/-- Step 2: a remaining home records the die as I; what it held in E, O or M is poisoned, and transactions that waited on it go on. -/
def State.forgetDie (s : State) (h d : Nat) : State :=
  let s1 := (s.heldBy h d).foldl (fun t e =>
    if e.2 = 0 then t
    else
      let u := t.setDirSts e.1 (setNth (t.dirSts e.1) d 0)
      if 2 ≤ e.2 then (u.poisonBlock e.1).regain h e.1 true else u) s
  (s1.die h).txns.foldl (fun t e =>
    let x := e.2
    if x.req = d then ((t.modDie h (fun y => { y with txns := mdel y.txns e.1 })).serveBlk h e.1)
    else if x.waiting.contains d ∨ x.gone.any (fun g => g.1 == d) then
      ((t.setTxn h e.1 { x with waiting := x.waiting.filter (· != d), gone := x.gone.filter (fun g => g.1 != d) }).tryGrant h e.1).goOn h e.1
    else t) s1
/-- Clusters of a die. -/
def clsOfDie (d : Nat) : List Nat := (List.range 24).map (· + 24 * d)
/-- Does a partition hold a cluster on a die. -/
def State.partOn (s : State) (d p : Nat) : Bool := bitAt (s.cfg d p 0) 0 && s.cfg d p 0x008 != 0
/-- Event DIE_ISOLATION: the six steps; the loss of the die of the primary host port is a device fault. -/
def State.isolate (s : State) (d : Nat) : State :=
  if !(s.die d).isoReq || (s.die d).isolated then s
  else if d = s.primary then (s.modDie d (fun x => { x with isoReq := false })).faultDevice
  else
    let rest := (List.range 4).filter (fun h => h != d && !(s.die h).isolated)
    let ps := (List.range 16).filter (s.partOn d)
    let s1 := s.modDie d (fun x => { x with isoReq := false, isolated := true })
    -- 3, for stores in flight to hothouse lines of the die: they complete without effect, as every message to or from it ends
    let s2 : State := { s1 with coh := s1.coh.filter (fun m : Coh => m.die != d && (m.kind == .wrhh || m.from_ != d)) }
    -- 1 and 2
    let s3 := (s2.modLink d 0 (fun r => setBit r 63 true)).modLink d 1 (fun r => setBit r 63 true)
    let s4 := rest.foldl (fun t h => t.forgetDie h d) s3
    -- 3: shared copies of the die's hothouse lines
    let lines := ((s4.die d).dir.map (·.1)).filter (fun b => isHot (128 * b))
    let s5 := lines.foldl (fun t b => rest.foldl (fun u h => u.loseDie h b) t) s4
    let s6 := (List.range 4).foldl (fun t e => if (t.die e).migr.any (fun m => t.homeOf m.new == d || e == d) then t.abortMigr e else t) s5
    -- 5 and 4
    let s7 := (List.range 3).foldl (fun t n => t.modPort d n (fun r => setF (setF (setBit r 62 false) 56 2 0) 48 5 0)) s6
    let s8 := match s7.ckpt with
      | some c => s7.ckptFail d (4096 + 65536 * (c.copied.filter (fun e : Nat × Nat => e.1 == d)).length)
      | none => s7
    let s9 := ps.foldl (fun t p => match t.diesOf p with
      | e :: _ => t.startReset e p
      | [] => t) s8
    let s10 := s9.vacate (clsOfDie d)
    -- 6
    (rest.foldl (fun (t : State) h => t.logDie h (evEntry (srcOfFw h) 0x59 3 0 (natW d) (natW ((ps.map (2 ^ ·)).foldl (· + ·) 0)))) s10).emit (.cxlError s.primary)
def execDieIsolation (die : Nat) (s : State) : Host.Outcome State Fault Refusal := .next (s.isolate die)

/-! ### Thermal and power limits (R484 to R486) -/

def State.tthr (s : State) (d : Nat) : Nat := wf (s.mg d 8) 40 8
def State.tcrit (s : State) (d : Nat) : Nat := wf (s.mg d 8) 48 8
def State.ttrip (s : State) (d : Nat) : Nat := wf (s.mg d 8) 56 8
def State.pbud (s : State) (d : Nat) : Nat := wf (s.mg d 8) 16 16
def State.level (s : State) (d : Nat) : Nat := wf (s.mg d 0x10) 52 4
/-- The throttle's condition. -/
def State.tooHot (s : State) (d : Nat) : Bool :=
  let x := s.die d
  decide (s.tthr d ≤ x.temp) || decide (s.pbud d < x.power) || x.plim
/-- The condition of recovery. -/
def State.coolAgain (s : State) (d : Nat) : Bool :=
  let x := s.die d
  !s.tooHot d && decide (x.temp + 5 ≤ s.tthr d) && decide (100 * x.power ≤ 95 * s.pbud d)
/-- Sets the clock and LEVEL; a change of LEVEL writes event 0x76. LEVEL is 1 while the clock is below 2,400 MHz and not critical (log entry 34). -/
def State.setClock (s : State) (d clk level : Nat) (down : Bool) : State :=
  let r := setF (setF (s.mg d 0x10) 32 16 clk) 52 4 level
  let s1 := s.setMg d 0x10 (if down then bump16 r 0 else r)
  if level = s.level d then s1 else s1.logDie d (evEntry (srcOfFw d) 0x76 4 0 (natW (level * 2 ^ 32 + clk)) (natW (s.die d).temp))
/-- The clock that a step of 10 µs leads to. -/
def State.nextClk (s : State) (d : Nat) : Nat :=
  let c := s.clk d
  if s.level d = 2 ∧ s.tthr d < (s.die d).temp then c
  else if s.tooHot d then (if c ≤ 1200 then c else Nat.max 1200 (c - 100))
  else if s.coolAgain d then Nat.min 2400 (c + 100)
  else c
/-- Event THERMAL_CLOCK_STEP: 10 µs after the last one. -/
def State.stepDue (s : State) (d : Nat) : Bool := decide ((s.die d).clkTick + 10000 ≤ s.gtcOf d)
def State.thermStep (s : State) (d : Nat) : State :=
  if !s.stepDue d then s
  else
    let c := s.nextClk d
    let level := if s.level d = 2 ∧ s.tthr d < (s.die d).temp then 2 else if c < 2400 then 1 else 0
    (s.setClock d c level (decide (c < s.clk d))).modDie d (fun x => { x with clkTick := s.gtcOf d })
def execThermalClockStep (die : Nat) (s : State) : Host.Outcome State Fault Refusal := .next (s.thermStep die)
/-- Event THERMAL_CRITICAL: TEMP has reached TCRIT. -/
def State.critDue (s : State) (d : Nat) : Bool := decide (s.tcrit d ≤ (s.die d).temp) && s.level d != 2
def execThermalCritical (die : Nat) (s : State) : Host.Outcome State Fault Refusal := .next (if s.critDue die then s.setClock die 600 2 false else s)
/-- Event POWER_LIMIT_INPUT: PLIM of every die follows the board's input; a change writes event 0x77. -/
def execPowerLimitInput (on : Bool) (s : State) : Host.Outcome State Fault Refusal :=
  .next (if s.powerLimit = on then s
    else (List.range 4).foldl (fun t d =>
      ((t.modDie d (fun x => { x with plim := on })).setMg d 0x10 (setBit (t.mg d 0x10) 49 on)).logDie d
        (evEntry (srcOfFw d) 0x77 4 0 (natW (b2n on)) (natW (t.die d).power))) { s with powerLimit := on })
/-- Event THERMAL_TRIP: TEMP has reached TTRIP; the die stops until a device reset, and its links fail. -/
def State.tripDue (s : State) (d : Nat) : Bool := decide (s.ttrip d ≤ (s.die d).temp) && !(s.die d).stopped
def execThermalTrip (die : Nat) (s : State) : Host.Outcome State Fault Refusal :=
  .next (if !s.tripDue die then s
    else
      let s1 := (s.logDie die (evEntry (srcOfFw die) 0x78 4 0 (natW die) (natW (s.die die).temp))).modDie die (fun x => { x with stopped := true })
      (s1.failLink die 0).failLink die 1)

end Sys2Proof.Machine
end

