-- ==== Sys2Proof/Machine/EvTime.lean ====
section
/-! DEFINITION. Boot, attestation, the GTC, the release of the clusters, and device reset (R13, R26, R352 to R354, R387, R482, R483). -/

namespace Sys2Proof.Machine

/-! ### Boot (R352, R482) -/

/-- The 64 bytes of a measurement register, little-endian. -/
def bytes64 (x : BitVec 512) : List Byte := (List.range 64).map (fun i => BitVec.ofNat 8 (x.toNat / 256 ^ i))
/-- Extends a measurement register of a die: SHAKE256(MEAS ‖ SHAKE256(x)). -/
def State.extend (s : State) (d n : Nat) (x : List Byte) : State :=
  s.modDie d (fun y => { y with meas := mput y.meas n (Config.shake256 (bytes64 (mget 0 y.meas n) ++ bytes64 (Config.shake256 x))) })
/-- BOOTST from its fields. -/
def bootst (reason stage slot : Nat) (idk : Bool) : W64 := natW (reason * 2 ^ 56 + stage * 2 ^ 44 + slot * 2 ^ 42 + b2n idk * 2 ^ 41)
/-- The die firmware configures the die from the tables of the image that runs: the choice of primary host port, the fabric decoders and the ways of R12,
as far as they name them (R352, log entry 14). -/
def State.applyTables (s : State) (d : Nat) (tables : List Byte) : State :=
  let s1 : State := match Config.tablePrimary tables with
    | some p => { s with primary := p % 4 }
    | none => s
  let s2 := (List.range 16).foldl (fun t n => match Config.tableFabric tables n with
    | some e => t.setMg d (0x100 + 8 * n) (e &&& 0xFFFFFFFFFFFFFF01)
    | none => t) s1
  match Config.tableWays tables with
  | some w => s2.setMg d 0x18 (setF (s2.mg d 0x18) 0 2 w)
  | none => s2
/-- Event BOOT_ROM: the strand of the root slot of core 0 of cluster 0 runs the ROM and the firmware at F (R352); slot A, then slot B; the image that verifies is measured and runs; the firmware reaches stage 6, or stops with its reason. What each
slot holds and whether trainings succeed are inputs (log entry 14). -/
def State.boot (s : State) (d : Nat) : State :=
  let x := s.die d
  if x.booted || x.stopped then s
  else
    let s0 := s.setSlot (6144 * d) { s.rootStart (384 * d) with kern := some .self }
    let s1 := s0.extend d 0 (mget [] x.flash 0)
    let idk := !x.idkBad
    let run (slot : Nat) (t : State) : State :=
      let t1 := [1, 2, 3].foldl (fun u n => u.extend d n (mget [] x.flash (4 * slot + n))) t
      if x.fwFail = 0 then ((t1.applyTables d (mget [] x.flash (4 * slot + 3))).setMg d 0 (bootst 0 6 slot idk)).modDie d (fun y => { y with booted := true })
      else (t1.setMg d 0 (bootst x.fwFail (if x.fwFail = 5 then 3 else 4) slot idk)).modDie d (fun y => { y with stopped := true })
    if x.imgA = 0 then run 0 s1
    else if x.imgB = 0 then run 1 s1
    else (s1.setMg d 0 (bootst x.imgB (if x.imgB = 1 then 0 else 1) 2 idk)).modDie d (fun y => { y with stopped := true })
def execBootRom (die : Nat) (s : State) : Host.Outcome State Fault Refusal := .next (s.boot die)
/-- The device is ready: every die has reached stage 6. -/
def State.ready (s : State) : Bool := (List.range 4).all (fun d => (s.die d).booted)

/-! ### The GTC and the clusters (R13, R26, R354) -/

/-- Event GTC_START: in the tick after the last die has trained its links; firmware chooses the release tick. -/
def State.startGtc (s : State) : State :=
  if s.gtcOn || !s.ready then s else { s with gtcOn := true, gtc := 0, relTick := 1000 + Config.releaseDelay, relStep := 0 }
def execGtcStart (s : State) : Host.Outcome State Fault Refusal := .next s.startGtc
/-- Does the wait count of a resident parked strand advance (R338, R411). -/
def Slot.counts (x : Slot) : Bool := x.phase == .parked && x.park.isSome
/-- `n` ticks of the wait count of a parked strand. -/
def Slot.ticks (x : Slot) (n : Nat) : Slot := { x with park := x.park.map (fun p => { p with ticks := p.ticks + n }) }
/-- `n` ticks: the GTC advances by 1 each nanosecond (R13), and so do the counts of parked strands. -/
def State.ticks (s : State) (n : Nat) : State :=
  if !s.gtcOn then s
  else { s with gtc := (s.gtc + n) % 2 ^ 64, acc := s.acc - n * Nat.max 1 (s.clk s.primary), slots := s.slots.map (fun e => if e.2.counts then (e.1, e.2.ticks n) else e) }
/-- Event GTC_TICK: one tick. -/
def State.tick (s : State) : State := s.ticks 1
def execGtcTick (s : State) : Host.Outcome State Fault Refusal := .next s.tick
/-- Event CLUSTER_ENABLE_STEP: step k enables clusters 3k to 3k + 2 of every die, starts their engines' ramp, and the kernels of their cores. -/
def State.enableDue (s : State) : Bool := s.gtcOn && decide (s.relStep < 8) && decide (s.relTick + 250 * s.relStep ≤ s.gtc)
def State.enableStep (s : State) : State :=
  if !s.enableDue then s
  else
    let cls := ((List.range 4).filter (fun d => !(s.die d).isolated && !(s.die d).stopped)).flatMap (fun d => [0, 1, 2].map (fun i => 24 * d + 3 * s.relStep + i))
    let s1 := cls.foldl (fun t c => t.modCluster c (fun x => { x with enabled := true, ramp := s.gtc })) { s with relStep := s.relStep + 1 }
    (coresOf cls).foldl (fun t c => t.startCore c) s1
def execClusterEnableStep (s : State) : Host.Outcome State Fault Refusal := .next s.enableStep

/-! ### Attestation (R353, R483) -/

/-- The public key of a die's identity pair, which Weliegen's certificate binds to it (R353). -/
def identityKey (die : Nat) : BitVec 512 := Config.slhPublic (Config.identitySecret die)

/-- Event SPDM_MEASUREMENT_REQUEST: the measurements of the named die, the nonce, and the signature with the die's identity key; or an error response. -/
def execSpdmMeasurementRequest (die : Nat) (nonce : BitVec 256) (s : State) : Host.Outcome State Fault Refusal :=
  .next (let ms := (List.range 4).map (mget 0 (s.die die).meas)
    let nb : List Byte := (List.range 32).map (fun i => BitVec.ofNat 8 (nonce.toNat / 256 ^ i))
    if bitAt (s.mg die 0) 41 then s.emit (.spdm die ms nonce (Config.slhSign (Config.identitySecret die) (ms.flatMap bytes64 ++ nb))) else s.emit (.spdmError die))

/-! ### Device reset (R387) -/

/-- What a device reset leaves of a die: its sensors, the board's input and its flash. -/
def Die.rebooted (x : Die) : Die :=
  { Die.reset with temp := x.temp, power := x.power, plim := x.plim, imgA := x.imgA, imgB := x.imgB, fwFail := x.fwFail, idkBad := x.idkBad, flash := x.flash
                   mgmt := if x.plim then [(0x10, setBit (mgmtReset 0x10) 49 true)] else [] }
/-- Event DEVICE_RESET: every die boots again; memory keeps its bytes (log entry 14). -/
def execDeviceReset (s : State) : Host.Outcome State Fault Refusal :=
  .next { State.reset with
    mem := s.mem, pois := s.pois.filter (fun x => decide (64 * x < hotBase)), bad := s.bad.filter (fun x => decide (64 * x < hotBase)), primary := s.primary
    powerLimit := s.powerLimit, dies := s.dies.map (fun e => (e.1, e.2.rebooted)), free := s.free, inputs := s.inputs, outputs := s.outputs, nextMsg := s.nextMsg
    nextGang := s.nextGang }

end Sys2Proof.Machine
end

