-- ==== Sys2Proof/Machine/EvMgmt.lean ====
section
/-! DEFINITION. Writes of the management registers (R6, R341, R345 to R347): each register's writable fields, and the effects of those that have some. -/

namespace Sys2Proof.Machine

/-- The writable bits of a plain register of the die's own part, and of a partition's block; zero where there is none (R346, R347). -/
def mgmtMask (off : Nat) : W64 :=
  if off = 0x08 then 0xFFFFFF00FFFF0000
  else if off = 0x18 then 0x8000FF00FFFF0003
  else if off = 0x20 then 0x000FFFFFFFFFFFFF
  else if off = 0x38 then 0xFFFFFFFFFFFFFFFF
  else if off = 0x48 then 0x000FFFFFFFFFE000
  else if off = 0x40 then 0x000FFFFFFFFFFFF8
  else if 0x80 ≤ off ∧ off ≤ 0xF8 then 0xFFFFFFFF
  else if 0x100 ≤ off ∧ off ≤ 0x178 then 0xFFFFFFFFFFFFFF01
  else if 0x188 ≤ off ∧ off ≤ 0x1A0 then 0x000FFFFFFFFFF000
  else 0
def cfgMask (off : Nat) : W64 :=
  if off = 0x010 then 0x000FFFFFFFFFFFC0
  else if off = 0x018 then 0x000FFFFFFFFFE000
  else if off = 0x020 then 0x000FFFFFFFFC0001
  else if off = 0x028 ∨ off = 0x070 then 0x000FFFFFFFFFFFFF
  else if off = 0x038 then 0x000FFFFFFFFF0000
  else if off = 0x040 ∨ off = 0x048 then 0xFFFFFFFF
  else if off = 0x080 then 0x0000FFFFFFFFFFFF
  else if off = 0x098 then 0x800FFFFFFFFFFFE0
  else 0
/-- A write of a register of partition `p`'s block. -/
def State.cfgWrite (s : State) (d p off : Nat) (v : W64) : State :=
  let live := bitAt (s.cfg d p 0) 0
  if off = 0x000 then (if bitAt v 0 then s.liveSet d p else s.liveClear d p)
  else if off = 0x008 then
    (if live && !s.swappedOut d p then s
    else (if live && !s.away d p then s.modDie d (fun x => { x with heldMask := mput x.heldMask p (s.partMask d p) }) else s).setCfg d p off (v &&& 0xFFFFFF))
  else if off = 0x030 then s.reply d p v
  else if off = 0x050 then s.writeHhres d p v
  else if off = 0x058 then s.writeHhfb d p v
  else if off = 0x068 then
    let sum := ((List.range 16).map (fun q => if q = p then wf v 23 7 else wf (s.cfg d q 0x068) 23 7)).foldl (· + ·) 0
    if 96 < sum then s else s.setCfg d p off (v &&& 0xC0FFFFFF3F80FF00)
  else if off = 0x078 then s.modCfg d p off (fun r => setF (setF r 48 16 (wf v 48 16)) 16 16 (wf v 16 16))
  else if off = 0x088 then
    let s1 := if bitAt v 2 then s.clearDone d p else s
    if bitAt v 0 then s1.startReset d p else s1
  else if off = 0x090 then (if !bitAt v 0 then s else if bitAt v 1 then s.resume d p else s.swapOut d p)
  else if 0x0C0 ≤ off ∧ off ≤ 0x0F0 ∧ off % 8 = 0 then
    (if live then s else s.setCfg d p off (v &&& (if off = 0x0C0 then 0xFFFFFFFFFF else 0x7FFFFFFFFFFFFFFF)))
  else if cfgMask off = 0 then s
  else s.setCfg d p off (v &&& cfgMask off)
/-- A write of a register of a die's management space; reserved offsets and bits ignore it, and a die that has stopped exposes only BOOTST. -/
def State.mgmtWrite (s : State) (d off : Nat) (v : W64) : State :=
  let x := s.die d
  if off % 8 ≠ 0 ∨ x.stopped ∨ x.isolated then s
  else if off = 0x10 then s.setMg d off (setF (s.mg d off) 0 16 (wf v 0 16))
  else if off = 0x28 then s.setMg d off (setF (setF (s.mg d off) 48 16 (wf v 48 16)) 16 16 (wf v 16 16))
  else if off = 0x30 then
    let s1 := if bitAt v 2 then s.releaseSnap d else s
    let s2 := if bitAt v 0 then s1.arm d else s1.disarm d
    if bitAt v 1 then s2.armNow d else s2
  else if off = 0x50 then s.migrate d v
  else if off = 0x58 ∨ off = 0x60 then s.setMg d off (setF (s.mg d off) 0 32 (wf v 0 32))
  else if off = 0x68 ∨ off = 0x70 ∨ off = 0x78 then
    let s1 := s.setMg d off (setF (s.mg d off) 0 48 (wf v 0 48))
    if bitAt v 63 then s1.clearViral d ((off - 0x68) / 8) else s1
  else if off = 0x180 then (if d = s.primary then s.startCkpt v else s)
  else if 0x188 ≤ off ∧ off ≤ 0x1A0 then (if d = s.primary then s.setMg d off (v &&& mgmtMask off) else s)
  else if 0x10000 ≤ off ∧ off < 0x20000 then s.cfgWrite d ((off - 0x10000) / 0x1000) (off % 0x1000) v
  else if 0x20000 ≤ off ∧ off < 0x21800 then
    s.modCluster (24 * d + (off - 0x20000) / 0x100) (fun c =>
      if off % 0x100 = 0 then { c with clwgt0 := v } else if off % 0x100 = 8 then { c with clwgt1 := v &&& 0xF } else c)
  else if 0x30000 ≤ off ∧ off < 0x48000 then
    let c := 384 * d + (off - 0x30000) / 0x100
    if off % 0x100 = 0 then
      let s1 := s.modCore c (fun y => { y with rlogctl := setBit (setF y.rlogctl 14 38 (wf v 14 38)) 0 (bitAt v 0) })
      if bitAt v 1 then s1.clearWrap c else s1
    else if off % 0x100 = 8 then s.modCore c (fun y => { y with pwctl := v &&& 1 })
    else s
  else if off = 0x38 then (s.setMg d off v).armedNow d
  else if mgmtMask off = 0 then s
  else s.setMg d off (v &&& mgmtMask off)
/-- Event MGMT_REGISTER_WRITE. -/
def execMgmtRegisterWrite (die off : Nat) (v : W64) (s : State) : Host.Outcome State Fault Refusal := .next (s.mgmtWrite die off v)

end Sys2Proof.Machine
end

