-- ==== Sys2Proof/Machine/Dispatch.lean ====
section
/-! DEFINITION. One arm for every instruction and event. -/

namespace Sys2Proof.Machine

def exec (i : Instr) (s : State) : Host.Outcome State Fault Refusal :=
  match i with
  | .add o => Sys2Proof.Machine.execAdd o s
  | .sub o => Sys2Proof.Machine.execSub o s
  | .mul o => Sys2Proof.Machine.execMul o s
  | .mulh o => Sys2Proof.Machine.execMulh o s
  | .div o => Sys2Proof.Machine.execDiv o s
  | .rem o => Sys2Proof.Machine.execRem o s
  | .and o => Sys2Proof.Machine.execAnd o s
  | .or o => Sys2Proof.Machine.execOr o s
  | .xor o => Sys2Proof.Machine.execXor o s
  | .shl o => Sys2Proof.Machine.execShl o s
  | .shr o => Sys2Proof.Machine.execShr o s
  | .sra o => Sys2Proof.Machine.execSra o s
  | .slt o => Sys2Proof.Machine.execSlt o s
  | .sltn o => Sys2Proof.Machine.execSltn o s
  | .min o => Sys2Proof.Machine.execMin o s
  | .max o => Sys2Proof.Machine.execMax o s
  | .clz o => Sys2Proof.Machine.execClz o s
  | .ctz o => Sys2Proof.Machine.execCtz o s
  | .popc o => Sys2Proof.Machine.execPopc o s
  | .bext o => Sys2Proof.Machine.execBext o s
  | .bdep o => Sys2Proof.Machine.execBdep o s
  | .sext o => Sys2Proof.Machine.execSext o s
  | .zext o => Sys2Proof.Machine.execZext o s
  | .mov o => Sys2Proof.Machine.execMov o s
  | .addi o => Sys2Proof.Machine.execAddi o s
  | .andi o => Sys2Proof.Machine.execAndi o s
  | .ori o => Sys2Proof.Machine.execOri o s
  | .xori o => Sys2Proof.Machine.execXori o s
  | .shli o => Sys2Proof.Machine.execShli o s
  | .shri o => Sys2Proof.Machine.execShri o s
  | .srai o => Sys2Proof.Machine.execSrai o s
  | .li d imm => Sys2Proof.Machine.execLi d imm s
  | .lih o => Sys2Proof.Machine.execLih o s
  | .fadd o => Sys2Proof.Machine.execFadd o s
  | .fsub o => Sys2Proof.Machine.execFsub o s
  | .fmul o => Sys2Proof.Machine.execFmul o s
  | .ffma o => Sys2Proof.Machine.execFfma o s
  | .fdiv o => Sys2Proof.Machine.execFdiv o s
  | .fsqrt o => Sys2Proof.Machine.execFsqrt o s
  | .fmin o => Sys2Proof.Machine.execFmin o s
  | .fmax o => Sys2Proof.Machine.execFmax o s
  | .fcmp o => Sys2Proof.Machine.execFcmp o s
  | .fcvt o => Sys2Proof.Machine.execFcvt o s
  | .fclass o => Sys2Proof.Machine.execFclass o s
  | .br off => Sys2Proof.Machine.execBr off s
  | .bz o => Sys2Proof.Machine.execBz o s
  | .bnz o => Sys2Proof.Machine.execBnz o s
  | .beq o => Sys2Proof.Machine.execBeq o s
  | .bne o => Sys2Proof.Machine.execBne o s
  | .blt o => Sys2Proof.Machine.execBlt o s
  | .bge o => Sys2Proof.Machine.execBge o s
  | .bltn o => Sys2Proof.Machine.execBltn o s
  | .bgen o => Sys2Proof.Machine.execBgen o s
  | .call off => Sys2Proof.Machine.execCall off s
  | .callr a => Sys2Proof.Machine.execCallr a s
  | .ret => Sys2Proof.Machine.execRet s
  | .jr a => Sys2Proof.Machine.execJr a s
  | .halt => Sys2Proof.Machine.execHalt s
  | .haltKeep a => Sys2Proof.Machine.execHaltKeep a s
  | .nop => Sys2Proof.Machine.execNop s
  | .vcmp o => Sys2Proof.Machine.execVcmp o s
  | .vfcmp o => Sys2Proof.Machine.execVfcmp o s
  | .mdiv o => Sys2Proof.Machine.execMdiv o s
  | .melse o => Sys2Proof.Machine.execMelse o s
  | .mjoin => Sys2Proof.Machine.execMjoin s
  | .mpush a => Sys2Proof.Machine.execMpush a s
  | .mpop d => Sys2Proof.Machine.execMpop d s
  | .mpeek o => Sys2Proof.Machine.execMpeek o s
  | .mpeekDepth d => Sys2Proof.Machine.execMpeekDepth d s
  | .mpoke a b => Sys2Proof.Machine.execMpoke a b s
  | .mset o => Sys2Proof.Machine.execMset o s
  | .mand o => Sys2Proof.Machine.execMand o s
  | .mor o => Sys2Proof.Machine.execMor o s
  | .mxor o => Sys2Proof.Machine.execMxor o s
  | .mnot o => Sys2Proof.Machine.execMnot o s
  | .mpopc o => Sys2Proof.Machine.execMpopc o s
  | .mpopcBits o => Sys2Proof.Machine.execMpopcBits o s
  | .mfirst o => Sys2Proof.Machine.execMfirst o s
  | .mspill a => Sys2Proof.Machine.execMspill a s
  | .mfill a => Sys2Proof.Machine.execMfill a s
  | .lexit p => Sys2Proof.Machine.execLexit p s
  | .refill => Sys2Proof.Machine.execRefill s
  | .sow a p => Sys2Proof.Machine.execSow a p s
  | .vcall a p => Sys2Proof.Machine.execVcall a p s
  | .vadd o => Sys2Proof.Machine.execVadd o s
  | .vsub o => Sys2Proof.Machine.execVsub o s
  | .vmul o => Sys2Proof.Machine.execVmul o s
  | .vmulh o => Sys2Proof.Machine.execVmulh o s
  | .vmad o => Sys2Proof.Machine.execVmad o s
  | .vand o => Sys2Proof.Machine.execVand o s
  | .vor o => Sys2Proof.Machine.execVor o s
  | .vxor o => Sys2Proof.Machine.execVxor o s
  | .vnot o => Sys2Proof.Machine.execVnot o s
  | .vshl o => Sys2Proof.Machine.execVshl o s
  | .vshr o => Sys2Proof.Machine.execVshr o s
  | .vsra o => Sys2Proof.Machine.execVsra o s
  | .vmin o => Sys2Proof.Machine.execVmin o s
  | .vmax o => Sys2Proof.Machine.execVmax o s
  | .vabs o => Sys2Proof.Machine.execVabs o s
  | .vsel o => Sys2Proof.Machine.execVsel o s
  | .vclz o => Sys2Proof.Machine.execVclz o s
  | .vpopc o => Sys2Proof.Machine.execVpopc o s
  | .vsext o => Sys2Proof.Machine.execVsext o s
  | .vzext o => Sys2Proof.Machine.execVzext o s
  | .vbs o => Sys2Proof.Machine.execVbs o s
  | .vext o => Sys2Proof.Machine.execVext o s
  | .vins o => Sys2Proof.Machine.execVins o s
  | .vfadd o => Sys2Proof.Machine.execVfadd o s
  | .vfsub o => Sys2Proof.Machine.execVfsub o s
  | .vfmul o => Sys2Proof.Machine.execVfmul o s
  | .vffma o => Sys2Proof.Machine.execVffma o s
  | .vfdiv o => Sys2Proof.Machine.execVfdiv o s
  | .vfsqrt o => Sys2Proof.Machine.execVfsqrt o s
  | .vfrcp o => Sys2Proof.Machine.execVfrcp o s
  | .vfrsq o => Sys2Proof.Machine.execVfrsq o s
  | .vfexp2 o => Sys2Proof.Machine.execVfexp2 o s
  | .vflog2 o => Sys2Proof.Machine.execVflog2 o s
  | .vfmin o => Sys2Proof.Machine.execVfmin o s
  | .vfmax o => Sys2Proof.Machine.execVfmax o s
  | .vfround o => Sys2Proof.Machine.execVfround o s
  | .vfcvt o => Sys2Proof.Machine.execVfcvt o s
  | .vqblkExp o => Sys2Proof.Machine.execVqblkExp o s
  | .vqblkMan o => Sys2Proof.Machine.execVqblkMan o s
  | .vbpt o => Sys2Proof.Machine.execVbpt o s
  | .vhadd o => Sys2Proof.Machine.execVhadd o s
  | .vhmul o => Sys2Proof.Machine.execVhmul o s
  | .vhfma o => Sys2Proof.Machine.execVhfma o s
  | .vshuf o => Sys2Proof.Machine.execVshuf o s
  | .vbcast o => Sys2Proof.Machine.execVbcast o s
  | .vrot o => Sys2Proof.Machine.execVrot o s
  | .vred o => Sys2Proof.Machine.execVred o s
  | .vscan o => Sys2Proof.Machine.execVscan o s
  | .vmatch o => Sys2Proof.Machine.execVmatch o s
  | .vld o => Sys2Proof.Machine.execVld o s
  | .vst o => Sys2Proof.Machine.execVst o s
  | .vldu o => Sys2Proof.Machine.execVldu o s
  | .lld o => Sys2Proof.Machine.execLld o s
  | .lst o => Sys2Proof.Machine.execLst o s
  | .vldacc o => Sys2Proof.Machine.execVldacc o s
  | .vaadd o => Sys2Proof.Machine.execVaadd o s
  | .vamin o => Sys2Proof.Machine.execVamin o s
  | .vamax o => Sys2Proof.Machine.execVamax o s
  | .vaand o => Sys2Proof.Machine.execVaand o s
  | .vaor o => Sys2Proof.Machine.execVaor o s
  | .vaxor o => Sys2Proof.Machine.execVaxor o s
  | .vaxch o => Sys2Proof.Machine.execVaxch o s
  | .vacas o => Sys2Proof.Machine.execVacas o s
  | .ld o => Sys2Proof.Machine.execLd o s
  | .st o => Sys2Proof.Machine.execSt o s
  | .lds o => Sys2Proof.Machine.execLds o s
  | .sts o => Sys2Proof.Machine.execSts o s
  | .ldf o => Sys2Proof.Machine.execLdf o s
  | .ldff o => Sys2Proof.Machine.execLdff o s
  | .stf o => Sys2Proof.Machine.execStf o s
  | .ste o => Sys2Proof.Machine.execSte o s
  | .steScalar d => Sys2Proof.Machine.execSteScalar d s
  | .steVector d => Sys2Proof.Machine.execSteVector d s
  | .rput o => Sys2Proof.Machine.execRput o s
  | .sputfe o => Sys2Proof.Machine.execSputfe o s
  | .amsg o => Sys2Proof.Machine.execAmsg o s
  | .aadd o => Sys2Proof.Machine.execAadd o s
  | .amin o => Sys2Proof.Machine.execAmin o s
  | .amax o => Sys2Proof.Machine.execAmax o s
  | .aand o => Sys2Proof.Machine.execAand o s
  | .aor o => Sys2Proof.Machine.execAor o s
  | .axor o => Sys2Proof.Machine.execAxor o s
  | .axch o => Sys2Proof.Machine.execAxch o s
  | .acas o => Sys2Proof.Machine.execAcas o s
  | .fence o => Sys2Proof.Machine.execFence o s
  | .l1wb o => Sys2Proof.Machine.execL1wb o s
  | .l1inv o => Sys2Proof.Machine.execL1inv o s
  | .l1wbi o => Sys2Proof.Machine.execL1wbi o s
  | .cdcf o => Sys2Proof.Machine.execCdcf o s
  | .l1wbAll => Sys2Proof.Machine.execL1wbAll s
  | .l1invAll => Sys2Proof.Machine.execL1invAll s
  | .l1wbiAll => Sys2Proof.Machine.execL1wbiAll s
  | .cdcfAll => Sys2Proof.Machine.execCdcfAll s
  | .fenceI => Sys2Proof.Machine.execFenceI s
  | .pld d b n => Sys2Proof.Machine.execPld d b n s
  | .pmov o => Sys2Proof.Machine.execPmov o s
  | .padd o => Sys2Proof.Machine.execPadd o s
  | .pnarrow o => Sys2Proof.Machine.execPnarrow o s
  | .pperm o => Sys2Proof.Machine.execPperm o s
  | .pget o => Sys2Proof.Machine.execPget o s
  | .ptest o => Sys2Proof.Machine.execPtest o s
  | .barArrive o => Sys2Proof.Machine.execBarArrive o s
  | .barWait o => Sys2Proof.Machine.execBarWait o s
  | .barSync o => Sys2Proof.Machine.execBarSync o s
  | .gbar => Sys2Proof.Machine.execGbar s
  | .expect o => Sys2Proof.Machine.execExpect o s
  | .cntDec a b => Sys2Proof.Machine.execCntDec a b s
  | .cntWait o => Sys2Proof.Machine.execCntWait o s
  | .tsendNew o => Sys2Proof.Machine.execTsendNew o s
  | .tsend a b => Sys2Proof.Machine.execTsend a b s
  | .launch a => Sys2Proof.Machine.execLaunch a s
  | .rqPush a => Sys2Proof.Machine.execRqPush a s
  | .rqPop o => Sys2Proof.Machine.execRqPop o s
  | .slotStart o => Sys2Proof.Machine.execSlotStart o s
  | .slotStartTask o => Sys2Proof.Machine.execSlotStartTask o s
  | .slotReap o => Sys2Proof.Machine.execSlotReap o s
  | .slotSpill o => Sys2Proof.Machine.execSlotSpill o s
  | .slotLoad o => Sys2Proof.Machine.execSlotLoad o s
  | .yield => Sys2Proof.Machine.execYield s
  | .wfi => Sys2Proof.Machine.execWfi s
  | .sys n => Sys2Proof.Machine.execSys n s
  | .trap a n => Sys2Proof.Machine.execTrap a n s
  | .ebreak n => Sys2Proof.Machine.execEbreak n s
  | .eret => Sys2Proof.Machine.execEret s
  | .cget d c => Sys2Proof.Machine.execCget d c s
  | .cput c a => Sys2Proof.Machine.execCput c a s
  | .cswap d c a => Sys2Proof.Machine.execCswap d c a s
  | .cfq d n => Sys2Proof.Machine.execCfq d n s
  | .tlbInvPage a b => Sys2Proof.Machine.execTlbInvPage a b s
  | .tlbInvSpace a b => Sys2Proof.Machine.execTlbInvSpace a b s
  | .tlbInvAll a b => Sys2Proof.Machine.execTlbInvAll a b s
  | .hhDsc a b => Sys2Proof.Machine.execHhDsc a b s
  | .hhZero a b => Sys2Proof.Machine.execHhZero a b s
  | .cpyMl o => Sys2Proof.Machine.execCpyMl o s
  | .cpyLm o => Sys2Proof.Machine.execCpyLm o s
  | .cpyLl o => Sys2Proof.Machine.execCpyLl o s
  | .cpyMr o => Sys2Proof.Machine.execCpyMr o s
  | .cpyWait a => Sys2Proof.Machine.execCpyWait a s
  | .fwTake d f => Sys2Proof.Machine.execFwTake d f s
  | .fwGive f a => Sys2Proof.Machine.execFwGive f a s
  | .fwRes d f => Sys2Proof.Machine.execFwRes d f s
  | .fwResDef f a => Sys2Proof.Machine.execFwResDef f a s
  | .fwPub f a => Sys2Proof.Machine.execFwPub f a s
  | .trlSetCounter n a => Sys2Proof.Machine.execTrlSetCounter n a s
  | .trlSetTerm n a b => Sys2Proof.Machine.execTrlSetTerm n a b s
  | .trlClrCounter n => Sys2Proof.Machine.execTrlClrCounter n s
  | .trlClrTerm n => Sys2Proof.Machine.execTrlClrTerm n s
  | .xlda o => Sys2Proof.Machine.execXlda o s
  | .xldb o => Sys2Proof.Machine.execXldb o s
  | .xmul o => Sys2Proof.Machine.execXmul o s
  | .xfold o => Sys2Proof.Machine.execXfold o s
  | .xcvt o => Sys2Proof.Machine.execXcvt o s
  | .xzero tile => Sys2Proof.Machine.execXzero tile s
  | .xrow first count => Sys2Proof.Machine.execXrow first count s
  | .xcol first count => Sys2Proof.Machine.execXcol first count s
  | .xfmt ka kb => Sys2Proof.Machine.execXfmt ka kb s
  | .xwait n => Sys2Proof.Machine.execXwait n s
  | .xpost n => Sys2Proof.Machine.execXpost n s
  | .xloopBegin count => Sys2Proof.Machine.execXloopBegin count s
  | .xloop off => Sys2Proof.Machine.execXloop off s
  | .xend => Sys2Proof.Machine.execXend s
  | .clauseFetch a => Sys2Proof.Machine.execClauseFetch a s
  | .parkResume slot => Sys2Proof.Machine.execParkResume slot s
  | .waitLimitExpiry slot => Sys2Proof.Machine.execWaitLimitExpiry slot s
  | .timerPending slot => Sys2Proof.Machine.execTimerPending slot s
  | .interruptEntry slot => Sys2Proof.Machine.execInterruptEntry slot s
  | .spill slot => Sys2Proof.Machine.execSpill slot s
  | .slotFreed slot => Sys2Proof.Machine.execSlotFreed slot s
  | .rputDelivery id => Sys2Proof.Machine.execRputDelivery id s
  | .sputfeDelivery id => Sys2Proof.Machine.execSputfeDelivery id s
  | .remoteWriteRelease id => Sys2Proof.Machine.execRemoteWriteRelease id s
  | .amsgDelivery id => Sys2Proof.Machine.execAmsgDelivery id s
  | .activeMessageHandlerStart core => Sys2Proof.Machine.execActiveMessageHandlerStart core s
  | .messageDelivery id => Sys2Proof.Machine.execMessageDelivery id s
  | .withdrawalRequest id => Sys2Proof.Machine.execWithdrawalRequest id s
  | .counterDecrement id => Sys2Proof.Machine.execCounterDecrement id s
  | .taskDecrement id => Sys2Proof.Machine.execTaskDecrement id s
  | .loadBalanceExchange => Sys2Proof.Machine.execLoadBalanceExchange s
  | .longWaitSpill slot => Sys2Proof.Machine.execLongWaitSpill slot s
  | .faultRingRetry die part => Sys2Proof.Machine.execFaultRingRetry die part s
  | .frreply die part v => Sys2Proof.Machine.execFrreply die part v s
  | .watchdogExpiry core => Sys2Proof.Machine.execWatchdogExpiry core s
  | .coreReturnToService core => Sys2Proof.Machine.execCoreReturnToService core s
  | .notifyKick part q v => Sys2Proof.Machine.execNotifyKick part q v s
  | .queueRegister part q ring ctl => Sys2Proof.Machine.execQueueRegister part q ring ctl s
  | .queueMap part q => Sys2Proof.Machine.execQueueMap part q s
  | .gang part q => Sys2Proof.Machine.execGang part q s
  | .wait part q => Sys2Proof.Machine.execWait part q s
  | .signal part q => Sys2Proof.Machine.execSignal part q s
  | .edge part q => Sys2Proof.Machine.execEdge part q s
  | .mark part q => Sys2Proof.Machine.execMark part q s
  | .edgeFlushComplete part q => Sys2Proof.Machine.execEdgeFlushComplete part q s
  | .seedTrayDrain core => Sys2Proof.Machine.execSeedTrayDrain core s
  | .gangRelease g => Sys2Proof.Machine.execGangRelease g s
  | .signalWindowSet part idx v => Sys2Proof.Machine.execSignalWindowSet part idx v s
  | .signalWindowAdd part idx v => Sys2Proof.Machine.execSignalWindowAdd part idx v s
  | .doorbell part => Sys2Proof.Machine.execDoorbell part s
  | .commandAcceptance cl => Sys2Proof.Machine.execCommandAcceptance cl s
  | .commandStart cl seq => Sys2Proof.Machine.execCommandStart cl seq s
  | .commandCompletion cl seq => Sys2Proof.Machine.execCommandCompletion cl seq s
  | .combiningWindowClose cl => Sys2Proof.Machine.execCombiningWindowClose cl s
  | .engineStateError cl => Sys2Proof.Machine.execEngineStateError cl s
  | .pageTableWalk core part asid va write user fetch => Sys2Proof.Machine.execPageTableWalk core part asid va write user fetch s
  | .l1ReplacementWriteback core sector => Sys2Proof.Machine.execL1ReplacementWriteback core sector s
  | .peek core blk => Sys2Proof.Machine.execPeek core blk s
  | .treq core blk => Sys2Proof.Machine.execTreq core blk s
  | .treqx core blk => Sys2Proof.Machine.execTreqx core blk s
  | .tcoll id => Sys2Proof.Machine.execTcoll id s
  | .tokdata id => Sys2Proof.Machine.execTokdata id s
  | .transientRequestReissue core blk => Sys2Proof.Machine.execTransientRequestReissue core blk s
  | .persistentRequest core blk => Sys2Proof.Machine.execPersistentRequest core blk s
  | .persistentActivation die blk => Sys2Proof.Machine.execPersistentActivation die blk s
  | .deactivation core blk => Sys2Proof.Machine.execDeactivation core blk s
  | .tokenRecount die blk => Sys2Proof.Machine.execTokenRecount die blk s
  | .rds die blk => Sys2Proof.Machine.execRds die blk s
  | .rdx die blk => Sys2Proof.Machine.execRdx die blk s
  | .upg die blk => Sys2Proof.Machine.execUpg die blk s
  | .fwds id => Sys2Proof.Machine.execFwds id s
  | .fwdx id => Sys2Proof.Machine.execFwdx id s
  | .inv id => Sys2Proof.Machine.execInv id s
  | .invAck id => Sys2Proof.Machine.execInvAck id s
  | .fwdAck id => Sys2Proof.Machine.execFwdAck id s
  | .datas id => Sys2Proof.Machine.execDatas id s
  | .datax id => Sys2Proof.Machine.execDatax id s
  | .upgack id => Sys2Proof.Machine.execUpgack id s
  | .cmp id => Sys2Proof.Machine.execCmp id s
  | .notei id => Sys2Proof.Machine.execNotei id s
  | .notedat id => Sys2Proof.Machine.execNotedat id s
  | .noteack id => Sys2Proof.Machine.execNoteack id s
  | .gone id => Sys2Proof.Machine.execGone id s
  | .binv id => Sys2Proof.Machine.execBinv id s
  | .binvack id => Sys2Proof.Machine.execBinvack id s
  | .binvdata id => Sys2Proof.Machine.execBinvdata id s
  | .wrhh id => Sys2Proof.Machine.execWrhh id s
  | .wrack id => Sys2Proof.Machine.execWrack id s
  | .noticeAnomalyTimeout blk => Sys2Proof.Machine.execNoticeAnomalyTimeout blk s
  | .transactionOverdue blk => Sys2Proof.Machine.execTransactionOverdue blk s
  | .bisnpdata line => Sys2Proof.Machine.execBisnpdata line s
  | .bisnpinv line => Sys2Proof.Machine.execBisnpinv line s
  | .birsp line shared => Sys2Proof.Machine.execBirsp line shared s
  | .biconflict line => Sys2Proof.Machine.execBiconflict line s
  | .backInvalidationTimeout line => Sys2Proof.Machine.execBackInvalidationTimeout line s
  | .hostMemRead die port line mf => Sys2Proof.Machine.execHostMemRead die port line mf s
  | .hostMemWrite die port line mask data md => Sys2Proof.Machine.execHostMemWrite die port line mask data md s
  | .hostBlockFill blk write pois => Sys2Proof.Machine.execHostBlockFill blk write pois s
  | .h2dSnoop line invalidate => Sys2Proof.Machine.execH2dSnoop line invalidate s
  | .peerUioWrite die port addr len data pois => Sys2Proof.Machine.execPeerUioWrite die port addr len data pois s
  | .peerUioRead die port addr len => Sys2Proof.Machine.execPeerUioRead die port addr len s
  | .uioTimeout a => Sys2Proof.Machine.execUioTimeout a s
  | .migctlGo die v => Sys2Proof.Machine.execMigctlGo die v s
  | .migrationPart die => Sys2Proof.Machine.execMigrationPart die s
  | .redirectForward core pa => Sys2Proof.Machine.execRedirectForward core pa s
  | .redirectEntryFree die idx => Sys2Proof.Machine.execRedirectEntryFree die idx s
  | .hhresWrite die part v => Sys2Proof.Machine.execHhresWrite die part v s
  | .hhfbWrite die part v => Sys2Proof.Machine.execHhfbWrite die part v s
  | .rowCapture die row => Sys2Proof.Machine.execRowCapture die row s
  | .hotRowWindowEnd die => Sys2Proof.Machine.execHotRowWindowEnd die s
  | .hbmScrub die => Sys2Proof.Machine.execHbmScrub die s
  | .ckctlGo v => Sys2Proof.Machine.execCkctlGo v s
  | .checkpointCut die => Sys2Proof.Machine.execCheckpointCut die s
  | .checkpointPartCopy die unit => Sys2Proof.Machine.execCheckpointPartCopy die unit s
  | .checkpointEnd => Sys2Proof.Machine.execCheckpointEnd s
  | .snapctlArm die => Sys2Proof.Machine.execSnapctlArm die s
  | .snapctlNow die => Sys2Proof.Machine.execSnapctlNow die s
  | .snapctlDoneClear die => Sys2Proof.Machine.execSnapctlDoneClear die s
  | .snapshotLatch die => Sys2Proof.Machine.execSnapshotLatch die s
  | .rlogctlWrapClear core => Sys2Proof.Machine.execRlogctlWrapClear core s
  | .pctlLiveSet die part => Sys2Proof.Machine.execPctlLiveSet die part s
  | .pctlLiveClear die part => Sys2Proof.Machine.execPctlLiveClear die part s
  | .prstctlGo die part => Sys2Proof.Machine.execPrstctlGo die part s
  | .prstctlDoneClear die part => Sys2Proof.Machine.execPrstctlDoneClear die part s
  | .partitionResetComplete part => Sys2Proof.Machine.execPartitionResetComplete part s
  | .pswctlSwapOut die part v => Sys2Proof.Machine.execPswctlSwapOut die part v s
  | .pswctlResume die part v => Sys2Proof.Machine.execPswctlResume die part v s
  | .swapComplete part => Sys2Proof.Machine.execSwapComplete part s
  | .mgmtRegisterWrite die off v => Sys2Proof.Machine.execMgmtRegisterWrite die off v s
  | .dieLinkModuleRetire die link mod => Sys2Proof.Machine.execDieLinkModuleRetire die link mod s
  | .dieLinkFailure die link => Sys2Proof.Machine.execDieLinkFailure die link s
  | .dieIsolation die => Sys2Proof.Machine.execDieIsolation die s
  | .cxlLinkDown die port => Sys2Proof.Machine.execCxlLinkDown die port s
  | .cxlLinkUp die port speed width => Sys2Proof.Machine.execCxlLinkUp die port speed width s
  | .cxlViralEntry die port err => Sys2Proof.Machine.execCxlViralEntry die port err s
  | .cxlpsViralClear die port => Sys2Proof.Machine.execCxlpsViralClear die port s
  | .thermalClockStep die => Sys2Proof.Machine.execThermalClockStep die s
  | .thermalCritical die => Sys2Proof.Machine.execThermalCritical die s
  | .powerLimitInput on => Sys2Proof.Machine.execPowerLimitInput on s
  | .thermalTrip die => Sys2Proof.Machine.execThermalTrip die s
  | .deviceReset => Sys2Proof.Machine.execDeviceReset s
  | .bootRom die => Sys2Proof.Machine.execBootRom die s
  | .gtcStart => Sys2Proof.Machine.execGtcStart s
  | .gtcTick => Sys2Proof.Machine.execGtcTick s
  | .clusterEnableStep => Sys2Proof.Machine.execClusterEnableStep s
  | .spdmMeasurementRequest die nonce => Sys2Proof.Machine.execSpdmMeasurementRequest die nonce s
  | .dieLinkCrcError die link mod => Sys2Proof.Machine.execDieLinkCrcError die link mod s
  | .dieLinkRetrainDone die link => Sys2Proof.Machine.execDieLinkRetrainDone die link s
  | .linkLayerRetry die port => Sys2Proof.Machine.execLinkLayerRetry die port s
  | .acceptanceOrRefusal id => Sys2Proof.Machine.execAcceptanceOrRefusal id s
  | .queueRemove part q => Sys2Proof.Machine.execQueueRemove part q s

end Sys2Proof.Machine
end

