-- ==== Sys2Proof/Machine/EvFault.lean ====
section
/-! DEFINITION. Faults of the hardware that no row of the opcode table stands for: errors of protected stores, coherence structures and flits (R430 to R433,
R453, R475, R476; log entry 13). -/

namespace Sys2Proof.Machine

/-- Is the poison mark of a unit set. -/
def State.unitPois (s : State) : HwUnit → Bool
  | .sreg k r => ((s.slot k).sreg r).pois
  | .kreg c i => (s.core c).kpois.contains i
  | .vreg k r l => ((s.slot k).vreg r l).pois
  | .lsw c w => s.wordPois c w
  | .l1s c x => (mget l1Empty (s.core c).l1 x).pois
/-- Sets the poison mark of a unit; its data bits are kept. -/
def State.markUnit (s : State) : HwUnit → State
  | .sreg k r => s.modSlot k (fun x => x.setSReg r { x.sreg r with pois := true })
  | .kreg c i => s.modCore c (fun x => { x with kpois := insertSorted x.kpois i })
  | .vreg k r l => s.modSlot k (fun x => x.setVReg r l { x.vreg r l with pois := true })
  | .lsw c w => s.setPoisW c w true
  | .l1s c x => s.modCore c (fun y => { y with l1 := mput y.l1 x { mget l1Empty y.l1 x with pois := true } })
/-- Errors that a whole write has replaced are none (R432). -/
def State.dropMended (s : State) : State := if s.undet.isEmpty then s else { s with undet := s.undet.filter s.unitPois }
/-- Is an error of a unit in the registers of slot 0 (R476). -/
def HwUnit.atRoot : HwUnit → Option Nat
  | .sreg k _ | .vreg k _ _ => if slotNo k = 0 then some (coreOf k) else none
  | _ => none
/-- Does a unit exist: s1 to s59, eight k-registers, a sector that the L1 holds dirty. A clean sector is dropped and fetched again. -/
def State.unitLives (s : State) : HwUnit → Bool
  | .sreg _ r => decide (1 ≤ r) && decide (r < 60)
  | .kreg _ i => decide (i < 8)
  | .vreg k r l => decide (r < (s.slot k).budget) && decide (l < (s.slot k).lanes)
  | .lsw c w => decide (w < 32768) && (s.core c).segsOn / 2 ^ (w / 4096) % 2 == 1
  | .l1s c x => (mget l1Empty (s.core c).l1 x).dirty != 0
/-- A strand whose control state is lost: it stops, and the root slot takes 0x83, for which the native kernel aborts the gang (R386, R430). -/
def State.loseControl (s : State) (k : Nat) : State :=
  let c := coreOf k
  match (s.slot k).phase with
  | .running | .parked =>
    if slotNo k = 0 then s.failCore c 3
    else
      let k := match (s.slot k).pairOf with
        | some j => 16 * c + j
        | none => k
      ((s.spillTo k (s.slot k).savea).modSlot k (fun x => { x with kern := if (s.core c).deleg.isNone then some .abort else none })).raiseIp (16 * c) 3
  | _ => s
/-- One more corrected error of a store; event 0x40 at a multiple of 4,096 (R433). -/
def State.countCorrected (s : State) (d row : Nat) : State :=
  let n := wf (s.mg d (0x80 + 8 * row)) 0 32
  if 16 ≤ row ∨ n = 2 ^ 32 - 1 then s
  else
    let s1 := s.setMg d (0x80 + 8 * row) (natW (n + 1))
    if (n + 1) % 4096 = 0 then s1.logDie d (evEntry (srcOfFw d) 0x40 2 0 (natW row) (natW (n + 1))) else s1
/-- What a hardware fault does. -/
def State.strike (s : State) : HwFault → State
  | .corrected d row => s.countCorrected d row
  | .unit u =>
    match u.atRoot, u with
    | some c, _ => s.failCore c 3
    | none, .l1s c x =>
      if s.unitLives u then { s.markUnit u with undet := u :: s.undet } else s.invSector c x
    | none, _ => if s.unitLives u && !s.unitPois u then { s.markUnit u with undet := u :: s.undet } else s
  | .control k => s.loseControl k
  | .cdc c b => if (s.cdcTok c b).dirty then { s with bad := insertSorted (insertSorted s.bad (2 * b)) (2 * b + 1) } else s
  | .sector x => if s.pois.contains x then s else { s with bad := insertSorted s.bad x }
  | .tlb c => s.modCore c (fun x => { x with itlb := [], dtlb := [] })
  | .code c => s.modCore c (fun x => { x with icache := [] })
  | .tile cl t => s.modCluster cl (fun x => x.mapTile t (fun _ _ v => { v with pois := true }))
  | .operand cl key => s.modCluster cl (fun x => { x with halves := x.halves.map (fun e => if e.1 = key then (e.1, { e.2 with pois := true }) else e) })
  | .coherence d copy both => if both then s.faultDevice else s.logDie d (evEntry (srcOfHome d) 0x52 3 0 (natW copy.1) (natW (copy.2.1 * 256 + copy.2.2)))
  | .request c b => s.modTreq c b (fun r => if r.table then { r with table := false, batch := false, active := false, sent := false } else r)
  | .flit id => s.dropCoh id
  | .tray c => s.modCore c (fun x => { x with tray := match x.tray with
      | e :: t => { e with bad := true } :: t
      | [] => [] })
  | .launch c n => s.modCore c (fun x => { x with flitBad := x.flitBad + n })
/-- The first hardware fault that is due. -/
def State.dueFault (s : State) : Option (Nat × HwFault) := s.hw.find? (fun e => decide (e.1 ≤ s.gtc))
/-- A hardware fault happens. -/
def State.takeFault (s : State) (e : Nat × HwFault) : State := { s with hw := s.hw.erase e }.strike e.2

end Sys2Proof.Machine
end

