-- ==== Sys2Proof/Machine/Sched.lean ====
section
/-! DEFINITION. What the next step does: the schedule of agents, events, inputs and time (log entries 5, 6 and 11). One interleaving of those that the
spec allows, and what a fetch finds at an agent's program counter. -/

namespace Sys2Proof.Machine

/-- The next step: an instruction or input event at a state, or the outcome of an internal event or of a step at which nothing of the table runs. -/
inductive Plan where
  | run (i : Instr) (s : State)
  | done (o : Host.Outcome State Fault Refusal)

/-! ### Lines that the host holds (R171) -/

/-- An action that rests on a line of the host's does not happen yet: the snoop leaves, and a strand that acts waits for the answer in its slot. -/
def State.awaitHost (s : State) (line : Nat) (inv : Bool) : State :=
  let u := s.sendSnoop line inv
  match s.cur with
  | .slot k => u.doPark k (.hostLine line inv) false
  | .seq _ => u
/-- A step of an agent, from `s` to an outcome: it waits where the host has to give up a line first. -/
def State.hosted (s : State) (o : Host.Outcome State Fault Refusal) : Host.Outcome State Fault Refusal :=
  match o with
  | .next t => (match s.hostOwes t with
    | none => o
    | some (line, inv) => .next (s.awaitHost line inv))
  | _ => o
/-- A write of CXLPS0 to CXLPS2, which restores a port (R465). -/
def portWrite (off : Nat) : Bool := off == 0x68 || off == 0x70 || off == 0x78
/-- Events in which the host or a port changes what the host holds, which wait for no answer of the host. -/
def freesLines (i : Instr) : Bool :=
  match i with
  | .birsp .. | .hostMemRead .. | .hostMemWrite .. | .h2dSnoop .. | .backInvalidationTimeout .. | .cxlpsViralClear .. | .cxlLinkDown .. | .cxlViralEntry ..
  | .deviceReset .. | .hostBlockFill .. | .dieIsolation .. => true
  | .mgmtRegisterWrite _ off _ => portWrite off
  | _ => false
/-- The outcome of an instruction or input event run at `s`; an event that has to wait for the host is tried again in the next tick. -/
def State.hostedRun (s : State) (i : Instr) (o : Host.Outcome State Fault Refusal) : Host.Outcome State Fault Refusal :=
  if freesLines i then o
  else match s.hosted o, o with
    | .next u, .next t => .next (if s.cur = .seq 96 ∧ (s.hostOwes t).isSome then { u with inputs := u.inputs ++ [(u.gtc + 1, i)] } else u)
    | r, _ => r

/-! ### The instruction at an agent's program counter (R184, R186) -/

/-- The bytes of an instruction word, first byte lowest (R5), and the word that bytes hold. -/
def bytesOf (nbits w : Nat) : List Byte := (List.range (nbits / 8)).map (fun i => BitVec.ofNat 8 (w / 256 ^ i))
/-- A clause header of one instruction, of a class, with no waits (R184). -/
def oneHdr (cls : Nat) : W64 := natW (0xFF * 2 ^ 56 + cls * 2 ^ 51)
/-- `turn` when the current agent's instruction is the next step. -/
def forced : Nat := 1048576
/-- Places a word as the instruction that runs next (log entry 11). -/
def State.placeWord (s : State) (w : Nat) : State :=
  let word := natW w
  if 0xF0 ≤ wf word 56 8 ∧ wf word 56 8 < 0xFF then
    { s.modCluster 0 (fun c => { c with seqPhase := .running, seqPc := 2, seqHdr := false, seqClause := some ⟨0, oneHdr 1, [word]⟩ }) with cur := .seq 0, turn := forced }
  else
    { s.modSlot 0 (fun x => { x with phase := .running, pc := 2, clause := some ⟨0, oneHdr 0, [word]⟩, hdrWait := false, resuming := false }) with
      cur := .slot 0, turn := forced }
/-- Keys of agents: strands by their index, sequencers, the checkpoint engine. -/
def seqKey (l : Nat) : Nat := 24576 + l
def ckptKey : Nat := 24672
/-- The instruction word that an agent issues next; `none` when it fetches a clause first. -/
def State.fetched (s : State) : Agent → Option W64
  | .slot k => (s.slot k).word
  | .seq l => let x := s.cluster l
    if x.seqHdr then none else x.seqClause.bind (fun c => c.at_ x.seqPc)
/-- An agent issues: its word is decoded and runs; a word that is no instruction is "illegal encoding" (R389, R392); without a word a clause is fetched. -/
def State.issue (s : State) (a : Agent) : Plan :=
  match s.fetched a with
  | some w => match decode w.toNat with
    | .ok i => .run i s
    | .error _ => .done (.next (match a with
      | .slot k => s.takeTrap k 0x01 (s.slot k).pc w (s.slot k).trapLanes 0
      | .seq l => s.seqStop l 0x01 0))
  | none => .done (match a with
    | .slot k => ({ s with turn := k }).hosted (.next ({ s with turn := k }.strandFetch k))
    | .seq l => ({ s with turn := seqKey l }).hosted (.next ({ s with turn := seqKey l }.seqFetch l)))
/-- A strand's next step: a report of the sequencer, an interrupt at a boundary, or its instruction (R79, R309). -/
def State.strandStep (s : State) (k : Nat) : Plan :=
  if (s.slot k).seqRep.isSome then .done (.next (s.takeReport k))
  else if s.atBoundary k && (s.irqOf k).isSome then .done (.next (s.enterIrq k))
  else s.issue (.slot k)

/-! ### Internal events, in the order in which the schedule looks for them -/

/-- The state at which internal events run: no agent is current. -/
def State.nobody (s : State) : State := { s with cur := .seq 96 }
/-- An event that changes the state. -/
def State.changes (s : State) (o : Host.Outcome State Fault Refusal) : Option (Host.Outcome State Fault Refusal) :=
  match o with
  | .next t => if t = s then none else some o
  | _ => some o
/-- The same; an event that rests on a line of the host's sends the snoop, and waits for the answer (R171). -/
def State.fires (s : State) (o : Host.Outcome State Fault Refusal) : Option (Host.Outcome State Fault Refusal) :=
  match o with
  | .next t => if t = s then none else (match s.hostOwes t with
    | none => some o
    | some (line, inv) => if s.snooped line then none else some (.next (s.sendSnoop line inv)))
  | _ => some o
/-- The first of a list's events that changes the state. -/
def State.firstOf {α : Type} (s : State) (l : List α) (f : α → State → Host.Outcome State Fault Refusal) : Option (Host.Outcome State Fault Refusal) :=
  l.findSome? (fun a => s.fires (f a s))
/-- Is an agent's die running, and no reset or swap of its partition in progress. -/
def State.dieRuns (s : State) (d : Nat) : Bool := !(s.die d).isolated && !(s.die d).stopped
def State.clRuns (s : State) (cl : Nat) : Bool :=
  s.dieRuns (dieOfCl cl) && (match s.partOf cl with
    | some p => !s.paused (dieOfCl cl) p
    | none => true)
def State.liveCores (s : State) : List Nat := (mkeys s.cores).filter (fun c => s.clRuns (clOfCore c))
def State.liveSlots (s : State) : List Nat := (mkeys s.slots).filter (fun k => s.clRuns (clOfSlot k))
def State.liveCls (s : State) : List Nat := (mkeys s.clusters).filter s.clRuns
def netEvent (n : Net) (s : State) : Host.Outcome State Fault Refusal :=
  if n.withdraw then execWithdrawalRequest n.id s
  else if n.waiting then execRemoteWriteRelease n.id s
  else match n.kind with
    | .rput => execRputDelivery n.id s
    | .sputfe => execSputfeDelivery n.id s
    | .amsg => execAmsgDelivery n.id s
    | .out => execMessageDelivery n.id s
    | .cntdec => execCounterDecrement n.id s
    | .taskdec => execTaskDecrement n.id s
def cohEvent (m : Coh) (s : State) : Host.Outcome State Fault Refusal :=
  match m.kind with
  | .tcoll => execTcoll m.id s
  | .tokdata => execTokdata m.id s
  | .fwds => execFwds m.id s
  | .fwdx => execFwdx m.id s
  | .inv => execInv m.id s
  | .invAck => execInvAck m.id s
  | .fwdAck => execFwdAck m.id s
  | .datas => execDatas m.id s
  | .datax => execDatax m.id s
  | .upgack => execUpgack m.id s
  | .cmp => execCmp m.id s
  | .notei => execNotei m.id s
  | .notedat => execNotedat m.id s
  | .noteack => execNoteack m.id s
  | .gone => execGone m.id s
  | .binv => execBinv m.id s
  | .binvack => execBinvack m.id s
  | .binvdata => execBinvdata m.id s
  | .rds => execRds m.src m.blk s
  | .rdx => execRdx m.src m.blk s
  | .upg => execUpg m.src m.blk s
  | .wrhh => execWrhh m.id s
  | .wrack => execWrack m.id s
/-- Events of a slot: what the Sloem kernel owes it, its lent state, its retirement, and an expired wait. -/
def slotEvent (k : Nat) (s : State) : Host.Outcome State Fault Refusal :=
  let x := s.slot k
  let native := (s.core (coreOf k)).native
  if x.phase == .halted then execSlotFreed k s
  else if native && x.kern == some .preempt then execSpill k s
  else if native && x.kern.isSome then .next (s.kernStep k)
  else if native && s.lentDue k then .next (s.serveLent k)
  else if s.expired k then execWaitLimitExpiry k s
  else if s.lendDue k then execLongWaitSpill k s
  else .next s
def coreEvent (c : Nat) (s : State) : Host.Outcome State Fault Refusal :=
  let x := s.core c
  if !x.amq.isEmpty && (s.slot (16 * c + 15)).phase == .free && x.gang.isSome then execActiveMessageHandlerStart c s
  else if x.native && s.readyTask c && s.anyFree c then .next (s.dispatch c)
  else if s.watchdogDue c then execWatchdogExpiry c s
  else if x.quarantined then execCoreReturnToService c s
  else .next s
def queueEvent (d : Nat) (e : Queue) (s : State) : Host.Outcome State Fault Refusal :=
  if e.flushing then execEdgeFlushComplete e.part e.q s
  else if !e.mapped then (if e.asked = 0 then .next s else execQueueMap e.part e.q s)
  else match (s.headOf d e.part e.q).1 with
    | .idle => .next s
    | .bad _ => execGang e.part e.q s
    | .pkt ws =>
      let kd := wf (lrw ws 0) 0 8
      if kd = 1 then execGang e.part e.q s
      else if kd = 2 then execWait e.part e.q s
      else if kd = 3 then execSignal e.part e.q s
      else if kd = 4 then execEdge e.part e.q s
      else execMark e.part e.q s
/-- Events of a cluster's engine: acceptance, completions, starts, and the close of a window after 64 cycles (R19). -/
def engineEvent (cl : Nat) (s : State) : Option (Host.Outcome State Fault Refusal) :=
  let x := s.cluster cl
  s.fires (execCommandAcceptance cl s) <|> s.firstOf (x.cmds.filter (·.started)) (fun c t => execCommandCompletion cl c.seq t) <|>
    s.firstOf (x.cmds.filter (fun c => !c.started)) (fun c t => execCommandStart cl c.seq t) <|>
    (if x.wins.any (fun w => decide (w.opened + 64 ≤ s.cycle)) then s.fires (execCombiningWindowClose cl s) else none)
/-- Misses of parked strands, and the next steps of requests at slices and homes. -/
def State.missOf (s : State) (k : Nat) : Option (Nat × Bool) :=
  match (s.slot k).park with
  | some p => (match p.on with
    | .cdc b _ => (s.needs (coreOf k) b).map (fun w => (b, w))
    | _ => none)
  | none => none
def missEvent (k : Nat) (s : State) : Host.Outcome State Fault Refusal :=
  match s.missOf k with
  | some (b, w) => if w then execTreqx (coreOf k) b s else execTreq (coreOf k) b s
  | none => .next s
def State.reqEvent (s : State) (r : TReq) : Option (Host.Outcome State Fault Refusal) :=
  let d := dieOfCore r.core
  let b := r.blk
  s.fires (execDeactivation r.core b s) <|> s.fires (execRds d b s) <|> s.fires (execUpg d b s) <|> s.fires (execRdx d b s) <|>
    s.firstOf [2 * b, 2 * b + 1] (fun l t => execBisnpdata l t) <|> s.firstOf [2 * b, 2 * b + 1] (fun l t => execBisnpinv l t) <|>
    s.fires (execPersistentActivation d b s) <|> s.fires (execTokenRecount d b s) <|> s.fires (execTransientRequestReissue r.core b s) <|>
    s.fires (execPersistentRequest r.core b s)
def State.txnEvent (s : State) (b : Nat) : Option (Host.Outcome State Fault Refusal) :=
  s.fires (execHostBlockFill b false false s) <|> s.fires (execHostBlockFill b true false s) <|>
    s.firstOf [2 * b, 2 * b + 1] (fun l t => execBisnpdata l t) <|> s.firstOf [2 * b, 2 * b + 1] (fun l t => execBisnpinv l t) <|>
    s.fires (execNoticeAnomalyTimeout b s) <|> s.fires (execTransactionOverdue b s)
/-- Events of a die. -/
def dieEvent (s : State) (d : Nat) : Option (Host.Outcome State Fault Refusal) :=
  let x := s.die d
  s.fires (execBootRom d s) <|> s.changes (execDieIsolation d s) <|> (s.hostNext d).map .next <|>
    s.firstOf (mkeys x.filter) (fun l t => execBisnpdata l t) <|> s.firstOf (mkeys x.filter) (fun l t => execBisnpinv l t) <|>
    (if x.waitq.isEmpty then none else s.fires (.next (s.retryWaiting d))) <|> s.fires (execSnapshotLatch d s) <|>
    (if s.tripDue d then s.fires (execThermalTrip d s) else none) <|> s.fires (execThermalCritical d s) <|>
    (if s.gtcOn then s.fires (execThermalClockStep d s) <|> s.fires (execHotRowWindowEnd d s) else none) <|>
    s.firstOf (mkeys x.crc) (fun e t => execDieLinkModuleRetire d (e / 48) (e % 48) t) <|> s.firstOf x.training (fun n t => execDieLinkRetrainDone d n t) <|>
    s.fires (execMigrationPart d s) <|> (if x.redir.isEmpty then none else s.fires (execRedirectEntryFree d 0 s)) <|>
    (x.bisnp.map (·.1)).findSome? (fun l => s.changes (execBackInvalidationTimeout l s)) <|>
    (match s.filterOver d with
    | some l => s.fires (execBisnpinv l s)
    | none => none) <|>
    (if s.gtc % 4096 = 0 then s.firstOf (mkeys x.faultq) (fun p t => execFaultRingRetry d p t) else none)
def partEvent (p : Nat) (s : State) : Host.Outcome State Fault Refusal :=
  if (List.range 4).any (fun d => rstBusy (s.cfg d p 0x088)) then execPartitionResetComplete p s
  else if (List.range 4).any (fun d => swpBusy (s.cfg d p 0x090)) then execSwapComplete p s
  else .next s
/-- The first internal event that is enabled. -/
def State.event (s : State) : Option (Host.Outcome State Fault Refusal) :=
  s.firstOf (s.net.filter (fun n => s.clRuns (clOfCore n.core))) netEvent <|> s.firstOf s.answers (fun a t => execAcceptanceOrRefusal a.id t) <|>
    s.firstOf s.coh cohEvent <|> s.firstOf s.liveSlots slotEvent <|> s.firstOf s.liveCores coreEvent <|>
    s.firstOf s.liveSlots missEvent <|>
    ((List.range 4).filter s.dieRuns).findSome? (fun d => (s.die d).treqs.findSome? s.reqEvent <|> (mkeys (s.die d).txns).findSome? s.txnEvent) <|>
    ((List.range 4).filter s.dieRuns).findSome? (fun d => s.firstOf (s.die d).queues (queueEvent d)) <|>
    s.firstOf (s.liveCores.filter (fun c => !(s.core c).tray.isEmpty)) (fun c t => execSeedTrayDrain c t) <|>
    s.firstOf (s.gangs.filter (fun g => !g.released && !g.retired && s.clRuns (24 * g.die + (g.row0 / 4) * 6 + g.col0 / 4))) (fun g t => execGangRelease g.id t) <|>
    s.liveCls.findSome? (fun c => engineEvent c s) <|> (List.range 4).findSome? (dieEvent s) <|> s.firstOf (List.range 16) partEvent <|>
    (if s.exchangeDue then s.fires (execLoadBalanceExchange s) else none) <|> s.fires (execGtcStart s) <|> s.fires (execClusterEnableStep s)

/-! ### Agents in turn (R30, R39) -/

/-- A strand that can take a step: Running, or waiting at a header with an interrupt to take, not half of a wide one, and without a trap that the kernel
serves. -/
def State.runnable (s : State) (k : Nat) : Bool :=
  let x := s.slot k
  (x.phase == .running || x.atHeader && (s.irqOf k).isSome) && x.pairOf.isNone && x.kern != some .self && !(x.kern.isSome && (s.core (coreOf k)).native)
/-- A strand whose access completes at the event that it awaited: the reply of the memory side, or the tick of an SC operation. Its next instruction
issues in its own rotation (R20, R32). -/
def State.reissues (s : State) (k : Nat) : Bool := (s.slot k).phase == .running && s.runnable k && (s.slot k).replyDue
/-- A sequencer that has something to do: it is not waiting for a barrier, a header's wait, or an overlapping command. -/
def State.seqRunnable (s : State) (l : Nat) : Bool :=
  let x := s.cluster l
  match x.seqPhase with
  | .idle | .stopped => false
  | .waiting n ph => decide (ph < (s.nbar l n).phase)
  | .posting n _ => !(s.nbar l n).seq
  | .hdrWait => decide (s.seqFetch l ≠ s)
  | .running => x.matHaz.all (fun h => !x.cmds.any (fun c => decide (c.seq < h.1) && conflict h.2.1 h.2.2 c))
/-- The agents that can take a step. -/
def State.agents (s : State) : List Nat :=
  s.liveSlots.filter s.runnable ++ (s.liveCls.filter s.seqRunnable).map seqKey ++
    (match s.ckpt with
    | some c => if c.active then [ckptKey] else []
    | none => [])
/-- An agent becomes current; the agents after it in the cycle follow. -/
def State.takeTurn (s : State) (a : Agent) (turn : Nat) : State := { s with cur := a, turn := turn }
/-- The checkpoint engine's next part, or its end. -/
def State.ckptStep (s : State) : State :=
  match s.ckpt with
  | none => s
  | some c => match (List.range 4).findSome? (fun d => (s.nextUnit c d).map (fun u => (d, u))) with
    | some (d, u) => s.copyPart d u
    | none => s.endCkpt
def State.agentStep (s : State) (key : Nat) : Plan :=
  if key = ckptKey then .done (({ s.nobody with turn := key + 1 }).hosted (.next ({ s.nobody with turn := key + 1 }.ckptStep)))
  else if seqKey 0 ≤ key then (s.takeTurn (.seq (key - seqKey 0)) (key + 1)).issue (.seq (key - seqKey 0))
  else (s.takeTurn (.slot key) (key + 1)).strandStep key
/-- Does an agent issue in the present cycle: slot n mod 16 in cycle n of its core, in every situation, once what it waited for lies a cycle back (R20,
R30, R32); a sequencer and the checkpoint engine in every cycle. -/
def State.issuesIn (s : State) (k : Nat) : Bool :=
  decide (24576 ≤ k) || (k % 16 == (s.cycle - (s.core (coreOf k)).cyc0) % 16 && decide ((s.slot k).ready ≤ s.cycle))
/-- Cycles until the one in which an agent issues next. -/
def State.waitOf (s : State) (k : Nat) : Nat :=
  if 24576 ≤ k then 1
  else
    let d := (k % 16 + 15 - (s.cycle - (s.core (coreOf k)).cyc0) % 16) % 16 + 1
    d + ((s.slot k).ready - (s.cycle + d) + 15) / 16 * 16
/-- The next agent in turn in this cycle. -/
def State.nextAgent (s : State) : Option Nat := s.agents.find? (fun k => decide (s.turn ≤ k) && s.issuesIn k)
/-- A parked strand whose event has completed. -/
def State.wakes (s : State) (k : Nat) : Bool :=
  match (s.slot k).phase, (s.slot k).park with
  | .parked, some p => s.awaitMet k p.on
  | _, _ => false

/-! ### The next step -/

/-- An internal step that comes before the agents' turns: a resumption, a cut, a management write, an internal event, or the tick of a full nanosecond. -/
def State.internal (s : State) : Option (Host.Outcome State Fault Refusal) :=
  (s.liveSlots.filter s.wakes).findSome? (fun k => s.fires (execParkResume k s)) <|>
    (match (List.range 4).find? s.cutDue with
    | some d => s.fires (execCheckpointCut d s)
    | none => none) <|>
    (match s.mgmtq with
    | (d, o, v) :: t => (if portWrite o then s.changes else s.fires) (execMgmtRegisterWrite d o v { s with mgmtq := t })
    | [] => none) <|>
    (match s.dueFault with
    | some e => s.changes (.next (s.takeFault e))
    | none => none)
/-- Ticks after `now` until something that is due at `t`; at `t` itself one more, for the copies of the GTC that may lag (R13). -/
def untilTick (now t : Nat) : Nat := if now < t then t - now else if now = t then 1 else 4096
/-- Ticks until a strand's timer, wait limit, long wait or completion tick. -/
def Slot.dueIn (x : Slot) (now : Nat) : Nat :=
  if x.held.isSome then 1
  else Nat.min (untilTick now x.timecmp.toNat) (match x.park with
    | some p => Nat.min (Nat.min (untilTick p.ticks p.limit) (untilTick p.ticks 262144)) (match p.on with
      | .tick t => untilTick now t
      | _ => 4096)
    | none => 4096)
/-- Ticks until something of a die is due: the clock loop, the hot-row window, a back-invalidation, a snapshot; a protocol's time-outs count in cycles. -/
def Die.dueIn (x : Die) (now window snapTick : Nat) : Nat :=
  if now ≤ x.armAt ∨ !x.treqs.isEmpty ∨ !x.txns.isEmpty then 1
  else (x.bisnp.map (fun e => untilTick now (e.2.2.1 + 10 ^ 6))).foldl Nat.min
    (Nat.min (untilTick now (x.clkTick + 10000)) (Nat.min (untilTick now (x.rowStart + window * 10 ^ 6)) (untilTick now snapTick)))
def Core.dueIn (x : Core) (now : Nat) : Nat :=
  Nat.min (if x.deleg.isSome then untilTick now (x.wdog + 2 ^ 22) else 4096)
    (if x.quarantined then (x.fails.map (fun t => untilTick now (t + 10 ^ 9))).foldl Nat.min 4096 else 4096)
/-- Ticks for which nothing that depends on the GTC becomes due: those ticks can pass in one step. -/
def State.dueIn (s : State) : Nat :=
  let now := s.gtc
  if s.clusters.any (fun e => !e.2.wins.isEmpty) then 1
  else
    let a := (s.slots.map (fun e => e.2.dueIn now)).foldl Nat.min (4096 - now % 4096)
    let b := (s.cores.map (fun e => e.2.dueIn now)).foldl Nat.min a
    let c := ((List.range 4).map (fun d => (s.die d).dueIn now (Nat.max 1 (wf (s.mg d 0x18) 40 8)) (s.mg d 0x38).toNat)).foldl Nat.min b
    let e := ((s.inputs.map (·.1) ++ s.hw.map (·.1)).map (untilTick now)).foldl Nat.min c
    Nat.min e (Nat.min (untilTick now (s.relTick + 250 * s.relStep)) (match s.ckpt with
      | some k => untilTick now k.cut
      | none => 4096))
/-- The ticks that the clock has earned, as many as nothing is due in between. -/
def State.passTicks (s : State) : State := s.ticks (Nat.min (s.acc / Nat.max 1 (s.clk s.primary)) s.dueIn)
/-- Time goes on to the next cycle in which an agent issues; without an agent, to the tick at which something is due. -/
def State.passTime (s : State) : State :=
  let s := s.dropMended
  let clk := Nat.max 1 (s.clk s.primary)
  match (s.agents.map s.waitOf).min? with
  | some d =>
    let t := { s with cycle := s.cycle + d, turn := 0, acc := if s.gtcOn then s.acc + 1000 * d else s.acc }
    if s.gtcOn && decide (clk ≤ t.acc) then t.passTicks else t
  | none =>
    if !s.gtcOn then s
    else
      let n := s.dueIn
      let d := (n * clk - s.acc + 999) / 1000
      { s with cycle := s.cycle + d, turn := 0, acc := s.acc + 1000 * d }.ticks n
def State.timeStep (s : State) : Plan :=
  if s.gtcOn && decide (Nat.max 1 (s.clk s.primary) ≤ s.acc) then .done (.next s.nobody.passTicks)
  else match s.nextAgent with
    | some k => s.agentStep k
    | none => .done (.next s.nobody.passTime)
def State.plan (s : State) : Plan :=
  if s.turn = forced then { s with turn := 0 }.issue s.cur
  else match s.liveSlots.find? s.reissues with
    | some k => (s.takeTurn (.slot k) s.turn).strandStep k
    | none => match s.nobody.internal with
      | some o => .done o
      | none => match s.inputs.find? (fun e => decide (e.1 ≤ s.gtc)) with
        | some e => .run e.2 { s.nobody with inputs := s.inputs.erase e }
        | none => match s.nobody.event with
          | some o => .done o
          | none => s.timeStep

end Sys2Proof.Machine
end

