-- ==== Sys2Proof/Machine/Step.lean ====
section
/-! DEFINITION. One step of the machine. -/

namespace Sys2Proof.Machine

/-- Runs what the schedule picks; what rests on a line that the host holds waits for the host's answer (R171). -/
def step (s : State) : Host.Outcome State Fault Refusal :=
  match s.plan with
  | .run i t => t.hostedRun i (exec i t)
  | .done o => o

/-- Places an instruction word where the next step takes it (log entry 11). -/
def State.withFetchWord (s : State) (_nbits w : Nat) : State := s.placeWord w

end Sys2Proof.Machine
end

