-- ==== Sys2Proof/Safety.lean ====
section
/-! DEFINITION. What counts as a safe run, and the words in which the statements speak: turns, permission to issue, operands read and written, and
the forms of the instruction families with the results that the spec gives them. -/

namespace Sys2Proof

/-- A run of `n` steps that every step continues. -/
def runs : Nat → Machine.State → Option Machine.State
  | 0, s => some s
  | n + 1, s => match Machine.step s with
    | .next t => runs n t
    | _ => none

/-- A state is safe for `n` steps when no step of its run faults or is refused. -/
def Safe (n : Nat) (s : Machine.State) : Prop := (runs n s).isSome

end Sys2Proof

namespace Sys2Proof.Machine

/-! ### Turns, permission, operands -/

/-- Slot `k` is the agent that issues. -/
def State.Turn (s : State) (k : Nat) : Prop := s.cur = .slot k
/-- Steps 2 and 3 of R191: the level, k-register destinations (R72), vector registers within the budget (R68). -/
def Slot.May (x : Slot) (lvl : Nat) (dsts vecs : List Nat) : Prop :=
  lvl ≤ x.priv ∧ (x.priv = 0 → ∀ d ∈ dsts, d < 68) ∧ ∀ r ∈ vecs, r < x.budget
/-- The scalar sources `ns`, read in order, are available with the values `vs`; `t` is the state after the reads (R66, R67, R73). -/
def State.Reads (s : State) (k : Nat) (fm : W64) (ns : List Nat) (vs : List W64) (t : State) : Prop := rdScs k fm ns s = .ok (vs, t)
/-- The scalar destination `n` takes `v` (R66, R67, R72). -/
def State.Writes (s : State) (k n : Nat) (v : W64) (t : State) : Prop := wrSc k n v s = .ok t
/-- Floating-point flags raised for a strand (R87). -/
def State.flagged (s : State) (k fl : Nat) : State := if fl = 0 then s else s.modSlot k (fun x => x.flag fl)
/-- A register s0 to s59 that can be read now: s0, or full and not poisoned (R66, R432). -/
def Slot.Ready (x : Slot) (n : Nat) : Prop := n = 0 ∨ n < 60 ∧ (x.sreg n).full = true ∧ (x.sreg n).pois = false
/-- The value of a register s0 to s59: s0 reads zero (R66). -/
def Slot.val (x : Slot) (n : Nat) : W64 := if n = 0 then 0 else (x.sreg n).val
/-- An instruction that may issue and whose effect `eff` takes the state to `t` answers `t` with the program counter at the next instruction. -/
def Completes (i : Instr) (lvl : Nat) (dsts vecs : List Nat) (eff : Nat → State → State → Prop) : Prop :=
  ∀ s k t, s.Turn k → (s.slot k).May lvl dsts vecs → eff k s t → exec i s = .next (t.advance k)
/-- As `Completes`, for an instruction whose effect sets the position itself. -/
def Ends (i : Instr) (lvl : Nat) (dsts vecs : List Nat) (eff : Nat → State → State → Prop) : Prop :=
  ∀ s k t, s.Turn k → (s.slot k).May lvl dsts vecs → eff k s t → exec i s = .next t
/-- Everything but one strand is as before: only records of timed-out fabric accesses of its instruction end (R440). -/
def OnlySlot (k : Nat) (s t : State) : Prop :=
  t = { s with slots := t.slots, uio := t.uio } ∧ ∀ j, j ≠ k → t.slot j = s.slot j
/-- Every byte of memory, of the hothouse lines and of the local stores reads as before. -/
def SameBytes (s t : State) : Prop := (∀ a, t.rb a = s.rb a) ∧ ∀ c o, t.lsByte c o = s.lsByte c o

/-! ### Scalar instructions that compute a value (R202 to R207, R218, R263) -/

/-- A destination, the scalar sources, and the value and flags that they give in a state. -/
structure ScalarForm where
  d : Nat
  srcs : List Nat
  res : State → Nat → List W64 → W64 × Nat
/-- A typed result, wrapped to the width or clamped with `.sat`, as the register holds it (R83, R202). -/
def satRes (ty : Ty) (sat : Bool) (x : Int) : W64 × Nat := (tyOut ty (tyBits ty sat x), 0)
/-- A w-bit result as the register holds it (R202). -/
def bitsRes (ty : Ty) (x : Nat) : W64 × Nat := (tyOut ty x, 0)
def arith (o : RTS) (f : Int → Int → Int) : Option ScalarForm :=
  some ⟨o.d, [o.a, o.b], fun _ _ v => satRes o.ty o.sat (f (tyVal o.ty (lrw v 0).toNat) (tyVal o.ty (lrw v 1).toNat))⟩
def bits2 (o : RT) (f : Nat → Nat → Nat) : Option ScalarForm :=
  some ⟨o.d, [o.a, o.b], fun _ _ v => bitsRes o.ty (f (lrw v 0).toNat (lrw v 1).toNat)⟩
def bits1 (o : RT1) (f : Nat → Nat) : Option ScalarForm := some ⟨o.d, [o.a], fun _ _ v => bitsRes o.ty (f ((lrw v 0).toNat % 2 ^ o.ty.width))⟩
def shift1 (o : IT) (f : Nat → Nat → Nat → Nat) : Option ScalarForm :=
  some ⟨o.d, [o.a], fun _ _ v => bitsRes o.ty (f o.ty.width (lrw v 0).toNat o.imm.toNat)⟩
def word2 (o : R3) (f : W64 → W64 → W64) : Option ScalarForm := some ⟨o.d, [o.a, o.b], fun _ _ v => (f (lrw v 0) (lrw v 1), 0)⟩
def word1 (d a : Nat) (f : W64 → W64) : Option ScalarForm := some ⟨d, [a], fun _ _ v => (f (lrw v 0), 0)⟩
/-- A floating-point result on the low bits of the sources, zero above, with its flags (R205). -/
def fpForm (d : Nat) (srcs : List Nat) (ty : Ty) (f : (Nat → Nat) → Nat × Nat) : Option ScalarForm :=
  some ⟨d, srcs, fun _ _ v => let r := f (fun j => if j < srcs.length then (lrw v j).toNat % 2 ^ ty.width else 0); (natW r.1, r.2)⟩
/-- A value read off the strand. -/
def offSlot (d : Nat) (f : Slot → W64) : Option ScalarForm := some ⟨d, [], fun s k _ => (f (s.slot k), 0)⟩

/-- The scalar instructions that compute a value from scalar sources (R203 to R207), mask registers (R218), pointers (R263) or features (R80, R277). -/
def scalarForm : Instr → Option ScalarForm
  | .add o => arith o (fun a b => a + b)
  | .sub o => arith o (fun a b => a - b)
  | .mul o => arith o (fun a b => a * b)
  | .mulh o => bits2 o (fun a b => wrap o.ty.width (tyVal o.ty a * tyVal o.ty b / ((2 ^ o.ty.width : Nat) : Int)))
  | .div o => some ⟨o.d, [o.a, o.b], fun _ _ v => let r := divTy o.ty (lrw v 0).toNat (lrw v 1).toNat; (tyOut o.ty r.1, r.2.2)⟩
  | .rem o => some ⟨o.d, [o.a, o.b], fun _ _ v => let r := divTy o.ty (lrw v 0).toNat (lrw v 1).toNat; (tyOut o.ty r.2.1, r.2.2)⟩
  | .and o => word2 o (fun a b => a &&& b)
  | .or o => word2 o (fun a b => a ||| b)
  | .xor o => word2 o (fun a b => a ^^^ b)
  | .shl o => bits2 o (fun a n => a * 2 ^ (n % o.ty.width) % 2 ^ o.ty.width)
  | .shr o => bits2 o (fun a n => a % 2 ^ o.ty.width / 2 ^ (n % o.ty.width))
  | .sra o => bits2 o (sraN o.ty.width)
  | .slt o => bits2 o (fun a b => b2n (decide (tyVal o.ty a < tyVal o.ty b)))
  | .sltn o => bits2 o (fun a b => b2n (decide (tyVal o.ty a < tyVal o.ty b)))
  | .min o => bits2 o (fun a b => wrap o.ty.width (min (tyVal o.ty a) (tyVal o.ty b)))
  | .max o => bits2 o (fun a b => wrap o.ty.width (max (tyVal o.ty a) (tyVal o.ty b)))
  | .clz o => bits1 o (clzN o.ty.width)
  | .ctz o => bits1 o (ctzN o.ty.width)
  | .popc o => bits1 o (popN o.ty.width)
  | .bext o => bits2 o (bextN o.ty.width)
  | .bdep o => bits2 o (bdepN o.ty.width)
  | .sext o => word1 o.d o.a (fun a => natW (wrap 64 (toSigned o.n a.toNat)))
  | .zext o => word1 o.d o.a (fun a => natW (a.toNat % 2 ^ o.n))
  | .mov o => word1 o.d o.a (fun a => a)
  | .addi o => some ⟨o.d, [o.a], fun _ _ v => satRes o.ty o.sat (tyVal o.ty (lrw v 0).toNat + o.imm.toInt)⟩
  | .andi o => word1 o.d o.a (fun a => a &&& o.imm.signExtend 64)
  | .ori o => word1 o.d o.a (fun a => a ||| o.imm.signExtend 64)
  | .xori o => word1 o.d o.a (fun a => a ^^^ o.imm.signExtend 64)
  | .shli o => shift1 o (fun w a n => a * 2 ^ (n % w) % 2 ^ w)
  | .shri o => shift1 o (fun w a n => a % 2 ^ w / 2 ^ (n % w))
  | .srai o => shift1 o sraN
  | .li d imm => some ⟨d, [], fun _ _ _ => (imm.signExtend 64, 0)⟩
  | .lih o => word1 o.d o.a (fun a => setF a (4 * o.pos) 28 o.imm.toNat)
  | .fadd o => fpForm o.d [o.a, o.b] o.ty (fun x => fpAdd (fmtOf o.ty) o.rnd 0 (x 0) (x 1))
  | .fsub o => fpForm o.d [o.a, o.b] o.ty (fun x => fpSub (fmtOf o.ty) o.rnd 0 (x 0) (x 1))
  | .fmul o => fpForm o.d [o.a, o.b] o.ty (fun x => fpMul (fmtOf o.ty) o.rnd 0 (x 0) (x 1))
  | .ffma o => fpForm o.d [o.a, o.b, o.c] o.ty (fun x => fpFma (fmtOf o.ty) o.rnd 0 (x 0) (x 1) (x 2))
  | .fdiv o => fpForm o.d [o.a, o.b] o.ty (fun x => fpDiv (fmtOf o.ty) o.rnd 0 (x 0) (x 1))
  | .fsqrt o => fpForm o.d [o.a] o.ty (fun x => fpSqrt (fmtOf o.ty) o.rnd 0 (x 0))
  | .fmin o => fpForm o.d [o.a, o.b] o.ty (fun x => fpMinMax (fmtOf o.ty) false (x 0) (x 1))
  | .fmax o => fpForm o.d [o.a, o.b] o.ty (fun x => fpMinMax (fmtOf o.ty) true (x 0) (x 1))
  | .fcmp o => fpForm o.d [o.a, o.b] o.ty (fun x => let r := fpCmp (fmtOf o.ty) o.cond (x 0) (x 1); (b2n r.1, r.2))
  | .fcvt o => some ⟨o.d, [o.a], fun _ _ v =>
      let r := cvtBits o.dty o.sty o.rnd 0 false ((lrw v 0).toNat % 2 ^ o.sty.width)
      (if o.dty.float then natW r.1 else tyOut o.dty r.1, r.2)⟩
  | .fclass o => fpForm o.d [o.a] o.ty (fun x => (fpClass (fmtOf o.ty) (x 0), 0))
  | .mpopc o => offSlot o.d (fun x => natW (popcount (x.mreg o.a)))
  | .mpopcBits o => offSlot o.d (fun x => x.mreg o.a)
  | .mfirst o => offSlot o.d (fun x => natW ((lowest (x.mreg o.a)).getD x.W))
  | .pget o => offSlot o.d (fun x => pGet (x.preg o.a) o.n)
  | .ptest o => some ⟨o.d, [o.b], fun s k v => (natW (b2n (pTest ((s.slot k).preg o.a) (lrw v 0).toNat o.perms)), 0)⟩
  | .cfq d n => some ⟨d, [], fun s k _ => (s.feat k n, 0)⟩
  | _ => none

/-! ### Lane instructions (R231 to R240) -/

/-- A lane instruction whose lanes are independent: predicate, vector registers named, those read, a scalar source for every lane (R228), the
destination (a pair for 64-bit values), rounding, random values a lane draws, and a lane's value and flags. -/
structure LaneForm where
  p : Pred
  vecs : List Nat
  srcs : List Nat
  sc : Option Nat
  wd : Bool
  d : Nat
  md : Rnd
  n : Nat
  res : Slot → (Nat → Nat) → Option W64 → Nat → Nat × Nat
def lane1 (p : Pred) (wd : Bool) (d : Nat) (wa : Bool) (a : Nat) (f : Nat → Nat × Nat) : Option LaneForm :=
  some ⟨p, regsOf wd d ++ regsOf wa a, regsOf wa a, none, wd, d, .rne, 0, fun x _ _ l => f (x.lane wa a l)⟩
def lane2 (p : Pred) (w : Bool) (d a b : Nat) (sbs : Bool) (md : Rnd) (n : Nat) (f : (Nat → Nat) → Nat → Nat → Nat × Nat) : Option LaneForm :=
  some ⟨p, regsOf w d ++ regsOf w a ++ sbRegs w sbs b, regsOf w a ++ sbRegs w sbs b, if sbs then some b else none, w, d, md, n,
    fun x u v l => f u (x.lane w a l) (x.laneB w v b l)⟩
def lane3 (p : Pred) (w : Bool) (d a b c : Nat) (sbs : Bool) (md : Rnd) (n : Nat) (f : (Nat → Nat) → Nat → Nat → Nat → Nat × Nat) : Option LaneForm :=
  some ⟨p, regsOf w d ++ regsOf w a ++ sbRegs w sbs b ++ regsOf w c, regsOf w a ++ sbRegs w sbs b ++ regsOf w c, if sbs then some b else none, w, d, md, n,
    fun x u v l => f u (x.lane w a l) (x.laneB w v b l) (x.lane w c l)⟩
def lArith (o : VTS) (f : Int → Int → Int) : Option LaneForm :=
  lane2 o.p o.ty.is64 o.d o.a o.b o.sbs .rne 0 (fun _ a b => (tyBits o.ty o.sat (f (tyVal o.ty a) (tyVal o.ty b)), 0))
def lBits (o : VT) (f : Nat → Nat → Nat) : Option LaneForm := lane2 o.p o.ty.is64 o.d o.a o.b o.sbs .rne 0 (fun _ a b => (f a b, 0))
def lOne (o : VT1) (wd : Bool) (f : Nat → Nat) : Option LaneForm := lane1 o.p wd o.d o.ty.is64 o.a (fun a => (f a, 0))
def lF3 (o : VF3) (f : Nat → Nat → Nat → Nat × Nat) : Option LaneForm := lane2 o.p o.ty.is64 o.d o.a o.b o.sbs o.rnd 1 (fun u a b => f (u 0) a b)
def lF2 (o : VF2) (f : Nat → Nat → Nat × Nat) : Option LaneForm :=
  let w := o.ty.is64
  some ⟨o.p, regsOf w o.d ++ regsOf w o.a, regsOf w o.a, none, w, o.d, o.rnd, 1, fun x u _ l => f (u 0) (x.lane w o.a l)⟩

/-- The lane instructions of R231 to R240 whose lanes are independent, with a lane's result. -/
def laneForm : Instr → Option LaneForm
  | .vadd o => lArith o (fun a b => a + b)
  | .vsub o => lArith o (fun a b => a - b)
  | .vmul o => lArith o (fun a b => a * b)
  | .vmulh o => lBits o (mulhTy o.ty)
  | .vmad o => lane3 o.p o.ty.is64 o.d o.a o.b o.c o.sbs .rne 0 (fun _ a b c => (tyBits o.ty o.sat (tyVal o.ty a * tyVal o.ty b + tyVal o.ty c), 0))
  | .vand o => lBits o (fun a b => a &&& b)
  | .vor o => lBits o (fun a b => a ||| b)
  | .vxor o => lBits o (fun a b => a ^^^ b)
  | .vnot o => lOne o o.ty.is64 (fun a => 2 ^ o.ty.width - 1 - a % 2 ^ o.ty.width)
  | .vshl o => lBits o (shlN o.ty.width)
  | .vshr o => lBits o (shrN o.ty.width)
  | .vsra o => lBits o (sraN o.ty.width)
  | .vmin o => lBits o (minTy o.ty)
  | .vmax o => lBits o (maxTy o.ty)
  | .vabs o => lane1 o.p o.ty.is64 o.d o.ty.is64 o.a (fun a => (tyBits o.ty o.sat ((tyVal o.ty a).natAbs : Int), 0))
  | .vsel o => some ⟨o.p, regsOf o.ty.is64 o.d ++ regsOf o.ty.is64 o.a ++ regsOf o.ty.is64 o.b, regsOf o.ty.is64 o.a ++ regsOf o.ty.is64 o.b, none, o.ty.is64, o.d, .rne, 0,
      fun x _ _ l => (if bitAt (x.mreg o.c) l then x.lane o.ty.is64 o.a l else x.lane o.ty.is64 o.b l, 0)⟩
  | .vclz o => lOne o false (clzN o.ty.width)
  | .vpopc o => lOne o false (popN o.ty.width)
  | .vsext o => lane1 o.p o.ty.is64 o.d o.ty.is64 o.a (fun a => (wrap o.ty.width (toSigned o.n a), 0))
  | .vzext o => lane1 o.p o.ty.is64 o.d o.ty.is64 o.a (fun a => (a % 2 ^ o.n, 0))
  | .vbs o => some ⟨o.p, regsOf o.ty.is64 o.d, [], some o.a, o.ty.is64, o.d, .rne, 0, fun _ _ v _ => ((v.getD 0).toNat, 0)⟩
  | .vfadd o => lF3 o (fpAdd (fmtOf o.ty) o.rnd)
  | .vfsub o => lF3 o (fpSub (fmtOf o.ty) o.rnd)
  | .vfmul o => lF3 o (fpMul (fmtOf o.ty) o.rnd)
  | .vffma o => lane3 o.p o.ty.is64 o.d o.a o.b o.c o.sbs o.rnd 1 (fun u a b c => fpFma (fmtOf o.ty) o.rnd (u 0) a b c)
  | .vfdiv o => lF3 o (fpDiv (fmtOf o.ty) o.rnd)
  | .vfsqrt o => lF2 o (fpSqrt (fmtOf o.ty) o.rnd)
  | .vfrcp o => lF2 o (fpRcp o.rnd)
  | .vfrsq o => lF2 o (fpRsq o.rnd)
  | .vfexp2 o => lF2 o (fpExp2 o.rnd)
  | .vflog2 o => lF2 o (fpLog2 o.rnd)
  | .vfmin o => lane2 o.p o.ty.is64 o.d o.a o.b o.sbs .rne 0 (fun _ a b => fpMinMax (fmtOf o.ty) false a b)
  | .vfmax o => lane2 o.p o.ty.is64 o.d o.a o.b o.sbs .rne 0 (fun _ a b => fpMinMax (fmtOf o.ty) true a b)
  | .vfround o => lF2 o (fun _ a => fpRound (fmtOf o.ty) o.rnd a)
  | .vfcvt o => some ⟨o.p, regsOf o.dty.is64 o.d ++ regsOf o.sty.is64 o.a, regsOf o.sty.is64 o.a ++ (if o.hi && o.dty.half then [o.d] else []), none,
      o.dty.is64, o.d, o.rnd, 1, fun x u _ l =>
        let r := cvtBits o.dty o.sty o.rnd (u 0) o.sat (cvtSrc o.sty o.hi (x.lane o.sty.is64 o.a l))
        (cvtDst o.dty o.hi (x.lane false o.d l) r.1, r.2)⟩
  | .vhadd o => lane2 o.p false o.d o.a o.b o.sbs o.rnd 2 (fun u a b => halves (fun v x y _ => fpAdd (fmtOf o.ty) o.rnd v x y) (u 0) (u 1) a b 0)
  | .vhmul o => lane2 o.p false o.d o.a o.b o.sbs o.rnd 2 (fun u a b => halves (fun v x y _ => fpMul (fmtOf o.ty) o.rnd v x y) (u 0) (u 1) a b 0)
  | .vhfma o => lane3 o.p false o.d o.a o.b o.c o.sbs o.rnd 2 (fun u a b c => halves (fun v x y z => fpFma (fmtOf o.ty) o.rnd v x y z) (u 0) (u 1) a b c)
  | _ => none
/-- The scalar source of a lane instruction, read once (R228). -/
def State.ReadsFor (s : State) (k : Nat) (e : W64) (sc : Option Nat) (v : Option W64) (t : State) : Prop :=
  match sc with
  | none => v = none ∧ t = s
  | some b => ∃ w, s.Reads k e [b] [w] t ∧ v = some w
/-- The vector registers `regs` are full and clean in every lane of `e`. -/
def Slot.LanesReady (x : Slot) (e : W64) (regs : List Nat) : Prop :=
  ∀ l, bitAt e l = true → ∀ r ∈ regs, (x.vreg r l).full = true ∧ (x.vreg r l).pois = false
/-- A lane's new value in a form, given the slot before. -/
def LaneForm.value (f : LaneForm) (x : Slot) (v : Option W64) (l : Nat) : Nat × Nat :=
  f.res x (if f.md = .rsto then x.rand l else fun _ => 0) v l

/-! ### Cross-lane instructions (R241, R242) -/

/-- Predicate, member mask register, `.live`, vector registers, those read, scalar source, and the values of lanes given the lanes that take part. -/
structure CrossForm where
  p : Pred
  mm : Nat
  live : Bool
  vecs : List Nat
  srcs : List Nat
  sc : Option Nat
  eff : W64 → W64 → Slot → Slot
def crossForm : Instr → Option CrossForm
  | .vshuf o => some ⟨o.p, o.mm, o.live, regsOf o.ty.is64 o.d ++ regsOf o.ty.is64 o.a ++ [o.b], regsOf o.ty.is64 o.a ++ [o.b], none,
      fun c _ x => takeFrom o.ty.is64 o.d o.a c (fun y l => y.lane false o.b l % y.W) x⟩
  | .vbcast o => some ⟨o.p, o.mm, o.live, regsOf o.ty.is64 o.d ++ regsOf o.ty.is64 o.a, regsOf o.ty.is64 o.a, some o.b,
      fun c v x => takeFrom o.ty.is64 o.d o.a c (fun y _ => v.toNat % y.W) x⟩
  | .vrot o => some ⟨o.p, o.mm, o.live, regsOf o.ty.is64 o.d ++ regsOf o.ty.is64 o.a, regsOf o.ty.is64 o.a, some o.b,
      fun c v x => takeFrom o.ty.is64 o.d o.a c (fun y l => (l + y.W - v.toNat % y.W) % y.W) x⟩
  | .vred o => some ⟨o.p, o.mm, o.live, regsOf o.ty.is64 o.d ++ regsOf o.ty.is64 o.a, regsOf o.ty.is64 o.a, none, fun c _ x =>
      let r := reduceTree (redApply o.op o.ty o.rnd) (Nat.log2 x.W) 1 (crossVals o.op o.ty o.a c x) 0
      (mapLanes o.ty.is64 o.d .rne 0 (fun _ _ _ => (r.1, 0)) c x).flag r.2⟩
  | .vscan o => some ⟨o.p, o.mm, o.live, regsOf o.ty.is64 o.d ++ regsOf o.ty.is64 o.a, regsOf o.ty.is64 o.a, none, fun c _ x =>
      let r := scanKS (redApply o.op o.ty o.rnd) (Nat.log2 x.W) 1 (crossVals o.op o.ty o.a c x) 0
      (mapLanes o.ty.is64 o.d .rne 0 (fun _ _ l =>
        (if o.excl then (if l = 0 then redIdent o.op o.ty else nth 0 r.1 (l - 1)) else nth 0 r.1 l, 0)) c x).flag r.2⟩
  | _ => none
/-- The lanes of a cross-lane instruction that take part: executing, members, live (R241). -/
def CrossForm.lanes (f : CrossForm) (x : Slot) : W64 := x.exec f.p &&& (x.mreg f.mm &&& laneMask x.W) &&& x.m7
/-- Every member is live, or `.live` is given (R241). -/
def CrossForm.Present (f : CrossForm) (x : Slot) : Prop := f.live = true ∨ x.mreg f.mm &&& laneMask x.W &&& ~~~ x.m7 = 0

/-! ### Shapes shared by statements -/

/-- A branch: to a clause header when its condition holds, else to the next instruction (R208, R395). -/
def Branch (i : Instr) (srcs : List Nat) (off : BitVec 32) (c : List W64 → Bool) : Prop :=
  Ends i 0 [] [] (fun k s t => ∃ vs s1, s.Reads k 1 srcs vs s1 ∧
    ((c vs = false ∧ t = s1.advance k) ∨
     (c vs = true ∧ ∃ s2, s1.checkTarget k ((s.slot k).preg 0) ((s.slot k).pc + off.toInt) = .ok s2 ∧ t = s2.goto k ((s.slot k).pc + off.toInt).toNat)))
/-- Hardware mask-stack entries of one entry of a strand (R74). -/
def Slot.unit (x : Slot) : Nat := if x.wide then 2 else 1
/-- A compare into mask D: every executing lane's predicate, zero in the other lanes, and the flags raised (R213). -/
def Compare (i : Instr) (o : VCmp) (f : Nat → Nat → Bool × Nat) : Prop :=
  let regs := regsOf o.ty.is64 o.a ++ regsOf o.ty.is64 o.b
  Completes i 0 [] regs (fun k s t =>
    let x := s.slot k
    let e := x.exec o.p
    x.LanesReady e regs ∧ ∃ fl, t = s.setSlot k ((x.flag fl).setM o.d
      (maskOf ((lanesOf e).filter (fun l => (f (x.lane o.ty.is64 o.a l) (x.lane o.ty.is64 o.b l)).1)))) ∧
      fl = (lanesOf e).foldl (fun a l => a ||| (f (x.lane o.ty.is64 o.a l) (x.lane o.ty.is64 o.b l)).2) 0)

/-! ### Lane memory instructions (R243 to R250) -/

/-- A lane memory instruction up to its accesses: predicate, vector registers named, scalar base, vector sources, the checks of one access, the places
of the lanes (lane, offset or address, reported address) from the slot, the lanes and the base, and the bytes of an access. -/
structure MemForm where
  p : Pred
  vecs : List Nat
  base : Option Nat
  regs : List Nat
  check : Slot → Nat → State → Int → Nat → XR (Ref × State)
  offs : Slot → W64 → W64 → List (Nat × Int × W64)
  n : Nat
/-- Through a pointer, with the permissions and the access kind of R117. -/
def throughPtr (p : Pred) (vecs regs : List Nat) (ptr n perm : Nat) (acc : Nat → Acc) (x : Option Nat) (off : BitVec 16) : MemForm :=
  ⟨p, vecs, none, regs, fun y k t d l => t.refOf k (y.preg ptr) d n perm (acc (t.slot k).priv) l, fun y e _ => ptrOffs x off (y.preg ptr) y e, n⟩
/-- In the local store (R245). -/
def throughLs (p : Pred) (vecs regs : List Nat) (base n : Nat) (x : Option Nat) (off : BitVec 16) : MemForm :=
  ⟨p, vecs, some base, regs, fun _ _ t a l => t.lsRef a n l, fun y e b => lsOffs x off b y e, n⟩
/-- The loads: their form, whether they poll, and how a lane's value is written. -/
def loadForm : Instr → Option (MemForm × Bool × (W64 → Nat → Nat → Slot → Slot))
  | .vld o => some (throughPtr o.pr (vregsV (szN o.sz == 8) o.d o.x) o.x.toList o.p (szN o.sz) 1 accR o.x o.off, o.poll, fun _ => putLane o)
  | .vldu o => some (⟨o.pr, regsOf (szN o.sz == 8) o.d, o.x, [], fun y k t d l => t.refOf k (y.preg o.p) d (szN o.sz) 1 (accR (t.slot k).priv) l,
      fun y e b => [((lowest e).getD 0, b.toInt + o.off.toInt, intW (pCur (y.preg o.p) + (b.toInt + o.off.toInt)))], szN o.sz⟩, o.poll,
      fun e _ v x => (lanesOf e).foldl (fun y l => putLane o l v y) x)
  | .lld o => some (throughLs o.pr (vregsV (szN o.sz == 8) o.d o.x) o.x.toList o.p (szN o.sz) o.x o.off, o.poll, fun _ => putLane o)
  | _ => none
/-- The stores: their form and the register that holds the data. -/
def storeForm : Instr → Option (MemForm × Nat)
  | .vst o => some (throughPtr o.pr (vregsV (szN o.sz == 8) o.d o.x) (o.x.toList ++ regsOf (szN o.sz == 8) o.d) o.p (szN o.sz) 2 accW o.x o.off, o.d)
  | .lst o => some (throughLs o.pr (vregsV (szN o.sz == 8) o.d o.x) (o.x.toList ++ regsOf (szN o.sz == 8) o.d) o.p (szN o.sz) o.x o.off, o.d)
  | _ => none
/-- The lane atomics: operation and operands (R248). -/
def laneAtom : Instr → Option (AKind × VAtom)
  | .vaadd o => some (.add, o)
  | .vamin o => some (.min, o)
  | .vamax o => some (.max, o)
  | .vaand o => some (.and, o)
  | .vaor o => some (.or, o)
  | .vaxor o => some (.xor, o)
  | .vaxch o => some (.xch, o)
  | .vacas o => some (.cas, o)
  | _ => none
def atomForm (op : AKind) (o : VAtom) : MemForm :=
  throughPtr o.pr (vatomVecs o (op == .cas)) (regsOf o.ty.is64 o.d ++ o.x.toList ++ (if op = .cas then regsOf o.ty.is64 o.c else [])) o.p (o.ty.width / 8) 11 accA o.x 0
/-- Every access of the executing lanes, of which there is one, passes its checks; `t` is the state that the operand and the checks leave. -/
def MemForm.Checked (f : MemForm) (k : Nat) (s : State) (refs : List Ref) (t : State) : Prop :=
  (s.slot k).exec f.p ≠ 0 ∧ ∃ v s1, s.ReadsFor k ((s.slot k).exec f.p) f.base v s1 ∧ (s1.slot k).LanesReady ((s.slot k).exec f.p) f.regs ∧
    checkAll (f.check (s.slot k) k) (f.offs (s1.slot k) ((s.slot k).exec f.p) (v.getD 0)) s1 [] [] = (t, refs, [])
/-- The words of a core's local store that an access touches are full and not poisoned. -/
def State.LsReady (s : State) (c off n : Nat) : Prop := ∀ w ∈ wordsOf off n, s.wordEmpty c w = false ∧ s.wordPois c w = false

/-! ### Scalar memory instructions (R251 to R261) -/

/-- A remote write leaves: as a release towards another core it writes the L1 back, the message enters the network, and the sender parks until its answer (R149,
R280). -/
def State.sentFrom (s : State) (k : Nat) (m : Net) (peer what : Nat) : State :=
  let u := s.relTo k m.core
  (({ u with net := u.net ++ [{ m with id := u.nextMsg }], nextMsg := u.nextMsg + 1 } : State).modSlot k (fun x =>
    { x with remote := some ⟨u.nextMsg, none⟩ })).doPark k (.remote u.nextMsg false peer what) false
/-- The scalar atomics (R259). -/
def scalarAtom : Instr → Option (AKind × Atom)
  | .aadd o => some (.add, o)
  | .amin o => some (.min, o)
  | .amax o => some (.max, o)
  | .aand o => some (.and, o)
  | .aor o => some (.or, o)
  | .axor o => some (.xor, o)
  | .axch o => some (.xch, o)
  | .acas o => some (.cas, o)
  | _ => none
/-- The operation of a scalar atomic on its operands sD, sX, sC. -/
def atomApply (o : Atom) (op : AKind) (vs : List W64) (old : Nat) : Option Nat × Nat :=
  atomNew op o.ty old ((lrw vs 0).toNat % 2 ^ o.ty.width) (lrw vs 2).toNat
/-- A scalar atomic performed on a checked place `r`: memory takes the operation's result, sD the old value, a failed compare-and-swap demotes. -/
def AtomPerforms (o : Atom) (k : Nat) (g : Nat → Option Nat × Nat) (r : Ref) (s t : State) : Prop :=
  let m := s.rmwRef k (o.ty.width / 8) r (fun v => (g v).1)
  m.1 = 0 ∧ ∃ u, ((m.2.2.modSlot k (fun x => x.flag (g m.2.1).2)).acquirePart k o.ord o.scope).Writes k o.d
    (natW (if o.ty = .s32 then wrap 64 (toSigned 32 m.2.1) else m.2.1)) u ∧ t = u.finish k (g m.2.1).1.isNone
/-- Cache instructions over a range: operands, permission, whether it asks for W at the page, alignment, and what is done in the physical ranges (R261). -/
def rangeForm : Instr → Option (R2 × Nat × Bool × Nat × (List (Nat × Nat × Xl) → Nat → State → State))
  | .l1wb o => some (o, 1, false, 1, fun rs c s => (s.l1In c rs).foldl (fun t x => t.wbSector c x) s)
  | .l1inv o => some (o, 2, true, 64, fun rs c s => (s.l1In c rs).foldl (fun t x => t.invSector c x) s)
  | .l1wbi o => some (o, 2, true, 1, fun rs c s => (s.l1In c rs).foldl (fun t x => t.flushSector c x) s)
  | .cdcf o => some (o, 1, false, 1, fun rs c s => ((mkeys (s.core c).cdc).filter (fun b => inRanges rs (128 * b) 128)).foldl (fun t b => t.cdcFlush c b) s)
  | _ => none

/-! ### Barriers and launches -/

/-- Taking a trap whose cause carries no lane mask: FMASK is m0, and a return reruns the instruction in every lane (R81, R82, R276, R397). -/
def State.entered (s : State) (k code : Nat) (tval : W64) : State :=
  (s.takeTrap k code (s.slot k).pc tval ((s.slot k).m0 &&& (s.slot k).predMask allLanes) 0).modSlot k (fun y => { y with reported := true })

/-- An arrival of the strand in slot `k` at a barrier (R56, R265, R266): of a member of the group that has not arrived in this phase, or at a numbered
barrier with its count. The strand's L1 is written back, and it remembers the phase that it joined. -/
def State.Arrived (s : State) (k : Nat) (o : Bar) (off : Nat) (t : State) : Prop :=
  (o.nb = false ∧ ∃ g i r, s.myGang k = some g ∧ (s.slot k).job = .gang i r ∧ g.member o.n r = true ∧ (g.arrived o.n).contains r = false ∧
    t = ((s.wbAllL1 (coreOf k)).modGang g.id (fun y => y.arrive o.n r)).modSlot k (fun x => x.setMark ⟨false, o.n, g.phase o.n, off⟩)) ∨
  (o.nb = true ∧ ∃ v s1, s.Reads k 1 [o.a] [v] s1 ∧ s1.arriveNumbered k o.n off v = .ok t)
/-- A barrier whose group exists, reached with no pending path and outside a reconvergence (R50, R61). -/
def State.AtBarrier (s : State) (k : Nat) (o : Bar) : Prop :=
  (o.nb = false → s.groupBad k o.n = false) ∧ (s.slot k).reconv = none ∧ s.barrierPaths k o.nb = none
/-- What a wait at a barrier awaits after an arrival. -/
def Slot.awaited (x : Slot) (nb : Bool) (n : Nat) (m : Mark) : Await := if nb then .numbered n m.phase else .group (x.job.gangOf.getD 0) n m.phase
/-- A barrier instruction ends: outside handlers no reconvergence is left (R50). -/
def State.pastBarrier (s : State) (k : Nat) : State := s.modSlot k (fun y => { y with reconv := if y.th then y.reconv else none })
/-- `bar.sync` and `gbar`: the arrival, and the wait for its phase; while the phase is open the strand parks, and the resumed instruction only waits. -/
def BarSync (i : Instr) (o : Bar) : Prop :=
  Ends i 0 [] [] (fun k s t => s.AtBarrier k o ∧ (∀ m, (s.slot k).mark? o.nb o.n = some m → m.off ≠ (s.slot k).pc) ∧ ∃ s1 m, s.Arrived k o (s.slot k).pc s1 ∧
    (s1.slot k).mark? o.nb o.n = some m ∧
    ((s1.awaitMet k ((s1.slot k).awaited o.nb o.n m) = true ∧ t = ((((s1.modSlot k (fun x => x.unmark o.nb o.n)).acqL1 (coreOf k)).pastBarrier k).advance k)) ∨
     (s1.awaitMet k ((s1.slot k).awaited o.nb o.n m) = false ∧ t = s1.doPark k ((s1.slot k).awaited o.nb o.n m) false))) ∧
  Completes i 0 [] [] (fun k s t => (o.nb = false → s.groupBad k o.n = false) ∧ (s.slot k).reconv = none ∧ ∃ m, (s.slot k).mark? o.nb o.n = some m ∧
    m.off = (s.slot k).pc ∧ s.awaitMet k ((s.slot k).awaited o.nb o.n m) = true ∧
    t = ((s.modSlot k (fun x => x.unmark o.nb o.n)).acqL1 (coreOf k)).pastBarrier k)
/-- The first and the second word of a task record that `tsend.new` accepts (R60, R271). -/
def recNew (w0 : W64) : Prop := wf w0 37 3 = 0 ∧ wf w0 56 8 = 0 ∧ 1 ≤ wf w0 32 5 ∧ wf w0 32 5 ≤ 16 ∧ wf w0 42 2 < 2
/-- The 32 words of a launch record in a core's local store (R53, R272). -/
def State.lrecAt (s : State) (c a : Nat) : List W64 := (List.range 32).map (fun j => s.lsWord c (a / 8 + j))
/-- Does a trap of the strand go to its U handler (R78, R81). -/
def Slot.delegates (x : Slot) (code : Nat) : Bool :=
  !x.th && decide (x.priv = 0) && (match delegBit code with
    | some b => bitAt x.udeleg b
    | none => false)

/-! ### Engines and the matrix stream -/

/-- The direction of a copy instruction (R283). -/
def copyForm : Instr → Option (Cpy × Dir)
  | .cpyMl o => some (o, .ml)
  | .cpyLm o => some (o, .lm)
  | .cpyLl o => some (o, .ll)
  | .cpyMr o => some (o, .mr)
  | _ => none
/-- A local-store side of `n` bytes that passes the checks of R284 and R287: its layout, its alignment, a core of the block, and its end within the store. -/
def State.SideOk (s : State) (k : Nat) (v : W64) (n : Nat) : Prop :=
  wf v 32 32 = 0 ∧ bitAt v 31 = false ∧ wf v 22 9 = 0 ∧ wf v 0 3 = 0 ∧ s.inBlock k (wf v 18 4) = true ∧ wf v 0 18 + n ≤ 262144
/-- The memory side of a copy passes its checks: aligned, and every row within the pointer with its permission (R284, R287). -/
def RowsOk (p : BitVec 128) (rows len stride perm : Nat) : Prop :=
  pCur p % 8 = 0 ∧ pSP p = false ∧ ∀ j, j < rows → checkAccess p ((j * stride : Nat) : Int) len perm ≠ none
/-- A copy without `.bp` and `.on` whose descriptors sA, sB and sC pass the checks of R284 to R287 that need no translation. -/
def State.CopyOk (s : State) (k : Nat) (o : Cpy) (dir : Dir) (va vb vc : W64) : Prop :=
  let x := s.slot k
  let rows := wf vc 20 8 + 1
  let len := wf vc 0 19
  let stride := wf vc 32 32
  o.bp = none ∧ o.on = none ∧ bitAt vc 19 = false ∧ 8 ≤ len ∧ len ≤ 262144 ∧ len % 8 = 0 ∧ stride % 8 = 0 ∧
  match dir with
  | .ml => s.SideOk k vb (rows * len) ∧ RowsOk (x.preg o.a) rows len stride 1
  | .lm => s.SideOk k vb (rows * len) ∧ (rows = 1 ∨ len ≤ stride) ∧ RowsOk (x.preg o.a) rows len stride 2
  | .ll => stride = 0 ∧ s.SideOk k va (rows * len) ∧ s.SideOk k vb (rows * len) ∧
      (wf va 18 4 ≠ wf vb 18 4 ∨ wf va 0 18 + rows * len ≤ wf vb 0 18 ∨ wf vb 0 18 + rows * len ≤ wf va 0 18)
  | .mr => rows = 1 ∧ stride = 0 ∧ wf vb 9 55 = 0 ∧ (bitAt vb 7 = true → x.width = 64) ∧
      (bitAt vb 8 = false ∧ 1 ≤ wf vb 0 7 ∧ wf vb 0 7 ≤ 59 ∧ wf vb 0 7 ≠ o.d ∧ len = 8 ∨ bitAt vb 8 = true ∧ wf vb 0 7 < x.budget ∧ len = 128) ∧
      RowsOk (x.preg o.a) 1 len 0 1
/-- The addresses whose pages a copy translates at issue (R287). -/
def copyPages (p : BitVec 128) (dir : Dir) (vc : W64) : List Nat :=
  if dir = .ll then []
  else (List.range (wf vc 20 8 + 1)).flatMap (fun j => (pageSplit ((pCur p + j * wf vc 32 32) % 2 ^ 56) (wf vc 0 19)).map (·.1))
/-- The gang whose stream a sequencer runs. -/
def State.streamGang (s : State) (cl : Nat) : Gang := (s.gang? (s.cluster cl).seqGang).getD (protoGang [] [])
/-- An instruction of the matrix stream whose effect `eff` takes the state to `t`, without the sequencer's position. -/
def StreamsTo (i : Instr) (eff : Nat → Gang → State → State → Prop) : Prop :=
  ∀ s cl t, s.cur = .seq cl → eff cl (s.streamGang cl) s t → exec i s = .next t
/-- As `StreamsTo`; the next instruction of the clause follows. -/
def Streams (i : Instr) (eff : Nat → Gang → State → State → Prop) : Prop :=
  ∀ s cl t, s.cur = .seq cl → eff cl (s.streamGang cl) s t → exec i s = .next (t.modCluster cl (fun x => { x with seqPc := x.seqPc + 2 }))
/-- No overlapping command is before a matrix instruction with the footprints `r` and `w` in the hazard unit (R318). -/
def State.HazClear (s : State) (cl : Nat) (r w : List (Nat × Nat × Nat)) (t : State) : Prop :=
  ((s.cluster cl).matHaz = none ∧ (s.cluster cl).room = true ∧ (s.cluster cl).cmds.any (conflict r w) = false ∧ t = s) ∨
  ∃ h, (s.cluster cl).matHaz = some h ∧ (s.cluster cl).cmds.any (fun c => decide (c.seq < h.1) && conflict r w c) = false ∧
    t = s.setCluster cl { s.cluster cl with matHaz := none }
/-- The half of an operand buffer that a key names. -/
def Cluster.half? (x : Cluster) (key : Nat) : Option Half := (x.halves.find? (fun e => e.1 == key)).map (·.2)
/-- The chunk of an operand load: CHUNK plus the steps of the two innermost loops (R307, R312). -/
def chunkIn (o : XLoad) (x : Cluster) : Nat := o.chunk + o.step0 * (x.loops.headD (0, 0)).2 + o.step1 * ((x.loops.drop 1).headD (0, 0)).2
/-- The value of element `e` of row `r` of a loaded half: two's complement over its planes (R99). -/
def Half.elem (h : Half) (r e : Nat) : Int :=
  (List.range h.planes.length).foldl (fun t b => t + weight h.planes.length b * ((nth 0 (nth [] h.planes b) r / 2 ^ e % 2 : Nat) : Int)) 0

/-! ### Events -/

/-- An event whose cause and effect `eff` relate `s` to `t` takes `s` to `t`. -/
def Happens (i : Instr) (eff : State → State → Prop) : Prop := ∀ s t, eff s t → exec i s = .next t
/-- The head of a mapped queue is a sound packet of a kind, with the words `ws`; `t` is the state after the front end has read it. -/
def State.HeadIs (s : State) (p q kind d : Nat) (e : Queue) (ws : List W64) (t : State) : Prop :=
  s.queueDie p q = some d ∧ s.queue? d p q = some e ∧ s.headOf d p q = (.pkt ws, t) ∧ wf (lrw ws 0) 0 8 = kind
/-- A message waits at its full location, behind those that came to wait there before it (R51, R254). -/
def State.waitsIn (s : State) (n : Net) : State :=
  { s with net := s.net.filter (fun m => m.id != n.id) ++ [{ n with waiting := true, since := s.nextWait }], nextWait := s.nextWait + 1 }
/-- The free location of a remote write that is first there takes its value, an acquire of what another core released (R125, R149, R256, R257). -/
def State.lands (s : State) (n : Net) (t : State) : Prop :=
  s.firstAt n = true ∧
  ((n.kind = .rput ∧ s.toStart n = false ∧ s.regFree (16 * n.core + n.slot) n.gen n.at_ (n.val2 == 1) = true ∧
    t = ((s.fillReg (16 * n.core + n.slot) n.gen n.at_ (n.val2 == 1) n.val n.pois).acqFrom n.src n.core).performed n) ∨
   (n.kind = .sputfe ∧ s.wordEmpty n.core (n.at_ / 8) = true ∧
    t = ((((s.lsWrite n.core n.at_ 8 n.val.toNat).setPoisW n.core (n.at_ / 8) n.pois).raceLog n.core n.src n.at_).acqFrom n.src n.core).performed n))
/-- The location of a remote write is full. -/
def State.occupied (s : State) (n : Net) : Prop :=
  (n.kind = .rput ∧ s.toStart n = false ∧ s.regFree (16 * n.core + n.slot) n.gen n.at_ (n.val2 == 1) = false) ∨
  (n.kind = .sputfe ∧ s.wordEmpty n.core (n.at_ / 8) = false)
/-- A coherence message of a kind reaches the die it is for, and leaves the network. -/
def State.Arrives (s : State) (id : Nat) (kd : CohKind) (m : Coh) (t : State) : Prop := s.coh? id kd = some m ∧ t = s.dropCoh id
/-- No request of a kind of a die for a block is on its way to the home (R154). -/
def State.noReq (s : State) (d b : Nat) (kc : CohKind) : Prop := s.coh.find? (fun n => n.kind == kc && n.blk == b && n.src == d) = none
/-- A request from outside for memory of the device, at whose home no earlier one for its block waits (R155). -/
def State.mayArrive (s : State) (r : HReq) : Prop :=
  r.addr < 0x9000000000 ∧ (s.die (s.homeOf r.addr)).hostq.any (fun q => blkOf q.addr == blkOf r.addr) = false
/-- The port that a request from outside came in by. -/
def HReq.port : HReq → Nat
  | .read _ p .. | .write _ p .. | .peerRead _ p .. | .peerWrite _ p .. => p
/-- A core's new request for a block (R159). -/
def TReq.first (core blk : Nat) (w : Bool) (cycle : Nat) : TReq := ⟨core, blk, w, 1, cycle, false, false, false, false, false⟩
/-- A die's answer to a transaction that waits for it: the home counts it, and grants when it was the last (R165). -/
def Answer (i : Instr) (id : Nat) (kd : CohKind) (f : Coh → State → State) : Prop :=
  Happens i (fun s t => ∃ m u x, s.Arrives id kd m u ∧ u.txn? m.die m.blk = some x ∧ m.src ∈ x.waiting ∧
    t = f m ((u.setTxn m.die m.blk { x with waiting := x.waiting.erase m.src }).tryGrant m.die m.blk)) ∧
  Happens i (fun s t => ∃ m u, s.Arrives id kd m u ∧ (∀ x, u.txn? m.die m.blk = some x → m.src ∉ x.waiting) ∧ t = u.anomaly m.die m.blk 4)
/-- Data or permission at its requester: the die takes the state that the message carries, tells the home, serves its cores, and evicts a block when its
set is full (R165, R166). -/
def Grant (i : Instr) (id : Nat) (kd : CohKind) (f : Coh → State → State) : Prop :=
  Happens i (fun s t => ∃ m u, s.Arrives id kd m u ∧
    let v := f m u
    t = (((v.setSt m.blk m.die m.n).sendCoh (cohMsg .cmp (v.homeOf (128 * m.blk)) m.die m.blk m.die 0 false false)).serveBlk m.die m.blk).evictOver m.die m.blk)
/-- A forward, an invalidation or a recall at a die that no longer holds the block answers Gone (R167). -/
def GoneHolder (i : Instr) (id : Nat) (kd : CohKind) : Prop :=
  Happens i (fun s t => ∃ m u, s.Arrives id kd m u ∧ u.ownSt m.die m.blk = 0 ∧ t = u.sendCoh (cohMsg .gone m.src m.die m.blk m.req 0 false false))

end Sys2Proof.Machine
end

