-- ==== Sys2Proof/Certificates/Slice0/Obligations.lean ====
section
/-! DEFINITION. The statements for the provers. Each docstring names the rules of the spec that the statement formalises. -/

section

open Sys2Proof Sys2Proof.Machine

/-! ### Scalar instructions -/

/-- R203 to R207, R218, R263, R277: a scalar instruction whose sources are available writes the value of its entry, raises its flags, and completes. -/
def Obligations.ScalarResults : Prop := ∀ i f, scalarForm i = some f →
  Completes i 0 [f.d] [] (fun k s t => ∃ vs s1, s.Reads k 1 f.srcs vs s1 ∧ (s1.flagged k (f.res s k vs).2).Writes k f.d (f.res s k vs).1 t)

/-- The same instructions on registers s0 to s59: the destination holds the value and is full, and nothing else changes but the flags the entry
raises, the program counter, the cycle from which the next instruction may issue (R59), bindings on the destination (R268), and what restricted or parked
this instruction. -/
def Obligations.ScalarFrame : Prop := ∀ i f s k, scalarForm i = some f → s.Turn k → f.d < 60 → (∀ n ∈ f.srcs, (s.slot k).Ready n) →
  let r := f.res s k (f.srcs.map (s.slot k).val)
  ∃ t, exec i s = .next t ∧ OnlySlot k s t ∧ SameBytes s t ∧
    (f.d ≠ 0 → (t.slot k).sreg f.d = ⟨r.1, true, false⟩) ∧ (∀ n, n ≠ f.d → (t.slot k).sreg n = (s.slot k).sreg n) ∧
    (f.d = 0 → (t.slot k).s = (s.slot k).s) ∧
    t.slot k = { s.slot k with s := (t.slot k).s, fflags := (s.slot k).fflags ||| natW r.2, pc := (s.slot k).pc + 2, ready := (t.slot k).ready, binds := (t.slot k).binds, replay := none, resumed := false, park := none }

/-- R66, R67, R72, R73: what reading a scalar source gives. `in` takes the oldest message for the strand and `work` the next item of the gang's queue.
R66, R67, R72: what writing a scalar destination does: s0 discards, s1 to s59 take the value and become full, k-registers are the core's. -/
def Obligations.ScalarOperands : Prop :=
  (∀ (s : State) k fm n,
  (n = 0 → s.Reads k fm [n] [0] s) ∧
  (0 < n ∧ n < 60 ∧ ((s.slot k).sreg n).full = true ∧ ((s.slot k).sreg n).pois = false → s.Reads k fm [n] [((s.slot k).sreg n).val] s) ∧
  (0 < n ∧ n < 60 ∧ ((s.slot k).sreg n).full = false → rdSc k fm n s = .error (.park (.sreg n))) ∧
  (0 < n ∧ n < 60 ∧ ((s.slot k).sreg n).full = true ∧ ((s.slot k).sreg n).pois = true ∧ s.undet.contains (.sreg k n) = false →
    rdSc k fm n s = .error (.trap ⟨0x11, none, some fm, 0⟩)) ∧
  (n = 60 → ∀ m, (s.core (coreOf k)).inbox.find? (s.msgFor k) = some m →
    s.Reads k fm [n] [m.val] (s.modCore (coreOf k) (fun c => { c with inbox := c.inbox.erase m }))) ∧
  (n = 60 → (s.core (coreOf k)).inbox.find? (s.msgFor k) = none → rdSc k fm n s = .error (.park .inbox)) ∧
  (n = 62 → ∀ g, s.myGang k = some g → g.work < (lrw g.lrec 1).toNat →
    s.Reads k fm [n] [natW g.work] (s.modGang g.id (fun y => { y with work := y.work + 1 }))) ∧
  (n = 62 → ∀ g, s.myGang k = some g → (lrw g.lrec 1).toNat ≤ g.work → s.Reads k fm [n] [BitVec.allOnes 64] s) ∧
  (n = 63 → s.Reads k fm [n] [natW (s.gtcAt k)] s) ∧
  (64 ≤ n → (∀ e ∈ mget [] (s.core (coreOf k)).kold (n - 64), e.2 + 16 ≤ s.cycle) → (s.core (coreOf k)).kpois.contains (n - 64) = false → s.Reads k fm [n] [mget 0 (s.core (coreOf k)).k (n - 64)] s)) ∧
  (∀ (s : State) k n v,
  (n = 0 → s.Writes k n v s) ∧
  (0 < n ∧ n < 60 → ∃ t, s.Writes k n v t ∧ OnlySlot k s t ∧ (t.slot k).sreg n = ⟨v, true, false⟩ ∧
    (∀ m, m ≠ n → (t.slot k).sreg m = (s.slot k).sreg m) ∧
    t.slot k = { s.slot k with s := (t.slot k).s, binds := (s.slot k).binds.filter (fun b => b.loc != .reg n) }) ∧
  (64 ≤ n → ∃ t, s.Writes k n v t ∧ mget 0 (t.core (coreOf k)).k (n - 64) = v ∧
    (∀ j, j ≠ n - 64 → mget 0 (t.core (coreOf k)).k j = mget 0 (s.core (coreOf k)).k j) ∧ t.slots = s.slots ∧ t.mem = s.mem))

/-- R83: the integer part of a result: it wraps modulo 2^w, and with `.sat` the exact result is clamped to the range of the destination type.
R84, R202: quotient and remainder: the exact identity with a remainder of the dividend's sign below the divisor, and the results of a zero divisor. -/
def Obligations.IntegerArithmetic : Prop :=
  (∀ (ty : Ty) (x : Int), ty.typed = true →
  ((tyBits ty false x : Nat) : Int) % (2 ^ ty.width : Nat) = x % (2 ^ ty.width : Nat) ∧ tyBits ty false x < 2 ^ ty.width ∧
  tyVal ty (tyBits ty true x) = max (tyMin ty) (min (tyMax ty) x)) ∧
  (∀ (ty : Ty) (a b : Nat), ty.typed = true →
  (b % 2 ^ ty.width = 0 → divTy ty a b = (2 ^ ty.width - 1, a % 2 ^ ty.width, fIDZ)) ∧
  (b % 2 ^ ty.width ≠ 0 → (divTy ty a b).2.2 = 0 ∧
    ((divTy ty a b).1 : Int) % (2 ^ ty.width : Nat) = (tyVal ty a).tdiv (tyVal ty b) % (2 ^ ty.width : Nat) ∧
    ((divTy ty a b).1 * b + (divTy ty a b).2.1) % 2 ^ ty.width = a % 2 ^ ty.width ∧
    let r := tyVal ty (divTy ty a b).2.1
    r.natAbs < (tyVal ty b).natAbs ∧ (0 ≤ tyVal ty a → 0 ≤ r) ∧ (tyVal ty a ≤ 0 → r ≤ 0)))

/-! ### Branches, calls, retirement -/

/-- R208, R395: the branches, each with its condition.
R209 to R212: calls push a KIND 2 entry that holds the next instruction and m0; `ret` on a KIND 2 entry resumes there with its mask; `jr` goes to
the header that its register names; `halt` and `halt.keep` retire the strand; `nop` only goes on.
R43, R212: `halt` outside a reconvergence leaves the slot halted, with no stack and no link record, whatever m0, m7 and the stack hold. -/
def Obligations.ControlFlow : Prop :=
  ((∀ off, Branch (.br off) [] off (fun _ => true)) ∧
  (∀ o, Branch (.bz o) [o.a] o.off (fun v => lrw v 0 == 0)) ∧ (∀ o, Branch (.bnz o) [o.a] o.off (fun v => lrw v 0 != 0)) ∧
  (∀ o, Branch (.beq o) [o.a, o.b] o.off (fun v => lrw v 0 == lrw v 1)) ∧ (∀ o, Branch (.bne o) [o.a, o.b] o.off (fun v => lrw v 0 != lrw v 1)) ∧
  (∀ o, Branch (.blt o) [o.a, o.b] o.off (fun v => decide ((lrw v 0).toInt < (lrw v 1).toInt))) ∧
  (∀ o, Branch (.bge o) [o.a, o.b] o.off (fun v => decide ((lrw v 1).toInt ≤ (lrw v 0).toInt))) ∧
  (∀ o, Branch (.bltn o) [o.a, o.b] o.off (fun v => decide ((lrw v 0).toNat < (lrw v 1).toNat))) ∧
  (∀ o, Branch (.bgen o) [o.a, o.b] o.off (fun v => decide ((lrw v 1).toNat ≤ (lrw v 0).toNat)))) ∧
  ((∀ off, Ends (.call off) 0 [] [] (fun k s t => ∃ s2, (s.slot k).msRoom (s.slot k).unit = true ∧
    (s.msPush k ⟨2, (s.slot k).pc + 2, (s.slot k).m0⟩).checkTarget k ((s.slot k).preg 0) ((s.slot k).pc + off.toInt) = .ok s2 ∧
    t = s2.goto k ((s.slot k).pc + off.toInt).toNat)) ∧
  (∀ a, Ends (.callr a) 0 [] [] (fun k s t => ∃ v s1, s.Reads k 1 [a] [v] s1 ∧ (s.slot k).targetBad v = 0 ∧
    s1.enter k v ⟨2, (s.slot k).pc + 2, (s.slot k).m0⟩ none = .ok t)) ∧
  Ends .ret 0 [] [] (fun k s t => (s.slot k).depth ≠ 0 ∧ s.msPois k 0 = false ∧ (s.msEntry k 0).kind = 2 ∧
    ∃ s2, ((s.unlink k).msDrop k 1).resumeAt k (s.msEntry k 0).resume = .ok s2 ∧ t = s2.modSlot k (fun x => x.setM 0 ((s.msEntry k 0).mask &&& (s.slot k).m7))) ∧
  (∀ a, Ends (.jr a) 0 [] [] (fun k s t => ∃ v s1 s2, s.Reads k 1 [a] [v] s1 ∧ wf v 24 40 = 0 ∧
    s1.checkTarget k ((s.slot k).preg 0) (wf v 0 24) = .ok s2 ∧ t = s2.goto k (wf v 0 24))) ∧
  Ends .halt 0 [] [] (fun k s t => (s.slot k).inReconv = none ∧ t = s.retire k 0 false) ∧
  (∀ a, Ends (.haltKeep a) 0 [] [] (fun k s t => ∃ v s1, s.Reads k 1 [a] [v] s1 ∧ wf v 9 55 = 0 ∧ (s1.slot k).inReconv = none ∧
    t = s1.retire k (if recState (s1.trec (coreOf k) (wf v 0 9) 0) < 5 then wf (s1.trec (coreOf k) (wf v 0 9) 0) 44 8 else 0) false)) ∧
  Completes .nop 0 [] [] (fun _ s t => t = s)) ∧
  (∀ (s : State) k, s.Turn k → (s.slot k).inReconv = none → (s.slot k).width ≠ 64 → (s.slot k).job = .none →
  ∃ t, exec .halt s = .next t ∧ (t.slot k).phase = .halted ∧ (t.slot k).stack = [] ∧ (t.slot k).links = [] ∧ (t.slot k).gen = (s.slot k).gen ∧
    t.mem = s.mem ∧ t.gangs = s.gangs)

/-! ### Masks -/

/-- R215, R216: `mdiv` and `melse` keep the lanes of the mask running and set the others aside as a pending path (with a join entry beneath it for
`mdiv`); without lanes in the mask they go to the target; `mjoin` runs the next pending path, or goes on with the join's lanes.
R217, R219: the control thread's own accesses to the mask stack of a strand of width 8 to 32, and the block of `mspill` and `mfill`. -/
def Obligations.DivergenceAndMaskStack : Prop :=
  ((∀ o : B1, Ends (.mdiv o) 0 [] [] (fun k s t =>
    let x := s.slot k
    let tk := x.m0 &&& x.mreg o.a
    let el := x.m0 &&& ~~~(x.mreg o.a)
    let j : MsEntry := ⟨1, x.pc, x.m0⟩
    (tk ≠ 0 ∧ el ≠ 0 ∧ x.msRoom (2 * x.unit) = true ∧
      0 ≤ x.pc + o.off.toInt ∧ x.pc + o.off.toInt < 16777216 ∧
      t = (((s.msPush k j).msPush k ⟨0, (x.pc + o.off.toInt).toNat, el⟩).modSlot k (fun y => y.setM 0 tk)).advance k) ∨
    (tk ≠ 0 ∧ el = 0 ∧ x.msRoom x.unit = true ∧ t = ((s.msPush k j).modSlot k (fun y => y.setM 0 tk)).advance k) ∨
    (tk = 0 ∧ ∃ s1, s.resumeAt k (x.pc + o.off.toInt) = .ok s1 ∧ (s1.slot k).msRoom (s1.slot k).unit = true ∧
      t = (s1.msPush k j).modSlot k (fun y => y.setM 0 el)))) ∧
  (∀ o : B1, Ends (.melse o) 0 [] [] (fun k s t =>
    let x := s.slot k
    let tk := x.m0 &&& x.mreg o.a
    let el := x.m0 &&& ~~~(x.mreg o.a)
    (tk ≠ 0 ∧ el ≠ 0 ∧ x.msRoom x.unit = true ∧
      0 ≤ x.pc + o.off.toInt ∧ x.pc + o.off.toInt < 16777216 ∧
      t = ((s.msPush k ⟨0, (x.pc + o.off.toInt).toNat, el⟩).modSlot k (fun y => y.setM 0 tk)).advance k) ∨
    (tk ≠ 0 ∧ el = 0 ∧ x.msRoom 0 = true ∧ t = (s.modSlot k (fun y => y.setM 0 tk)).advance k) ∨
    (tk = 0 ∧ ∃ s1, s.resumeAt k (x.pc + o.off.toInt) = .ok s1 ∧ (s1.slot k).msRoom 0 = true ∧ t = s1.modSlot k (fun y => y.setM 0 el)))) ∧
  Ends .mjoin 0 [] [] (fun k s t =>
    let x := s.slot k
    let e := s.msEntry k 0
    x.inReconv = none ∧ x.depth ≠ 0 ∧ s.msPois k 0 = false ∧
    ((e.kind = 1 ∧ t = ((s.msDrop k 1).modSlot k (fun y => y.setM 0 (e.mask &&& x.m7))).advance k) ∨
     (e.kind = 0 ∧ e.mask &&& x.m7 ≠ 0 ∧ ∃ s1, s.resumeAt k e.resume = .ok s1 ∧ t = (s1.msDrop k 1).modSlot k (fun y => y.setM 0 (e.mask &&& x.m7)))))) ∧
  ((∀ a, Completes (.mpush a) 0 [] [] (fun k s t => ∃ v s1, (s.slot k).wide = false ∧ s.Reads k 1 [a] [v] s1 ∧ entryOk v = true ∧
    (s1.slot k).msRoom 1 = true ∧ (s1.slot k).wide = false ∧ t = s1.msPush k (msEntryOf 0 v))) ∧
  (∀ d, Completes (.mpop d) 0 [d] [] (fun k s t => (s.slot k).wide = false ∧ (s.slot k).depth ≠ 0 ∧ s.msPois k 0 = false ∧
    ((s.msDrop k 1).modSlot k (fun x => x.setM 0 ((s.msEntry k 0).mask &&& x.m7))).Writes k d (s.msWord k 0) t)) ∧
  (∀ o : R2, Completes (.mpeek o) 0 [o.d] [] (fun k s t => ∃ v s1, (s.slot k).wide = false ∧ s.Reads k 1 [o.a] [v] s1 ∧
    ((v.toNat < (s.slot k).depth ∧ s1.msPois k v.toNat = false ∧ s1.Writes k o.d (s1.msRaw k v.toNat) t) ∨
     ((s.slot k).depth ≤ v.toNat ∧ s1.Writes k o.d 0 t)))) ∧
  (∀ d, Completes (.mpeekDepth d) 0 [d] [] (fun k s t => (s.slot k).wide = false ∧ s.Writes k d (natW (s.slot k).depth) t)) ∧
  (∀ a b, Completes (.mpoke a b) 0 [] [] (fun k s t => ∃ n v s1, (s.slot k).wide = false ∧ s.Reads k 1 [a, b] [n, v] s1 ∧ entryOk v = true ∧
    n.toNat < (s.slot k).depth ∧ t = s1.msSet k n.toNat (msEntryOf 0 v))) ∧
  (∀ a, Completes (.mspill a) 0 [] [] (fun k s t => ∃ v s1, s.Reads k 1 [a] [v] s1 ∧ v.toNat % 8 = 0 ∧ v.toNat + 200 ≤ 262144 ∧
    t = (List.range 25).foldl (fun u j => u.lsWrite (coreOf k) (v.toNat + 8 * j) 8 (lrw (s.slot k).spillWords j).toNat) s1)) ∧
  (∀ a, Completes (.mfill a) 0 [] [] (fun k s t => ∃ v s1, s.Reads k 1 [a] [v] s1 ∧ v.toNat % 8 = 0 ∧ v.toNat + 200 ≤ 262144 ∧
    ((wordsOf v.toNat 200).all (fun w => !s1.wordEmpty (coreOf k) w && !s1.wordPois (coreOf k) w)) = true ∧
    let word (j : Nat) : W64 := s1.lsWord (coreOf k) (v.toNat / 8 + j)
    (word 8).toNat ≤ 16 ∧ ((s.slot k).wide = true → (word 8).toNat % 2 = 0) ∧ (∀ j, j < (word 8).toNat → entryOk (word (9 + j)) = true) ∧
    t = s1.modSlot k (fun x => { ([1, 2, 3, 4, 5, 6].foldl (fun (u : Slot) j => u.setM j (word j)) x).setM 0 (word 0) with
      stack := ((List.range (word 8).toNat).map (fun j => word (9 + j))).reverse }))))

/-- R213.
R70, R218: instructions that write a mask register.
R58, R66, R70: a mask destination takes the 32 bits of the register, 64 at width 64, m0 only those of live lanes; the other masks and every other register stay. -/
def Obligations.ComparesAndMasks : Prop :=
  ((∀ o, Compare (.vcmp o) o (fun a b => (intCmp o.ty o.cond a b, 0))) ∧ (∀ o, Compare (.vfcmp o) o (fpCmp (fmtOf o.ty) o.cond))) ∧
  ((∀ o : R2, Completes (.mset o) 0 [] [] (fun k s t => ∃ v s1, s.Reads k 1 [o.a] [v] s1 ∧ t = s1.modSlot k (fun x => x.setM o.d v))) ∧
  (∀ o : R3, Completes (.mand o) 0 [] [] (fun k s t => t = s.modSlot k (fun x => x.setM o.d (x.mreg o.a &&& x.mreg o.b)))) ∧
  (∀ o : R3, Completes (.mor o) 0 [] [] (fun k s t => t = s.modSlot k (fun x => x.setM o.d (x.mreg o.a ||| x.mreg o.b)))) ∧
  (∀ o : R3, Completes (.mxor o) 0 [] [] (fun k s t => t = s.modSlot k (fun x => x.setM o.d (x.mreg o.a ^^^ x.mreg o.b)))) ∧
  (∀ o : R2, Completes (.mnot o) 0 [] [] (fun k s t => t = s.modSlot k (fun x => x.setM o.d (~~~ x.mreg o.a))))) ∧
  (∀ (x : Slot) n v, n < 7 →
  (x.setM n v).mreg n = (if n = 0 then v &&& laneMask x.lanes &&& x.m7 else v &&& laneMask x.lanes) ∧
  (∀ j, j ≠ n → (x.setM n v).mreg j = x.mreg j) ∧ x.setM n v = { x with m := (x.setM n v).m })

/-- R39 to R42, R220, R221, R223 to R226, R400: `lexit` takes the executing lanes out of m7 and m0; `refill` gives each vacant lane the next item in
lane order and then runs every live lane (nothing in a task); `sow` without lanes is `nop`, and with one group runs its word there; `vcall` enters the
target of its lowest lane with the lanes of that value.
R39, R220: lanes that exit are out of m0 and m7, the others stay, and mask-stack entries keep their bits. -/
def Obligations.LanesOfTheStrand : Prop :=
  ((∀ p, Ends (.lexit p) 0 [] [] (fun k s t => (s.slot k).inReconv = none ∧ t = (s.exitLanes k ((s.slot k).exec p)).advance k)) ∧
  Completes .refill 0 [] [] (fun k s t => (s.myGang k = none ∧ t = s) ∨ (∃ g, s.myGang k = some g ∧ (s.slot k).depth ≠ 0 ∧ t = s) ∨
    (∃ g s1, s.myGang k = some g ∧ (s.slot k).depth = 0 ∧ refillLanes k g (List.range (s.slot k).W) s = .ok s1 ∧ t = s1.modSlot k (fun y => y.setM 0 y.m7))) ∧
  (∀ a p, Ends (.sow a p) 0 [] [a, a + 1] (fun k s t => (s.slot k).resumed = false ∧ (s.slot k).exec p = 0 ∧ t = s.advance k)) ∧
  (∀ a p, Ends (.sow a p) 0 [] [a, a + 1] (fun k s t => (s.slot k).resumed = false ∧ (s.slot k).LanesReady ((s.slot k).exec p) [a, a + 1] ∧
    ∃ w b u, (s.slot k).exec p ≠ 0 ∧ (∀ l ∈ lanesOf ((s.slot k).exec p), sowWord (s.slot k) a l = w) ∧ sowDecode (s.slot k) w = some b ∧
      b.run ((s.slot k).exec p) k s = .ok (false, u) ∧
      t = ((u.modSlot k (fun y => { y.rested (w / 2 ^ 56) s.cycle with sowDem := false })).modSlot k
        (fun y => { y with sowst := 0, sowsth := 0, sowDem := false })).finish k false)) ∧
  (∀ a p, Ends (.vcall a p) 0 [] [a, a + 1] (fun k s t => (s.slot k).exec p ≠ 0 ∧ (s.slot k).msRoom (2 * (s.slot k).unit) = true ∧
    (s.msPush k ⟨2, (s.slot k).pc + 2, (s.slot k).m0⟩).vcallStep k (s.slot k).pc a ((s.slot k).exec p) ((s.slot k).exec p) = .ok t)) ∧
  (∀ a p, Ends (.vcall a p) 0 [] [a, a + 1] (fun k s t => (s.slot k).exec p = 0 ∧ t = s.advance k))) ∧
  (∀ (s : State) k e, ((s.exitLanes k e).slot k).m7 = (s.slot k).m7 &&& ~~~e ∧ ((s.exitLanes k e).slot k).m0 = (s.slot k).m0 &&& ~~~e ∧
  ((s.exitLanes k e).slot k).stack = (s.slot k).stack ∧ (s.exitLanes k e).mem = s.mem)

/-! ### Lane instructions -/

/-- R228 to R240: a lane instruction gives every executing lane the result of its entry, all sources read before. -/
def Obligations.LaneResults : Prop := ∀ i f, laneForm i = some f → Completes i 0 [] f.vecs (fun k s t => ∃ v s1,
  (s.slot k).exec f.p ≠ 0 ∧ s.ReadsFor k ((s.slot k).exec f.p) f.sc v s1 ∧ (s1.slot k).LanesReady ((s.slot k).exec f.p) f.srcs ∧
  t = s1.setSlot k (mapLanes f.wd f.d f.md f.n (fun x u l => f.res x u v l) ((s.slot k).exec f.p) (s1.slot k)))

/-- R227 to R229: the frame of lane instructions with vector sources: in a lane that executes the destination register or pair holds the result and
is full, and a lane that does not execute keeps every register; no other register, mask, status or memory changes. -/
def Obligations.LaneFrame : Prop := ∀ i f s k, laneForm i = some f → f.sc = none → s.Turn k → (s.slot k).May 0 [] f.vecs → (s.slot k).exec f.p ≠ 0 →
  (s.slot k).LanesReady ((s.slot k).exec f.p) f.srcs →
  ∃ t, exec i s = .next t ∧ OnlySlot k s t ∧ SameBytes s t ∧
    (∀ l, bitAt ((s.slot k).exec f.p) l = true → (t.slot k).lane f.wd f.d l = (f.value (s.slot k) none l).1 % 2 ^ (if f.wd then 64 else 32)) ∧
    (∀ l, bitAt ((s.slot k).exec f.p) l = true → ∀ r ∈ regsOf f.wd f.d, ((t.slot k).vreg r l).full = true ∧ ((t.slot k).vreg r l).pois = false) ∧
    (∀ r l, l < 64 → (bitAt ((s.slot k).exec f.p) l = false ∨ r ∉ regsOf f.wd f.d) → (t.slot k).vreg r l = (s.slot k).vreg r l) ∧
    t.slot k = { s.slot k with v := (t.slot k).v, fflags := (t.slot k).fflags, rcnt := (t.slot k).rcnt, pc := (s.slot k).pc + 2, ready := (t.slot k).ready, replay := none, resumed := false, park := none }

/-- R233, R234, R239, R240: `vext`, `vins`, `vqblk` and `vbpt` on sources that are available.
R227, R241, R242: a cross-lane instruction with every member present (or `.live`) gives the lanes that take part the values of its entry; when none takes
part no register changes, and without an executing lane it has no effect. -/
def Obligations.LaneMovesAndShuffles : Prop :=
  ((∀ o : VExt, Completes (.vext o) 0 [o.d] (regsOf o.ty.is64 o.a) (fun k s t => ∃ b s1, s.Reads k 1 [o.b] [b] s1 ∧ b.toNat < (s.slot k).W ∧
    bitAt (s.slot k).m7 b.toNat = true ∧ (∀ r ∈ regsOf o.ty.is64 o.a, ((s.slot k).vreg r b.toNat).full = true ∧ ((s.slot k).vreg r b.toNat).pois = false) ∧
    s1.slot k = s.slot k ∧ b.toNat < 64 ∧ s1.Writes k o.d (tyOut o.ty ((s.slot k).lane o.ty.is64 o.a b.toNat)) t)) ∧
  (∀ o : VIns, Completes (.vins o) 0 [] (regsOf o.ty.is64 o.d) (fun k s t => ∃ v j s1, (s.slot k).exec o.p ≠ 0 ∧
    s.Reads k ((s.slot k).exec o.p) [o.a, o.b] [v, j] s1 ∧
    ((j.toNat < (s.slot k).W ∧ bitAt ((s.slot k).exec o.p) j.toNat = true ∧ t = s1.modSlot k (fun x => x.setLane o.ty.is64 o.d j.toNat v.toNat)) ∨
     ((¬ (j.toNat < (s.slot k).W ∧ bitAt ((s.slot k).exec o.p) j.toNat = true)) ∧ t = s1)))) ∧
  (∀ o : VQExp, Completes (.vqblkExp o) 0 [] [o.d, o.a] (fun k s t => ∃ p md, (s.slot k).cvtSlot o.slot = some (p, md) ∧ (s.slot k).exec o.p ≠ 0 ∧
    (s.slot k).LanesReady ((s.slot k).exec o.p) [o.a] ∧
    t = s.setSlot k (mapLanes false o.d .rne 0 (fun x _ l => (wrap 32 (quantExp p (x.lane false o.a l)).1, (quantExp p (x.lane false o.a l)).2)) ((s.slot k).exec o.p) (s.slot k)))) ∧
  (∀ o : VQMan, Completes (.vqblkMan o) 0 [] [o.d, o.a, o.b] (fun k s t => ∃ p md, (s.slot k).cvtSlot o.slot = some (p, md) ∧ (s.slot k).exec o.p ≠ 0 ∧
    (s.slot k).LanesReady ((s.slot k).exec o.p) [o.a, o.b] ∧
    t = s.setSlot k (mapLanes false o.d md 1 (fun x u l =>
      (wrap 32 (quantMan p md (u 0) (toSigned 8 (x.lane false o.b l)) (x.lane false o.a l)).1, (quantMan p md (u 0) (toSigned 8 (x.lane false o.b l)) (x.lane false o.a l)).2))
      ((s.slot k).exec o.p) (s.slot k)))) ∧
  (∀ o : V2, Completes (.vbpt o) 0 [] [o.d, o.a] (fun k s t => (s.slot k).exec o.p ≠ 0 ∧ (s.slot k).LanesReady ((s.slot k).exec o.p) [o.a] ∧
    t = s.setSlot k (mapLanes false o.d .rne 0 (fun x _ j =>
      ((List.range 32).foldl (fun v i => if bitAt ((s.slot k).exec o.p) (32 * (j / 32) + i) then v + (x.vreg o.a (32 * (j / 32) + i)).val.toNat / 2 ^ (j % 32) % 2 * 2 ^ i else v) 0, 0))
      ((s.slot k).exec o.p) (s.slot k))))) ∧
  ((∀ i f, crossForm i = some f → Completes i 0 [] f.vecs (fun k s t => f.Present (s.slot k) ∧ (s.slot k).exec f.p ≠ 0 ∧ ∃ v s1,
    s.ReadsFor k (f.lanes (s.slot k)) f.sc v s1 ∧ (s1.slot k).LanesReady (f.lanes (s.slot k)) f.srcs ∧
    t = s1.setSlot k (f.eff (f.lanes (s.slot k)) (v.getD 0) (s1.slot k)))) ∧
  (∀ i f, crossForm i = some f → Completes i 0 [] f.vecs (fun k s t => (s.slot k).exec f.p = 0 ∧ t = s)) ∧
  (∀ i f v (x : Slot), crossForm i = some f → f.eff 0 v x = { x with fflags := (f.eff 0 v x).fflags }) ∧
  (∀ o : VX2, Completes (.vmatch o) 0 [] (o.d :: regsOf o.ty.is64 o.a) (fun k s t =>
    let x := s.slot k
    let c := x.exec o.p &&& (x.mreg o.mm &&& laneMask x.W) &&& x.m7
    (o.live = true ∨ x.mreg o.mm &&& laneMask x.W &&& ~~~ x.m7 = 0) ∧ x.exec o.p ≠ 0 ∧ (x.wide = true → o.d % 2 = 0 ∧ o.d + 1 < x.budget) ∧
    x.LanesReady c (regsOf o.ty.is64 o.a) ∧
    t = s.setSlot k (mapLanes x.wide o.d .rne 0 (fun y _ l =>
      ((maskOf ((lanesOf c).filter (fun j => y.lane o.ty.is64 o.a j == y.lane o.ty.is64 o.a l))).toNat, 0)) c x))))

/-! ### Memory -/

/-- R117, R134, R135: the checks of an access through a pointer, in their order: tag, permissions and bounds, then alignment; with SP 1 the access goes
to the local store at the cursor plus the displacement. -/
def Obligations.AccessChecks : Prop := ∀ (s : State) k p (off : Int) (n perm : Nat) acc lane, 0 < n →
  ((pTag p = false ∨ pHas p perm = false ∨ pCur p + off < pBase p ∨ (pLim p : Int) < pCur p + off + n) → s.refOf k p off n perm acc lane = .error (0x04, s)) ∧
  (pTag p = true ∧ pHas p perm = true ∧ (pBase p : Int) ≤ pCur p + off ∧ pCur p + off + n ≤ (pLim p : Int) ∧ pSP p = true ∧ pCur p + off + n ≤ 262144 →
    (((pCur p + off) % n ≠ 0 → s.refOf k p off n perm acc lane = .error (0x05, s)) ∧
     ((pCur p + off) % n = 0 → s.refOf k p off n perm acc lane = .ok (⟨lane, true, (pCur p + off).toNat, (pCur p + off).toNat, false⟩, s))))

/-- R126, R243 to R246: lane loads whose accesses pass their checks and find full, unpoisoned data: the lanes take their values in the order of their requests,
line by line, which `byLine` gives. R126, R243, R245, R246: lane stores perform their accesses in that order with the data register as it was before the
instruction; the lanes of a line that cannot be reached share one request. -/
def Obligations.LaneLoadsAndStores : Prop :=
  (∀ i f poll put, loadForm i = some (f, poll, put) → Ends i 0 [] f.vecs (fun k s t => ∃ refs s1,
  f.Checked k s refs s1 ∧ s1.emptyRef k refs = none ∧ (loadAll k f.n poll (put ((s.slot k).exec f.p)) (byLine refs) s1 []).2 = [] ∧
  t = (loadAll k f.n poll (put ((s.slot k).exec f.p)) (byLine refs) s1 []).1.finish k poll)) ∧
  (∀ i f d, storeForm i = some (f, d) → Ends i 0 [] f.vecs (fun k s t => ∃ refs s1, f.Checked k s refs s1 ∧
  let own (r : Ref) : Bool := !s1.lost k r || (byLine refs).find? (fun q => q.addr / 256 == r.addr / 256) == some r
  t = (((byLine refs).filter own).foldl (fun u r => u.writeRef k f.n r ((s.slot k).lane (f.n == 8) d r.lane)) s1).finish k false))

/-- R248 to R250: lane atomics of an order other than SC: release, one read-modify-write for each lane in ascending order, acquire; each lane's register
takes the old value.
R150, R249: a lane atomic of order SC leaves its slot until the second multiple of 128 ticks, and is performed when that tick has come, on the
accesses checked at its issue. -/
def Obligations.LaneAtomics : Prop :=
  (∀ i op o, laneAtom i = some (op, o) → Ends i 0 [] (atomForm op o).vecs (fun k s t => (s.slot k).sc = none ∧ o.ord ≠ .sc ∧
  ∃ refs s1, (atomForm op o).Checked k s refs s1 ∧ s1.emptyRef k refs = none ∧
    let r := atomAll k (o.ty.width / 8) (fun l old => atomNew op o.ty old ((s.slot k).lane o.ty.is64 o.d l) ((s.slot k).lane o.ty.is64 o.c l))
      (fun l old y => y.setLane o.ty.is64 o.d l old) refs (s1.releasePart k o.ord o.scope) [] false
    r.2.1 = [] ∧ t = (r.1.acquirePart k o.ord o.scope).finish k r.2.2)) ∧
  ((∀ i op o, laneAtom i = some (op, o) → Ends i 0 [] (atomForm op o).vecs (fun k s t => (s.slot k).sc = none ∧ o.ord = .sc ∧
    ∃ refs s1, (atomForm op o).Checked k s refs s1 ∧ refs ≠ [] ∧ s1.emptyRef k refs = none ∧
      t = ((s1.releasePart k o.ord o.scope).modSlot k (fun x => { x with sc := some ⟨128 * (s1.gtcAt k / 128 + 2), refs, []⟩ })).doPark k
        (.tick (128 * (s1.gtcAt k / 128 + 2))) false)) ∧
  (∀ i op o, laneAtom i = some (op, o) → Ends i 0 [] (atomForm op o).vecs (fun k s t => ∃ c, (s.slot k).sc = some c ∧ (s.slot k).exec o.pr ≠ 0 ∧
    c.tick ≤ s.gtcAt k ∧ (s.slot k).LanesReady ((s.slot k).exec o.pr) (atomForm op o).regs ∧
    (s.modSlot k (fun x => { x with sc := none })).emptyRef k c.refs = none ∧
    let r := atomAll k (o.ty.width / 8) (fun l old => atomNew op o.ty old ((s.slot k).lane o.ty.is64 o.d l) ((s.slot k).lane o.ty.is64 o.c l))
      (fun l old y => y.setLane o.ty.is64 o.d l old) c.refs ((s.modSlot k (fun x => { x with sc := none })).releasePart k o.ord o.scope) [] false
    r.2.1 = [] ∧ t = (r.1.acquirePart k o.ord o.scope).finish k r.2.2)))

/-- R227: a lane instruction whose set of executing lanes is empty completes without effect: no register, flag, memory or lane changes.
R227, R247: memory instructions without an executing lane complete without effect; `vldacc` by the lease's holder gives each lane the fold value of
its cell. -/
def Obligations.NoExecutingLane : Prop :=
  (∀ i f s k, laneForm i = some f → s.Turn k → (s.slot k).May 0 [] f.vecs → (s.slot k).exec f.p = 0 →
  exec i s = .next (s.advance k)) ∧
  ((∀ i f, ((loadForm i).map (·.1) = some f ∨ (storeForm i).map (·.1) = some f ∨ (laneAtom i).map (fun a => atomForm a.1 a.2) = some f) →
    Ends i 0 [] f.vecs (fun k s t => (s.slot k).exec f.p = 0 ∧ t = s.advance k)) ∧
  (∀ o : VAcc, Ends (.vldacc o) 0 [] (vregsV false o.d o.x) (fun k s t => (s.slot k).exec o.pr = 0 ∧ t = s.advance k)) ∧
  (∀ o : VAcc, Ends (.vldacc o) 0 [] (vregsV false o.d o.x) (fun k s t =>
    let e := (s.slot k).exec o.pr
    e ≠ 0 ∧ s.holdsLease k = true ∧ (s.slot k).LanesReady e o.x.toList ∧ ∃ b s1, s.Reads k e [o.p] [b] s1 ∧
      let cell (l : Nat) : Int := b.toNat + xoff o.x (s.slot k) l + o.off.toInt
      let acc (l : Nat) : Cell := mget Cell.reset (s.cluster (clOfSlot k)).acc (cell l).toNat
      (∀ l ∈ lanesOf e, 0 ≤ cell l ∧ cell l ≤ 65535 ∧ (acc l).pois = false) ∧
      t = (s1.modSlot k (fun y => (lanesOf e).foldl (fun z l => z.setV o.d l (acc l).fold) y)).finish k false)))

/-- R49, R251, R253: scalar loads and stores through a pointer and of the local store, from the checked place to the register or the write. -/
def Obligations.ScalarLoadsAndStores : Prop :=
  (∀ o : Load, Ends (.ld o) 0 [o.d] [] (fun k s t => ∃ x s1 r s2 v s3 s4, s.Reads k 1 [xreg o.x] [x] s1 ∧
    s1.ptrRef k ((s.slot k).preg o.p) (x.toInt + o.off.toInt) (szN o.sz) 1 (accR (s.slot k).priv) 0 = .ok (r, s2) ∧ s2.scalarRead k (szN o.sz) o.poll r = .ok (v, s3) ∧
    s3.Writes k o.d (natW (widen o.sgn (szN o.sz) 64 v)) s4 ∧ t = s4.finish k o.poll)) ∧
  (∀ o : Store, Completes (.st o) 0 [] [] (fun k s t => ∃ x s1 r s2 v s3, s.Reads k 1 [xreg o.x] [x] s1 ∧
    s1.ptrRef k ((s.slot k).preg o.p) (x.toInt + o.off.toInt) (szN o.sz) 2 (accW (s.slot k).priv) 1 = .ok (r, s2) ∧ s2.Reads k 1 [o.d] [v] s3 ∧
    s3.scalarWrite k (szN o.sz) r (v.toNat % 256 ^ szN o.sz) = .ok t)) ∧
  (∀ o : Load, Ends (.lds o) 0 [o.d] [] (fun k s t => ∃ b s1 s2, s.Reads k 1 [o.p] [b] s1 ∧
    let a : Int := b.toNat + o.off.toInt
    0 ≤ a ∧ a + szN o.sz ≤ 262144 ∧ a % szN o.sz = 0 ∧ s1.LsReady (coreOf k) a.toNat (szN o.sz) ∧
    s1.Writes k o.d (natW (widen o.sgn (szN o.sz) 64 (s1.lsRead (coreOf k) a.toNat (szN o.sz)))) s2 ∧ t = s2.finish k o.poll)) ∧
  (∀ o : Store, Completes (.sts o) 0 [] [] (fun k s t => ∃ b v s1 s2, s.Reads k 1 [o.p] [b] s1 ∧ s1.Reads k 1 [o.d] [v] s2 ∧
    let a : Int := b.toNat + o.off.toInt
    0 ≤ a ∧ a + szN o.sz ≤ 262144 ∧ a % szN o.sz = 0 ∧ t = s2.lsWrite (coreOf k) a.toNat (szN o.sz) (v.toNat % 256 ^ szN o.sz)))

/-- R22, R245, R251: the frame of a write at the local-store port: exactly the bytes [off, off + n) of one core's store take the value's bytes, the words
that they touch become full, a word poisoned before stays so unless all of it is written, and no register and no byte of memory changes.
R5, R432: the frame of a write of device memory outside a checkpoint, notify pages, queue descriptors and sectors with an undetected error: exactly
the bytes [pa, pa + n) take the value's bytes, and no register changes.
R157, R252: a scalar store into a block that its core holds whole in the CDC, under the conditions of the memory frame: it completes, and only the
stored bytes change. -/
def Obligations.StoreFrames : Prop :=
  (∀ (s : State) core off n v, off + n ≤ 262144 →
  let t := s.lsWrite core off n v
  (∀ c a, a < 262144 → t.lsByte c a = if c = core ∧ off ≤ a ∧ a < off + n then BitVec.ofNat 8 (v / 256 ^ (a - off)) else s.lsByte c a) ∧
  (∀ w ∈ wordsOf off n, t.wordEmpty core w = false) ∧
  (∀ w, w ∉ wordsOf off n → t.wordEmpty core w = s.wordEmpty core w ∧ t.wordPois core w = s.wordPois core w) ∧
  (∀ w ∈ wordsOf off n, t.wordPois core w = (s.wordPois core w && !(decide (off ≤ 8 * w) && decide (8 * w + 8 ≤ off + n)))) ∧
  t.mem = s.mem ∧ t.hot = s.hot ∧ t.cores = s.cores ∧
  ∀ j, (t.slot j).s = (s.slot j).s ∧ (t.slot j).v = (s.slot j).v ∧ (t.slot j).m = (s.slot j).m ∧ (t.slot j).p = (s.slot j).p ∧ (t.slot j).status = (s.slot j).status) ∧
  (∀ (s : State) part d pa n v, pa + n ≤ 0x9000000000 → s.reach d pa = true → s.ckpt = none → s.notifyOf pa = none →
  s.queuesAt pa n = [] → s.bad = [] →
  let t := s.commit part d pa n v
  (∀ a, t.rb a = if pa ≤ a ∧ a < pa + n then BitVec.ofNat 8 (v / 256 ^ (a - pa)) else s.rb a) ∧
  t.slots = s.slots ∧ t.cores = s.cores ∧ t.clusters = s.clusters ∧ t.dies = s.dies ∧ t.ls = s.ls ∧ t.lsEmpty = s.lsEmpty ∧
  (∀ x, s.pois.contains x = false → t.pois.contains x = false)) ∧
  (∀ (s : State) k n (r : Ref) v, r.ls = false → r.direct = false → r.addr + n ≤ 0x9000000000 →
  s.reach (dieOfCore (coreOf k)) r.addr = true → s.cdcOk (coreOf k) (blkOf r.addr) true = true → s.ckpt = none → s.notifyOf r.addr = none →
  s.queuesAt r.addr n = [] → s.bad = [] →
  ∃ t, s.scalarWrite k n r v = .ok t ∧ (∀ a, t.rb a = if r.addr ≤ a ∧ a < r.addr + n then BitVec.ofNat 8 (v / 256 ^ (a - r.addr)) else s.rb a) ∧
    t.slots = s.slots ∧ t.ls = s.ls ∧ (∀ c, (t.core c).k = (s.core c).k ∧ (t.core c).inbox = (s.core c).inbox))

/-- R51, R254, R255: full/empty words and registers, when no access came to wait at the word before: `ldf` takes the value and leaves the word empty, `ldff` leaves it full, `stf` fills an empty word,
`ste` empties a word, a scalar register, or a vector register in the lanes of m0. -/
def Obligations.FullEmpty : Prop :=
  (∀ o : FE, Completes (.ldf o) 0 [o.d] [] (fun k s t => ∃ a s1, fePlace o 3 k s = .ok (a, s1) ∧ s1.LsReady (coreOf k) a 8 ∧
    s1.lsOlder (coreOf k) (s1.waitPlace k (.lsTake (a / 8))) (a / 8) (.lsTake (a / 8)) = false ∧ (s1.setEmpty (coreOf k) (a / 8) true).Writes k o.d (natW (s1.lsRead (coreOf k) a 8)) t)) ∧
  (∀ o : FE, Completes (.ldff o) 0 [o.d] [] (fun k s t => ∃ a s1, fePlace o 1 k s = .ok (a, s1) ∧ s1.LsReady (coreOf k) a 8 ∧
    s1.Writes k o.d (natW (s1.lsRead (coreOf k) a 8)) t)) ∧
  (∀ o : FE, Completes (.stf o) 0 [] [] (fun k s t => ∃ a s1 v s2, fePlace o 2 k s = .ok (a, s1) ∧ s1.Reads k 1 [o.d] [v] s2 ∧
    s2.wordEmpty (coreOf k) (a / 8) = true ∧ s2.lsOlder (coreOf k) (s2.waitPlace k (.lsEmpty (a / 8))) (a / 8) (.lsEmpty (a / 8)) = false ∧ t = s2.lsWrite (coreOf k) a 8 v.toNat)) ∧
  (∀ o : FE, Completes (.ste o) 0 [] [] (fun k s t => ∃ a s1, fePlace o 2 k s = .ok (a, s1) ∧ t = s1.setEmpty (coreOf k) (a / 8) true)) ∧
  (∀ d, Completes (.steScalar d) 0 [] [] (fun k s t => t = s.modSlot k (fun x => x.setSReg d { x.sreg d with full := false }))) ∧
  (∀ d, Completes (.steVector d) 0 [] [d] (fun k s t =>
    t = s.modSlot k (fun x => (lanesOf (x.exec allLanes)).foldl (fun y l => y.setVReg d l { y.vreg d l with full := false }) x)))

/-- R67, R280, R426: a write to `out` whose destination core is one of the strand's partition and has room, with a network credit, sends one message to the slot of OUTDST;
without an acknowledgement the instruction goes on, with one it parks until the answer.
R256 to R258, R280: a remote register write, a remote word write and an active message of a strand of a gang to a rank of it: each sends one message
with the fields that the rule gives and parks its strand until the answer. -/
def Obligations.RemoteWrites : Prop :=
  (∀ (s : State) k v c, coreOfSrc (wf (s.slot k).outdst 0 16) = some c → wf (s.slot k).outdst 16 2 ≠ 3 →
  s.partOf (clOfCore c) = s.partOf (clOfSlot k) → (s.core c).heldq.length < 256 → s.credit c = true →
  ∃ m : Net, m.id = s.nextMsg ∧ m.kind = .out ∧ m.core = c ∧ m.val = v ∧ m.src = srcOfSlot k ∧ m.slot = wf (s.slot k).outdst 0 4 ∧
    (bitAt (s.slot k).outdst 18 = false → s.Writes k 61 v { s with net := s.net ++ [m], nextMsg := s.nextMsg + 1 }) ∧
    (bitAt (s.slot k).outdst 18 = true → ∃ u : State, u.net = s.net ++ [m] ∧ (u.slot k).remote = some ⟨s.nextMsg, none⟩ ∧
      wrSc k 61 v s = .error (.parkWith u (.remote s.nextMsg true (srcOfSlot (16 * c)) 0)))) ∧
  ((∀ o : RPut, Ends (.rput o) 0 [] [] (fun k s t => ∃ r v s1 g m, s.Reads k 1 [o.r, o.s] [r, v] s1 ∧ s.myGang k = some g ∧ r.toNat < g.nStrands ∧ r.toNat < 65536 ∧
    m = (⟨0, .rput, srcOfSlot k, coreOf (g.slotAt r.toNat), slotNo (g.slotAt r.toNat), s.rankGen g r.toNat, o.n, v, 0, (s.slot k).rank, true, false, false, false, false, 0⟩ : Net) ∧
    t = s1.sentFrom k m (srcOfCore (coreOf (g.slotAt r.toNat))) o.n)) ∧
  (∀ o : SPutFE, Ends (.sputfe o) 0 [] [] (fun k s t => ∃ r x v s1 g, s.Reads k 1 [o.r, xreg o.x, o.s] [r, x, v] s1 ∧ s.myGang k = some g ∧ r.toNat < g.rows * g.cols ∧ r.toNat < 65536 ∧
    let a : Int := x.toNat + o.off.toInt
    0 ≤ a ∧ a + 8 ≤ 262144 ∧ a % 8 = 0 ∧
    t = s1.sentFrom k ⟨0, .sputfe, srcOfSlot k, g.coreAt r.toNat, 0, 0, a.toNat, v, 0, (s.slot k).rank, true, false, false, false, false, 0⟩ (srcOfCore (g.coreAt r.toNat)) a.toNat)) ∧
  (∀ o : R3, Ends (.amsg o) 0 [] [] (fun k s t => ∃ a b c s1 g, s.Reads k 1 [o.d, o.a, o.b] [a, b, c] s1 ∧ s.myGang k = some g ∧
    wf a 0 16 < g.rows * g.cols ∧ g.msg = true ∧ wf a 40 24 = 0 ∧
    t = s1.sentFrom k ⟨0, .amsg, srcOfSlot k, g.coreAt (wf a 0 16), 15, g.id, wf a 16 24, b, c, (s.slot k).rank, true, false, false, false, false, 0⟩
      (srcOfCore (g.coreAt (wf a 0 16))) (wf a 16 24))))

/-- R144, R150, R259: scalar atomics: the operands are read, the place is checked, and the read-modify-write is performed; one of order SC leaves its
slot and is performed when its tick has come. -/
def Obligations.ScalarAtomics : Prop := ∀ i op o, scalarAtom i = some (op, o) →
  let ops := [o.d, xreg o.x] ++ if op = .cas then [o.c] else []
  Ends i 0 [o.d] [] (fun k s t => (s.slot k).sc = none ∧ o.ord ≠ .sc ∧ ∃ vs s1 r s2, s.Reads k 1 ops vs s1 ∧
    s1.ptrRef k ((s.slot k).preg o.p) (lrw vs 1).toInt (o.ty.width / 8) 11 (accA (s.slot k).priv) 2 = .ok (r, s2) ∧ s2.emptyRef k [r] = none ∧
    AtomPerforms o k (atomApply o op vs) r (s2.releasePart k o.ord o.scope) t) ∧
  Ends i 0 [o.d] [] (fun k s t => (s.slot k).sc = none ∧ o.ord = .sc ∧ ∃ vs s1 r s2, s.Reads k 1 ops vs s1 ∧
    s1.ptrRef k ((s.slot k).preg o.p) (lrw vs 1).toInt (o.ty.width / 8) 11 (accA (s.slot k).priv) 2 = .ok (r, s2) ∧ s2.emptyRef k [r] = none ∧
    t = ((s2.releasePart k o.ord o.scope).modSlot k (fun y => { y with sc := some ⟨128 * (s.gtcAt k / 128 + 2), [r], vs⟩ })).doPark k
      (.tick (128 * (s.gtcAt k / 128 + 2))) false) ∧
  Ends i 0 [o.d] [] (fun k s t => ∃ c r, (s.slot k).sc = some c ∧ c.tick ≤ s.gtcAt k ∧ c.refs = [r] ∧
    AtomPerforms o k (atomApply o op c.ops) r (s.modSlot k (fun y => { y with sc := none })) t)

/-- R140, R145, R150, R260 to R262: `fence` does its release and its acquire at the scope, an SC fence with its tick between them; `fence.i` discards the
clause buffer and the instruction cache; the cache instructions act on the lines of their range, or on all. -/
def Obligations.FencesAndCaches : Prop :=
  (∀ o : FenceOp, Completes (.fence o) 0 [] [] (fun k s t => (o.scope = .grp → s.groupBad k o.grp = false) ∧ (s.slot k).sc = none ∧ o.ord ≠ .sc ∧
    t = (s.releasePart k o.ord (s.fenceScope k o)).acquirePart k o.ord (s.fenceScope k o))) ∧
  (∀ o : FenceOp, Ends (.fence o) 0 [] [] (fun k s t => (o.scope = .grp → s.groupBad k o.grp = false) ∧ (s.slot k).sc = none ∧ o.ord = .sc ∧
    t = ((s.releasePart k o.ord (s.fenceScope k o)).modSlot k (fun x => { x with sc := some ⟨128 * (s.gtcAt k / 128 + 2), [], []⟩ })).doPark k
      (.tick (128 * (s.gtcAt k / 128 + 2))) false)) ∧
  (∀ o : FenceOp, Completes (.fence o) 0 [] [] (fun k s t => (o.scope = .grp → s.groupBad k o.grp = false) ∧ ∃ c, (s.slot k).sc = some c ∧ c.tick ≤ s.gtcAt k ∧
    t = (s.acquirePart k o.ord (s.fenceScope k o)).modSlot k (fun x => { x with sc := none }))) ∧
  Ends .fenceI 0 [] [] (fun k s t => t = ((s.advance k).modSlot k (fun x =>
    { x with clause := none, resuming := (x.clause.bind (fun c => c.at_ x.pc)).isSome })).modCore (coreOf k) (fun c => { c with icache := [] })) ∧
  (∀ i o perm w al go, rangeForm i = some (o, perm, w, al, go) → Completes i 0 [] [] (fun k s t => ∃ n s1, s.Reads k 1 [o.a] [n] s1 ∧
    ((n = 0 ∧ t = s1) ∨ (n ≠ 0 ∧ ∃ va, checkAccess ((s.slot k).preg o.d) 0 n.toNat perm = some va ∧ va % al = 0 ∧ n.toNat % al = 0 ∧
      ((pSP ((s.slot k).preg o.d) = true ∧ t = s1) ∨ (pSP ((s.slot k).preg o.d) = false ∧ ∃ rs s2,
        s1.rangePages k (if w then accW (s.slot k).priv else accR (s.slot k).priv) (b2n w) (fun _ => true) va n.toNat (n.toNat / 65536 + 2) = .ok (rs, s2) ∧
        t = go rs (coreOf k) s2)))))) ∧
  Completes .l1wbAll 0 [] [] (fun k s t => t = s.wbAllL1 (coreOf k)) ∧ Completes .l1invAll 1 [] [] (fun k s t => t = s.invAllL1 (coreOf k)) ∧
  Completes .l1wbiAll 0 [] [] (fun k s t => t = (s.wbAllL1 (coreOf k)).invAllL1 (coreOf k)) ∧
  Completes .cdcfAll 1 [] [] (fun k s t => t = (mkeys (s.core (coreOf k)).cdc).foldl (fun u b => u.cdcFlush (coreOf k) b) s)

/-- R137, R263, R264: pointer instructions: `pld` loads entry N + sB of the table that p1 names; `pmov`, `padd`, `pnarrow` and `pperm` write a pointer
derived from pA.
R136, R264: no pointer instruction widens a pointer: the bounds of a narrowed pointer lie within the old ones, and permissions only fall.
R264: `pnarrow` gives the least LE of 0 to 31 whose LM fits, and faults 0x04 without TAG or N, without such an LE, or when the bounds leave pA's. -/
def Obligations.Pointers : Prop :=
  ((∀ d b n, Completes (.pld d b n) 0 [] [] (fun k s t => ∃ v s1 p s2, s.Reads k 1 [b] [v] s1 ∧
    s1.loadPtr k ((s.slot k).preg 1) (n.toNat + v.toNat) = .ok (p, s2) ∧ t = s2.modSlot k (fun x => x.setP d p))) ∧
  (∀ o : R2, Completes (.pmov o) 0 [] [] (fun k s t => t = s.modSlot k (fun x => x.setP o.d (x.preg o.a)))) ∧
  (∀ o : R3, Completes (.padd o) 0 [] [] (fun k s t => ∃ v s1, s.Reads k 1 [o.b] [v] s1 ∧ t = s1.modSlot k (fun x => x.setP o.d (pAdd ((s1.slot k).preg o.a) v.toInt)))) ∧
  (∀ o : R3, Completes (.pnarrow o) 0 [] [] (fun k s t => ∃ v s1 p, s.Reads k 1 [o.b] [v] s1 ∧ pNarrow ((s.slot k).preg o.a) v.toNat = some p ∧
    t = s1.modSlot k (fun x => x.setP o.d p))) ∧
  (∀ o : R3, Completes (.pperm o) 0 [] [] (fun k s t => ∃ v s1, s.Reads k 1 [o.b] [v] s1 ∧
    t = s1.modSlot k (fun x => x.setP o.d (setPF ((s.slot k).preg o.a) 56 5 (pPerm ((s.slot k).preg o.a) &&& wf v 0 5)))))) ∧
  (∀ (p q : BitVec 128) n,
  (pNarrow p n = some q → pBase p ≤ pBase q ∧ pLim q ≤ pLim p ∧ pPerm q = pPerm p ∧ pCur q = pCur p ∧ pTag q = true ∧ pBase q ≤ pCur q ∧ pCur q + n ≤ pLim q) ∧
  (∀ d : Int, pBase (pAdd p d) = pBase p ∧ pLim (pAdd p d) = pLim p ∧ pPerm (pAdd p d) = pPerm p ∧ (pTag (pAdd p d) = true → pTag p = true ∧ (pCur (pAdd p d) : Int) = pCur p + d)) ∧
  (∀ m, let r := setPF p 56 5 (pPerm p &&& m)
    pBase r = pBase p ∧ pLim r = pLim p ∧ pCur r = pCur p ∧ pTag r = pTag p ∧ pPerm r &&& pPerm p = pPerm r)) ∧
  ((∀ o : R3, Ends (.pnarrow o) 0 [] [] (fun k s t => ∃ v s1 tv, s.Reads k 1 [o.b] [v] s1 ∧ pNarrow ((s.slot k).preg o.a) v.toNat = none ∧
    tv = wordOf (.pnarrow o) ∧ t = s.entered k 0x04 tv)) ∧
  (∀ (p : BitVec 128) (n : Nat), let b := pCur p / 64 * 64
    let up (e : Nat) : Nat := (pCur p + n - b + 2 ^ (e + 6) - 1) / 2 ^ (e + 6)
    (pTag p = false ∨ pHas p 16 = false ∨ (∀ e, e < 32 → 511 < up e) → pNarrow p n = none) ∧
    (∀ e, e < 32 → (∀ j, j < e → 511 < up j) → up e ≤ 511 → pTag p = true → pHas p 16 = true →
      pNarrow p n = if b < pBase p ∨ pLim p < b + up e * 2 ^ (e + 6) then none else some (setPF (setPF (setPF p 64 50 (b / 64)) 123 5 e) 114 9 (up e)))))

/-! ### Barriers, counters, tasks, launches -/

/-- R50, R56, R153, R265 to R267: barrier instructions of a strand with one path: an arrival is a release, a completed wait an acquire, and a wait for an
open phase parks. -/
def Obligations.Barriers : Prop :=
  (∀ o : Bar, Completes (.barArrive o) 0 [] [] (fun k s t => s.AtBarrier k o ∧ ∃ s1, s.Arrived k o (2 ^ 24) s1 ∧ t = s1.pastBarrier k)) ∧
  (∀ o : Bar, Completes (.barWait o) 0 [] [] (fun k s t => s.AtBarrier k o ∧
    (((s.slot k).mark? o.nb o.n = none ∧ t = s.pastBarrier k) ∨
     ∃ m, (s.slot k).mark? o.nb o.n = some m ∧ s.awaitMet k ((s.slot k).awaited o.nb o.n m) = true ∧
       t = ((s.modSlot k (fun x => x.unmark o.nb o.n)).acqL1 (coreOf k)).pastBarrier k))) ∧
  (∀ o : Bar, Ends (.barWait o) 0 [] [] (fun k s t => s.AtBarrier k o ∧ ∃ m, (s.slot k).mark? o.nb o.n = some m ∧
    s.awaitMet k ((s.slot k).awaited o.nb o.n m) = false ∧ t = s.doPark k ((s.slot k).awaited o.nb o.n m) false)) ∧
  (∀ o : Bar, BarSync (.barSync o) o) ∧ BarSync .gbar ⟨false, 0, 0⟩

/-- R266, R420: the first arrival of a phase sets the count of a numbered barrier, the others repeat it, and an arrival when the phase has all its strands
counts in the next one; a count of 0 or above 240, or one that differs, is the cause 0x0F, a second arrival of a strand 0x0E.
R56, R57: an arrival that completes a phase of a group or a numbered barrier opens the next one; one that does not leaves the phase. -/
def Obligations.BarrierPhases : Prop :=
  (∀ (s : State) k n off (v : W64) g r, (s.slot k).job = .gang g r → s.holdsLease k = true →
  let b := s.nbar (clOfSlot k) n
  let joined (b' : NBar) (ph : Nat) : Res State :=
    .ok (((s.wbAllL1 (coreOf k)).setNbar (clOfSlot k) n b'.settle).modSlot k (fun x => x.setMark ⟨true, n, ph, off⟩))
  (v.toNat = 0 ∨ 240 < v.toNat → s.arriveNumbered k n off v = .error (.trap ⟨0x0F, some (nbarDesc b n), none, 0⟩)) ∧
  (1 ≤ v.toNat → v.toNat ≤ 240 →
    (b.sa = 0 ∧ b.arr.contains r = false → s.arriveNumbered k n off v = joined { b with arr := b.arr ++ [r], sa := v.toNat } b.phase) ∧
    (b.sa ≠ 0 ∧ b.arr.length < b.sa ∧ b.arr.contains r = true → s.arriveNumbered k n off v = .error (.trap ⟨0x0E, some (nbarDesc b n), none, 0⟩)) ∧
    (b.sa ≠ 0 ∧ b.arr.length < b.sa ∧ b.arr.contains r = false ∧ v.toNat ≠ b.sa →
      s.arriveNumbered k n off v = .error (.trap ⟨0x0F, some (nbarDesc b n), none, 0⟩)) ∧
    (b.sa = v.toNat ∧ b.arr.length < b.sa ∧ b.arr.contains r = false →
      s.arriveNumbered k n off v = joined { b with arr := b.arr ++ [r], sa := v.toNat } b.phase) ∧
    (b.sa ≠ 0 ∧ b.sa ≤ b.arr.length ∧ b.arr2 = [] → s.arriveNumbered k n off v = joined { b with arr2 := [r], sa2 := v.toNat } (b.phase + 1)))) ∧
  ((∀ (g : Gang) n r, (g.liveOf n) ≠ [] → (∀ q ∈ g.liveOf n, q = r ∨ (g.arrived n).contains q = true) →
    (g.arrive n r).phase n = g.phase n + 1 ∧ (g.arrive n r).arrived n = []) ∧
  (∀ (g : Gang) n r q, q ∈ g.liveOf n → q ≠ r → (g.arrived n).contains q = false →
    (g.arrive n r).phase n = g.phase n ∧ (g.arrive n r).arrived n = g.arrived n ++ [r]) ∧
  (∀ b : NBar, b.settle.phase = if b.seq = true ∧ b.sa ≠ 0 ∧ b.sa ≤ b.arr.length then b.phase + 1 else b.phase))

/-- R268 to R272: `expect`, counters, tasks and `launch` on operands that pass their checks, with a network credit for a decrement that leaves.
R269, R270: a decrement of a counter by n of a COUNT above n only lowers it; one that reaches zero with a registered waiter clears the registration
and fills the waiter's register with 0, and a COUNT of zero stays. -/
def Obligations.CountersTasksLaunch : Prop :=
  ((∀ o : Expect, Completes (.expect o) 0 [] [] (fun k s t => ∃ v w s1 g loc, s.Reads k 1 [o.a, match o.t with
      | .ls b => b
      | _ => 0] [v, w] s1 ∧ s.myGang k = some g ∧ v.toNat < g.nStrands ∧ v.toNat < 65536 ∧
    (match o.t with
      | .reg d => loc = .reg d
      | .inbox => loc = .inbox
      | .ls _ => w.toNat % 8 = 0 ∧ w.toNat ≤ 0x3FFF8 ∧ loc = .ls (w.toNat / 8)) ∧
    t = s1.modSlot k (fun x => x.bind ⟨loc, v.toNat, g.halted.contains v.toNat⟩))) ∧
  (∀ a b, Completes (.cntDec a b) 0 [] [] (fun k s t => ∃ v n s1 c, s.Reads k 1 [a, b] [v, n] s1 ∧ wf v 34 30 = 0 ∧ s.partCore k (wf v 0 16) = some c ∧ wf v 16 3 = 0 ∧
    s1.credit c = true ∧ t = ((s1.relTo k c).sendNet ⟨0, .cntdec, srcOfSlot k, c, 0, 0, wf v 16 18, natW (wf n 0 32), 0, 0, false, false, false, false, false, 0⟩).1)) ∧
  (∀ o : R2, Completes (.cntWait o) 0 [] [] (fun k s t => ∃ v s1, s.Reads k 1 [o.a] [v] s1 ∧ v.toNat % 8 = 0 ∧ v.toNat ≤ 0x3FFF8 ∧
    s.wordPois (coreOf k) (v.toNat / 8) = false ∧ let x := s1.lsWord (coreOf k) (v.toNat / 8)
    bitAt x 42 = false ∧ ((wf x 0 32 = 0 ∧ s1.Writes k o.d 0 t) ∨
      (wf x 0 32 ≠ 0 ∧ t = (s1.lsWrite (coreOf k) (8 * (v.toNat / 8)) 8
        (setF (setF (setF (setF x 43 16 (s.slot k).gen) 42 1 1) 38 4 (slotNo k)) 32 6 o.d).toNat).modSlot k (fun z => z.setSReg o.d { z.sreg o.d with full := false, pois := false }))))) ∧
  (∀ o : R2, Completes (.tsendNew o) 0 [o.d] [] (fun k s t => ∃ v s1 code s2 s5, s.Reads k 1 [o.a] [v] s1 ∧ 64 ≤ v.toNat ∧ v.toNat ≤ 447 ∧
    s1.LsReady (coreOf k) (64 * v.toNat) 64 ∧ recNew (s1.trec (coreOf k) v.toNat 0) ∧ (s1.ctx (coreOf k) v.toNat).live = false ∧
    s1.loadPtr k ((s.slot k).preg 1) (wf (s1.trec (coreOf k) v.toNat 0) 24 8) = .ok (code, s2) ∧ pTag code = true ∧ pHas code 5 = true ∧
    let c := coreOf k
    let x := s.slot k
    let gen := s1.recGen c v.toNat + 1
    let ctx : TaskCtx := ⟨code, x.preg 1, x.preg 14, x.gseed, x.ranks, x.utvec, x.udeleg, x.fmt, x.asid, true, 0⟩
    let s3 := s2.modCore c (fun y => { y with tctx := mput y.tctx v.toNat ctx })
    ((s3.setRec c v.toNat 1 (setF (s3.trec c v.toNat 1) 32 32 gen.toNat)).setRecState c v.toNat 0).Writes k o.d (handleOf c v.toNat gen) s5 ∧
    t = if wf (s1.trec c v.toNat 1) 0 32 = 0 then s5.rqEnter c v.toNat else s5)) ∧
  (∀ a b, Completes (.tsend a b) 0 [] [] (fun k s t => ∃ h n s1 c, s.Reads k 1 [a, b] [h, n] s1 ∧ wf h 25 7 = 0 ∧ s.partCore k (wf h 0 16) = some c ∧
    s1.credit c = true ∧
    t = ((s1.relTo k c).sendNet ⟨0, .taskdec, srcOfSlot k, c, 0, wf h 32 32, wf h 16 9, natW (wf n 0 32), 0, 0, false, false, false, false, false, 0⟩).1)) ∧
  (∀ a, Completes (.launch a) 0 [] [] (fun k s t => ∃ v s1, s.Reads k 1 [a] [v] s1 ∧ v.toNat % 64 = 0 ∧ v.toNat + 256 ≤ 262144 ∧
    s1.LsReady (coreOf k) v.toNat 256 ∧ let l := s1.lrecAt (coreOf k) v.toNat
    let gc := wf (lrw l 17) 56 8
    let ga := wf (lrw l 17) 0 56
    let gt := (List.range gc).map (fun j => s1.lsWord (coreOf k) (ga / 8 + j))
    recordBad l true = none ∧ (gc = 0 ∨ ga % 8 = 0 ∧ ga + 8 * gc ≤ 262144 ∧ s1.LsReady (coreOf k) ga (8 * gc)) ∧ groupsBad l gt = false ∧
    (s.core (coreOf k)).tray.length < 4 ∧
    t = (s1.wbAllL1 (coreOf k)).modCore (coreOf k) (fun y =>
      { y with tray := y.tray ++ [⟨l, gt, k, v.toNat, (s.slot k).preg 1, (s.slot k).asid, s.childPrio k, false, false⟩] })))) ∧
  (∀ (s : State) c off n, off % 8 = 0 → off + 8 ≤ 262144 → s.wordPois c (off / 8) = false →
  let v := s.lsWord c (off / 8)
  (wf v 0 32 = 0 → s.countDec c off n = s) ∧
  (n < wf v 0 32 → wf ((s.countDec c off n).lsWord c (off / 8)) 0 32 = wf v 0 32 - n ∧ (s.countDec c off n).mem = s.mem) ∧
  (0 < wf v 0 32 ∧ wf v 0 32 ≤ n ∧ bitAt v 42 = true ∧ 0 < wf v 32 6 ∧ wf v 32 6 < 60 ∧ s.regFree (16 * c + wf v 38 4) (wf v 43 16) (wf v 32 6) true = true →
    s.countDec c off n = (s.lsWrite c off 8 (setF (setF v 0 32 0) 32 27 0).toNat).fillReg (16 * c + wf v 38 4) (wf v 43 16) (wf v 32 6) true 0 false))

/-! ### Slot control, ready queues, waits -/

/-- R33, R273, R364, R476: slot control at S by slot 0 of the slots 1 to 15, with the status that each gives; the status 3 or 7 for a strand of another
slot, and 7 for a save area that has left its pages, are the model's choice (log entries 80 and 12).
R36, R58, R76, R328: what a strand finds at its start in an unlent slot: every register zero and full, the lanes of its width in m0 and m7, the
pointers, arguments and control registers of its start. -/
def Obligations.SlotControl : Prop :=
  ((∀ o : R3, Completes (.slotStart o) 1 [o.d] [] (fun k s t => ∃ a b s1, s.Reads k 1 [o.a, o.b] [a, b] s1 ∧
    ((s1.ctlSlot k a = none ∧ (s1.watch k).Writes k o.d 3 t) ∨
     ∃ n, s1.ctlSlot k a = some n ∧ ((s1.watch k).startRank n b.toNat).2.Writes k o.d (natW ((s1.watch k).startRank n b.toNat).1) t))) ∧
  (∀ o : R3, Completes (.slotStartTask o) 1 [o.d] [] (fun k s t => ∃ a b s1, s.Reads k 1 [o.a, o.b] [a, b] s1 ∧
    ((s1.ctlSlot k a = none ∧ (s1.watch k).Writes k o.d 3 t) ∨
     ∃ n, s1.ctlSlot k a = some n ∧ ((s1.watch k).startTask n b).2.Writes k o.d (natW ((s1.watch k).startTask n b).1) t))) ∧
  (∀ o : R2, Completes (.slotReap o) 1 [o.d] [] (fun k s t => ∃ a s1, s.Reads k 1 [o.a] [a] s1 ∧
    ((s1.ctlSlot k a = none ∧ s1.Writes k o.d 7 t) ∨ ∃ n, s1.ctlSlot k a = some n ∧
      (if (s1.slot n).phase = .free ∨ (s1.slot n).phase = .halted then s1 else s1.retire n 0 false).Writes k o.d (natW (s1.slot n).phase.code) t))) ∧
  (∀ o : R3, Completes (.slotSpill o) 1 [o.d] [] (fun k s t => ∃ a b s1, s.Reads k 1 [o.a, o.b] [a, b] s1 ∧
    ((s1.ctlSlot k a = none ∧ s1.Writes k o.d 7 t) ∨ ∃ n, s1.ctlSlot k a = some n ∧
      (((s1.slot n).phase ≠ .running ∧ (s1.slot n).phase ≠ .parked ∧ s1.Writes k o.d 1 t) ∨
       (((s1.slot n).phase = .running ∨ (s1.slot n).phase = .parked) ∧
        ((s1.saveOk k b (s1.slot n).wide = false ∧ s1.Writes k o.d 2 t) ∨
         (s1.saveOk k b (s1.slot n).wide = true ∧ (s1.slot n).replyDue = false ∧ (s1.spillTo n b).Writes k o.d 0 t))))))) ∧
  (∀ o : R2, Completes (.slotLoad o) 1 [o.d] [] (fun k s t => ∃ a s1, s.Reads k 1 [o.a] [a] s1 ∧
    ((s1.ctlSlot k a = none ∧ s1.Writes k o.d 7 t) ∨ ∃ n, s1.ctlSlot k a = some n ∧
      let lost := (s1.slot n).phase = .spilled ∧ s1.saveOk k (s1.slot n).savea (s1.slot n).wide = false
      ((lost ∧ s1.Writes k o.d 7 t) ∨ (¬ lost ∧ (s1.loadFrom n).2.Writes k o.d (natW (s1.loadFrom n).1) t)))))) ∧
  (∀ (s : State) k (b : Start), (s.slot k).held = none → b.args.length ≤ 59 →
  let x := (s.startStrand k b).slot k
  x.phase = .running ∧ x.pc = b.pc ∧ x.width = b.width ∧ x.budget = b.budget ∧ x.job = b.job ∧ x.gen = (s.slot k).gen + 1 ∧
  (∀ n, x.sreg n = ⟨if 1 ≤ n ∧ n ≤ b.args.length then lrw b.args (n - 1) else 0, true, false⟩) ∧ (∀ r l, x.vreg r l = ⟨0, true, false⟩) ∧
  (∀ n, x.mreg n = if n = 0 ∨ n = 7 then laneMask b.width else 0) ∧
  x.preg 0 = b.p0 ∧ x.preg 1 = b.p1 ∧ x.preg 14 = b.p14 ∧ x.preg 15 = b.p15 ∧ (∀ n, n ≠ 0 → n ≠ 1 → n ≠ 14 → n ≠ 15 → x.preg n = 0) ∧
  x.status = 0x10 ∧ x.cause = 0 ∧ x.ie = 0x1C ∧ x.timecmp = 0xFFFFFFFFFFFFFFFF ∧ x.wlim = 0 ∧ x.tvec = b.tvec ∧ x.utvec = b.utvec ∧ x.udeleg = b.udeleg ∧
  x.gseed = b.gseed ∧ x.ranks = b.ranks ∧ x.stack = [] ∧ x.fflags = 0)

/-- R61, R274, R275, R476: `rq.push` of a task that is taken out and not exited, `rq.pop`, `yield`, and `wfi`. -/
def Obligations.QueuesAndWaits : Prop :=
  (∀ a, Completes (.rqPush a) 1 [] [] (fun k s t => ∃ h s1, s.Reads k 1 [a] [h] s1 ∧ s.partCore k (wf h 0 16) = some (coreOf k) ∧ wf h 25 7 = 0 ∧
    (s.ctx (coreOf k) (wf h 16 9)).live = true ∧ (s.recGen (coreOf k) (wf h 16 9)).toNat = wf h 32 32 ∧
    (recState (s.trec (coreOf k) (wf h 16 9) 0) = 3 ∨ recState (s.trec (coreOf k) (wf h 16 9) 0) = 4) ∧ t = s1.rqEnter (coreOf k) (wf h 16 9))) ∧
  (∀ o : R2, Completes (.rqPop o) 1 [o.d] [] (fun k s t => ∃ v s1, s.Reads k 1 [o.a] [v] s1 ∧ wf v 4 60 = 0 ∧
    ((∃ h s2, s1.rqPop (coreOf k) v.toNat = some (h, s2) ∧ (s2.watch k).Writes k o.d h t) ∨
     (s1.rqPop (coreOf k) v.toNat = none ∧ (s1.watch k).Writes k o.d (BitVec.allOnes 64) t)))) ∧
  Ends .yield 0 [] [] (fun k s t => ((s.slot k).th = true ∨ s.yields k = false) ∧ t = s.advance k) ∧
  Ends .yield 0 [] [] (fun k s t => (s.slot k).th = false ∧ s.yields k = true ∧ t = (s.advance k).takeIrq k 0x84) ∧
  Completes .wfi 1 [] [] (fun k s t => (s.slot k).park = none ∧ (s.irqOf k).isSome = true ∧
    t = (s.modCore (coreOf k) (fun c => { c with rqEvent := false })).watch k) ∧
  Ends .wfi 1 [] [] (fun k s t => (s.slot k).park = none ∧ s.irqOf k = none ∧
    t = ((s.modCore (coreOf k) (fun c => { c with rqEvent := false })).watch k).doPark k .irq false) ∧
  Completes .wfi 1 [] [] (fun k s t => (s.slot k).park ≠ none ∧ s.awaitMet k .irq = true ∧
    t = (s.modCore (coreOf k) (fun c => { c with rqEvent := false })).watch k)

/-! ### Exceptions and control registers -/

/-- R78, R81, R378: a trap that goes to S: the cause, the saved program counter and status, the shadow pair, the kernel's code pointer, TVEC, and S with
interrupts masked; general registers, vectors and masks stay. A delegated trap at U goes to UTVEC and keeps its pointers.
R276: `sys` and `ebreak` take their causes with their immediate in TVAL; `trap` does when its register is not zero, and else goes on. -/
def Obligations.TrapEntry : Prop :=
  (∀ (s : State) k code epc tval lanes detail,
  let x := s.slot k
  let y := (s.takeTrap k code epc tval lanes detail).slot k
  (x.delegates code = false → (x.th = false ∨ x.priv = 0) →
    y.pc = x.tvec ∧ y.epc = natW epc ∧ y.cause = natW code ∧ y.tval = tval ∧ y.fmask = lanes ∧ y.lfm = lanes ∧ y.priv = 1 ∧ wf y.status 2 2 = x.priv ∧
    bitAt y.status 4 = false ∧ bitAt y.status 5 = x.ien ∧ y.th = true ∧ bitAt y.status 7 = x.th ∧ y.shadow0 = x.preg 0 ∧ y.shadow1 = x.preg 1 ∧
    y.preg 0 = s.kernelPtr (coreOf k) ∧ (∀ n, n ≠ 0 → y.preg n = x.preg n) ∧ y.s = x.s ∧ y.v = x.v ∧ y.m = x.m ∧ y.stack = x.stack ∧ y.phase = .running ∧ y.park = none) ∧
  (x.delegates code = true →
    y.pc = x.utvec ∧ y.epc = natW epc ∧ y.cause = natW (code + 256) ∧ y.tval = tval ∧ y.fmask = lanes ∧ y.lfm = lanes ∧ y.priv = 0 ∧ wf y.status 2 2 = 0 ∧
    bitAt y.status 4 = false ∧ bitAt y.status 5 = x.ien ∧ y.th = true ∧ bitAt y.status 7 = false ∧ y.p = x.p ∧ y.s = x.s ∧ y.v = x.v ∧ y.m = x.m ∧
    y.stack = x.stack ∧ y.phase = .running ∧ y.park = none)) ∧
  ((∀ n, Ends (.sys n) 0 [] [] (fun k s t => t = s.entered k 0x18 (natW n.toNat))) ∧ (∀ n, Ends (.ebreak n) 0 [] [] (fun k s t => t = s.entered k 0x19 (natW n.toNat))) ∧
  (∀ a n, Ends (.trap a n) 0 [] [] (fun k s t => ∃ v s1, s.Reads k 1 [a] [v] s1 ∧ v ≠ 0 ∧ t = s.entered k 0x18 (natW (0x10000 + n.toNat)))) ∧
  (∀ a n, Completes (.trap a n) 0 [] [] (fun k s t => ∃ v, s.Reads k 1 [a] [v] t ∧ v = 0)))

/-- R82, R396, R397, R476: `eret` restores PRIV, IEN and TH, and p0 and p1 after a trap to S; it skips the instruction after a system call or breakpoint, and
else runs it again, for the lanes of FMASK when the cause carries a lane mask. -/
def Obligations.TrapReturn : Prop := Ends .eret 0 [] [] (fun k s t => (s.slot k).th = true ∧ (s.slot k).sc = none ∧ bitAt (s.slot k).sowst 63 = false ∧
    let code := wf (s.slot k).cause 0 8
    let s0 := ((s.watch k).eretRestore k).modSlot k (fun y => { y with kern := none, reported := false })
    let pc := (s.slot k).epc.toNat
    (code ≠ 0x10 ∧ code ≠ 0x11) ∧
    (((code = 0x18 ∨ code = 0x19) ∧ ∃ u, s0.resumeAt k ((pc + 2 : Nat) : Int) = .ok u ∧ t = u.modSlot k (fun y => y.settleMarks (pc + 2))) ∨
     (code ≠ 0x18 ∧ code ≠ 0x19 ∧ laneCause code = true ∧ (s.slot k).reported = false ∧ ∃ u, s0.resumeAt k (pc : Int) = .ok u ∧
       t = (u.modSlot k (fun y => y.settleMarks pc)).modSlot k (fun y => { y with replay := some (s.slot k).fmask })) ∨
     (code ≠ 0x18 ∧ code ≠ 0x19 ∧ ((laneCause code = false ∧ vcallCause code = false) ∨ (s.slot k).reported = true) ∧ (s.slot k).replayHeld = none ∧ ∃ u, s0.resumeAt k (pc : Int) = .ok u ∧
       t = (u.modSlot k (fun y => y.settleMarks pc)).modSlot k (fun y => y)))) ∧
  (∀ (s : State) k, let x := s.slot k
    let y := (s.eretRestore k).slot k
    y.priv = wf x.status 2 2 ∧ y.ien = bitAt x.status 5 ∧ y.th = bitAt x.status 7 ∧
    (bitAt x.cause 8 = false → y.preg 0 = x.shadow0 ∧ y.preg 1 = x.shadow1 ∧ ∀ n, 2 ≤ n → y.preg n = x.preg n) ∧ (bitAt x.cause 8 = true → y.p = x.p) ∧
    y.s = x.s ∧ y.v = x.v ∧ y.m = x.m ∧ y.pc = x.pc)

/-- R76, R80, R151, R277: reads and writes of control registers at a level that may, and the exchange; a read of SEQ0 is an acquire. -/
def Obligations.ControlRegisters : Prop :=
  (∀ d c, Completes (.cget d c) 0 [d] [] (fun k s t => ∃ lvl v, s.crRead k c.toNat = some (lvl, v) ∧ lvl ≤ (s.slot k).priv ∧
    (s.seqAcq k c.toNat).Writes k d v t)) ∧
  (∀ c a, Completes (.cput c a) 0 [] [] (fun k s t => ∃ v s1 lvl y, s.Reads k 1 [a] [v] s1 ∧ (s1.slot k).crWrite c.toNat v = some (lvl, y) ∧ lvl ≤ (s1.slot k).priv ∧
    (c.toNat = 0x013 → (s1.slot k).msUsed = 0) ∧ t = s1.setSlot k y)) ∧
  (∀ d c a, Completes (.cswap d c a) 0 [d] [] (fun k s t => ∃ v s1 l1 old l2 y, s.Reads k 1 [a] [v] s1 ∧ s1.crRead k c.toNat = some (l1, old) ∧ l1 ≤ (s1.slot k).priv ∧
    (s1.slot k).crWrite c.toNat v = some (l2, y) ∧ l2 ≤ (s1.slot k).priv ∧ (c.toNat = 0x013 → (s1.slot k).msUsed = 0) ∧ (s1.setSlot k y).Writes k d old t)) ∧
  (∀ (x : Slot) v lvl y, x.crWrite 0x000 v = some (lvl, y) → lvl = 1 ∧ y.priv = x.priv ∧ y.ien = bitAt v 4 ∧ y.th = bitAt v 6 ∧ { y with status := x.status } = x) ∧
  (∀ (s : State) k a v lvl y, (a = 0x00D ∨ a = 0x010 ∨ a = 0x011 ∨ a = 0x012 ∨ a = 0x017) → (s.slot k).crWrite a v = some (lvl, y) → lvl = 0 ∧
    (s.setSlot k y).crRead k a = some (0, v &&& (if a = 0x011 then 0xFFFFFFFF else if a = 0x012 then 0xFFFFFFFF0FFFFFFF else if a = 0x017 then 0x3F else BitVec.allOnes 64))) ∧
  (∀ (x : Slot) a v, a = 0x00B ∨ a = 0x016 ∨ a = 0x028 ∨ a = 0x029 ∨ a = 0x030 ∨ a = 0x031 ∨ (0x020 ≤ a ∧ a ≤ 0x027) → x.crWrite a v = none)

/-- R116, R132, R278, R279: TLB invalidation by page, address space and partition, and the hothouse instructions on a range of TYPE 2 pages. -/
def Obligations.TlbAndHothouse : Prop :=
  (∀ a b, Completes (.tlbInvPage a b) 1 [] [] (fun k s t => ∃ x y s1, s.Reads k 1 [a, b] [x, y] s1 ∧ wf x 56 8 = 0 ∧ wf y 12 52 = 0 ∧
    t = s1.tlbDrop (s.partOfSlot k) (fun e => e.hit e.part (wf y 0 12) x.toNat))) ∧
  (∀ a b, Completes (.tlbInvSpace a b) 1 [] [] (fun k s t => ∃ x y s1, s.Reads k 1 [a, b] [x, y] s1 ∧ x = 0 ∧ wf y 12 52 = 0 ∧
    t = s1.tlbDrop (s.partOfSlot k) (fun e => e.asid == wf y 0 12))) ∧
  (∀ a b, Completes (.tlbInvAll a b) 1 [] [] (fun k s t => ∃ x y s1, s.Reads k 1 [a, b] [x, y] s1 ∧ x = 0 ∧ y = 0 ∧ t = s1.tlbDrop (s.partOfSlot k) (fun _ => true))) ∧
  (∀ (s : State) p hit e, (∃ c, e ∈ ((s.tlbDrop p hit).core c).itlb ∨ e ∈ ((s.tlbDrop p hit).core c).dtlb) ∨ (∃ c, e ∈ ((s.tlbDrop p hit).cluster c).l2tlb) →
    ¬ (e.part = p ∧ hit e = true)) ∧
  (∀ (i : Instr) a b (present : Bool), (i = .hhDsc a b ∧ present = false ∨ i = .hhZero a b ∧ present = true) → Completes i 0 [] [] (fun k s t => ∃ n s1 va rs s2,
    s.Reads k 1 [b] [n] s1 ∧ pSP ((s.slot k).preg a) = false ∧ checkAccess ((s.slot k).preg a) 0 n.toNat 2 = some va ∧ va % 128 = 0 ∧ n.toNat % 128 = 0 ∧
    s1.rangePages k (accW (s.slot k).priv) 1 (fun q => q.ty == 2) va n.toNat (n.toNat / 65536 + 2) = .ok (rs, s2) ∧
    t = rs.foldl (fun u r => u.zeroLines k r.1 r.2.1 present) ((s2.l1In (coreOf k) rs).foldl (fun u y => u.invSector (coreOf k) y) s2)))

/-! ### Copies, furrows, the trellis -/

/-- R151, R287, R288, R293: a copy whose checks pass and that the engine has room for is accepted with the next number, which its register takes; without
room it parks for its acceptance; `cpy.wait` for a number that SEQ0 covers goes on as an acquire, and else parks.
R283 to R288: each of `cpy.ml`, `cpy.lm`, `cpy.ll` and `cpy.mr`, in its plain form, completes when its registers are ready, its descriptors are well formed, every
row is aligned, permitted and translated, and its local stores are the block's; the command holds its places, rows, length, stride and tag.
R151, R288, R292: the engine numbers commands in the order of their acceptance; SEQ0 covers every number below the lowest incomplete one, and none at
or above it. -/
def Obligations.Copies : Prop :=
  ((∀ i o dir, copyForm i = some (o, dir) → Completes i 0 [o.d] [] (fun k s t => ∃ va vb vc s0 s1 s2 c s3,
    ((dir = .ll ∧ s.Reads k 1 [o.a] [va] s0) ∨ (dir ≠ .ll ∧ va = 0 ∧ s0 = s)) ∧ s0.Reads k 1 [o.b] [vb] s1 ∧ s1.Reads k 1 [o.c] [vc] s2 ∧
    s2.cpyCmd k o dir va vb vc = .ok (c, s3) ∧ let u := s3.wbAllL1 (coreOf k)
    (u.cluster (clOfSlot k)).room = true ∧ (u.cluster (clOfSlot k)).pend = [] ∧
    (u.acceptCmd (clOfSlot k) c).2.Writes k o.d (natW (u.acceptCmd (clOfSlot k) c).1.toNat) t)) ∧
  (∀ i o dir, copyForm i = some (o, dir) → Ends i 0 [o.d] [] (fun k s t => ∃ va vb vc s0 s1 s2 c s3,
    ((dir = .ll ∧ s.Reads k 1 [o.a] [va] s0) ∨ (dir ≠ .ll ∧ va = 0 ∧ s0 = s)) ∧ s0.Reads k 1 [o.b] [vb] s1 ∧ s1.Reads k 1 [o.c] [vc] s2 ∧
    s2.cpyCmd k o dir va vb vc = .ok (c, s3) ∧ let u := s3.wbAllL1 (coreOf k)
    let x := u.cluster (clOfSlot k)
    (x.room = false ∨ x.pend ≠ []) ∧
    t = (u.setCluster (clOfSlot k) { x with nextTicket := x.nextTicket + 1, pend := x.pend ++ [{ c with ticket := x.nextTicket }] }).doPark k (.accept x.nextTicket) false)) ∧
  (∀ s k a, s.Turn k → (s.slot k).Ready a → covers (s.cluster (clOfSlot k)).seq0 (BitVec.ofNat 32 ((s.slot k).val a).toNat) = true →
    exec (.cpyWait a) s = .next ((s.acqL1 (coreOf k)).advance k)) ∧
  (∀ a, Completes (.cpyWait a) 0 [] [] (fun k s t => ∃ v s1, s.Reads k 1 [a] [v] s1 ∧ covers (s.cluster (clOfSlot k)).seq0 (BitVec.ofNat 32 v.toNat) = true ∧
    t = s1.acqL1 (coreOf k))) ∧
  (∀ a, Ends (.cpyWait a) 0 [] [] (fun k s t => ∃ v s1, s.Reads k 1 [a] [v] s1 ∧ covers (s.cluster (clOfSlot k)).seq0 (BitVec.ofNat 32 v.toNat) = false ∧
    t = s.doPark k (.seq0 (BitVec.ofNat 32 v.toNat)) false))) ∧
  (∀ i o dir s k pages s1, (i = .cpyMl o ∧ dir = .ml ∨ i = .cpyLm o ∧ dir = .lm ∨ i = .cpyLl o ∧ dir = .ll ∨ i = .cpyMr o ∧ dir = .mr) →
    s.Turn k → (s.slot k).May 0 [o.d] [] → o.d ≠ 61 → (dir = .ll → (s.slot k).Ready o.a) → (s.slot k).Ready o.b → (s.slot k).Ready o.c →
    let va := if dir = .ll then (s.slot k).val o.a else 0
    let vb := (s.slot k).val o.b
    let vc := (s.slot k).val o.c
    let p := (s.slot k).preg o.a
    s.CopyOk k o dir va vb vc →
    s.xlatePages k (if dir = .lm then accW (s.slot k).priv else accR (s.slot k).priv) (if dir = .lm then 1 else 0) (copyPages p dir vc) [] = .ok (pages, s1) →
    let u := s1.wbAllL1 (coreOf k)
    (u.cluster (clOfSlot k)).room = true → (u.cluster (clOfSlot k)).pend = [] →
    ∃ c t, (u.acceptCmd (clOfSlot k) c).2.Writes k o.d (natW (u.acceptCmd (clOfSlot k) c).1.toNat) t ∧ exec i s = .next (t.advance k) ∧
      c.dir = dir ∧ c.rows = wf vc 20 8 + 1 ∧ c.len = wf vc 0 19 ∧ c.mstr = wf vc 32 32 ∧ c.base = pCur p ∧ c.tag = wf vc 28 4 ∧ c.numReg = o.d ∧ c.mc = o.mc ∧
      c.src = (if dir = .ll then some (sideOf k va) else if dir = .lm then some (sideOf k vb) else none) ∧
      c.dst = (if dir = .ml ∨ dir = .ll then some (sideOf k vb) else none) ∧
      c.reg = (if dir = .mr then some (bitAt vb 8, bitAt vb 7, wf vb 0 7) else none) ∧
      c.pages = pages ∧ c.owner = s.ownerOf k ∧ c.slot = k ∧ c.started = false) ∧
  ((∀ (s : State) cl c, let r := s.acceptCmd cl c
    r.1 = BitVec.ofNat 32 (s.cluster cl).nextSeq ∧ (r.2.cluster cl).nextSeq = (s.cluster cl).nextSeq + 1 ∧
    (r.2.cluster cl).cmds.map (·.seq) = (s.cluster cl).cmds.map (·.seq) ++ [(s.cluster cl).nextSeq] ∧ r.2.mem = s.mem ∧ r.2.ls = s.ls) ∧
  (∀ (x : Cluster) m, m < x.nextSeq → (∀ d ∈ x.cmds, m < d.seq) → ∃ n, m ≤ n ∧ x.settle.seq0 = BitVec.ofNat 32 n) ∧
  (∀ (x : Cluster), ∀ d ∈ x.cmds, 0 < d.seq → ∃ n, n < d.seq ∧ x.settle.seq0 = BitVec.ofNat 32 n))

/-- R294 to R298: `fw.take` and `fw.res` of the strand whose turn it is give the descriptor of the next slot; `fw.give` and `fw.pub` return a slot taken or
reserved; `fw.res.def` defines, redefines or frees a furrow of the block.
R299 to R302: counters and terms of the trellis are set by the block that owns them or when free, and cleared by their owner when nothing waits. -/
def Obligations.FurrowsAndTrellis : Prop :=
  ((∀ d f (src : Bool) i, (i = .fwTake d f ∧ src = true ∨ i = .fwRes d f ∧ src = false) → Completes i 0 [d] [] (fun k s t => ∃ y,
    s.furrow? (clOfSlot k) f = some y ∧ y.owner = s.ownerOf k ∧ (s.headWaiter (clOfSlot k) (if src then y.takq else y.resq)).getD (.strand k (s.slot k).gen) = .strand k (s.slot k).gen ∧
    (if src then y.filled else y.free) ≠ 0 ∧ let r := s.slotAt (clOfSlot k) src f (.strand k (s.slot k).gen)
    (r.2.acqL1 (coreOf k)).Writes k d (natW (y.core % 16 * 2 ^ 18 + y.offset r.1)) t)) ∧
  (∀ d f (src : Bool) i, (i = .fwTake d f ∧ src = true ∨ i = .fwRes d f ∧ src = false) → Ends i 0 [d] [] (fun k s t => ∃ y,
    s.furrow? (clOfSlot k) f = some y ∧ y.owner = s.ownerOf k ∧ (if src then y.filled else y.free) = 0 ∧
    t = (s.queueAt (clOfSlot k) src f (.strand k (s.slot k).gen)).doPark k (if src then .furrowFilled f else .furrowFree f) false)) ∧
  (∀ f a, Completes (.fwGive f a) 0 [] [] (fun k s t => ∃ v s1 y i, s.Reads k 1 [a] [v] s1 ∧ descBad v false = false ∧ s1.furrow? (clOfSlot k) f = some y ∧ y.owner = s1.ownerOf k ∧
    y.named v y.giv y.tak y.returned = some i ∧ t = (s1.wbAllL1 (coreOf k)).giveBack (clOfSlot k) f i)) ∧
  (∀ f a, Completes (.fwPub f a) 0 [] [] (fun k s t => ∃ v s1 y i, s.Reads k 1 [a] [v] s1 ∧ descBad v false = false ∧ s1.furrow? (clOfSlot k) f = some y ∧ y.owner = s1.ownerOf k ∧
    y.named v y.pub y.res y.done = some i ∧ t = (s1.wbAllL1 (coreOf k)).publish (clOfSlot k) f i)) ∧
  (∀ f a, Completes (.fwResDef f a) 0 [] [] (fun k s t => ∃ v s1, s.Reads k 1 [a] [v] s1 ∧
    let cl := clOfSlot k
    let mine : Prop := ∃ y, s1.furrow? cl f = some y ∧ y.owner = s1.ownerOf k ∧ s1.furrowIdle cl f y = true
    ((v = 0 ∧ mine ∧ t = s1.modCluster cl (fun x => { x with furrows := mdel x.furrows f })) ∨
     (v ≠ 0 ∧ wf v 42 22 = 0 ∧ wf v 36 6 ≠ 0 ∧ wf v 24 12 ≠ 0 ∧ wf v 22 2 = 0 ∧ wf v 0 6 = 0 ∧ (mine ∨ s1.furrow? cl f = none) ∧
      s1.inBlock k (wf v 18 4) = true ∧ wf v 0 18 + (wf v 36 6 + 1) * 64 * wf v 24 12 ≤ 262144 ∧
      let y : Furrow := ⟨s1.ownerOf k, cl * 16 + wf v 18 4, wf v 0 18, wf v 24 12, wf v 36 6, 0, 0, 0, 0, [], [], [], []⟩
      t = s1.modCluster cl (fun x => { x with furrows := mput x.furrows f y })))))) ∧
  ((∀ n a, Completes (.trlSetCounter n a) 0 [] [] (fun k s t => ∃ v s1, s.Reads k 1 [a] [v] s1 ∧ wf v 32 32 = 0 ∧ wf v 10 6 = 0 ∧ wf v 4 4 = 0 ∧
    ¬ (wf v 8 2 = 0 ∧ wf v 0 4 = 0) ∧ (∀ c, s1.counter? (clOfSlot k) n = some c → c.owner = s1.ownerOf k) ∧
    let y : Counter := ⟨s1.ownerOf k, wf v 8 2, wf v 0 4, BitVec.ofNat 16 (wf v 16 16)⟩
    t = s1.modCluster (clOfSlot k) (fun x => Cluster.latch { x with counters := mput x.counters n y }))) ∧
  (∀ n a b, Completes (.trlSetTerm n a b) 0 [] [] (fun k s t => ∃ va s1 vb s2, s.Reads k 1 [a] [va] s1 ∧ s1.Reads k 1 [b] [vb] s2 ∧
    litBad (wf va 0 32) = false ∧ litBad (wf va 32 32) = false ∧ litBad (wf vb 0 32) = false ∧ litBad (wf vb 32 32) = false ∧
    (∀ c, s2.term? (clOfSlot k) n = some c → c.owner = s2.ownerOf k) ∧
    let y : Term := ⟨s2.ownerOf k, litOf (wf va 0 32), litOf (wf va 32 32), litOf (wf vb 0 32), litOf (wf vb 32 32)⟩
    (∀ l ∈ [y.l0, y.l1, y.l2, y.l3].filterMap id, s2.ownsCounter (clOfSlot k) l.cnt (s2.ownerOf k) = true) ∧
    t = s2.modCluster (clOfSlot k) (fun x => Cluster.latch { x with terms := mput x.terms n y }))) ∧
  (∀ n, Completes (.trlClrCounter n) 0 [] [] (fun k s t => s.ownsCounter (clOfSlot k) n (s.ownerOf k) = true ∧
    (∀ e ∈ (s.cluster (clOfSlot k)).terms, s.ownerLive (clOfSlot k) e.2.owner = true → ∀ l ∈ [e.2.l0, e.2.l1, e.2.l2, e.2.l3].filterMap id, l.cnt ≠ n) ∧
    t = s.modCluster (clOfSlot k) (fun x => { x with counters := mdel x.counters n }))) ∧
  (∀ n, Completes (.trlClrTerm n) 0 [] [] (fun k s t => s.ownsTerm (clOfSlot k) n (s.ownerOf k) = true ∧
    (∀ c ∈ (s.cluster (clOfSlot k)).cmds, c.term = some n → c.startable = true) ∧ t = s.modCluster (clOfSlot k) (fun x => { x with terms := mdel x.terms n }))))

/-! ### The matrix stream -/

/-- R303, R312, R318: `xlda` and `xldb` on a valid slot, chunk and footprint load the planes' rows and the exponents into their half; words with an undetected error are found by the read (R435). -/
def Obligations.OperandLoads : Prop := ∀ (isB : Bool) (o : XLoad) i, (i = .xlda o ∧ isB = false ∨ i = .xldb o ∧ isB = true) → Streams i (fun cl g s t =>
  let x := s.cluster cl
  let f := g.fmtAt o.slot
  let p := wf f 4 5
  let kk := if isB then x.kb else x.ka
  let ch := chunkIn o x
  let row := 16 * kk
  let scale := wf f 11 2 == 1
  let core := 16 * cl + o.core
  let exps := 16 * o.off16 + p * (128 * row) + ch / 2 ^ wf f 9 2 * 128
  let place (b r : Nat) : Nat := 16 * o.off16 + b * (128 * row) + r * row + 16 * ch
  let fp := (List.range p).flatMap (fun b => (List.range 128).map (fun r => (core + 1, place b r, 16))) ++ (if scale then [(core + 1, exps, 128)] else [])
  wf f 0 4 = b2n isB ∧ p ≠ 0 ∧ (8 < p → o.half = false) ∧ ch < kk ∧ blockCore g cl o.core = true ∧ place (p - 1) 127 + 16 ≤ 262144 ∧ (scale = true → exps + 128 ≤ 262144) ∧
  ∃ s1, s.HazClear cl fp [] s1 ∧
    let h : Half := ⟨o.slot, (List.range p).map (fun b => (List.range 128).map (fun r => s1.lsRead core (place b r) 16)),
      (List.range 128).map (fun r => if scale then s1.lsByte core (exps + r) else 0), fp.any (fun e => (wordsOf e.2.1 e.2.2).any (fun w => s1.wordPois core w))⟩
    let put (y : Cluster) : SMap Half := mput y.halves (halfKey isB o.half) h
    let u := if h.pois then (s1.findErr (16 * core) (fp.flatMap (fun e => (wordsOf e.2.1 e.2.2).map (.lsw core)))).2 else s1
    ((8 < p ∧ t = u.modCluster cl (fun y => { y with halves := mput (put y) (halfKey isB true) { h with slot := 8, planes := [] } })) ∨
     (p ≤ 8 ∧ o.half = false ∧ t = u.modCluster cl (fun y => { y with halves := put y })) ∨
     (p ≤ 8 ∧ o.half = true ∧ (put (u.cluster cl)).find? (fun e => e.1 == halfKey isB false && decide (8 < e.2.planes.length)) = none ∧
      t = u.modCluster cl (fun y => { y with halves := put y })) ∨
     (p ≤ 8 ∧ o.half = true ∧ ∃ e, (put (u.cluster cl)).find? (fun e => e.1 == halfKey isB false && decide (8 < e.2.planes.length)) = some e ∧
      t = u.modCluster cl (fun y => { y with halves := mput (put y) (halfKey isB false) { e.2 with slot := 8, planes := [] } }))))

/-- R104, R105, R313, R314: `xmul` adds the dot product of every predicated cell into its three residues; `xfold` adds each cell's signed value, scaled by
the two exponents and rounded once, into the fold value and clears the residues.
R99, R102: the product of a row and a column is the sum over the 128 elements of a chunk of the products of their two's complement values.
R103: the signed value of a residue triple is exact over its range.
R105, R106, R313: an operation on a tile changes the cells of that tile, each from its own old value, and no other cell, half, loop or barrier. -/
def Obligations.ProductsAndFolds : Prop :=
  ((∀ o : XMul, Streams (.xmul o) (fun cl g s t => ∃ a b, (s.cluster cl).half? (halfKey false o.ahalf) = some a ∧ (s.cluster cl).half? (halfKey true o.bhalf) = some b ∧
    a.slot = o.aslot ∧ b.slot = o.bslot ∧ wf (g.fmtAt o.aslot) 0 4 = 0 ∧ wf (g.fmtAt o.bslot) 0 4 = 1 ∧ wf (g.fmtAt o.aslot) 9 2 = wf (g.fmtAt o.bslot) 9 2 ∧
    pairBad (g.fmtAt o.aslot) (g.fmtAt o.bslot) = false ∧
    t = s.setCluster cl ((s.cluster cl).mapTile o.tile (fun r c v =>
      let w := if (s.cluster cl).rowp.getLsbD r && (s.cluster cl).colp.getLsbD c then
        { v with r47 := addMod v.r47 (dot a b r c) 2047, r48 := addMod v.r48 (dot a b r c) 2048, r49 := addMod v.r49 (dot a b r c) 2049 } else v
      if a.pois || b.pois then { w with pois := true } else w)))) ∧
  (∀ o : XFold, Streams (.xfold o) (fun cl g s t => ∃ a b, (s.cluster cl).half? (halfKey false o.ahalf) = some a ∧ (s.cluster cl).half? (halfKey true o.bhalf) = some b ∧
    wf (g.fmtAt o.slot) 0 4 = 2 ∧ let n := mget 0 (s.cluster cl).folds o.tile
    let y := (s.cluster cl).mapTile o.tile (fun r c v =>
      { v with fold := BitVec.ofNat 32 (foldAdd v.fold.toNat (crtSigned v.r47 v.r48 v.r49) (toSigned 8 (nth 0 a.exps r).toNat + toSigned 8 (nth 0 b.exps c).toNat)
        (if bitAt (g.fmtAt o.slot) 17 then .rsto else .rne) (cellRand g cl o.tile r c 0 n)), r47 := 0, r48 := 0, r49 := 0 })
    t = s.setCluster cl { y with folds := mset 0 y.folds o.tile ((n + 1) % 2 ^ 32) }))) ∧
  (∀ (a b : Half) r c, dot a b r c = ((List.range 128).map (fun e => a.elem r e * b.elem c e)).sum) ∧
  (∀ x : Int, -4294966272 ≤ x → x ≤ 4294966271 → crtSigned (x % 2047).toNat (x % 2048).toNat (x % 2049).toNat = x) ∧
  (∀ (x : Cluster) t f, let y := x.mapTile t f
  (∀ r c, r < 128 → c < 128 → mget Cell.reset y.acc (t * 16384 + r * 128 + c) = f r c (mget Cell.reset x.acc (t * 16384 + r * 128 + c))) ∧
  (∀ i, i / 16384 ≠ t → mget Cell.reset y.acc i = mget Cell.reset x.acc i) ∧ y = { x with acc := y.acc })

/-- R109, R315: `xcvt` of a clean tile stores, within its footprint, each predicated cell's fold value times its scales, rounded once to the output type;
no byte outside the footprint changes, and no byte of memory unless the read of the scales finds an error and logs it (R435). -/
def Obligations.OutputConversion : Prop := ∀ (o : XCvt) s cl, s.cur = .seq cl →
  let g := s.streamGang cl
  let x := s.cluster cl
  let f := g.fmtAt o.slot
  let n := if wf f 13 2 = 0 then 4 else 2
  let base := 16 * o.off16
  let score := 16 * cl + o.score
  wf f 0 4 = 2 → blockCore g cl o.core = true → base + 16384 * n ≤ 262144 →
  (bitAt f 11 = true ∨ bitAt f 12 = true → blockCore g cl o.score = true ∧ 1024 * o.soff + (if bitAt f 12 then 1024 else 512) ≤ 262144) →
  (∀ i, i < 16384 → (mget Cell.reset x.acc (o.tile * 16384 + i)).pois = false) → x.matHaz = none → x.room = true →
  x.cmds.any (conflict [] [(16 * cl + o.core + 1, base, 16384 * n)]) = false →
  ∃ t, exec (.xcvt o) s = .next t ∧ (t.cluster cl).seqPc = x.seqPc + 2 ∧ (t.cluster cl).acc = x.acc ∧ (s.undet = [] → t.mem = s.mem) ∧
    (∀ c a, a < 262144 → (c ≠ 16 * cl + o.core ∨ a < base ∨ base + 16384 * n ≤ a ∨
      (x.rowp.getLsbD ((a - base) / (128 * n)) && x.colp.getLsbD ((a - base) / n % 128)) = false) → t.lsByte c a = s.lsByte c a) ∧
    (∀ r c, r < 128 → c < 128 → x.rowp.getLsbD r = true → x.colp.getLsbD c = true →
      t.lsRead (16 * cl + o.core) (base + (r * 128 + c) * n) n =
      cvtOut (outFmt f) (if bitAt f 15 then .rsto else .rne) (cellRand g cl o.tile r c 1 (mget 0 x.folds o.tile)) (bitAt f 16)
        ((mget Cell.reset x.acc (o.tile * 16384 + r * 128 + c)).fold.toNat :: (if bitAt f 11 then [s.lsRead score (1024 * o.soff + 4 * r) 4] else []) ++
          (if bitAt f 12 then [s.lsRead score (1024 * o.soff + 512 + 4 * c) 4] else [])))

/-- R304, R307, R308, R310, R316, R317: `xzero`, the edge predicates, the formats, the barrier waits and posts, loops, and the end of the stream;
a fifth loop and an `xloop` without one stop the sequencer with 0x01. -/
def Obligations.StreamControl : Prop :=
  (∀ n, Streams (.xzero n) (fun cl _ s t => t = s.modCluster cl (fun x => { x with acc := x.acc.filter (fun e => e.1 / 16384 != n), folds := mdel x.folds n }))) ∧
  (∀ a n, Streams (.xrow a n) (fun cl _ s t => t = s.modCluster cl (fun x => { x with rowp := BitVec.ofNat 128 ((2 ^ n - 1) * 2 ^ a) }))) ∧
  (∀ a n, Streams (.xcol a n) (fun cl _ s t => t = s.modCluster cl (fun x => { x with colp := BitVec.ofNat 128 ((2 ^ n - 1) * 2 ^ a) }))) ∧
  (∀ a b, Streams (.xfmt a b) (fun cl _ s t => t = s.modCluster cl (fun x => { x with ka := a, kb := b }))) ∧
  (∀ n, Streams (.xwait n) (fun cl _ s t => (∀ m ph, (s.cluster cl).seqPhase ≠ .waiting m ph) ∧ (s.nbar cl n).seq = false ∧
    (s.nbar cl n).phase < ((s.seqArrive cl n).nbar cl n).phase ∧ t = (s.seqArrive cl n).setSeqPhase cl .running)) ∧
  (∀ n, Streams (.xwait n) (fun cl _ s t => ∃ m ph, (s.cluster cl).seqPhase = .waiting m ph ∧ ph < (s.nbar cl n).phase ∧ t = s.setSeqPhase cl .running)) ∧
  (∀ n, StreamsTo (.xwait n) (fun cl _ s t => (∀ m ph, (s.cluster cl).seqPhase ≠ .waiting m ph) ∧ (s.nbar cl n).seq = false ∧
    ((s.seqArrive cl n).nbar cl n).phase ≤ (s.nbar cl n).phase ∧ t = (s.seqArrive cl n).setSeqPhase cl (.waiting n (s.nbar cl n).phase))) ∧
  (∀ n, Streams (.xpost n) (fun cl g s t => (s.nbar cl n).seq = false ∧
    t = (((s.seqArrive cl n).setSeqPhase cl .running).modCluster cl (fun x => { x with seq1 := x.seq1 + 1 })).pulse cl 1 n 1 (.gang g.id))) ∧
  (∀ n, Streams (.xloopBegin n) (fun cl _ s t => (s.cluster cl).loops.length < 4 ∧ t = s.modCluster cl (fun x => { x with loops := (n, 0) :: x.loops }))) ∧
  (∀ off, StreamsTo (.xloop off) (fun cl _ s t => ∃ n j rest, (s.cluster cl).loops = (n, j) :: rest ∧ n ≤ j + 1 ∧
    t = s.setCluster cl { s.cluster cl with loops := rest, seqPc := (s.cluster cl).seqPc + 2 })) ∧
  (∀ off, StreamsTo (.xloop off) (fun cl g s t => ∃ n j rest w s1, (s.cluster cl).loops = (n, j) :: rest ∧ j + 1 < n ∧
    ((s.cluster cl).seqPc + off.toInt) % 2 = 0 ∧ s.seqWord cl g ((s.cluster cl).seqPc + off.toInt) = .ok (w, s1) ∧ isHdr w = true ∧ bitAt w 51 = true ∧
    t = s1.modCluster cl (fun y => { y with loops := (n, j + 1) :: rest, seqPc := ((s.cluster cl).seqPc + off.toInt).toNat, seqClause := none, seqHdr := false }))) ∧
  Streams .xend (fun cl _ s t => t = s.modCluster cl (fun x => { x with loops := [], seqPhase := .idle, seqClause := none })) ∧
  (∀ n, StreamsTo (.xloopBegin n) (fun cl _ s t => 4 ≤ (s.cluster cl).loops.length ∧ t = s.seqStop cl 0x01 0)) ∧
  (∀ off, StreamsTo (.xloop off) (fun cl _ s t => (s.cluster cl).loops = [] ∧ t = s.seqStop cl 0x01 0)) ∧
  (∀ (x : Cluster) n i, i / 16384 = n → mget Cell.reset (x.acc.filter (fun e => e.1 / 16384 != n)) i = Cell.reset)

/-- R76, R190, R392: an instruction of level S in a strand at U, of every operand, traps "privilege violation" (0x02) with nothing else done.
R68, R390: a lane instruction that names a vector register at or above the strand's budget traps 0x08, whatever its lanes.
R188: an instruction of one stream does not run in the other: a matrix instruction traps 0x01 in a strand, and one of a strand stops the sequencer. -/
def Obligations.InstructionChecks : Prop :=
  (∀ i s k, s.Turn k → (s.slot k).priv = 0 →
  (match i with
    | .slotStart _ | .slotStartTask _ | .slotReap _ | .slotSpill _ | .slotLoad _ | .rqPush _ | .rqPop _ | .wfi | .tlbInvPage _ _ | .tlbInvSpace _ _ | .tlbInvAll _ _
    | .l1invAll | .cdcfAll => True
    | _ => False) → exec i s = .next (s.takeTrap k 0x02 (s.slot k).pc (wordOf i) ((s.slot k).m0 &&& (s.slot k).predMask allLanes) 0)) ∧
  (∀ i f s k, laneForm i = some f → s.Turn k → (∃ r ∈ f.vecs, (s.slot k).budget ≤ r) →
  ∃ lanes, exec i s = .next (s.takeTrap k 0x08 (s.slot k).pc (wordOf i) lanes 0)) ∧
  ((∀ i s k, s.Turn k → (match i with
    | .xlda _ | .xldb _ | .xmul _ | .xfold _ | .xcvt _ | .xzero _ | .xrow _ _ | .xcol _ _ | .xfmt _ _ | .xwait _ | .xpost _ | .xloopBegin _ | .xloop _ | .xend => True
    | _ => False) → exec i s = .next (s.takeTrap k 0x01 (s.slot k).pc (wordOf i) (s.slot k).m0 0)) ∧
  (∀ i s cl, s.cur = .seq cl → ((scalarForm i).isSome = true ∨ (laneForm i).isSome = true ∨ (scalarAtom i).isSome = true ∨ (copyForm i).isSome = true) →
    exec i s = .next (s.seqStop cl 0x01 0)))

/-! ### Events of strands, messages and the kernel -/

/-- R32, R79, R170, R184 to R187, R280, R288, R394, R408 to R412: clause fetch in a strand and in the matrix stream, header waits, resumption of a park in a
later cycle, wait limits, the timer's level and interrupt entry. -/
def Obligations.StrandEvents : Prop :=
  (∀ k, Happens (.clauseFetch (.slot k)) (fun s t => ∃ w s1 ws s2, let x := s.slot k
    x.phase = .running ∧ x.resuming = false ∧ (x.hdrWait = false ∨ x.clause = none) ∧ s.codeWord k (x.preg 0) x.pc = .ok (w, s1) ∧ isHdr w = true ∧
    (checkAccess (x.preg 0) (4 * x.pc) (8 * (hdrCount w + 1)) 5).isSome = true ∧ hdrBad false w = false ∧
    s1.clauseWords k (x.preg 0) x.pc (hdrCount w) = .ok (ws, s2) ∧ (∀ c ∈ hdrWaits w, c.kind = 0) ∧
    t = s2.modSlot k (fun y => { y with clause := some ⟨x.pc, w, ws⟩, pc := x.pc + 2, hdrWait := false, park := none }))) ∧
  (∀ k, Happens (.clauseFetch (.slot k)) (fun s t => ∃ c w v, (s.slot k).phase = .running ∧ (s.slot k).resuming = false ∧ (s.slot k).hdrWait = true ∧
    (s.slot k).clause = some c ∧ s.hdrOwned (clOfSlot k) (s.ownerOf k) c.hdr = true ∧ hdrWaits c.hdr = [w, v] ∧ w.kind = 1 ∧
    (s.cluster (clOfSlot k)).ctrReached w.sel w.thr = false ∧ t = s.doPark k (.counter w.sel w.thr) true)) ∧
  (∀ k, Happens (.clauseFetch (.slot k)) (fun s t => ∃ c, (s.slot k).phase = .running ∧ (s.slot k).resuming = false ∧ (s.slot k).hdrWait = true ∧
    (s.slot k).clause = some c ∧ s.hdrOwned (clOfSlot k) (s.ownerOf k) c.hdr = true ∧
    (∀ w ∈ hdrWaits c.hdr, w.kind = 1 ∧ (s.cluster (clOfSlot k)).ctrReached w.sel w.thr = true) ∧
    t = (s.acqL1 (coreOf k)).modSlot k (fun x => { x with pc := c.off + 2, hdrWait := false, park := none }))) ∧
  (∀ cl, Happens (.clauseFetch (.seq cl)) (fun s t => ∃ g w s1 ws s2, let x := s.cluster cl
    x.seqPhase = .running ∧ x.seqHdr = false ∧ s.gang? x.seqGang = some g ∧ s.seqWord cl g x.seqPc = .ok (w, s1) ∧ isHdr w = true ∧
    (checkAccess g.p0 (4 * x.seqPc) (8 * (hdrCount w + 1)) 5).isSome = true ∧ hdrBad true w = false ∧ (∀ c ∈ hdrWaits w, c.kind = 0) ∧
    s1.seqWords cl g x.seqPc (hdrCount w) = .ok (ws, s2) ∧
    t = s2.modCluster cl (fun y => { y with seqClause := some ⟨x.seqPc, w, ws⟩, seqHdr := false, seqPc := x.seqPc + 2, seqPhase := .running }))) ∧
  (∀ k, Happens (.parkResume k) (fun s t => ∃ p, (s.slot k).phase = .parked ∧ (s.slot k).park = some p ∧ s.awaitMet k p.on = true ∧
    (∀ i a q w, p.on ≠ .remote i a q w) ∧ (∀ d n, p.on ≠ .accepted d n) ∧ (∀ i, p.on ≠ .wrack i) ∧
    t = s.modSlot k (fun x => { x with phase := .running, ready := s.cycle + 1 }))) ∧
  (∀ k, Happens (.parkResume k) (fun s t => ∃ p, (s.slot k).phase = .parked ∧ (s.slot k).park = some p ∧ s.awaitMet k p.on = true ∧
    ((∃ d n v, p.on = .accepted d n ∧ (s.modSlot k (fun x => { x with phase := .running, ready := s.cycle + 1 })).Writes k d (natW n) v ∧ t = v.advance k) ∨
     ∃ i, p.on = .wrack i ∧ t = (s.modSlot k (fun x => { x with phase := .running, park := none, ready := s.cycle + 1 })).advance k))) ∧
  (∀ k, Happens (.parkResume k) (fun s t => ∃ p i a q w r, (s.slot k).phase = .parked ∧ (s.slot k).park = some p ∧ p.on = .remote i a q w ∧
    (s.slot k).remote = some r ∧
    let u := s.modSlot k (fun x => { x with phase := .running, park := none, remote := none, ready := s.cycle + 1 })
    ((r.done = some true ∧ t = u.advance k) ∨ (r.done = some false ∧ t = u.takeTrap k 0x1B (s.slot k).pc (s.slot k).outdst (s.slot k).trapLanes 0)))) ∧
  (∀ k, Happens (.waitLimitExpiry k) (fun s t => ∃ p, (s.slot k).phase = .parked ∧ (s.slot k).park = some p ∧ p.limit ≠ 0 ∧ p.limit ≤ p.ticks ∧
    p.on.wkind ≠ 17 ∧ s.awaitMet k p.on = false ∧
    (((∀ i a q w, p.on ≠ .remote i a q w) ∧
      t = (s.unsend k p.on).takeTrap k (if p.on.wkind = 16 then 0x0D else 0x0B) (s.slot k).pc (s.expiryTval k p.on) (s.slot k).trapLanes 0) ∨
     ∃ i a q w, p.on = .remote i a q w ∧ t = { s with net := s.net.map (fun n => if n.id = i then { n with withdraw := true } else n) }))) ∧
  (∀ k s, exec (.timerPending k) s = .next s ∧ (bitAt (s.ipOf k) 0 = true ↔ (s.slot k).timecmp.toNat ≤ s.gtcAt k)) ∧
  (∀ k, Happens (.interruptEntry k) (fun s t => s.atBoundary k = true ∧ ∃ code, s.irqOf k = some code ∧ t = s.takeIrq k code)) ∧
  (∀ k, Happens (.interruptEntry k) (fun s t => (s.atBoundary k = false ∨ s.irqOf k = none) ∧ t = s))

/-- R51, R125, R256, R257, R280, R412: a remote write that arrives at a free location is performed and answered, at a full one it waits, and it completes
when the location has emptied and nothing arrived before it waits there; a withdrawn one is dropped; the sender records the answer, and a confirmed
withdrawal is the trap of its limit. -/
def Obligations.RemoteWriteEvents : Prop :=
  (∀ id i kd, (i = .rputDelivery id ∧ kd = .rput ∨ i = .sputfeDelivery id ∧ kd = .sputfe) → Happens i (fun s t => ∃ n, s.net? id = some n ∧ n.kind = kd ∧
    n.waiting = false ∧ (s.lands n t ∨ ((s.firstAt n = false ∨ s.occupied n) ∧ t = s.waitsIn n)))) ∧
  (∀ id, Happens (.remoteWriteRelease id) (fun s t => ∃ n, s.net? id = some n ∧ n.waiting = true ∧
    (s.lands n t ∨ ((s.firstAt n = false ∨ s.occupied n) ∧ t = s)))) ∧
  (∀ id, Happens (.withdrawalRequest id) (fun s t => ∃ n c, s.net? id = some n ∧ n.withdraw = true ∧ coreOfSrc n.src = some c ∧
    (∀ a ∈ s.answers, a.id ≠ id) ∧ n.id = id ∧
    t = { s with net := s.net.filter (fun m => m.id != id), answers := s.answers ++ [⟨id, 16 * c + n.src % 16, (s.slot (16 * c + n.src % 16)).gen, false, true⟩] })) ∧
  (∀ id, Happens (.acceptanceOrRefusal id) (fun s t => ∃ a k, s.answers.find? (fun b => b.id == id) = some a ∧
    s.placeOf a.slot (fun _ x => x.remote.any (fun r => r.id == a.id)) = .slot k ∧
    let u : State := { s with answers := s.answers.filter (fun b => b.id != a.id) }
    ((a.withdrawn = false ∧ ∃ r, (s.slot k).remote = some r ∧ r.id = a.id ∧ t = u.modSlot k (fun x => { x with remote := some { r with done := some a.ok } })) ∨
     (a.withdrawn = true ∧ (s.slot k).seqRep = none ∧ ∃ p, (s.slot k).park = some p ∧
      t = (u.modSlot k (fun y => { y with remote := none })).takeTrap k 0x0B (s.slot k).pc (waitDesc p.on p.on.peer) (s.slot k).trapLanes 0))))

/-- R258, R269 to R271, R335: active messages enter the inbox of the core their gang holds, and slot 15 runs their handlers in order of arrival; `out`
messages are delivered in order from a source; decrements reach their counter or task. -/
def Obligations.MessageEvents : Prop :=
  (∀ id, Happens (.amsgDelivery id) (fun s t => ∃ n, s.net? id = some n ∧ n.kind = .amsg ∧
    (((s.core n.core).gang ≠ some n.gen ∧ t = (s.deadLetter (dieOfCore n.core) ((s.partOf (clOfCore n.core)).getD 0)).performed n) ∨
     ((s.core n.core).gang = some n.gen ∧ 64 ≤ (s.core n.core).inbox.length + (s.core n.core).amq.length ∧ t = s) ∨
     ((s.core n.core).gang = some n.gen ∧ (s.core n.core).inbox.length + (s.core n.core).amq.length < 64 ∧
      t = ((s.modCore n.core (fun c => { c with amq := c.amq ++ [⟨n.at_, n.val, n.val2, n.rank⟩] })).acqFrom n.src n.core).performed n)))) ∧
  (∀ c, Happens (.activeMessageHandlerStart c) (fun s t => ∃ m rest g, (s.core c).amq = m :: rest ∧ (s.core c).gang.bind s.gang? = some g ∧
    g.msg = true ∧ (s.slot (16 * c + 15)).phase = .free ∧ s.poolFits c (s.handlerStart g c m).entries = true ∧
    t = ({ s with free := s.free + 1 }.modCore c (fun x => { x with amq := rest })).startStrand (16 * c + 15) (s.handlerStart g c m))) ∧
  (∀ (s : State) g c m, let b := s.handlerStart g c m
    b.job = .handler g.id ∧ b.pc = m.entry ∧ b.args = [m.b, m.c, natW m.rank] ∧ b.p0 = g.p0 ∧ b.p1 = g.p1 ∧ b.p14 = g.p14 ∧ b.budget = 8 * wf (lrw g.lrec 0) 30 5) ∧
  (∀ id, Happens (.messageDelivery id) (fun s t => ∃ n, s.net? id = some n ∧ n.kind = .out ∧ s.firstOut n = true ∧ n.id = id ∧
    ((∃ u, s.deliver n = .accept u ∧ t = u.performed n) ∨
     (∃ u, s.deliver n = .refuse u ∧ t = if n.ack then (u.dropNet id).answer n false else u.dropNet id) ∨
     (∃ c i, s.deliver n = .forward c i ∧ t = { s with net := s.net.map (fun m => if m.id = id then { m with core := c, at_ := i } else m) }) ∨
     (s.deliver n = .wait ∧ t = s)))) ∧
  (∀ (s : State) (n : Net) j, n.val2 = 1 → s.strandAt (16 * n.core + n.slot) n.gen false = .slot j → (s.core n.core).inbox.length + (s.core n.core).amq.length < 64 →
    ∃ t, s.deliver n = .accept t ∧ (t.core n.core).inbox = (s.core n.core).inbox ++ [⟨n.src, n.slot, none, n.gen, n.val, false⟩]) ∧
  (∀ id, Happens (.counterDecrement id) (fun s t => ∃ n, s.net? id = some n ∧ n.kind = .cntdec ∧ t = ((s.countDec n.core n.at_ n.val.toNat).acqFrom n.src n.core).dropNet id)) ∧
  (∀ id, Happens (.taskDecrement id) (fun s t => ∃ n, s.net? id = some n ∧ n.kind = .taskdec ∧
    t = ((s.taskDec n.core n.at_ (BitVec.ofNat 32 n.gen) n.val.toNat).acqFrom n.src n.core).dropNet id))

/-- R45, R332 to R337, R364, R368, R444, R445, R476, R477: what the kernel does: pre-emption, freeing and lending of slots, load balancing, page faults
and their answers, the watchdog, and a core's return to service. -/
def Obligations.KernelEvents : Prop :=
  (∀ k, Happens (.spill k) (fun s t => ∃ c i g, (s.slot k).kern = some .preempt ∧ (s.slot k).job = .task c i g ∧
    t = ((((s.modSlot k (fun x => { x with kern := some .resume })).setRecState c i 4).spillTo k (kernelArea c i)).modSlot k (fun y =>
      match (s.slot k).held with
      | none => { Slot.reset with phase := .free, gen := y.gen, savea := y.savea }
      | some h => { Slot.reset with phase := .spilled, gen := y.gen, savea := h.1, held := some h })).rqEnter c i)) ∧
  (∀ k, Happens (.spill k) (fun s t => (s.slot k).kern ≠ some .preempt ∧ t = s)) ∧
  (∀ k, Happens (.slotFreed k) (fun s t => (s.slot k).phase = .halted ∧
    t = s.modSlot k (fun x => match x.held with
      | none => { x with phase := .free, pairOf := none, kern := none }
      | some h => { x with phase := .spilled, pairOf := none, kern := none, savea := h.1 }))) ∧
  (∀ k, Happens (.slotFreed k) (fun s t => (s.slot k).phase ≠ .halted ∧ t = s)) ∧
  (∀ k, Happens (.longWaitSpill k) (fun s t => s.longWait k = true ∧ (s.core (coreOf k)).native = true ∧ s.readyTask (coreOf k) = true ∧
    s.anyFree (coreOf k) = false ∧ let a := kernelArea (coreOf k) (512 + slotNo k)
    t = (s.spillTo k a).modSlot k (fun y => { Slot.reset with phase := .spilled, gen := y.gen, savea := (s.slot k).savea, held := some (a, (s.slot k).gen) }))) ∧
  Happens .loadBalanceExchange (fun s t => s.exchangeDue = false ∧ t = s) ∧
  Happens .loadBalanceExchange (fun s t => s.exchangeDue = true ∧
    let cs := (mkeys s.cores).filter (fun c => (s.core c).native)
    let figs := cs.map (fun c => (c, s.loadFigure c))
    t = cs.foldl (fun u c => u.modCore c (fun x => { x with lbTick := s.gtcCore c / 16384 })) (cs.foldl (fun u c => u.balance figs c) s)) ∧
  (∀ d p, Happens (.faultRingRetry d p) (fun s t => ∃ r, mget [] (s.die d).faultq p = [r] ∧ s.ringRoom d p = true ∧ s.paused d p = false ∧
    let u := s.modDie d (fun z => { z with faultq := mput z.faultq p [] })
    ((s.faultLive r = true ∧ t = u.postFault d p r) ∨ (s.faultLive r = false ∧ t = u)))) ∧
  (∀ d p, Happens (.faultRingRetry d p) (fun s t => (s.ringRoom d p = false ∨ mget [] (s.die d).faultq p = []) ∧ t = s)) ∧
  (∀ d p v, Happens (.frreply d p v) (fun s t => ∃ r, (s.outstanding d p).find? (fun r => r.idx == wf v 0 16) = some r ∧ wf v 16 2 ≠ 3 ∧
    let u := s.modDie d (fun z => { z with faults := mput z.faults p ((mget [] z.faults p).filter (fun q => q.idx != r.idx)) })
    let f (z : Slot) : Slot := { z with kern := some (if wf v 16 2 = 0 then .resume else if wf v 16 2 = 1 then .deny else .abort) }
    ((∃ j, u.faultPlace r.slot (.fault r.idx) = .slot j ∧ t = u.modSlot j f) ∨ (∃ j a, u.faultPlace r.slot (.fault r.idx) = .save j a ∧ t = u.modSave j a f) ∨
     (u.faultPlace r.slot (.fault r.idx) = .gone ∧ t = u.modAway r.slot (.fault r.idx) f)))) ∧
  (∀ d p v, Happens (.frreply d p v) (fun s t => ((s.outstanding d p).find? (fun r => r.idx == wf v 0 16) = none ∨ wf v 16 2 = 3) ∧ t = s)) ∧
  (∀ c, Happens (.watchdogExpiry c) (fun s t => let x := s.core c
    x.started = true ∧ x.deleg.isSome = true ∧ x.quarantined = false ∧ x.wdog + 2 ^ 22 ≤ s.gtcCore c ∧ t = s.failCore c 2)) ∧
  (∀ c, Happens (.watchdogExpiry c) (fun s t => ((s.core c).deleg = none ∨ s.gtcCore c < (s.core c).wdog + 2 ^ 22) ∧ t = s)) ∧
  (∀ c, Happens (.coreReturnToService c) (fun s t => (s.core c).quarantined = true ∧
    ((s.core c).fails.filter (fun u => decide (s.gtcCore c < u + 10 ^ 9))).length < 3 ∧
    t = (kernLog (((List.range 8).foldl (fun u j => u.zeroSeg c j) s).modCore c (fun y => { y with quarantined := false, k := [], kold := [], kpois := [] })) c 0x73 2 0 0).startCore c)) ∧
  (∀ c, Happens (.coreReturnToService c) (fun s t => ((s.core c).quarantined = false ∨ 3 ≤ ((s.core c).fails.filter (fun u => decide (s.gtcCore c < u + 10 ^ 9))).length) ∧ t = s))

/-! ### Events of queues, launches and engines -/

/-- R319 to R324, R342, R473, R474: notify kicks, registration, removal and mapping of queues; the packets WAIT, SIGNAL, MARK and EDGE, a defective packet
that stops its queue, and the signal and doorbell windows. -/
def Obligations.QueueEvents : Prop :=
  (∀ p q v, Happens (.notifyKick p q v) (fun s t => ∃ d ds, s.diesOf p = d :: ds ∧ bitAt (s.cfg d p 0x020) 0 = true ∧
    let pa := wf (s.cfg d p 0x020) 18 34 * 262144 + 64 * (q % 4096)
    s.reach (s.homeOf pa) pa = true ∧
    t = (((s.grabBlk (s.homeOf pa) (blkOf pa)).ckptHold pa).touchLine pa).notifyWrite d p (q % 4096) pa 8 v.toNat 255)) ∧
  (∀ p q ring ctl, Happens (.queueRegister p q ring ctl) (fun s t => ∃ d ds, s.diesOf p = d :: ds ∧
    t = ((s.setQWord d p q 0 ring).setQWord d p q 1 (setBit ctl 0 false)).setQWord d p q 1 (setBit ctl 0 true))) ∧
  (∀ p q, Happens (.queueRemove p q) (fun s t => ∃ d ds, s.diesOf p = d :: ds ∧ bitAt (s.qWord d p q 1) 0 = true ∧
    (bitAt (s.qWord d p q 3) 1 = true ∨ s.kick d p q ≤ s.rdIdx d p q ∧ bitAt (s.qWord d p q 3) 0 = false) ∧
    t = s.setQWord d p q 1 (setBit (s.qWord d p q 1) 0 false))) ∧
  (∀ p q, Happens (.queueMap p q) (fun s t => ∃ d e out, s.queueDie p q = some d ∧ s.queue? d p q = some e ∧ s.slotFor d p = some out ∧ e.mapped = false ∧
    e.asked ≠ 0 ∧ s.mapFirst d e = true ∧
    let u := match out with
      | some x => s.modQueue d x.part x.q (fun y => { y with mapped := false })
      | none => s
    t = u.modQueue d p q (fun y => { y with mapped := true, asked := 0 }))) ∧
  (∀ p q, Happens (.queueMap p q) (fun s t => ∃ d, s.queueDie p q = some d ∧ s.slotFor d p = none ∧ t = s)) ∧
  (∀ p q i, (i = .wait p q ∨ i = .signal p q ∨ i = .mark p q ∨ i = .edge p q ∨ i = .gang p q) → Happens i (fun s t => ∃ d e r u, s.queueDie p q = some d ∧
    s.queue? d p q = some e ∧ s.headOf d p q = (.bad r, u) ∧ t = u.stopQueue d p q r)) ∧
  (∀ p q, Happens (.wait p q) (fun s t => ∃ d e ws u, s.HeadIs p q 2 d e ws u ∧ let idx := wf (lrw ws 1) 0 12
    ((u.signalBad p idx = true ∧ t = u.stopQueue d p q 6) ∨
     (u.signalBad p idx = false ∧ (e.met = true ∨ condHolds (wf (lrw ws 0) 8 2) (u.signal p idx) (lrw ws 2) = true) ∧ t = u.advanceQ d p q) ∨
     (u.signalBad p idx = false ∧ e.met = false ∧ condHolds (wf (lrw ws 0) 8 2) (u.signal p idx) (lrw ws 2) = false ∧
      t = u.parkQ d p q (fun y => { y with wait := some (idx, wf (lrw ws 0) 8 2, lrw ws 2) }))))) ∧
  (∀ p q, Happens (.signal p q) (fun s t => ∃ d e ws u, s.HeadIs p q 3 d e ws u ∧ let idx := wf (lrw ws 1) 0 12
    u.signalBad p idx = false ∧ (bitAt (lrw ws 0) 8 = false ∨ e.gangs = []) ∧
    let v := u.setSignal p idx (if bitAt (lrw ws 0) 9 then u.signal p idx + lrw ws 2 else lrw ws 2)
    t = (if bitAt (lrw ws 0) 10 then v.emit (.msix p (wf (lrw ws 0) 20 12)) else v).advanceQ d p q)) ∧
  (∀ p q i kd, (i = .signal p q ∧ kd = 3 ∨ i = .mark p q ∧ kd = 5) → Happens i (fun s t => ∃ d e ws, s.HeadIs p q kd d e ws t ∧
    (kd = 3 → t.signalBad p (wf (lrw ws 1) 0 12) = false) ∧ bitAt (lrw ws 0) 8 = true ∧ e.gangs ≠ [])) ∧
  (∀ p q, Happens (.mark p q) (fun s t => ∃ d e ws u a b x v, s.HeadIs p q 5 d e ws u ∧ (bitAt (lrw ws 0) 8 = false ∨ e.gangs = []) ∧
    u.walk d p (u.qAsid d p q) (lrw ws 1).toNat (accW 1) = .ok (a, b, x, v) ∧ t = (v.cwrite (some p) d x.pa 8 (v.gtcOf d)).advanceQ d p q)) ∧
  (∀ p q, Happens (.edge p q) (fun s t => ∃ d e ws u rs v, s.HeadIs p q 4 d e ws u ∧ e.edge = false ∧
    u.rangesPas d p (u.qAsid d p q) accValid (edgeRanges ws) = .ok (rs, v) ∧ ∃ gone : Bool, (gone = true ↔ ∀ g, e.producer = some g → ∀ x, v.gang? g = some x → x.retired = true) ∧
    t = v.parkQ d p q (fun y => { y with edge := true, flushing := gone, edgeR := edgeRanges ws }))) ∧
  (∀ p q, Happens (.edgeFlushComplete p q) (fun s t => ∃ d e rs u, s.queueDie p q = some d ∧ s.queue? d p q = some e ∧ e.flushing = true ∧
    e.producer.bind s.gang? = none ∧ s.rangesPas d p (s.qAsid d p q) accValid e.edgeR = .ok (rs, u) ∧
    t = ((u.advanceQ d p q).modQueue d p q (fun y => { y with ranges := y.ranges ++ e.edgeR })).askQueue d p q)) ∧
  (∀ p q, Happens (.edgeFlushComplete p q) (fun s t => ∃ d e g x rs u, s.queueDie p q = some d ∧ s.queue? d p q = some e ∧ e.flushing = true ∧
    e.producer = some g ∧ s.gang? g = some x ∧ s.rangesPas d p (s.qAsid d p q) accValid e.edgeR = .ok (rs, u) ∧
    let cs := x.clusters.flatMap (fun l => (List.range 16).map (fun i => 16 * l + i))
    t = (((cs.foldl (fun v c => (v.l1Of c rs).foldl (fun w y => w.flushSector c y) v) u).advanceQ d p q).modQueue d p q (fun y => { y with
      ranges := y.ranges ++ e.edgeR })).askQueue d p q)) ∧
  (∀ p idx v, Happens (.signalWindowSet p idx v) (fun s t => s.signalBad p (idx % 4096) = false ∧ t = s.setSignal p (idx % 4096) v)) ∧
  (∀ p idx v, Happens (.signalWindowAdd p idx v) (fun s t => s.signalBad p (idx % 4096) = false ∧
    t = s.setSignal p (idx % 4096) (s.signal p (idx % 4096) + v))) ∧
  (∀ p, Happens (.doorbell p) (fun s t => ∃ cl cls, (∀ d ∈ s.diesOf p, rstBusy (s.cfg d p 0x088) = false ∧ ∀ w ∈ (s.die d).swaps, w.part ≠ p) ∧
    s.clustersOf p = cl :: cls ∧ t = s.raiseIp (256 * cl) 2)) ∧
  (∀ p, Happens (.doorbell p) (fun s t => ∃ d w, s.diesOf p = [d] ∧ rstBusy (s.cfg d p 0x088) = false ∧ (s.die d).swaps.find? (fun v => v.part == p) = some w ∧
    let k := 256 * w.cls.headD 0
    t = s.modDie d (fun x => { x with swaps := x.swaps.map (fun v =>
      if v.part = p then { v with slots := mput v.slots k { mget Slot.reset v.slots k with ip := setBit (mget Slot.reset v.slots k).ip 2 true } } else v) }))) ∧
  (∀ p, Happens (.doorbell p) (fun s t => (∃ d ∈ s.diesOf p, rstBusy (s.cfg d p 0x088) = true) ∧ t = s))

/-- R53, R54, R176, R200, R306, R325 to R330, R423, R424, R475: a launch that the arbiter picks is admitted and placed, or rejected; a placed gang is released
with its local stores, its lease and its strands; a launch whose flits fail twice, or whose tray entry is bad, ends with event 0x71. -/
def Obligations.LaunchEvents : Prop :=
  (∀ p q, Happens (.gang p q) (fun s t => ∃ d e ws u c arb v t1, s.HeadIs p q 1 d e ws u ∧ u.arbPick d = some (c, arb) ∧ c.key = q ∧ c.part = p ∧
    u.vread d p (u.qAsid d p q) (accR 1) 0x100 (lrw ws 1).toNat 256 = .ok (v, t1) ∧ let l := wordsOfNat v 32
    ((∃ r off, recordBad l false = some (r, off) ∧ t = ((t1.rejectRec d p (srcOfFe d) (natW (lrw ws 1).toNat) (some l) r off).advanceQ d p q).modQueue d p q (fun y =>
        { y with ranges := [] })) ∨
     (recordBad l false = none ∧ ∃ gv t2 g t3, t1.vread d p (wf (lrw l 0) 36 12) (accR 1) 0x88 (wf (lrw l 17) 0 56) (8 * wf (lrw l 17) 56 8) = .ok (gv, t2) ∧
      t2.admitGang d p l (wordsOfNat gv (wf (lrw l 17) 56 8)) (fun y => y.modulePtrs d p l) = .ok (g, t3) ∧
      ((t3.placeFor d p g.lrec = none ∧ t = t3.modQueue d p q (fun y => { y with blocked := true })) ∨
       ((t3.placeFor d p g.lrec).isSome = true ∧
        t = t3.place d p { g with prio := c.prio, queue := some q, ranges := e.ranges } arb (fun y => y))))))) ∧
  (∀ c, Happens (.seedTrayDrain c) (fun s t => ∃ e rest x arb, (s.core c).tray = e :: rest ∧ s.arbPick (dieOfCore c) = some (x, arb) ∧ x.key = 4096 + c ∧ e.bad = false ∧
    ((∃ r off u, s.admitGang (dieOfCore c) x.part e.lrec e.gtab (fun y => y.trayPtrs (dieOfCore c) x.part e) = .error (r, off, u) ∧
      t = (u.rejectRec (dieOfCore c) x.part (srcOfSlot e.slot) (natW e.ls) (some e.lrec) r off).modCore c (fun y => { y with tray := y.tray.drop 1 })) ∨
     (∃ g u, s.admitGang (dieOfCore c) x.part e.lrec e.gtab (fun y => y.trayPtrs (dieOfCore c) x.part e) = .ok (g, u) ∧
      (u.placeFor (dieOfCore c) x.part g.lrec).isSome = true ∧
      t = u.place (dieOfCore c) x.part { g with prio := x.prio, tray := some c } arb (fun y => y))))) ∧
  (∀ c, Happens (.seedTrayDrain c) (fun s t => ∃ e rest x arb, (s.core c).tray = e :: rest ∧ s.arbPick (dieOfCore c) = some (x, arb) ∧ x.key = 4096 + c ∧ e.bad = true ∧
    t = (s.logPart (dieOfCore c) x.part { evEntry (srcOfFe (dieOfCore c)) 0x71 4 3 (natW (srcOfCore c)) 0 with gang := 65535 }).modCore c (fun y =>
      { y with tray := y.tray.drop 1 }))) ∧
  (∀ (s : State) d p g arb f pos, s.placeFor d p g.lrec = some pos → let t := s.place d p g arb f
    t.nextGang = gangAfter s.nextGang ∧ (∃ x, t.gangs = s.gangs ++ [x] ∧ x.id = s.nextGang ∧ x.row0 = pos / 24 ∧ x.col0 = pos % 24 ∧ x.lrec = g.lrec ∧
      x.released = g.released ∧ x.live = List.range g.nStrands) ∧ t.mem = s.mem ∧ t.slots = s.slots) ∧
  (∀ g, Happens (.gangRelease g) (fun s t => ∃ x c, s.gang? g = some x ∧ x.released = false ∧ x.retired = false ∧ s.startable x = true ∧ s.flitLost x = none ∧ x.queue = none ∧ x.tray = some c ∧
    let s1 := x.cores.foldl (fun u k => (u.seedCore x (s.codeImage x) [] k).modCore k Core.sent) s
    let s2 := if x.mlease then x.clusters.foldl (fun u k => u.beginLease x k) s1 else s1
    let s3 := s2.modGang g (fun y => { y with released := true, img := 0 })
    let s4 := x.cores.foldl (fun u k => if (u.core k).native then (List.range x.S).foldl (fun v j => (v.startRank (16 * k + 1 + j) j).2) u else u) s3
    t = s4.modCore c (fun y => { y with tray := y.tray.drop 1 }))) ∧
  (∀ g, Happens (.gangRelease g) (fun s t => ∃ x had c, s.gang? g = some x ∧ x.released = false ∧ x.retired = false ∧ s.startable x = true ∧ s.flitLost x = some (had, c) ∧
    let s1 := (had ++ [c]).foldl (fun u i => u.modCore i Core.sent) s
    let s2 := had.foldl (fun u i => u.powerDown i 0) ((s1.modGang x.id (fun y => { y with live := [], img := 0 })).retireGang x.id)
    t = (s2.transportFailed x.die x.part (match x.tray with
      | some i => srcOfCore i
      | none => srcOfFe x.die) (x.id % 65536)).takeHead x id)) ∧
  (∀ g, Happens (.gangRelease g) (fun s t => ∃ x, s.gang? g = some x ∧ (x.released = true ∨ s.startable x = false) ∧ t = s))

/-- R19, R288, R289, R292, R301, R472: the engine of a cluster: acceptance of the oldest command when it has room, start when its term, hazards and
furrow slots allow, completion, the close of the combining window, and an error of its state. -/
def Obligations.EngineEvents : Prop :=
  (∀ cl, Happens (.commandAcceptance cl) (fun s t => ∃ c rest j p, (s.cluster cl).pend = c :: rest ∧ (s.cluster cl).room = true ∧
    let r := (s.modCluster cl (fun x => { x with pend := rest })).acceptCmd cl c
    r.2.cmdPlace c = .slot j ∧ (r.2.slot j).park = some p ∧ t = r.2.modSlot j (fun z => { z with park := some { p with on := .accepted c.numReg r.1.toNat } }))) ∧
  (∀ cl, Happens (.commandAcceptance cl) (fun s t => ((s.cluster cl).pend = [] ∨ (s.cluster cl).room = false) ∧ t = s)) ∧
  (∀ cl n, Happens (.commandStart cl n) (fun s t => ∃ c, (s.cluster cl).cmds.find? (fun c => c.seq == n) = some c ∧ c.grp = none ∧
    (s.cluster cl).ready c = true ∧ c.src.bind Side.furrow? = none ∧ c.dst.bind Side.furrow? = none ∧ t = s.startCmd cl c)) ∧
  (∀ cl n, Happens (.commandStart cl n) (fun s t => ∃ c, (s.cluster cl).cmds.find? (fun c => c.seq == n) = some c ∧ c.grp = none ∧
    (s.cluster cl).ready c = false ∧ t = s)) ∧
  (∀ cl n, Happens (.commandCompletion cl n) (fun s t => ∃ c, (s.cluster cl).cmds.find? (fun c => c.seq == n) = some c ∧
    ((c.started = true ∧ s.fillReady c = true ∧ t = (s.moveData cl c).finishCmd cl c) ∨ ((c.started = false ∨ s.fillReady c = false) ∧ t = s)))) ∧
  (∀ cl, Happens (.combiningWindowClose cl) (fun s t => ∃ w rest, (s.cluster cl).wins = w :: rest ∧ t = s.modCluster cl (fun x => { x with
    wins := rest, cmds := x.cmds.map (fun c => if w.seqs.contains c.seq ∧ 2 ≤ w.seqs.length then { c with grp := some w.first } else c) }))) ∧
  (∀ cl, Happens (.engineStateError cl) (fun s t => (∀ c ∈ (s.cluster cl).cmds, c.started = false) ∧ (∀ g ∈ s.gangs, g.retired = true ∨ cl ∉ g.clusters) ∧
    t = (((s.discard cl (fun _ => true)).modCluster cl (fun x => { x with
      furrows := [], counters := [], terms := [], lease := none, wins := [], pend := [], cmds := [], seq1 := 0, seqPhase := .idle, seqClause := none, loops := []
      acc := [], folds := [], halves := [], ka := 1, kb := 1, rowp := BitVec.allOnes 128, colp := BitVec.allOnes 128, nbars := [], matHaz := none })).modCluster cl
      Cluster.settle).logTo (dieOfCl cl) (s.partOf cl) (evEntry (srcOfCl cl 16) 0x62 1 3 0 0)))

/-! ### Events of the memory system -/

/-- R114, R148, R156 to R161, R455: walks, lane L1 replacement and peeks; token requests, collections and answers, reissue, persistent requests and the
recount of tokens. -/
def Obligations.TokenEvents : Prop :=
  (∀ c p asid va w u f, Happens (.pageTableWalk c p asid va w u f) (fun s t => let acc := (if f then accX else if w then accW else accR) (if u then 0 else 1)
    (∃ x, s.xlate c p asid acc va = .ok (x, t)) ∨ ∃ e, s.xlate c p asid acc va = .error (e, t))) ∧
  (∀ c x, Happens (.l1ReplacementWriteback c x) (fun s t => t = (s.wbSector c x).invSector c x)) ∧
  (∀ c b, Happens (.peek c b) (fun s t => coherent (128 * b) = true ∧ t = (s.fillSector c (2 * b)).fillSector c (2 * b + 1))) ∧
  (∀ c b i w, (i = .treq c b ∧ w = false ∨ i = .treqx c b ∧ w = true) → Happens i (fun s t => s.needs c b = some w ∧ s.cdcOk c b w = false ∧ s.treq? c b = none ∧
    t = s.modDie (dieOfCore c) (fun x => { x with treqs := x.treqs ++ [TReq.first c b w s.cycle] }))) ∧
  (∀ c b i w, (i = .treq c b ∧ w = false ∨ i = .treqx c b ∧ w = true) → Happens i (fun s t => ∃ r, s.treq? c b = some r ∧ r.write = w ∧ r.sent = false ∧
    r.persistent = false ∧ t = s.serveReq r)) ∧
  (∀ (s : State) r, r.write = false → ((s.die (dieOfCore r.core)).treqs.any (fun q => q.blk == r.blk && q.active)) = false →
    s.permRead (dieOfCore r.core) r.blk = true → s.hostHolds r.blk ≠ 2 → 1 ≤ (s.sliceTok (dieOfCore r.core) r.blk).n →
    s.serveReq r = (s.sliceSend (dieOfCore r.core) r.blk r.core 1).modTreq r.core r.blk (fun q => { q with sent := true })) ∧
  (∀ id, Happens (.tcoll id) (fun s t => ∃ m u, s.Arrives id .tcoll m u ∧ let k := u.cdcTok m.src m.blk
    m.n = 1 ∧ k.owner = true ∧ 1 < k.n ∧
    t = ((u.setCdcTok m.src m.blk { k with n := k.n - 1 }).addHint m.die m.blk m.req).sendCoh (cohMsg .tokdata m.die m.src m.blk m.req 1 false false))) ∧
  (∀ id, Happens (.tcoll id) (fun s t => ∃ m u, s.Arrives id .tcoll m u ∧ m.n ≠ 1 ∧
    t = ((u.cdcHolders m.die m.blk).filter (fun h => clOfCore h == m.src && h != m.req)).foldl (fun v h => v.cdcSend m.die m.blk h m.req) u)) ∧
  (∀ id, Happens (.tokdata id) (fun s t => ∃ m u, s.Arrives id .tokdata m u ∧
    (u.die m.die).treqs.find? (fun r => r.blk == m.blk && r.active && r.core != m.req) = none ∧ let w := u.cdcRoom m.req m.blk
    let k := w.cdcTok m.req m.blk
    let v := w.setCdcTok m.req m.blk ⟨k.n + m.n, k.owner || m.owner, k.dirty || m.dirty⟩
    ((∃ r, v.treq? m.req m.blk = some r ∧ r.persistent = false ∧ v.cdcOk m.req m.blk r.write = true ∧ t = v.dropTreq m.req m.blk) ∨
     ((∀ r, v.treq? m.req m.blk = some r → r.persistent = true ∨ v.cdcOk m.req m.blk r.write = false) ∧ t = v)))) ∧
  (∀ id, Happens (.tokdata id) (fun s t => ∃ m u r, s.Arrives id .tokdata m u ∧
    (u.die m.die).treqs.find? (fun r => r.blk == m.blk && r.active && r.core != m.req) = some r ∧
    t = (u.addHint m.die m.blk r.core).sendCoh { m with src := m.req, req := r.core })) ∧
  (∀ c b, Happens (.transientRequestReissue c b) (fun s t => ∃ r, s.treq? c b = some r ∧ s.cdcOk c b r.write = false ∧ r.persistent = false ∧ r.issues < 4 ∧
    r.since + 2048 ≤ s.cycle ∧ let q := { r with issues := r.issues + 1, since := s.cycle, sent := false }
    t = (s.modTreq c b (fun _ => q)).serveReq q)) ∧
  (∀ c b, Happens (.transientRequestReissue c b) (fun s t => ∃ r, s.treq? c b = some r ∧ s.cdcOk c b r.write = false ∧
    (4 ≤ r.issues ∨ s.cycle < r.since + 2048) ∧ t = s)) ∧
  (∀ c b, Happens (.persistentRequest c b) (fun s t => ∃ r, s.treq? c b = some r ∧ r.persistent = false ∧ 4 ≤ r.issues ∧ r.since + 2048 ≤ s.cycle ∧
    t = s.modTreq c b (fun q => { q with persistent := true, table := decide (s.tableUsed (dieOfCore c) b < 16), sent := false }))) ∧
  (∀ d b, Happens (.persistentActivation d b) (fun s t => ∃ r, s.actDue d b = true ∧ (s.die d).treqs.filter (fun q => q.blk == b && q.table) = [r] ∧ r.batch = true ∧
    let q := { r with active := true, since := s.cycle, sent := false }
    t = (s.modTreq r.core b (fun _ => q)).serveActive q)) ∧
  (∀ d b, Happens (.persistentActivation d b) (fun s t => s.actDue d b = false ∧ t = s.serveBlk d b)) ∧
  (∀ c b, Happens (.deactivation c b) (fun s t => ∃ r, s.treq? c b = some r ∧
    ((r.active = true ∧ s.needs r.core r.blk = none ∧ t = s.dropTreq c b) ∨ ((r.active = false ∨ (s.needs r.core r.blk).isSome = true) ∧ t = s)))) ∧
  (∀ d b, Happens (.tokenRecount d b) (fun s t => s.recountDue d b = false ∧ t = s)) ∧
  (∀ d b, Happens (.tokenRecount d b) (fun s t => s.recountDue d b = true ∧ let ts := s.tokens d b
    let n := (ts.map (·.n)).foldl (· + ·) 0
    let own := (ts.filter (·.owner)).length
    ∃ p : Bool, (p = true ↔ own ≠ 1 ∧ (s.homed d b = true ∨ s.ownSt d b ≠ 1)) ∧
    let s1 := s.fullSlice d b (ts.any (·.dirty))
    let s2 := (if p then s1.poisonBlock b else s1).logTo d (s.askerPart d b) (evEntry (srcOfSlice d (sliceOf (128 * b))) 0x50 3 0
      (natW (Nat.min n 1023 + b2n (own != 0) * 1024 + b2n p * 2048)) (natW (128 * b)))
    t = ((s2.die d).treqs.filter (fun r => r.blk == b && r.active)).foldl (fun u r =>
      (u.modTreq r.core b (fun _ => { r with since := u.cycle, sent := false })).serveActive { r with since := u.cycle, sent := false }) s2))

/-- R155, R163 to R168, R173, R456: requests of dies, forwards, invalidations and recalls at their holders, the answers at the home, and grants at the
requester; a die that no longer holds the block answers Gone, and an answer that nothing asked for is the anomaly of code 4. -/
def Obligations.DirectoryEvents : Prop :=
  (∀ d b, Happens (.rds d b) (fun s t => s.noReq d b .rds ∧ s.wantS d b = true ∧ t = s.sendCoh (cohMsg .rds (s.homeOf (128 * b)) d b d 0 false false))) ∧
  (∀ d b, Happens (.rdx d b) (fun s t => s.noReq d b .rdx ∧ s.wantX d b = true ∧ s.canUpg d b = false ∧
    t = s.sendCoh (cohMsg .rdx (s.homeOf (128 * b)) d b d 0 false false))) ∧
  (∀ d b, Happens (.upg d b) (fun s t => s.noReq d b .upg ∧ s.wantX d b = true ∧ s.canUpg d b = true ∧
    t = s.sendCoh (cohMsg .upg (s.homeOf (128 * b)) d b d 0 false false))) ∧
  (∀ d b i kc kt, (i = .rds d b ∧ kc = .rds ∧ kt = .rds ∨ i = .rdx d b ∧ kc = .rdx ∧ kt = .rdx ∨ i = .upg d b ∧ kc = .upg ∧ kt = .upg) →
    Happens i (fun s t => ∃ m u, s.coh.find? (fun n => n.kind == kc && n.blk == b && n.src == d) = some m ∧ s.Arrives m.id kc m u ∧ t = u.request m.die d b kt)) ∧
  (∀ (s : State) h d b kd, mhas (s.die h).txns b = true → s.request h d b kd = s.modDie h (fun x => { x with waitq := x.waitq ++ [(b, kd, d)] })) ∧
  (∀ id i kd, (i = .fwds id ∧ kd = .fwds ∨ i = .fwdx id ∧ kd = .fwdx ∨ i = .inv id ∧ kd = .inv ∨ i = .binv id ∧ kd = .binv) → GoneHolder i id kd) ∧
  (∀ id, Happens (.fwds id) (fun s t => ∃ m u, s.Arrives id .fwds m u ∧ u.ownSt m.die m.blk ≠ 0 ∧ let dirty := u.dieDirty m.die m.blk || decide (3 ≤ u.ownSt m.die m.blk)
    let dev := u.homed m.src m.blk
    let v := if !dev && dirty then (u.evictHost m.blk true).cleanDie m.die m.blk else u
    let st := if dev && dirty then 3 else 1
    t = (((((v.takeOne m.die m.blk).setSt m.blk m.die st).askAgain m.die m.blk).sendCoh (cohMsg .datas m.req m.die m.blk m.req 1 false false)).sendCoh
      (cohMsg .fwdAck m.src m.die m.blk m.req 0 false dirty)))) ∧
  (∀ id, Happens (.fwdx id) (fun s t => ∃ m u, s.Arrives id .fwdx m u ∧ u.ownSt m.die m.blk ≠ 0 ∧
    let dirty := u.dieDirty m.die m.blk || decide (3 ≤ u.ownSt m.die m.blk)
    t = ((((u.loseDie m.die m.blk).setSt m.blk m.die 0).sendCoh (cohMsg .datax m.req m.die m.blk m.req 4 false dirty)).sendCoh
      (cohMsg .fwdAck m.src m.die m.blk m.req 0 false dirty)))) ∧
  (∀ id, Happens (.inv id) (fun s t => ∃ m u, s.Arrives id .inv m u ∧ u.ownSt m.die m.blk ≠ 0 ∧
    t = ((u.loseDie m.die m.blk).setSt m.blk m.die 0).sendCoh (cohMsg .invAck m.src m.die m.blk m.req 0 false false))) ∧
  (∀ id, Happens (.binv id) (fun s t => ∃ m u, s.Arrives id .binv m u ∧ u.ownSt m.die m.blk ≠ 0 ∧
    let dirty := u.dieDirty m.die m.blk || decide (3 ≤ u.ownSt m.die m.blk)
    t = ((u.loseDie m.die m.blk).setSt m.blk m.die 0).sendCoh (cohMsg (if dirty then .binvdata else .binvack) m.src m.die m.blk m.req 0 false dirty))) ∧
  (∀ id, Answer (.invAck id) id .invAck (fun _ u => u)) ∧ (∀ id, Answer (.fwdAck id) id .fwdAck (fun _ u => u)) ∧
  (∀ id, Answer (.binvack id) id .binvack (fun m u => u.goOn m.die m.blk)) ∧
  (∀ id, Answer (.binvdata id) id .binvdata (fun m u => (u.regain m.die m.blk true).goOn m.die m.blk)) ∧
  (∀ id, Happens (.gone id) (fun s t => ∃ m u x, s.Arrives id .gone m u ∧ u.txn? m.die m.blk = some x ∧ m.src ∈ x.waiting ∧
    t = ((u.setTxn m.die m.blk { x with
      waiting := x.waiting.erase m.src, gone := if u.dirSt m.blk m.src = 0 then x.gone else x.gone ++ [(m.src, u.cycle)]
      fwd := x.fwd && (x.waiting.erase m.src).any (fun e => decide (2 ≤ u.dirSt m.blk e)) }).tryGrant m.die m.blk).goOn m.die m.blk)) ∧
  (∀ id, Grant (.datas id) id .datas (fun m u => u.fullSlice m.die m.blk m.dirty)) ∧
  (∀ id, Grant (.datax id) id .datax (fun m u => u.fullSlice m.die m.blk m.dirty)) ∧ (∀ id, Grant (.upgack id) id .upgack (fun m u =>
    if m.dirty then u.setSliceTok m.die m.blk { u.sliceTok m.die m.blk with dirty := true } else u)) ∧
  (∀ id, Happens (.cmp id) (fun s t => ∃ m u x, s.Arrives id .cmp m u ∧ u.txn? m.die m.blk = some x ∧ x.req = m.src ∧ x.kind ≠ .binv ∧
    let v := u.modDie m.die (fun y => { y with txns := mdel y.txns m.blk })
    t = ((if (v.dirSts m.blk).all (· == 0) then v.setDirSts m.blk [0, 0, 0, 0] else v).serveBlk m.die m.blk).retryWaiting m.die)) ∧
  (∀ id, Happens (.cmp id) (fun s t => ∃ m u, s.Arrives id .cmp m u ∧ u.txn? m.die m.blk = none ∧ t = u.anomaly m.die m.blk 4))

/-- R165 to R167, R170, R456, R457: eviction notices and their acknowledgement, writes of hothouse lines at their host die, a notice that does not come,
and transactions that stay without an answer. -/
def Obligations.NoticeEvents : Prop :=
  (∀ id i kd (data : Bool), (i = .notei id ∧ kd = .notei ∧ data = false ∨ i = .notedat id ∧ kd = .notedat ∧ data = true) →
    Happens i (fun s t => ∃ m, s.coh? id kd = some m ∧ let u := s.dropCoh m.id
      u.dirSt m.blk m.src ≠ 0 ∧ (data = true → u.dirSt m.blk m.src ≠ 1) ∧ u.txn? m.die m.blk = none ∧
      let v := (u.setSt m.blk m.src 0).regain m.die m.blk data
      v.txn? m.die m.blk = none ∧ t = v.sendCoh (cohMsg .noteack m.src m.die m.blk m.src 0 false false))) ∧
  (∀ id i kd, (i = .notei id ∧ kd = .notei ∨ i = .notedat id ∧ kd = .notedat) → Happens i (fun s t => ∃ m, s.coh? id kd = some m ∧ let u := s.dropCoh m.id
    u.dirSt m.blk m.src = 0 ∧ u.txn? m.die m.blk = none ∧ t = (u.anomaly m.die m.blk 1).sendCoh (cohMsg .noteack m.src m.die m.blk m.src 0 false false))) ∧
  (∀ id, Happens (.noteack id) (fun s t => ∃ m u, s.Arrives id .noteack m u ∧ t = u.modDie m.die (fun x => { x with notes := x.notes.filter (· != m.blk) }))) ∧
  (∀ id, Happens (.wrhh id) (fun s t => ∃ m u, s.Arrives id .wrhh m u ∧
    let v := u.cwriteMask (s.partOf (clOfSlot m.src)) m.die (128 * m.blk) 128 m.data.toNat m.mask.toNat
    t = { v with coh := v.coh ++ [{ m with kind := .wrack, die := dieOfSlot m.src, src := m.die }] })) ∧
  (∀ id, Happens (.wrack id) (fun s t => ∃ m, s.Arrives id .wrack m t)) ∧
  (∀ b, Happens (.noticeAnomalyTimeout b) (fun s t => s.noticeLate b = none ∧ t = s)) ∧
  (∀ b, Happens (.noticeAnomalyTimeout b) (fun s t => ∃ e x, s.noticeLate b = some e ∧ let h := s.homeOf (128 * b)
    let u := (((s.anomaly h b 3).setSt b e 0).regain h b true).poisonBlock b
    u.txn? h b = some x ∧ t = ((u.setTxn h b { x with gone := x.gone.filter (fun g => g.1 != e) }).tryGrant h b).goOn h b)) ∧
  (∀ b, Happens (.transactionOverdue b) (fun s t => ((s.txn? (s.homeOf (128 * b)) b = none) ∨ ∃ x, s.txn? (s.homeOf (128 * b)) b = some x ∧ s.cycle < x.since + 2 ^ 21) ∧ t = s)) ∧
  (∀ b, Happens (.transactionOverdue b) (fun s t => ∃ x d ds, let h := s.homeOf (128 * b)
    s.txn? h b = some x ∧ x.since + 2 ^ 21 ≤ s.cycle ∧ x.waiting = d :: ds ∧ x.resent = true ∧ let u := s.setTxn h b { x with since := s.cycle }
    t = (u.logTo h (u.askerPart h b) (evEntry (srcOfHome h) 0x55 3 0 (natW d) (natW (128 * b)))).modDie d (fun y => { y with isoReq := true }))) ∧
  (∀ b, Happens (.transactionOverdue b) (fun s t => ∃ x d, let h := s.homeOf (128 * b)
    s.txn? h b = some x ∧ x.since + 2 ^ 21 ≤ s.cycle ∧ x.kind = .upg ∧ x.waiting = [d] ∧ x.resent = false ∧ s.coh = [] ∧
    t = (s.setTxn h b { x with resent := true, since := s.cycle }).sendCoh (cohMsg .inv d h b x.req 0 false false)))

/-- R171 to R174, R349, R350, R439, R440, R458: back-invalidation snoops and their answers, reads and writes of the host and of peers, fills of host
blocks, snoops of the host, and time-outs of fabric accesses. -/
def Obligations.HostEvents : Prop :=
  (∀ line i w, (i = .bisnpdata line ∧ w = false ∨ i = .bisnpinv line ∧ w = true) → Happens i (fun s t => s.snoopDue line w = true ∧
    ((s.hostGone = true ∧ t = s.freeLine line false) ∨
     (s.hostGone = false ∧ t = (s.modDie (s.homeOf (64 * line)) (fun x => { x with
       bisnp := x.bisnp ++ [(line, w, s.gtcOf (s.homeOf (64 * line)), false)] })).emit (.backInval line w))))) ∧
  (∀ line (sh : Bool), Happens (.birsp line sh) (fun s t => s.snooped line = true ∧ let h := s.homeOf (64 * line)
    let u := s.modDie h (fun x => { x with
      bisnp := x.bisnp.filter (fun e => e.1 != line)
      filter := if sh then mput x.filter line (1 + mget 0 (s.die h).filter line / 4 * 4) else mdel x.filter line })
    t = (u.tryGrant h (line / 2)).serveBlk h (line / 2))) ∧
  (∀ line sh, Happens (.birsp line sh) (fun s t => s.snooped line = false ∧ t = s)) ∧
  (∀ line, Happens (.biconflict line) (fun s t => t = s.modDie (s.homeOf (64 * line)) (fun x => { x with
    bisnp := x.bisnp.map (fun e => if e.1 = line then (e.1, e.2.1, e.2.2.1, true) else e) }))) ∧
  (∀ line, Happens (.backInvalidationTimeout line) (fun s t => (s.snoopLate line = true ∧ t = (s.freeLine line true).enterViral s.primary 0 2) ∨
    (s.snoopLate line = false ∧ t = s))) ∧
  (∀ d line mf, Happens (.hostMemRead d 0 line mf) (fun s t => s.mayArrive (.read d 0 line mf) ∧
    (s.portViral d 0 = true ∨ (s.die (s.homeOf (64 * line))).isolated = true) ∧ t = s.emit (.hostData line 0 true))) ∧
  (∀ d line mf, Happens (.hostMemRead d 0 line mf) (fun s t => s.mayArrive (.read d 0 line mf) ∧ s.portViral d 0 = false ∧
    (s.die (s.homeOf (64 * line))).isolated = false ∧ s.homeBusy (64 * line) = false ∧ let h := s.homeOf (64 * line)
    let u := if mf = 2 then s.homeTakes (line / 2) else (s.shareDev h (line / 2)).takeOne h (line / 2)
    let r := u.readChk none h (64 * line) 64
    let v := r.2.modDie (r.2.homeOf (64 * line)) (fun x => { x with
      filter := if mf = 0 then mdel x.filter line else if mf ≤ 2 then mput x.filter line (mf + 4 * d) else x.filter })
    t = v.emit (.hostData line (BitVec.ofNat 512 (r.2.rdN (64 * line) 64)) (r.1 != 0)))) ∧
  (∀ d line mf mask data pois, Happens (.hostMemWrite d 0 line mask data ⟨mf, pois⟩) (fun s t => s.mayArrive (.write d 0 line mf mask data pois) ∧ s.portViral d 0 = false ∧
    (s.die (s.homeOf (64 * line))).isolated = false ∧ let owned := mget 0 (s.die (s.homeOf (64 * line))).filter line % 4 == 2
    (owned = true ∨ s.homeBusy (64 * line) = false) ∧
    let u := (if owned then s else s.homeTakes (blkOf (64 * line))).commitMask none (s.homeOf (64 * line)) (64 * line) 64 data.toNat mask.toNat
    let v := if pois then (sectorsOf (64 * line) 64).foldl (fun w x => w.poisonIn d 0 (64 * x)) u else u
    t = v.modDie (v.homeOf (64 * line)) (fun x => { x with
      filter := if mf = 0 then mdel x.filter line else if mf ≤ 2 then mput x.filter line (mf + 4 * d) else x.filter }))) ∧
  (∀ d p a n data pois, Happens (.peerUioWrite d p a n data pois) (fun s t => let m := Nat.min n (64 - a % 64)
    p ≠ 0 ∧ s.mayArrive (.peerWrite d p a m data pois) ∧ s.portViral d p = false ∧ (s.die (s.homeOf a)).isolated = false ∧ s.homeBusy a = false ∧
    s.hostHolds (blkOf a) = 0 ∧ let v := (s.homeTakes (blkOf a)).commitMask none (s.homeOf a) a m data.toNat (2 ^ m - 1)
    t = if pois then (sectorsOf a m).foldl (fun w x => w.poisonIn d p (64 * x)) v else v)) ∧
  (∀ d p a n, Happens (.peerUioRead d p a n) (fun s t => let m := Nat.min n (64 - a % 64)
    p ≠ 0 ∧ s.mayArrive (.peerRead d p a m) ∧
    (((s.portViral d p = true ∨ (s.die (s.homeOf a)).isolated = true) ∧ t = s.emit (.peerData a 0 true)) ∨
     (s.portViral d p = false ∧ (s.die (s.homeOf a)).isolated = false ∧ s.homeBusy a = false ∧ s.hostHolds (blkOf a) ≠ 2 ∧ let r := s.cread none (s.homeOf a) a m
      t = r.2.2.emit (.peerData a (BitVec.ofNat 512 r.2.1) (r.1 != 0)))))) ∧
  (∀ d r i, ((∃ line mf, i = .hostMemRead d 0 line mf ∧ r = .read d 0 line mf) ∨ ∃ p a n, i = .peerUioRead d p a n ∧ p ≠ 0 ∧ r = .peerRead d p a (Nat.min n (64 - a % 64))) →
    Happens i (fun s t => s.mayArrive r ∧ s.portViral d r.port = false ∧ (s.die (s.homeOf r.addr)).isolated = false ∧ s.homeBusy r.addr = true ∧
      t = s.modDie (s.homeOf r.addr) (fun x => { x with
        hostq := x.hostq ++ [r], bisnp := x.bisnp.map (fun e => if e.1 = r.addr / 64 then (e.1, e.2.1, e.2.2.1, true) else e) }))) ∧
  (∀ i, ((∃ d p line mf, p ≠ 0 ∧ i = .hostMemRead d p line mf) ∨ (∃ d p line mask data md, p ≠ 0 ∧ i = .hostMemWrite d p line mask data md) ∨
    (∃ d a n data pois, i = .peerUioWrite d 0 a n data pois) ∨ ∃ d a n, i = .peerUioRead d 0 a n) → Happens i (fun s t => t = s)) ∧
  (∀ k, Happens (.uioTimeout (.slot k)) (fun s t => let rest := s.uio.filter (fun e => e.1 != .slot k)
    ((∀ e ∈ s.uio, e.1 ≠ .slot k) ∧ s.portUp (dieOfSlot k) 1 = true ∧ s.portUp (dieOfSlot k) 2 = true ∧ t = { s with uio := rest ++ [(.slot k, false)] }) ∨
    (((∃ e ∈ s.uio, e.1 = .slot k) ∨ s.portUp (dieOfSlot k) 1 = false ∨ s.portUp (dieOfSlot k) 2 = false) ∧ t = { s with uio := rest ++ [(.slot k, true)] }))) ∧
  (∀ b w, Happens (.hostBlockFill b w false) (fun s t => ∃ x, let h := s.homeOf (128 * b)
    s.txn? h b = some x ∧ s.needsHost h b x = true ∧ x.waiting = [] ∧ x.gone = [] ∧ (w = true ↔ x.kind ≠ .rds) ∧
    t = (((s.setTxn h b { x with filled := true }).emit (.hostRead (2 * b) w)).emit (.hostRead (2 * b + 1) w)).tryGrant h b)) ∧
  (∀ line (inval : Bool), Happens (.h2dSnoop line inval) (fun s t => coherent (64 * line) = true ∧ s.homed (s.homeOf (64 * line)) (line / 2) = false ∧ let b := line / 2
    let u := s.settle b
    let dirty := (List.range 4).any (fun d => u.dieDirty d b || u.dirSt b d == 4)
    let held := (List.range 4).any (fun d => u.dirSt b d != 0)
    let v := if inval then ((List.range 4).foldl (fun w d => w.loseDie d b) u).setDirSts b [0, 0, 0, 0]
      else ((List.range 4).foldl (fun w d => (w.takeOne d b).cleanDie d b) u).setDirSts b ((u.dirSts b).map (fun x => if x = 0 then 0 else 1))
    let w := v.emit (.snoopAnswer line dirty)
    t = if dirty || inval && held then w.emit (.evict (if line % 2 = 0 then line + 1 else line - 1) dirty) else w))

/-! ### Events of pages, checkpoints, partitions and dies -/

/-- R120, R121, R130 to R133, R431, R441 to R443, R446 to R451: migration part by part, redirects, reservations and fallback lists of the hothouse, and hot
rows. -/
def Obligations.PageEvents : Prop :=
  (∀ d v, Happens (.migctlGo d v) (fun s t => (bitAt v 0 = false ∨ migBusy (s.mg d 0x50) = true) ∧ t = s)) ∧
  (∀ d v, Happens (.migctlGo d v) (fun s t => ∃ e u lv va p, let a := wf (s.mg d 0x40) 3 49 * 8
    let ad := wf (s.mg d 0x48) 13 39 * 8192
    bitAt v 0 = true ∧ migBusy (s.mg d 0x50) = false ∧ s.cread64 none d a = (0, e, u) ∧ pteV e = true ∧ pteTy e = 1 ∧
    wf (s.mg d 0x40) 0 3 = 0 ∧ wf (s.mg d 0x40) 52 12 = 0 ∧ u.homeOf (leafBase e) = d ∧
    (∀ x, x < 4 → ∀ m, (u.die x).migr = some m → m.pte ≠ a) ∧ u.chain 4 a = some (lv, va, p) ∧ lv ≠ 3 ∧ ad % 2 ^ pageBits lv = 0 ∧
    ad + 2 ^ pageBits lv ≤ 0x9000000000 ∧
    t = (u.modDie d (fun x => { x with migr := some ⟨a, ad, leafBase e, ad, 2 ^ (10 * lv), 0⟩ })).migStatus d 0 true)) ∧
  (∀ d, Happens (.migrationPart d) (fun s t => ∃ m, (s.die d).migr = some m ∧ s.migReady d = true ∧ m.moved + 1 < m.parts ∧
    t = (s.movePart (m.old + 65536 * m.moved) (m.new + 65536 * m.moved)).modDie d (fun x => { x with
      redir := if m.moved = 0 then x.redir ++ [⟨m.old, m.new, 65536⟩] else x.redir.map (fun r => if r.old = m.old then { r with len := r.len + 65536 } else r)
      migr := some { m with moved := m.moved + 1 } }))) ∧
  (∀ d, Happens (.migrationPart d) (fun s t => ((s.die d).migr = none ∨ s.migReady d = false) ∧ t = s)) ∧
  (∀ c pa, Happens (.redirectForward c pa) (fun s t => ∃ r, (List.range 4).findSome? (fun d => (s.die d).redir.find? (fun r => decide (r.old ≤ pa) && decide (pa < r.old + r.len))) = some r ∧
    let keep (x : Tlb) : Bool := !(decide (leafBase x.pte ≤ r.old) && decide (r.old < leafBase x.pte + 2 ^ pageBits x.level))
    t = (s.modCore c (fun x => { x with itlb := x.itlb.filter keep, dtlb := x.dtlb.filter keep })).modCluster (clOfCore c) (fun x => { x with l2tlb := x.l2tlb.filter keep }))) ∧
  (∀ d j, Happens (.redirectEntryFree d j) (fun s t => ∃ r, (s.die d).redir[j]? = some r ∧ (∀ m, (s.die d).migr = some m → m.old ≠ r.old) ∧
    t = (s.dropFrame r.old r.len).modDie d (fun x => { x with redir := x.redir.filter (fun q => q != r) }))) ∧
  (∀ d p v, Happens (.hhresWrite d p v) (fun s t => runOf (s.cfg d p 0x050) = [] ∧
    t = (s.setCfg d p 0x050 (v &&& 0x3FF01FF)).modDie d (fun x => { x with
      stranded := x.stranded.filter (fun e => !(e / 512 == p && (runOf (v &&& 0x3FF01FF)).contains (e % 512))) }))) ∧
  (∀ d p v, Happens (.hhfbWrite d p v) (fun s t => (wf v 0 10 = 0 ∨ ∀ e ∈ (s.die d).stranded, e / 512 ≠ p) ∧
    t = (s.setCfg d p 0x058 (v &&& 0xFFFFFFFFFF3FF)).modDie d (fun x => { x with fbHead := mput x.fbHead p 0 }))) ∧
  (∀ d row, Happens (.rowCapture d row) (fun s t => (bitAt (s.mg d 0x18) 63 = false ∨ (s.die d).captured.contains row = true) ∧ t = s)) ∧
  (∀ d row, Happens (.rowCapture d row) (fun s t => bitAt (s.mg d 0x18) 63 = true ∧ (s.die d).captured.contains row = false ∧ mget 0 (s.die d).rows row = 0 ∧
    ((s.die d).captured.filter (fun r => r % 16 == row % 16)).length < s.capWays d ∧
    t = (s.modDie d (fun y => { y with rows := mput y.rows row (s.rowThr d) })).modDie d (fun y => { y with captured := y.captured ++ [row] }))) ∧
  (∀ d, Happens (.hotRowWindowEnd d) (fun s t => (s.windowDue d = true ∧ t = s.modDie d (fun x => { x with
      rows := [], captured := [], refreshed := [], rowStart := s.gtcOf d, capW := wf (s.mg d 0x18) 0 2 })) ∨ (s.windowDue d = false ∧ t = s))) ∧
  (∀ d, Happens (.hbmScrub d) (fun s t => (∀ x ∈ s.bad, ¬ (d * 0x2400000000 ≤ 64 * x ∧ 64 * x < d * 0x2400000000 + 0x2400000000)) ∧ t = s)) ∧
  (∀ d, Happens (.hbmScrub d) (fun s t => ∃ x, s.bad = [x] ∧ d * 0x2400000000 ≤ 64 * x ∧ 64 * x < d * 0x2400000000 + 0x2400000000 ∧
    t = (s.poisonSector x).memEvent none (s.homeOf (64 * x)) (s.unitOf (64 * x)) 0x41 0 0 (natW (64 * x / 128 * 128))))

/-- R125, R355 to R358, R452: a checkpoint from its command through the cut, the copies and its end; snapshots; and the race log's flag. -/
def Obligations.CheckpointEvents : Prop :=
  (∀ v, Happens (.ckctlGo v) (fun s t => (bitAt v 0 = false ∨ s.ckBusy = true) ∧
    t = s.setMg s.primary 0x180 (setF (setF s.ckctl 48 16 (wf v 48 16)) 12 3 (wf v 12 3)))) ∧
  (∀ v, Happens (.ckctlGo v) (fun s t => bitAt v 0 = true ∧ s.ckBusy = false ∧ let r := setF (setF s.ckctl 48 16 (wf v 48 16)) 12 3 (wf v 12 3)
    let u : State := { (s.setMg s.primary 0x180 r).setMg s.primary 0x180 (setBit (setBit r 1 true) 2 false) with
      ckpt := some { cut := s.gtc + 1024, gen := wf r 48 16, cutDone := [], copied := [], active := false } }
    (∀ d, d < 4 → u.imageOk d = true) ∧ t = u)) ∧
  (∀ d, Happens (.checkpointCut d) (fun s t => s.cutDue d = false ∧ t = s)) ∧
  (∀ d, Happens (.checkpointCut d) (fun s t => ∃ c, s.cutDue d = true ∧ s.ckpt = some c ∧
    let u := ((mkeys s.cores).filter (fun k => dieOfCore k == d)).foldl (fun v k => v.wbAllL1 k) s
    let c' : Ckpt := { c with cutDone := c.cutDone ++ [d] }
    u.ckpt = some c ∧ ({ u with ckpt := some c' } : State).cutOver c' = false ∧ t = { u with ckpt := some c' })) ∧
  (∀ d j, Happens (.checkpointPartCopy d j) (fun s t => ∃ c, s.ckpt = some c ∧
    ((c.active = true ∧ c.copied.contains (d, j) = false ∧ s.unitIn d j = true ∧ d < 4 ∧ t = s.copyUnit d j) ∨
     ((c.active = false ∨ c.copied.contains (d, j) = true) ∧ t = s)))) ∧
  (∀ (s : State) d u, s.ckReach d = true → s.copyUnit d u =
    let src := if u < hbmUnits then d * 0x2400000000 + 65536 * u else hotAddr d (u - hbmUnits) 0
    let v := s.copyRange src (s.imageAddr d u) 65536
    { v with ckpt := v.ckpt.map (fun c => { c with copied := c.copied ++ [(d, u)] }) }) ∧
  Happens .checkpointEnd (fun s t => (s.ckptDone = false ∧ t = s) ∨
    (s.ckptDone = true ∧ t = ((List.range 4).foldl (fun (u : State) d => u.putHeader d 24 1) { s with ckpt := none }).setMg s.primary 0x180 (setBit s.ckctl 1 false))) ∧
  (∀ d, Happens (.snapctlArm d) (fun s t => d ≠ s.primary ∧ t = (s.setMg d 0x30 (setBit (s.mg d 0x30) 0 true)).armedNow d)) ∧
  (∀ d, Happens (.snapctlNow d) (fun s t => d ≠ s.primary ∧ 
    t = ((s.setMg d 0x30 (setBit (s.mg d 0x30) 0 true)).setMg d 0x38 (natW (s.gtcOf d + 256))).armedNow d)) ∧
  (∀ d, Happens (.snapctlDoneClear d) (fun s t => d ≠ s.primary ∧
    t = (s.setMg d 0x30 (setBit (s.mg d 0x30) 2 false)).modDie d (fun x => { x with snap := none }))) ∧
  (∀ d, Happens (.snapshotLatch d) (fun s t => (s.latchDue d = false ∧ t = s) ∨
    (s.latchDue d = true ∧ bitAt (s.mg d 0x30) 2 = true ∧ t = s.setMg d 0x30 (setF (setBit (s.mg d 0x30) 0 false) 8 8 (Nat.min 255 (wf (s.mg d 0x30) 8 8 + 1)))) ∨
    (s.latchDue d = true ∧ bitAt (s.mg d 0x30) 2 = false ∧ t = (s.setMg d 0x30 (setBit (setBit (s.mg d 0x30) 0 false) 2 true)).modDie d (fun x => { x with
      snap := some ⟨s.gtcOf d, x.mgmt, x.dir.map (fun e => (e.1, s.dirWord d e.1 e.2)), s.clusters.filter (fun e => dieOfCl e.1 == d),
        s.cores.filter (fun e => dieOfCore e.1 == d), s.slots.filter (fun e => dieOfSlot e.1 == d)⟩ })))) ∧
  (∀ c, Happens (.rlogctlWrapClear c) (fun s t => t = s.modCore c (fun x => { x with rlogctl := setBit x.rlogctl 1 false, rlogRead := 0 })))

/-- R338, R339, R341 to R347, R478 to R481: creation, reset and dissolution of a partition, swap out and resume, and writes of management registers. -/
def Obligations.PartitionEvents : Prop :=
  (∀ d p, Happens (.pctlLiveSet d p) (fun s t => bitAt (s.cfg d p 0) 0 = false ∧ (∀ c ∈ s.maskCls d p, s.clFree p c = true) ∧ wf (s.cfg d p 0x0C0) 0 8 = 1 ∧
    (∀ n, n < 6 → s.cfg d p (0x0C8 + 8 * n) = 0) ∧ t = s.setCfg d p 0 1)) ∧
  (∀ d p, Happens (.pctlLiveSet d p) (fun s t => (bitAt (s.cfg d p 0) 0 = true ∨ (∃ c ∈ s.maskCls d p, s.clFree p c = false) ∨ wf (s.cfg d p 0x0C0) 0 8 ≠ 1) ∧ t = s)) ∧
  (∀ d p, Happens (.pctlLiveClear d p) (fun s t => bitAt (s.cfg d p 0) 0 = true ∧ bitAt (s.cfg d p 0x088) 2 = true ∧ rstBusy (s.cfg d p 0x088) = false ∧
    swpBusy (s.cfg d p 0x090) = false ∧ t = (s.setCfg d p 0 0).dropHeld d p)) ∧
  (∀ d p, Happens (.pctlLiveClear d p) (fun s t => (bitAt (s.cfg d p 0x088) 2 = false ∨ rstBusy (s.cfg d p 0x088) = true) ∧ t = s)) ∧
  (∀ d p, Happens (.prstctlGo d p) (fun s t => (bitAt (s.cfg d p 0) 0 = false ∨ rstBusy (s.cfg d p 0x088) = true) ∧ t = s)) ∧
  (∀ d p, Happens (.prstctlGo d p) (fun s t => bitAt (s.cfg d p 0) 0 = true ∧ rstBusy (s.cfg d p 0x088) = false ∧ s.ckpt = none ∧
    (∀ e, (s.die e).migr = none) ∧ let ds := s.diesOf p
    let u := ds.foldl (fun v e => ((v.modCfg e p 0x088 (fun r => setBit r 1 true)).modCfg e p 0x090 (fun r =>
      if swpBusy r then natW (3 * 2 ^ 62) else setBit r 4 false)).modDie e (fun x => { x with
        resetPart := mput x.resetPart p (s.gtcOf e)
        heldMask := if s.away e p && !(s.maskCls e p).all (s.clFree p) then mput x.heldMask p 0 else x.heldMask })) s
    t = u.resetSteps p ds (s.clustersOf p))) ∧
  (∀ d p, Happens (.prstctlDoneClear d p) (fun s t => t = s.setCfg d p 0x088 (setBit (s.cfg d p 0x088) 2 false))) ∧
  (∀ p, Happens (.partitionResetComplete p) (fun s t => (∀ d ∈ s.diesOf p, rstBusy (s.cfg d p 0x088) = false) ∧ t = s)) ∧
  (∀ p, Happens (.partitionResetComplete p) (fun s t => ∃ d, s.diesOf p = [d] ∧ rstBusy (s.cfg d p 0x088) = true ∧
    let u := (s.modCfg d p 0x088 (fun r => setBit (setBit r 1 false) 2 true)).logDie d (evEntry (srcOfFw d) 0x74 4 0 (natW (s.gtcOf d - mget 0 (s.die d).resetPart p)) (natW p))
    t = (coresOf ((u.clustersOf p).filter (fun c => (u.cluster c).enabled && dieOfCl c == d))).foldl (fun v c => v.startCore c) u)) ∧
  (∀ d p v, Happens (.pswctlSwapOut d p v) (fun s t => bitAt v 0 = true ∧ bitAt v 1 = false ∧ swpBusy (s.cfg d p 0x090) = false ∧
    (bitAt (s.cfg d p 0) 0 = false ∨ s.swappedOut d p = true ∨ rstBusy (s.cfg d p 0x088) = true) ∧
    t = s.refuseSwap d p 1 (s.ctxSize ((s.clustersOf p).filter (fun c => dieOfCl c == d))))) ∧
  (∀ d p v, Happens (.pswctlSwapOut d p v) (fun s t => bitAt v 0 = true ∧ bitAt v 1 = false ∧ swpBusy (s.cfg d p 0x090) = false ∧
    bitAt (s.cfg d p 0) 0 = true ∧ s.swappedOut d p = false ∧ rstBusy (s.cfg d p 0x088) = false ∧ s.diesOf p = [d] ∧ (∀ g ∈ s.gangs, g.part ≠ p) ∧
    let cls := (s.clustersOf p).filter (fun c => dieOfCl c == d)
    let need := s.ctxSize cls
    s.noRoom d p need = false ∧ let f := fitPages (s.hotPages d p) (s.cfsBytes d p - need)
    t = ((f.2.foldl (fun v i => v.forceOut d p i) ({ s with free := s.free + 96 } : State)).saveDie d p f.1).modCfg d p 0x090 (fun r => setF (setBit r 3 true) 62 2 0))) ∧
  (∀ d p v, Happens (.pswctlResume d p v) (fun s t => bitAt v 0 = true ∧ bitAt v 1 = true ∧ swpBusy (s.cfg d p 0x090) = false ∧
    (s.swappedOut d p = false ∨ rstBusy (s.cfg d p 0x088) = true) ∧ t = s.refuseSwap d p 1 0)) ∧
  (∀ d p v, Happens (.pswctlResume d p v) (fun s t => ∃ w, bitAt v 0 = true ∧ bitAt v 1 = true ∧ swpBusy (s.cfg d p 0x090) = false ∧ s.swappedOut d p = true ∧
    rstBusy (s.cfg d p 0x088) = false ∧ s.diesOf p = [d] ∧ s.swapOf d p = some w ∧ (∀ c ∈ s.maskCls d p, s.clFree p c = true) ∧ (s.maskCls d p).length = w.cls.length ∧
    let f (c : Nat) : Nat := (((w.cls.zip (s.maskCls d p)).find? (fun e => e.1 == c)).map (·.2)).getD c
    let u := ((s.loadDie d f w).dropHeld d p).modCfg d p 0x090 (fun r => setF (setBit r 3 true) 62 2 0)
    t = { u with
      gangs := u.gangs.map (fun g => if g.part = p then g.ren f else g)
      saves := u.saves.map (fun x => if x.part = p then { x with slot := renSlot f x.slot, addr := renArea f x.addr, img := x.img.ren f } else x) })) ∧
  (∀ p, Happens (.swapComplete p) (fun s t => ∃ d, s.diesOf p = [d] ∧ swpBusy (s.cfg d p 0x090) = true ∧
    t = (if s.swappedOut d p then s else s.dropHeld d p).modCfg d p 0x090 (fun r => setBit (setBit r 3 false) 4 (!bitAt r 4)))) ∧
  (∀ d off v, Happens (.mgmtRegisterWrite d off v) (fun s t => ((s.die d).stopped = true ∨ (s.die d).isolated = true ∨ off % 8 ≠ 0) ∧ t = s)) ∧
  (∀ d off v, Happens (.mgmtRegisterWrite d off v) (fun s t => (s.die d).stopped = false ∧ (s.die d).isolated = false ∧
    (off = 0x08 ∨ off = 0x18 ∨ off = 0x20 ∨ off = 0x40 ∨ off = 0x48) ∧ t = s.setMg d off (v &&& mgmtMask off))) ∧
  (∀ d v, Happens (.mgmtRegisterWrite d 0x38 v) (fun s t => (s.die d).stopped = false ∧ (s.die d).isolated = false ∧ t = (s.setMg d 0x38 v).armedNow d))

/-- R7, R349, R351, R439, R459 to R465, R484 to R486: CRC failures, retraining and failure of die links, isolation of a die, the CXL ports, and thermal and
power limits. -/
def Obligations.LinkEvents : Prop :=
  (∀ d n m, Happens (.dieLinkCrcError d n m) (fun s t => let c := Nat.min 65535 (s.crcOf d (n % 2) m + 1)
    t = (s.modDie d (fun x => { x with crc := mput x.crc (n % 2 * 48 + m) (s.gtcOf d / 10 ^ 6 * 65536 + c) })).setMg d (dlReg (n % 2)) (bump16 (s.dl d (n % 2)) 16))) ∧
  (∀ d n m, Happens (.dieLinkModuleRetire d n m) (fun s t => s.retireDue d (n % 2) m = false ∧ t = s)) ∧
  (∀ d n m, Happens (.dieLinkModuleRetire d n m) (fun s t => let k := n % 2
    let e := otherEnd d k
    let left := wf (s.dl d k) 48 6 - 1
    s.retireDue d k m = true ∧ 24 ≤ left ∧
    let s1 := (s.modLink d k (fun r => setF r 48 6 left)).modDie d (fun x => { x with retiredMods := insertSorted x.retiredMods (k * 48 + m) })
    let s2 := (s1.modDie e.1 (fun x => { x with retiredMods := insertSorted x.retiredMods (e.2 * 48 + m) })).logDie d (evEntry (srcOfLink d k) 0x57 3 0 (natW (k + 2 * left)) (natW m))
    t = ((s2.modLink d k (fun r => bump16 r 0)).modDie d (fun x => { x with training := insertSorted x.training k })).modDie e.1 (fun x => { x with
      training := insertSorted x.training e.2 }))) ∧
  (∀ d n, Happens (.dieLinkRetrainDone d n) (fun s t => t = (s.modDie d (fun x => { x with training := x.training.filter (· != n % 2) })).modDie (otherEnd d (n % 2)).1
    (fun x => { x with training := x.training.filter (· != (otherEnd d (n % 2)).2) }))) ∧
  (∀ d n, Happens (.dieLinkFailure d n) (fun s t => bitAt (s.dl d (n % 2)) 63 = true ∧ t = s)) ∧
  (∀ d n, Happens (.dieLinkFailure d n) (fun s t => bitAt (s.dl d (n % 2)) 63 = false ∧ let e := otherEnd d (n % 2)
    let log (u : State) (a i : Nat) : State := { u.logDie a (evEntry (srcOfLink a i) 0x58 3 0 (natW i) (Config.openWord u.free)) with free := u.free + 1 }
    let lost (u : State) (a b : Nat) : State := if (u.die a).migr.any (fun g => u.homeOf g.new == b) then u.abortMigr a else u
    let s1 := lost (lost (log (log (s.modLink d (n % 2) (fun r => setBit r 63 true)) d (n % 2)) e.1 e.2) d e.1) e.1 d
    t = [d, e.1].foldl (fun u a => if bitAt (u.dl a 0) 63 && bitAt (u.dl a 1) 63 then u.modDie a (fun x => { x with isoReq := !x.isolated }) else u) s1)) ∧
  (∀ d, Happens (.dieIsolation d) (fun s t => ((s.die d).isoReq = false ∨ (s.die d).isolated = true) ∧ t = s)) ∧
  (∀ d, Happens (.dieIsolation d) (fun s t => (s.die d).isoReq = true ∧ (s.die d).isolated = false ∧ d = s.primary ∧
    t = (s.modDie d (fun x => { x with isoReq := false })).faultDevice)) ∧
  (∀ d, Happens (.dieIsolation d) (fun s t => (s.die d).isoReq = true ∧ (s.die d).isolated = false ∧ d ≠ s.primary ∧
    let rest := (List.range 4).filter (fun h => h != d && !(s.die h).isolated)
    let ps := (List.range 16).filter (s.partOn d)
    let s1 := s.modDie d (fun x => { x with isoReq := false, isolated := true })
    let s2 : State := { s1 with coh := s1.coh.filter (fun m : Coh => m.die != d && (m.kind == .wrhh || m.from_ != d)) }
    let s3 := (s2.modLink d 0 (fun r => setBit r 63 true)).modLink d 1 (fun r => setBit r 63 true)
    let s4 := rest.foldl (fun u h => u.forgetDie h d) s3
    let s5 := (((s4.die d).dir.map (·.1)).filter (fun b => isHot (128 * b))).foldl (fun u b => rest.foldl (fun v h => v.loseDie h b) u) s4
    let s6 := (List.range 4).foldl (fun u e => if (u.die e).migr.any (fun m => u.homeOf m.new == d || e == d) then u.abortMigr e else u) s5
    let s7 := (List.range 3).foldl (fun u n => u.modPort d n (fun r => setF (setF (setBit r 62 false) 56 2 0) 48 5 0)) s6
    let s8 := match s7.ckpt with
      | some c => s7.ckptFail d (4096 + 65536 * (c.copied.filter (fun e : Nat × Nat => e.1 == d)).length)
      | none => s7
    let s9 := ps.foldl (fun u p => match u.diesOf p with
      | e :: _ => u.startReset e p
      | [] => u) s8
    t = (rest.foldl (fun (u : State) h => u.logDie h (evEntry (srcOfFw h) 0x59 3 0 (natW d) (natW ((ps.map (2 ^ ·)).foldl (· + ·) 0))))
      (s9.vacate (clsOfDie d))).emit (.cxlError s.primary))) ∧
  (∀ d p, Happens (.cxlLinkDown d p) (fun s t => bitAt (s.mg d (portReg p)) 62 = false ∧ t = s)) ∧
  (∀ d p, Happens (.cxlLinkDown d p) (fun s t => bitAt (s.mg d (portReg p)) 62 = true ∧
    let u := (s.setMg d (portReg p) (setF (setF (setBit (s.mg d (portReg p)) 62 false) 56 2 0) 48 5 0)).logDie d
      (evEntry (srcOfUnit d 25 p) 0x5B 3 0 (portNo d p) (Config.openWord s.free))
    let v : State := { u with free := s.free + 1 }
    t = if d = s.primary ∧ p = 0 then v.answerAll else v)) ∧
  (∀ d p sp w, Happens (.cxlLinkUp d p sp w) (fun s t => t = s.setMg d (portReg p) (setF (setF (setBit (s.mg d (portReg p)) 62 true) 56 2 sp) 48 5 w))) ∧
  (∀ d p, Happens (.cxlViralEntry d p false) (fun s t => t = s.enterViral d p 0)) ∧
  (∀ d p, Happens (.cxlViralEntry d p true) (fun s t => let r := s.mg d (portReg p)
    t = (s.setMg d (portReg p) (setF r 32 16 (Nat.min 65535 (wf r 32 16 + 1)))).enterViral d p 1)) ∧
  (∀ (s : State) d p c, ¬ (d = s.primary ∧ p = 0) →
    s.enterViral d p c = (s.setMg d (portReg p) (setBit (s.mg d (portReg p)) 63 true)).logDie d (evEntry (srcOfUnit d 25 p) 0x5C 3 0 (portNo d p) (natW c))) ∧
  (∀ d p, Happens (.cxlpsViralClear d p) (fun s t => p ≠ 0 ∧ bitAt (s.mg d (portReg p)) 63 = true ∧ bitAt (s.mg d (portReg p)) 62 = true ∧ s.deviceFault = false ∧
    t = s.setMg d (portReg p) (setBit (s.mg d (portReg p)) 63 false))) ∧
  (∀ d p, Happens (.cxlpsViralClear d p) (fun s t => (bitAt (s.mg d (portReg p)) 62 = false ∨ s.deviceFault = true) ∧ t = s)) ∧
  (∀ d p, Happens (.linkLayerRetry d p) (fun s t => let n := wf (s.mg d (portReg p)) 0 32 + 1
    n < 2 ^ 32 ∧ let u := s.setMg d (portReg p) (setF (s.mg d (portReg p)) 0 32 n)
    ((n % 4096 ≠ 0 ∧ t = u) ∨ (n % 4096 = 0 ∧ t = u.logDie d (evEntry (srcOfUnit d 25 p) 0x5A 3 0 (portNo d p) (natW n)))))) ∧
  (∀ d, Happens (.thermalClockStep d) (fun s t => s.gtcOf d < (s.die d).clkTick + 10000 ∧ t = s)) ∧
  (∀ d, Happens (.thermalClockStep d) (fun s t => (s.die d).clkTick + 10000 ≤ s.gtcOf d ∧ s.level d ≠ 2 ∧ let c := s.nextClk d
    t = (s.setClock d c (if c < 2400 then 1 else 0) (decide (c < s.clk d))).modDie d (fun x => { x with clkTick := s.gtcOf d }))) ∧
  (∀ (s : State) d, s.level d ≠ 2 → (s.tooHot d = true → 1300 ≤ s.clk d → s.nextClk d = s.clk d - 100) ∧
    (s.coolAgain d = true → s.clk d ≤ 2300 → s.nextClk d = s.clk d + 100) ∧ (s.tooHot d = false → s.coolAgain d = false → s.nextClk d = s.clk d)) ∧
  (∀ d, Happens (.thermalCritical d) (fun s t => (s.critDue d = true ∧ t = s.setClock d 600 2 false) ∨ (s.critDue d = false ∧ t = s))) ∧
  (∀ b, Happens (.powerLimitInput b) (fun s t => s.powerLimit = b ∧ t = s)) ∧
  (∀ b, Happens (.powerLimitInput b) (fun s t => s.powerLimit ≠ b ∧ t = (List.range 4).foldl (fun u d =>
    ((u.modDie d (fun x => { x with plim := b })).setMg d 0x10 (setBit (u.mg d 0x10) 49 b)).logDie d (evEntry (srcOfFw d) 0x77 4 0 (natW (b2n b)) (natW (u.die d).power)))
    { s with powerLimit := b })) ∧
  (∀ d, Happens (.thermalTrip d) (fun s t => (s.tripDue d = false ∧ t = s) ∨ (s.tripDue d = true ∧
    t = (((s.logDie d (evEntry (srcOfFw d) 0x78 4 0 (natW d) (natW (s.die d).temp))).modDie d (fun x => { x with stopped := true })).failLink d 0).failLink d 1)))

/-- R13, R26, R352 to R354, R387, R482, R483: the boot of a die, the start of the GTC, its ticks, the release of the clusters, attestation, device reset. -/
def Obligations.BootEvents : Prop :=
  (∀ d, Happens (.bootRom d) (fun s t => ((s.die d).booted = true ∨ (s.die d).stopped = true) ∧ t = s)) ∧
  (∀ d, Happens (.bootRom d) (fun s t => let x := s.die d
    x.booted = false ∧ x.stopped = false ∧ (x.imgA = 0 ∨ x.imgB = 0) ∧ x.fwFail = 0 ∧ let slot := if x.imgA = 0 then 0 else 1
    let s0 := s.setSlot (6144 * d) { s.rootStart (384 * d) with kern := some .self }
    let s1 := [1, 2, 3].foldl (fun u n => u.extend d n (mget [] x.flash (4 * slot + n))) (s0.extend d 0 (mget [] x.flash 0))
    t = ((s1.applyTables d (mget [] x.flash (4 * slot + 3))).setMg d 0 (bootst 0 6 slot (!x.idkBad))).modDie d (fun y => { y with booted := true }))) ∧
  (∀ d, Happens (.bootRom d) (fun s t => let x := s.die d
    x.booted = false ∧ x.stopped = false ∧ x.imgA ≠ 0 ∧ x.imgB ≠ 0 ∧
    let s0 := s.setSlot (6144 * d) { s.rootStart (384 * d) with kern := some .self }
    t = ((s0.extend d 0 (mget [] x.flash 0)).setMg d 0 (bootst x.imgB (if x.imgB = 1 then 0 else 1) 2 (!x.idkBad))).modDie d (fun y => { y with stopped := true }))) ∧
  Happens .gtcStart (fun s t => (s.gtcOn = false ∧ s.ready = true ∧ t = { s with gtcOn := true, gtc := 0, relTick := 1000 + Config.releaseDelay, relStep := 0 }) ∨
    ((s.gtcOn = true ∨ s.ready = false) ∧ t = s)) ∧
  (∀ s, s.gtcOn = true → ∃ t, exec .gtcTick s = .next t ∧ t.gtc = (s.gtc + 1) % 2 ^ 64 ∧ t.mem = s.mem ∧ t.cores = s.cores ∧ t.dies = s.dies ∧
    ∀ k, t.slot k = if (s.slot k).phase = .parked ∧ (s.slot k).park ≠ none then (s.slot k).ticks 1 else s.slot k) ∧
  Happens .gtcTick (fun s t => s.gtcOn = false ∧ t = s) ∧
  Happens .clusterEnableStep (fun s t => s.enableDue = false ∧ t = s) ∧
  Happens .clusterEnableStep (fun s t => s.gtcOn = true ∧ s.relStep < 8 ∧ s.relTick + 250 * s.relStep ≤ s.gtc ∧
    let cls := ((List.range 4).filter (fun d => !(s.die d).isolated && !(s.die d).stopped)).flatMap (fun d => [0, 1, 2].map (fun i => 24 * d + 3 * s.relStep + i))
    t = (coresOf cls).foldl (fun u c => u.startCore c) (cls.foldl (fun u c => u.modCluster c (fun x => { x with enabled := true, ramp := s.gtc })) { s with relStep := s.relStep + 1 })) ∧
  (∀ d nonce, Happens (.spdmMeasurementRequest d nonce) (fun s t => bitAt (s.mg d 0) 41 = false ∧ t = s.emit (.spdmError d))) ∧
  (∀ d nonce, Happens (.spdmMeasurementRequest d nonce) (fun s t => bitAt (s.mg d 0) 41 = true ∧ let ms := (List.range 4).map (mget 0 (s.die d).meas)
    let nb : List Byte := (List.range 32).map (fun i => BitVec.ofNat 8 (nonce.toNat / 256 ^ i))
    t = s.emit (.spdm d ms nonce (Config.slhSign (Config.identitySecret d) (ms.flatMap bytes64 ++ nb))))) ∧
  (∀ s, ∃ t, exec .deviceReset s = .next t ∧ t.slots = [] ∧ t.cores = [] ∧ t.clusters = [] ∧ t.gangs = [] ∧ t.ls = [] ∧ t.net = [] ∧ t.gtc = 0 ∧ t.gtcOn = false ∧
    t.deviceFault = false ∧ t.hot = [] ∧ ∀ d, (t.die d).booted = false ∧ (t.die d).cfg = [])

/-! ### Steps, encodings, invariants -/

/-- R184, R186, R389, R394: a step runs the decoded instruction: when an agent's turn is forced, or the schedule picks a
strand, the step is `exec` of what the word at its position decodes to, with the agent as the current one; an input that is due runs as its event; a word that is no instruction is the
trap "illegal encoding". R171: what rests on a line that the host holds waits: the snoop leaves, and the strand parks. -/
def Obligations.StepRunsDecoded : Prop :=
  (∀ (s : State) a w i, s.turn = forced → s.cur = a → s.fetched a = some w → decode w.toNat = .ok i →
    step s = ({ s with turn := 0 } : State).hostedRun i (exec i { s with turn := 0 })) ∧
  (∀ (s : State) k w e, s.turn = forced → s.cur = .slot k → s.fetched (.slot k) = some w → decode w.toNat = .error e →
    step s = .next ({ s with turn := 0 }.takeTrap k 0x01 (s.slot k).pc w (s.slot k).trapLanes 0)) ∧
  (∀ (s : State) k c, (s.slot k).hdrWait = false → (s.slot k).resuming = false → (s.slot k).clause = some c →
    s.fetched (.slot k) = if c.off < (s.slot k).pc then c.words[((s.slot k).pc - c.off) / 2 - 1]? else none) ∧
  (∀ (s : State) k w i, s.turn ≠ forced → s.liveSlots.find? s.reissues = none → s.nobody.internal = none → (∀ e ∈ s.inputs, s.gtc < e.1) →
    s.nobody.event = none → (s.gtcOn = false ∨ s.acc < Nat.max 1 (s.clk s.primary)) → s.nextAgent = some k → k < 24576 → (s.slot k).seqRep = none →
    (s.atBoundary k = false ∨ s.irqOf k = none) → s.fetched (.slot k) = some w → decode w.toNat = .ok i →
    step s = ({ s with cur := .slot k, turn := k + 1 } : State).hostedRun i (exec i { s with cur := .slot k, turn := k + 1 })) ∧
  (∀ (s : State) e, s.turn ≠ forced → s.liveSlots.find? s.reissues = none → s.nobody.internal = none →
    s.inputs.find? (fun x => decide (x.1 ≤ s.gtc)) = some e →
    step s = ({ s.nobody with inputs := s.inputs.erase e } : State).hostedRun e.2 (exec e.2 { s.nobody with inputs := s.inputs.erase e })) ∧
  (∀ (s t : State) i, freesLines i = true ∨ s.hostOwes t = none → s.hostedRun i (.next t) = .next t) ∧
  (∀ (s t : State) k i line inv, freesLines i = false → s.cur = .slot k → s.hostOwes t = some (line, inv) →
    s.hostedRun i (.next t) = .next ((s.sendSnoop line inv).doPark k (.hostLine line inv) false)) ∧
  (∀ (s t : State), t.hostGone = true ∨ (∀ d, d < 4 → (s.die d).filter = [] ∨ (s.die d).filter = (t.die d).filter) → s.hostOwes t = none) ∧
  (∀ (s : State) nbits w i, decode ((natW w).toNat) = .ok i → (∀ d, d < 4 → (s.die d).filter = []) → ∃ u, step (s.withFetchWord nbits w) = exec i u ∧ u.mem = s.mem ∧ u.gangs = s.gangs ∧
    (u.cur = .slot 0 ∨ u.cur = .seq 0))
/-- R188 to R190, R202 to R302, R311: words written out from the encodings decode to the instructions they stand for, one of each family. -/
def Obligations.DecodeWords : Prop :=
  decode 0x5100808090000000 = .ok (.vsub ⟨8, 8, 9, .s32, false, false, ⟨0, false⟩⟩) ∧ decode 0x68004040500A0040 = .ok (.vfadd ⟨4, 4, 5, .f32, .rne, false, ⟨2, true⟩⟩) ∧
  decode 0x1900303FFFF0FF40 = .ok (.addi ⟨3, 3, 0xFFFFFF4, .s64, false⟩) ∧ decode 0x2200301020000040 = .ok (.fadd ⟨3, 1, 2, .f32, .rne⟩) ∧
  decode 0x3000000000000006 = .ok (.br 6) ∧ decode 0x4200100000000008 = .ok (.mdiv ⟨1, 8⟩) ∧ decode 0x4700102030000000 = .ok (.mand ⟨1, 2, 3⟩) ∧
  decode 0x7F00B0A000007240 = .ok (.vred ⟨11, 10, .max, .f32, .rne, false, 7, ⟨0, false⟩⟩) ∧ decode 0x9060603020000000 = .ok (.vld ⟨6, 3, some 2, 2, true, 0, false, ⟨0, false⟩⟩) ∧
  decode 0x9620603020004C40 = .ok (.vaadd ⟨6, 3, some 2, 0, .rel, .dv, .f32, ⟨0, false⟩⟩) ∧ decode 0xA030503FF0000010 = .ok (.ld ⟨5, 3, none, 3, false, 16, false⟩) ∧
  decode 0xA9304090A0000008 = .ok (.sputfe ⟨4, 9, some 10, 8⟩) ∧ decode 0xB300000000305400 = .ok (.fence ⟨.rel, .grp, 3⟩) ∧
  decode 0xC600005000000000 = .ok (.launch 5) ∧ decode 0xD200000000000000 = .ok .eret ∧ decode 0xE000A030B0C040A0 = .ok (.cpyMl ⟨10, 3, 11, 12, false, some .s8, none⟩) ∧
  decode 0xE610002000000200 = .ok (.trlSetTerm 2 2 0) ∧ decode 0xF113800012000000 = .ok (.xldb ⟨1, true, 3, 0, 1, 2, 0⟩) ∧ decode 0xFB00000FFF000000 = .ok (.xloop 0xFFF0)
/-- R190, R390: a reserved major opcode is no instruction: a strand that issues such a word traps "illegal encoding" (0x01), and the sequencer stops with it. -/
def Obligations.ReservedOpcodes : Prop := ∀ (w : W64), (wf w 56 8 = 0 ∨ (0x2D ≤ wf w 56 8 ∧ wf w 56 8 ≤ 0x2F) ∨ wf w 56 8 = 0x3F ∨ wf w 56 8 = 0x4E ∨ wf w 56 8 = 0x4F ∨
    wf w 56 8 = 0x67 ∨ wf w 56 8 = 0x7B ∨ (0x82 ≤ wf w 56 8 ∧ wf w 56 8 ≤ 0x8F) ∨ wf w 56 8 = 0x9E ∨ wf w 56 8 = 0x9F ∨ wf w 56 8 = 0xCF ∨
    (0xDB ≤ wf w 56 8 ∧ wf w 56 8 ≤ 0xDF) ∨ (0xE8 ≤ wf w 56 8 ∧ wf w 56 8 ≤ 0xEF) ∨ 0xFD ≤ wf w 56 8) →
  (∀ (s : State) k, s.fetched (.slot k) = some w → s.issue (.slot k) = .done (.next (s.takeTrap k 0x01 (s.slot k).pc w (s.slot k).trapLanes 0))) ∧
  (∀ (s : State) cl, s.fetched (.seq cl) = some w → s.issue (.seq cl) = .done (.next (s.seqStop cl 0x01 0)))
/-- R188 to R190: no bit of an encoding is dropped: the word of a well-formed instruction decodes to it, with every operand at every value. -/
def Obligations.EncodingRoundTrip : Prop := ∀ i w, WellFormed i = true → encode i = some w → decode w.toNat = .ok i
/-- R346, R347, R353, R354, R482: the machine after reset: nothing runs, no cluster is enabled, no partition is live, no die has booted, and every byte of
memory and of the local stores reads 0x00 (log entry 2: the model's choice for device memory). -/
def Obligations.ResetState : Prop :=
  (∀ k, (State.reset.slot k).phase = .free) ∧ (∀ c, (State.reset.cluster c).enabled = false ∧ (State.reset.core c).started = false) ∧
  (∀ d p, bitAt (State.reset.cfg d p 0) 0 = false) ∧ (∀ d, (State.reset.die d).booted = false) ∧ State.reset.gtcOn = false ∧
  (∀ a, State.reset.rb a = 0) ∧ (∀ c o, State.reset.lsByte c o = 0) ∧ Memory.wf State.reset.mem = true
/-- The memory list keeps its one canonical form through every step (the model's own invariant, log entry 2). -/
def Obligations.MemoryFormKept : Prop := ∀ s t, Memory.wf s.mem = true → step s = .next t → Memory.wf t.mem = true

end
end

