-- ==== Sys2Proof/Laws/Codec.lean ====
section
/-! SUPPORT. The word of an instruction and its fields: the fields are read back from the word, the codes of the tables from their numbers. -/

namespace Sys2Proof

/-! ### Words and fields -/

theorem word_lt {f : Fields} (h : f.ok = true) : f.word < 2 ^ 64 := by
  simp only [Fields.ok, Bool.and_eq_true, decide_eq_true_eq] at h
  simp only [Fields.word]; omega
theorem ofWord_word {f : Fields} (h : f.ok = true) : Fields.ofWord f.word = f := by
  obtain ⟨op, fn, d, a, b, c, p, m⟩ := f
  simp only [Fields.ok, Bool.and_eq_true, decide_eq_true_eq] at h
  simp only [Fields.ofWord, Fields.word, Fields.mk.injEq]
  omega
theorem decode_word {f : Fields} (h : f.ok = true) : decode (BitVec.ofNat 64 f.word).toNat = decodeFields f := by
  rw [decode, BitVec.toNat_ofNat, Nat.mod_eq_of_lt (word_lt h), ofWord_word h]
/-- An instruction whose fields fit and are decoded as it decodes from its word. -/
theorem decode_encode {i : Instr} {w : W64} {f : Fields} (he : encode i = some w) (hf : encodeFields i = some f) (hok : f.ok = true)
    (hd : decodeFields f = .ok i) : decode w.toNat = .ok i := by
  simp only [encode, hf, Option.map_some, Option.some.injEq] at he
  rw [← he, decode_word hok, hd]

/-! ### MOD of the R format (R181) -/

theorem mkMod_lt {x t s r : Nat} (hx : x < 256) (ht : t < 16) (hs : s < 2) (hr : r < 8) : mkMod x t s r < 65536 := by
  simp only [mkMod]; omega
theorem mkMod_xmod {x t s r : Nat} (ht : t < 16) (hs : s < 2) (hr : r < 8) : mkMod x t s r / 256 = x := by simp only [mkMod]; omega
theorem mkMod_ty {x t s r : Nat} (ht : t < 16) (hs : s < 2) (hr : r < 8) : mkMod x t s r / 16 % 16 = t := by simp only [mkMod]; omega
theorem mkMod_sat {x t s r : Nat} (hs : s < 2) (hr : r < 8) : mkMod x t s r / 8 % 2 = s := by simp only [mkMod]; omega
theorem mkMod_rnd {x t s r : Nat} (hr : r < 8) : mkMod x t s r % 8 = r := by simp only [mkMod]; omega

/-! ### Codes -/

@[simp] theorem ty_ofCode (t : Ty) : Ty.ofCode t.code = some t := by cases t <;> rfl
@[simp] theorem rnd_ofCode (t : Rnd) : Rnd.ofCode t.code = some t := by cases t <;> rfl
@[simp] theorem cond_ofCode (t : Cond) : Cond.ofCode t.code = some t := by cases t <;> rfl
@[simp] theorem ord_ofCode (t : Ord) : Ord.ofCode t.code = some t := by cases t <;> rfl
@[simp] theorem scope_ofCode (t : Scope) : Scope.ofCode t.code = some t := by cases t <;> rfl
@[simp] theorem redOp_ofCode (t : RedOp) : RedOp.ofCode t.code = some t := by cases t <;> rfl
theorem ty_ofI {t : Ty} (h : t.typed = true) : Ty.ofI t.codeI = t := by cases t <;> simp_all [Ty.ofI, Ty.codeI, Ty.typed]
theorem pred_ofCode {p : Pred} (h : p.ok = true) : Pred.ofCode p.code = some p := by
  obtain ⟨m, i⟩ := p
  simp only [Pred.ok, Bool.and_eq_true, decide_eq_true_eq] at h
  have : m = 0 ∨ m = 1 ∨ m = 2 ∨ m = 3 ∨ m = 4 ∨ m = 5 ∨ m = 6 ∨ m = 7 := by omega
  rcases this with rfl | rfl | rfl | rfl | rfl | rfl | rfl | rfl <;> cases i <;> simp_all [Pred.code, Pred.ofCode, b2n]
theorem xOf_xCode {x : Option Nat} (h : ∀ n, x = some n → n < 255) : xOf (xCode x) = x := by
  cases x with
  | none => rfl
  | some n => have := h n rfl; show (if n = 255 then none else some n) = some n; rw [if_neg (by omega)]
@[simp] theorem b2n_beq (b : Bool) : (b2n b == 1) = b := by cases b <;> rfl
theorem ty_lt (t : Ty) : t.code < 14 := by cases t <;> decide
theorem tyI_lt (t : Ty) : t.codeI < 4 := by cases t <;> decide
theorem rnd_lt (t : Rnd) : t.code < 5 := by cases t <;> decide
theorem cond_lt (t : Cond) : t.code < 6 := by cases t <;> decide
theorem ord_lt (t : Ord) : t.code < 5 := by cases t <;> decide
theorem scope_lt (t : Scope) : t.code < 6 := by cases t <;> decide
theorem redOp_lt (t : RedOp) : t.code < 6 := by cases t <;> decide
theorem b2n_lt (b : Bool) : b2n b < 2 := by cases b <;> decide
theorem pred_lt {p : Pred} (h : p.ok = true) : p.code < 16 := by
  obtain ⟨m, i⟩ := p
  simp only [Pred.ok, Bool.and_eq_true, decide_eq_true_eq] at h
  have := b2n_lt i
  simp only [Pred.code]; omega

end Sys2Proof
end

