-- ==== Sys2Proof/Laws/Dispatch.lean ====
section
/-! SUPPORT. One lemma per constructor: `exec` of it is the call of its meaning. -/

namespace Sys2Proof.Machine

theorem exec_add {o} (s : State) : exec (.add o) s = execAdd o s := rfl
theorem exec_sub {o} (s : State) : exec (.sub o) s = execSub o s := rfl
theorem exec_mul {o} (s : State) : exec (.mul o) s = execMul o s := rfl
theorem exec_mulh {o} (s : State) : exec (.mulh o) s = execMulh o s := rfl
theorem exec_div {o} (s : State) : exec (.div o) s = execDiv o s := rfl
theorem exec_rem {o} (s : State) : exec (.rem o) s = execRem o s := rfl
theorem exec_and {o} (s : State) : exec (.and o) s = execAnd o s := rfl
theorem exec_or {o} (s : State) : exec (.or o) s = execOr o s := rfl
theorem exec_xor {o} (s : State) : exec (.xor o) s = execXor o s := rfl
theorem exec_shl {o} (s : State) : exec (.shl o) s = execShl o s := rfl
theorem exec_shr {o} (s : State) : exec (.shr o) s = execShr o s := rfl
theorem exec_sra {o} (s : State) : exec (.sra o) s = execSra o s := rfl
theorem exec_slt {o} (s : State) : exec (.slt o) s = execSlt o s := rfl
theorem exec_sltn {o} (s : State) : exec (.sltn o) s = execSltn o s := rfl
theorem exec_min {o} (s : State) : exec (.min o) s = execMin o s := rfl
theorem exec_max {o} (s : State) : exec (.max o) s = execMax o s := rfl
theorem exec_clz {o} (s : State) : exec (.clz o) s = execClz o s := rfl
theorem exec_ctz {o} (s : State) : exec (.ctz o) s = execCtz o s := rfl
theorem exec_popc {o} (s : State) : exec (.popc o) s = execPopc o s := rfl
theorem exec_bext {o} (s : State) : exec (.bext o) s = execBext o s := rfl
theorem exec_bdep {o} (s : State) : exec (.bdep o) s = execBdep o s := rfl
theorem exec_sext {o} (s : State) : exec (.sext o) s = execSext o s := rfl
theorem exec_zext {o} (s : State) : exec (.zext o) s = execZext o s := rfl
theorem exec_mov {o} (s : State) : exec (.mov o) s = execMov o s := rfl
theorem exec_addi {o} (s : State) : exec (.addi o) s = execAddi o s := rfl
theorem exec_andi {o} (s : State) : exec (.andi o) s = execAndi o s := rfl
theorem exec_ori {o} (s : State) : exec (.ori o) s = execOri o s := rfl
theorem exec_xori {o} (s : State) : exec (.xori o) s = execXori o s := rfl
theorem exec_shli {o} (s : State) : exec (.shli o) s = execShli o s := rfl
theorem exec_shri {o} (s : State) : exec (.shri o) s = execShri o s := rfl
theorem exec_srai {o} (s : State) : exec (.srai o) s = execSrai o s := rfl
theorem exec_li {d imm} (s : State) : exec (.li d imm) s = execLi d imm s := rfl
theorem exec_lih {o} (s : State) : exec (.lih o) s = execLih o s := rfl
theorem exec_fadd {o} (s : State) : exec (.fadd o) s = execFadd o s := rfl
theorem exec_fsub {o} (s : State) : exec (.fsub o) s = execFsub o s := rfl
theorem exec_fmul {o} (s : State) : exec (.fmul o) s = execFmul o s := rfl
theorem exec_ffma {o} (s : State) : exec (.ffma o) s = execFfma o s := rfl
theorem exec_fdiv {o} (s : State) : exec (.fdiv o) s = execFdiv o s := rfl
theorem exec_fsqrt {o} (s : State) : exec (.fsqrt o) s = execFsqrt o s := rfl
theorem exec_fmin {o} (s : State) : exec (.fmin o) s = execFmin o s := rfl
theorem exec_fmax {o} (s : State) : exec (.fmax o) s = execFmax o s := rfl
theorem exec_fcmp {o} (s : State) : exec (.fcmp o) s = execFcmp o s := rfl
theorem exec_fcvt {o} (s : State) : exec (.fcvt o) s = execFcvt o s := rfl
theorem exec_fclass {o} (s : State) : exec (.fclass o) s = execFclass o s := rfl
theorem exec_br {off} (s : State) : exec (.br off) s = execBr off s := rfl
theorem exec_bz {o} (s : State) : exec (.bz o) s = execBz o s := rfl
theorem exec_bnz {o} (s : State) : exec (.bnz o) s = execBnz o s := rfl
theorem exec_beq {o} (s : State) : exec (.beq o) s = execBeq o s := rfl
theorem exec_bne {o} (s : State) : exec (.bne o) s = execBne o s := rfl
theorem exec_blt {o} (s : State) : exec (.blt o) s = execBlt o s := rfl
theorem exec_bge {o} (s : State) : exec (.bge o) s = execBge o s := rfl
theorem exec_bltn {o} (s : State) : exec (.bltn o) s = execBltn o s := rfl
theorem exec_bgen {o} (s : State) : exec (.bgen o) s = execBgen o s := rfl
theorem exec_call {off} (s : State) : exec (.call off) s = execCall off s := rfl
theorem exec_callr {a} (s : State) : exec (.callr a) s = execCallr a s := rfl
theorem exec_ret (s : State) : exec .ret s = execRet s := rfl
theorem exec_jr {a} (s : State) : exec (.jr a) s = execJr a s := rfl
theorem exec_halt (s : State) : exec .halt s = execHalt s := rfl
theorem exec_haltKeep {a} (s : State) : exec (.haltKeep a) s = execHaltKeep a s := rfl
theorem exec_nop (s : State) : exec .nop s = execNop s := rfl
theorem exec_vcmp {o} (s : State) : exec (.vcmp o) s = execVcmp o s := rfl
theorem exec_vfcmp {o} (s : State) : exec (.vfcmp o) s = execVfcmp o s := rfl
theorem exec_mdiv {o} (s : State) : exec (.mdiv o) s = execMdiv o s := rfl
theorem exec_melse {o} (s : State) : exec (.melse o) s = execMelse o s := rfl
theorem exec_mjoin (s : State) : exec .mjoin s = execMjoin s := rfl
theorem exec_mpush {a} (s : State) : exec (.mpush a) s = execMpush a s := rfl
theorem exec_mpop {d} (s : State) : exec (.mpop d) s = execMpop d s := rfl
theorem exec_mpeek {o} (s : State) : exec (.mpeek o) s = execMpeek o s := rfl
theorem exec_mpeekDepth {d} (s : State) : exec (.mpeekDepth d) s = execMpeekDepth d s := rfl
theorem exec_mpoke {a b} (s : State) : exec (.mpoke a b) s = execMpoke a b s := rfl
theorem exec_mset {o} (s : State) : exec (.mset o) s = execMset o s := rfl
theorem exec_mand {o} (s : State) : exec (.mand o) s = execMand o s := rfl
theorem exec_mor {o} (s : State) : exec (.mor o) s = execMor o s := rfl
theorem exec_mxor {o} (s : State) : exec (.mxor o) s = execMxor o s := rfl
theorem exec_mnot {o} (s : State) : exec (.mnot o) s = execMnot o s := rfl
theorem exec_mpopc {o} (s : State) : exec (.mpopc o) s = execMpopc o s := rfl
theorem exec_mpopcBits {o} (s : State) : exec (.mpopcBits o) s = execMpopcBits o s := rfl
theorem exec_mfirst {o} (s : State) : exec (.mfirst o) s = execMfirst o s := rfl
theorem exec_mspill {a} (s : State) : exec (.mspill a) s = execMspill a s := rfl
theorem exec_mfill {a} (s : State) : exec (.mfill a) s = execMfill a s := rfl
theorem exec_lexit {p} (s : State) : exec (.lexit p) s = execLexit p s := rfl
theorem exec_refill (s : State) : exec .refill s = execRefill s := rfl
theorem exec_sow {a p} (s : State) : exec (.sow a p) s = execSow a p s := rfl
theorem exec_vcall {a p} (s : State) : exec (.vcall a p) s = execVcall a p s := rfl
theorem exec_vadd {o} (s : State) : exec (.vadd o) s = execVadd o s := rfl
theorem exec_vsub {o} (s : State) : exec (.vsub o) s = execVsub o s := rfl
theorem exec_vmul {o} (s : State) : exec (.vmul o) s = execVmul o s := rfl
theorem exec_vmulh {o} (s : State) : exec (.vmulh o) s = execVmulh o s := rfl
theorem exec_vmad {o} (s : State) : exec (.vmad o) s = execVmad o s := rfl
theorem exec_vand {o} (s : State) : exec (.vand o) s = execVand o s := rfl
theorem exec_vor {o} (s : State) : exec (.vor o) s = execVor o s := rfl
theorem exec_vxor {o} (s : State) : exec (.vxor o) s = execVxor o s := rfl
theorem exec_vnot {o} (s : State) : exec (.vnot o) s = execVnot o s := rfl
theorem exec_vshl {o} (s : State) : exec (.vshl o) s = execVshl o s := rfl
theorem exec_vshr {o} (s : State) : exec (.vshr o) s = execVshr o s := rfl
theorem exec_vsra {o} (s : State) : exec (.vsra o) s = execVsra o s := rfl
theorem exec_vmin {o} (s : State) : exec (.vmin o) s = execVmin o s := rfl
theorem exec_vmax {o} (s : State) : exec (.vmax o) s = execVmax o s := rfl
theorem exec_vabs {o} (s : State) : exec (.vabs o) s = execVabs o s := rfl
theorem exec_vsel {o} (s : State) : exec (.vsel o) s = execVsel o s := rfl
theorem exec_vclz {o} (s : State) : exec (.vclz o) s = execVclz o s := rfl
theorem exec_vpopc {o} (s : State) : exec (.vpopc o) s = execVpopc o s := rfl
theorem exec_vsext {o} (s : State) : exec (.vsext o) s = execVsext o s := rfl
theorem exec_vzext {o} (s : State) : exec (.vzext o) s = execVzext o s := rfl
theorem exec_vbs {o} (s : State) : exec (.vbs o) s = execVbs o s := rfl
theorem exec_vext {o} (s : State) : exec (.vext o) s = execVext o s := rfl
theorem exec_vins {o} (s : State) : exec (.vins o) s = execVins o s := rfl
theorem exec_vfadd {o} (s : State) : exec (.vfadd o) s = execVfadd o s := rfl
theorem exec_vfsub {o} (s : State) : exec (.vfsub o) s = execVfsub o s := rfl
theorem exec_vfmul {o} (s : State) : exec (.vfmul o) s = execVfmul o s := rfl
theorem exec_vffma {o} (s : State) : exec (.vffma o) s = execVffma o s := rfl
theorem exec_vfdiv {o} (s : State) : exec (.vfdiv o) s = execVfdiv o s := rfl
theorem exec_vfsqrt {o} (s : State) : exec (.vfsqrt o) s = execVfsqrt o s := rfl
theorem exec_vfrcp {o} (s : State) : exec (.vfrcp o) s = execVfrcp o s := rfl
theorem exec_vfrsq {o} (s : State) : exec (.vfrsq o) s = execVfrsq o s := rfl
theorem exec_vfexp2 {o} (s : State) : exec (.vfexp2 o) s = execVfexp2 o s := rfl
theorem exec_vflog2 {o} (s : State) : exec (.vflog2 o) s = execVflog2 o s := rfl
theorem exec_vfmin {o} (s : State) : exec (.vfmin o) s = execVfmin o s := rfl
theorem exec_vfmax {o} (s : State) : exec (.vfmax o) s = execVfmax o s := rfl
theorem exec_vfround {o} (s : State) : exec (.vfround o) s = execVfround o s := rfl
theorem exec_vfcvt {o} (s : State) : exec (.vfcvt o) s = execVfcvt o s := rfl
theorem exec_vqblkExp {o} (s : State) : exec (.vqblkExp o) s = execVqblkExp o s := rfl
theorem exec_vqblkMan {o} (s : State) : exec (.vqblkMan o) s = execVqblkMan o s := rfl
theorem exec_vbpt {o} (s : State) : exec (.vbpt o) s = execVbpt o s := rfl
theorem exec_vhadd {o} (s : State) : exec (.vhadd o) s = execVhadd o s := rfl
theorem exec_vhmul {o} (s : State) : exec (.vhmul o) s = execVhmul o s := rfl
theorem exec_vhfma {o} (s : State) : exec (.vhfma o) s = execVhfma o s := rfl
theorem exec_vshuf {o} (s : State) : exec (.vshuf o) s = execVshuf o s := rfl
theorem exec_vbcast {o} (s : State) : exec (.vbcast o) s = execVbcast o s := rfl
theorem exec_vrot {o} (s : State) : exec (.vrot o) s = execVrot o s := rfl
theorem exec_vred {o} (s : State) : exec (.vred o) s = execVred o s := rfl
theorem exec_vscan {o} (s : State) : exec (.vscan o) s = execVscan o s := rfl
theorem exec_vmatch {o} (s : State) : exec (.vmatch o) s = execVmatch o s := rfl
theorem exec_vld {o} (s : State) : exec (.vld o) s = execVld o s := rfl
theorem exec_vst {o} (s : State) : exec (.vst o) s = execVst o s := rfl
theorem exec_vldu {o} (s : State) : exec (.vldu o) s = execVldu o s := rfl
theorem exec_lld {o} (s : State) : exec (.lld o) s = execLld o s := rfl
theorem exec_lst {o} (s : State) : exec (.lst o) s = execLst o s := rfl
theorem exec_vldacc {o} (s : State) : exec (.vldacc o) s = execVldacc o s := rfl
theorem exec_vaadd {o} (s : State) : exec (.vaadd o) s = execVaadd o s := rfl
theorem exec_vamin {o} (s : State) : exec (.vamin o) s = execVamin o s := rfl
theorem exec_vamax {o} (s : State) : exec (.vamax o) s = execVamax o s := rfl
theorem exec_vaand {o} (s : State) : exec (.vaand o) s = execVaand o s := rfl
theorem exec_vaor {o} (s : State) : exec (.vaor o) s = execVaor o s := rfl
theorem exec_vaxor {o} (s : State) : exec (.vaxor o) s = execVaxor o s := rfl
theorem exec_vaxch {o} (s : State) : exec (.vaxch o) s = execVaxch o s := rfl
theorem exec_vacas {o} (s : State) : exec (.vacas o) s = execVacas o s := rfl
theorem exec_ld {o} (s : State) : exec (.ld o) s = execLd o s := rfl
theorem exec_st {o} (s : State) : exec (.st o) s = execSt o s := rfl
theorem exec_lds {o} (s : State) : exec (.lds o) s = execLds o s := rfl
theorem exec_sts {o} (s : State) : exec (.sts o) s = execSts o s := rfl
theorem exec_ldf {o} (s : State) : exec (.ldf o) s = execLdf o s := rfl
theorem exec_ldff {o} (s : State) : exec (.ldff o) s = execLdff o s := rfl
theorem exec_stf {o} (s : State) : exec (.stf o) s = execStf o s := rfl
theorem exec_ste {o} (s : State) : exec (.ste o) s = execSte o s := rfl
theorem exec_steScalar {d} (s : State) : exec (.steScalar d) s = execSteScalar d s := rfl
theorem exec_steVector {d} (s : State) : exec (.steVector d) s = execSteVector d s := rfl
theorem exec_rput {o} (s : State) : exec (.rput o) s = execRput o s := rfl
theorem exec_sputfe {o} (s : State) : exec (.sputfe o) s = execSputfe o s := rfl
theorem exec_amsg {o} (s : State) : exec (.amsg o) s = execAmsg o s := rfl
theorem exec_aadd {o} (s : State) : exec (.aadd o) s = execAadd o s := rfl
theorem exec_amin {o} (s : State) : exec (.amin o) s = execAmin o s := rfl
theorem exec_amax {o} (s : State) : exec (.amax o) s = execAmax o s := rfl
theorem exec_aand {o} (s : State) : exec (.aand o) s = execAand o s := rfl
theorem exec_aor {o} (s : State) : exec (.aor o) s = execAor o s := rfl
theorem exec_axor {o} (s : State) : exec (.axor o) s = execAxor o s := rfl
theorem exec_axch {o} (s : State) : exec (.axch o) s = execAxch o s := rfl
theorem exec_acas {o} (s : State) : exec (.acas o) s = execAcas o s := rfl
theorem exec_fence {o} (s : State) : exec (.fence o) s = execFence o s := rfl
theorem exec_l1wb {o} (s : State) : exec (.l1wb o) s = execL1wb o s := rfl
theorem exec_l1inv {o} (s : State) : exec (.l1inv o) s = execL1inv o s := rfl
theorem exec_l1wbi {o} (s : State) : exec (.l1wbi o) s = execL1wbi o s := rfl
theorem exec_cdcf {o} (s : State) : exec (.cdcf o) s = execCdcf o s := rfl
theorem exec_l1wbAll (s : State) : exec .l1wbAll s = execL1wbAll s := rfl
theorem exec_l1invAll (s : State) : exec .l1invAll s = execL1invAll s := rfl
theorem exec_l1wbiAll (s : State) : exec .l1wbiAll s = execL1wbiAll s := rfl
theorem exec_cdcfAll (s : State) : exec .cdcfAll s = execCdcfAll s := rfl
theorem exec_fenceI (s : State) : exec .fenceI s = execFenceI s := rfl
theorem exec_pld {d b n} (s : State) : exec (.pld d b n) s = execPld d b n s := rfl
theorem exec_pmov {o} (s : State) : exec (.pmov o) s = execPmov o s := rfl
theorem exec_padd {o} (s : State) : exec (.padd o) s = execPadd o s := rfl
theorem exec_pnarrow {o} (s : State) : exec (.pnarrow o) s = execPnarrow o s := rfl
theorem exec_pperm {o} (s : State) : exec (.pperm o) s = execPperm o s := rfl
theorem exec_pget {o} (s : State) : exec (.pget o) s = execPget o s := rfl
theorem exec_ptest {o} (s : State) : exec (.ptest o) s = execPtest o s := rfl
theorem exec_barArrive {o} (s : State) : exec (.barArrive o) s = execBarArrive o s := rfl
theorem exec_barWait {o} (s : State) : exec (.barWait o) s = execBarWait o s := rfl
theorem exec_barSync {o} (s : State) : exec (.barSync o) s = execBarSync o s := rfl
theorem exec_gbar (s : State) : exec .gbar s = execGbar s := rfl
theorem exec_expect {o} (s : State) : exec (.expect o) s = execExpect o s := rfl
theorem exec_cntDec {a b} (s : State) : exec (.cntDec a b) s = execCntDec a b s := rfl
theorem exec_cntWait {o} (s : State) : exec (.cntWait o) s = execCntWait o s := rfl
theorem exec_tsendNew {o} (s : State) : exec (.tsendNew o) s = execTsendNew o s := rfl
theorem exec_tsend {a b} (s : State) : exec (.tsend a b) s = execTsend a b s := rfl
theorem exec_launch {a} (s : State) : exec (.launch a) s = execLaunch a s := rfl
theorem exec_rqPush {a} (s : State) : exec (.rqPush a) s = execRqPush a s := rfl
theorem exec_rqPop {o} (s : State) : exec (.rqPop o) s = execRqPop o s := rfl
theorem exec_slotStart {o} (s : State) : exec (.slotStart o) s = execSlotStart o s := rfl
theorem exec_slotStartTask {o} (s : State) : exec (.slotStartTask o) s = execSlotStartTask o s := rfl
theorem exec_slotReap {o} (s : State) : exec (.slotReap o) s = execSlotReap o s := rfl
theorem exec_slotSpill {o} (s : State) : exec (.slotSpill o) s = execSlotSpill o s := rfl
theorem exec_slotLoad {o} (s : State) : exec (.slotLoad o) s = execSlotLoad o s := rfl
theorem exec_yield (s : State) : exec .yield s = execYield s := rfl
theorem exec_wfi (s : State) : exec .wfi s = execWfi s := rfl
theorem exec_sys {n} (s : State) : exec (.sys n) s = execSys n s := rfl
theorem exec_trap {a n} (s : State) : exec (.trap a n) s = execTrap a n s := rfl
theorem exec_ebreak {n} (s : State) : exec (.ebreak n) s = execEbreak n s := rfl
theorem exec_eret (s : State) : exec .eret s = execEret s := rfl
theorem exec_cget {d c} (s : State) : exec (.cget d c) s = execCget d c s := rfl
theorem exec_cput {c a} (s : State) : exec (.cput c a) s = execCput c a s := rfl
theorem exec_cswap {d c a} (s : State) : exec (.cswap d c a) s = execCswap d c a s := rfl
theorem exec_cfq {d n} (s : State) : exec (.cfq d n) s = execCfq d n s := rfl
theorem exec_tlbInvPage {a b} (s : State) : exec (.tlbInvPage a b) s = execTlbInvPage a b s := rfl
theorem exec_tlbInvSpace {a b} (s : State) : exec (.tlbInvSpace a b) s = execTlbInvSpace a b s := rfl
theorem exec_tlbInvAll {a b} (s : State) : exec (.tlbInvAll a b) s = execTlbInvAll a b s := rfl
theorem exec_hhDsc {a b} (s : State) : exec (.hhDsc a b) s = execHhDsc a b s := rfl
theorem exec_hhZero {a b} (s : State) : exec (.hhZero a b) s = execHhZero a b s := rfl
theorem exec_cpyMl {o} (s : State) : exec (.cpyMl o) s = execCpyMl o s := rfl
theorem exec_cpyLm {o} (s : State) : exec (.cpyLm o) s = execCpyLm o s := rfl
theorem exec_cpyLl {o} (s : State) : exec (.cpyLl o) s = execCpyLl o s := rfl
theorem exec_cpyMr {o} (s : State) : exec (.cpyMr o) s = execCpyMr o s := rfl
theorem exec_cpyWait {a} (s : State) : exec (.cpyWait a) s = execCpyWait a s := rfl
theorem exec_fwTake {d f} (s : State) : exec (.fwTake d f) s = execFwTake d f s := rfl
theorem exec_fwGive {f a} (s : State) : exec (.fwGive f a) s = execFwGive f a s := rfl
theorem exec_fwRes {d f} (s : State) : exec (.fwRes d f) s = execFwRes d f s := rfl
theorem exec_fwResDef {f a} (s : State) : exec (.fwResDef f a) s = execFwResDef f a s := rfl
theorem exec_fwPub {f a} (s : State) : exec (.fwPub f a) s = execFwPub f a s := rfl
theorem exec_trlSetCounter {n a} (s : State) : exec (.trlSetCounter n a) s = execTrlSetCounter n a s := rfl
theorem exec_trlSetTerm {n a b} (s : State) : exec (.trlSetTerm n a b) s = execTrlSetTerm n a b s := rfl
theorem exec_trlClrCounter {n} (s : State) : exec (.trlClrCounter n) s = execTrlClrCounter n s := rfl
theorem exec_trlClrTerm {n} (s : State) : exec (.trlClrTerm n) s = execTrlClrTerm n s := rfl
theorem exec_xlda {o} (s : State) : exec (.xlda o) s = execXlda o s := rfl
theorem exec_xldb {o} (s : State) : exec (.xldb o) s = execXldb o s := rfl
theorem exec_xmul {o} (s : State) : exec (.xmul o) s = execXmul o s := rfl
theorem exec_xfold {o} (s : State) : exec (.xfold o) s = execXfold o s := rfl
theorem exec_xcvt {o} (s : State) : exec (.xcvt o) s = execXcvt o s := rfl
theorem exec_xzero {tile} (s : State) : exec (.xzero tile) s = execXzero tile s := rfl
theorem exec_xrow {first count} (s : State) : exec (.xrow first count) s = execXrow first count s := rfl
theorem exec_xcol {first count} (s : State) : exec (.xcol first count) s = execXcol first count s := rfl
theorem exec_xfmt {ka kb} (s : State) : exec (.xfmt ka kb) s = execXfmt ka kb s := rfl
theorem exec_xwait {n} (s : State) : exec (.xwait n) s = execXwait n s := rfl
theorem exec_xpost {n} (s : State) : exec (.xpost n) s = execXpost n s := rfl
theorem exec_xloopBegin {count} (s : State) : exec (.xloopBegin count) s = execXloopBegin count s := rfl
theorem exec_xloop {off} (s : State) : exec (.xloop off) s = execXloop off s := rfl
theorem exec_xend (s : State) : exec .xend s = execXend s := rfl
theorem exec_clauseFetch {a} (s : State) : exec (.clauseFetch a) s = execClauseFetch a s := rfl
theorem exec_parkResume {slot} (s : State) : exec (.parkResume slot) s = execParkResume slot s := rfl
theorem exec_waitLimitExpiry {slot} (s : State) : exec (.waitLimitExpiry slot) s = execWaitLimitExpiry slot s := rfl
theorem exec_timerPending {slot} (s : State) : exec (.timerPending slot) s = execTimerPending slot s := rfl
theorem exec_interruptEntry {slot} (s : State) : exec (.interruptEntry slot) s = execInterruptEntry slot s := rfl
theorem exec_spill {slot} (s : State) : exec (.spill slot) s = execSpill slot s := rfl
theorem exec_slotFreed {slot} (s : State) : exec (.slotFreed slot) s = execSlotFreed slot s := rfl
theorem exec_rputDelivery {id} (s : State) : exec (.rputDelivery id) s = execRputDelivery id s := rfl
theorem exec_sputfeDelivery {id} (s : State) : exec (.sputfeDelivery id) s = execSputfeDelivery id s := rfl
theorem exec_remoteWriteRelease {id} (s : State) : exec (.remoteWriteRelease id) s = execRemoteWriteRelease id s := rfl
theorem exec_amsgDelivery {id} (s : State) : exec (.amsgDelivery id) s = execAmsgDelivery id s := rfl
theorem exec_activeMessageHandlerStart {core} (s : State) : exec (.activeMessageHandlerStart core) s = execActiveMessageHandlerStart core s := rfl
theorem exec_messageDelivery {id} (s : State) : exec (.messageDelivery id) s = execMessageDelivery id s := rfl
theorem exec_withdrawalRequest {id} (s : State) : exec (.withdrawalRequest id) s = execWithdrawalRequest id s := rfl
theorem exec_counterDecrement {id} (s : State) : exec (.counterDecrement id) s = execCounterDecrement id s := rfl
theorem exec_taskDecrement {id} (s : State) : exec (.taskDecrement id) s = execTaskDecrement id s := rfl
theorem exec_loadBalanceExchange (s : State) : exec .loadBalanceExchange s = execLoadBalanceExchange s := rfl
theorem exec_longWaitSpill {slot} (s : State) : exec (.longWaitSpill slot) s = execLongWaitSpill slot s := rfl
theorem exec_faultRingRetry {die part} (s : State) : exec (.faultRingRetry die part) s = execFaultRingRetry die part s := rfl
theorem exec_frreply {die part v} (s : State) : exec (.frreply die part v) s = execFrreply die part v s := rfl
theorem exec_watchdogExpiry {core} (s : State) : exec (.watchdogExpiry core) s = execWatchdogExpiry core s := rfl
theorem exec_coreReturnToService {core} (s : State) : exec (.coreReturnToService core) s = execCoreReturnToService core s := rfl
theorem exec_notifyKick {part q v} (s : State) : exec (.notifyKick part q v) s = execNotifyKick part q v s := rfl
theorem exec_queueRegister {part q ring ctl} (s : State) : exec (.queueRegister part q ring ctl) s = execQueueRegister part q ring ctl s := rfl
theorem exec_queueMap {part q} (s : State) : exec (.queueMap part q) s = execQueueMap part q s := rfl
theorem exec_gang {part q} (s : State) : exec (.gang part q) s = execGang part q s := rfl
theorem exec_wait {part q} (s : State) : exec (.wait part q) s = execWait part q s := rfl
theorem exec_signal {part q} (s : State) : exec (.signal part q) s = execSignal part q s := rfl
theorem exec_edge {part q} (s : State) : exec (.edge part q) s = execEdge part q s := rfl
theorem exec_mark {part q} (s : State) : exec (.mark part q) s = execMark part q s := rfl
theorem exec_edgeFlushComplete {part q} (s : State) : exec (.edgeFlushComplete part q) s = execEdgeFlushComplete part q s := rfl
theorem exec_seedTrayDrain {core} (s : State) : exec (.seedTrayDrain core) s = execSeedTrayDrain core s := rfl
theorem exec_gangRelease {g} (s : State) : exec (.gangRelease g) s = execGangRelease g s := rfl
theorem exec_signalWindowSet {part idx v} (s : State) : exec (.signalWindowSet part idx v) s = execSignalWindowSet part idx v s := rfl
theorem exec_signalWindowAdd {part idx v} (s : State) : exec (.signalWindowAdd part idx v) s = execSignalWindowAdd part idx v s := rfl
theorem exec_doorbell {part} (s : State) : exec (.doorbell part) s = execDoorbell part s := rfl
theorem exec_commandAcceptance {cl} (s : State) : exec (.commandAcceptance cl) s = execCommandAcceptance cl s := rfl
theorem exec_commandStart {cl seq} (s : State) : exec (.commandStart cl seq) s = execCommandStart cl seq s := rfl
theorem exec_commandCompletion {cl seq} (s : State) : exec (.commandCompletion cl seq) s = execCommandCompletion cl seq s := rfl
theorem exec_combiningWindowClose {cl} (s : State) : exec (.combiningWindowClose cl) s = execCombiningWindowClose cl s := rfl
theorem exec_engineStateError {cl} (s : State) : exec (.engineStateError cl) s = execEngineStateError cl s := rfl
theorem exec_pageTableWalk {core part asid va write user fetch} (s : State) : exec (.pageTableWalk core part asid va write user fetch) s = execPageTableWalk core part asid va write user fetch s := rfl
theorem exec_l1ReplacementWriteback {core sector} (s : State) : exec (.l1ReplacementWriteback core sector) s = execL1ReplacementWriteback core sector s := rfl
theorem exec_peek {core blk} (s : State) : exec (.peek core blk) s = execPeek core blk s := rfl
theorem exec_treq {core blk} (s : State) : exec (.treq core blk) s = execTreq core blk s := rfl
theorem exec_treqx {core blk} (s : State) : exec (.treqx core blk) s = execTreqx core blk s := rfl
theorem exec_tcoll {id} (s : State) : exec (.tcoll id) s = execTcoll id s := rfl
theorem exec_tokdata {id} (s : State) : exec (.tokdata id) s = execTokdata id s := rfl
theorem exec_transientRequestReissue {core blk} (s : State) : exec (.transientRequestReissue core blk) s = execTransientRequestReissue core blk s := rfl
theorem exec_persistentRequest {core blk} (s : State) : exec (.persistentRequest core blk) s = execPersistentRequest core blk s := rfl
theorem exec_persistentActivation {die blk} (s : State) : exec (.persistentActivation die blk) s = execPersistentActivation die blk s := rfl
theorem exec_deactivation {core blk} (s : State) : exec (.deactivation core blk) s = execDeactivation core blk s := rfl
theorem exec_tokenRecount {die blk} (s : State) : exec (.tokenRecount die blk) s = execTokenRecount die blk s := rfl
theorem exec_rds {die blk} (s : State) : exec (.rds die blk) s = execRds die blk s := rfl
theorem exec_rdx {die blk} (s : State) : exec (.rdx die blk) s = execRdx die blk s := rfl
theorem exec_upg {die blk} (s : State) : exec (.upg die blk) s = execUpg die blk s := rfl
theorem exec_fwds {id} (s : State) : exec (.fwds id) s = execFwds id s := rfl
theorem exec_fwdx {id} (s : State) : exec (.fwdx id) s = execFwdx id s := rfl
theorem exec_inv {id} (s : State) : exec (.inv id) s = execInv id s := rfl
theorem exec_invAck {id} (s : State) : exec (.invAck id) s = execInvAck id s := rfl
theorem exec_fwdAck {id} (s : State) : exec (.fwdAck id) s = execFwdAck id s := rfl
theorem exec_datas {id} (s : State) : exec (.datas id) s = execDatas id s := rfl
theorem exec_datax {id} (s : State) : exec (.datax id) s = execDatax id s := rfl
theorem exec_upgack {id} (s : State) : exec (.upgack id) s = execUpgack id s := rfl
theorem exec_cmp {id} (s : State) : exec (.cmp id) s = execCmp id s := rfl
theorem exec_notei {id} (s : State) : exec (.notei id) s = execNotei id s := rfl
theorem exec_notedat {id} (s : State) : exec (.notedat id) s = execNotedat id s := rfl
theorem exec_noteack {id} (s : State) : exec (.noteack id) s = execNoteack id s := rfl
theorem exec_gone {id} (s : State) : exec (.gone id) s = execGone id s := rfl
theorem exec_binv {id} (s : State) : exec (.binv id) s = execBinv id s := rfl
theorem exec_binvack {id} (s : State) : exec (.binvack id) s = execBinvack id s := rfl
theorem exec_binvdata {id} (s : State) : exec (.binvdata id) s = execBinvdata id s := rfl
theorem exec_wrhh {id} (s : State) : exec (.wrhh id) s = execWrhh id s := rfl
theorem exec_wrack {id} (s : State) : exec (.wrack id) s = execWrack id s := rfl
theorem exec_noticeAnomalyTimeout {blk} (s : State) : exec (.noticeAnomalyTimeout blk) s = execNoticeAnomalyTimeout blk s := rfl
theorem exec_transactionOverdue {blk} (s : State) : exec (.transactionOverdue blk) s = execTransactionOverdue blk s := rfl
theorem exec_bisnpdata {line} (s : State) : exec (.bisnpdata line) s = execBisnpdata line s := rfl
theorem exec_bisnpinv {line} (s : State) : exec (.bisnpinv line) s = execBisnpinv line s := rfl
theorem exec_birsp {line shared} (s : State) : exec (.birsp line shared) s = execBirsp line shared s := rfl
theorem exec_biconflict {line} (s : State) : exec (.biconflict line) s = execBiconflict line s := rfl
theorem exec_backInvalidationTimeout {line} (s : State) : exec (.backInvalidationTimeout line) s = execBackInvalidationTimeout line s := rfl
theorem exec_hostMemRead {die port line mf} (s : State) : exec (.hostMemRead die port line mf) s = execHostMemRead die port line mf s := rfl
theorem exec_hostMemWrite {die port line mask data md} (s : State) : exec (.hostMemWrite die port line mask data md) s = execHostMemWrite die port line mask data md s := rfl
theorem exec_hostBlockFill {blk write pois} (s : State) : exec (.hostBlockFill blk write pois) s = execHostBlockFill blk write pois s := rfl
theorem exec_h2dSnoop {line invalidate} (s : State) : exec (.h2dSnoop line invalidate) s = execH2dSnoop line invalidate s := rfl
theorem exec_peerUioWrite {die port addr len data pois} (s : State) : exec (.peerUioWrite die port addr len data pois) s = execPeerUioWrite die port addr len data pois s := rfl
theorem exec_peerUioRead {die port addr len} (s : State) : exec (.peerUioRead die port addr len) s = execPeerUioRead die port addr len s := rfl
theorem exec_uioTimeout {a} (s : State) : exec (.uioTimeout a) s = execUioTimeout a s := rfl
theorem exec_migctlGo {die v} (s : State) : exec (.migctlGo die v) s = execMigctlGo die v s := rfl
theorem exec_migrationPart {die} (s : State) : exec (.migrationPart die) s = execMigrationPart die s := rfl
theorem exec_redirectForward {core pa} (s : State) : exec (.redirectForward core pa) s = execRedirectForward core pa s := rfl
theorem exec_redirectEntryFree {die idx} (s : State) : exec (.redirectEntryFree die idx) s = execRedirectEntryFree die idx s := rfl
theorem exec_hhresWrite {die part v} (s : State) : exec (.hhresWrite die part v) s = execHhresWrite die part v s := rfl
theorem exec_hhfbWrite {die part v} (s : State) : exec (.hhfbWrite die part v) s = execHhfbWrite die part v s := rfl
theorem exec_rowCapture {die row} (s : State) : exec (.rowCapture die row) s = execRowCapture die row s := rfl
theorem exec_hotRowWindowEnd {die} (s : State) : exec (.hotRowWindowEnd die) s = execHotRowWindowEnd die s := rfl
theorem exec_hbmScrub {die} (s : State) : exec (.hbmScrub die) s = execHbmScrub die s := rfl
theorem exec_ckctlGo {v} (s : State) : exec (.ckctlGo v) s = execCkctlGo v s := rfl
theorem exec_checkpointCut {die} (s : State) : exec (.checkpointCut die) s = execCheckpointCut die s := rfl
theorem exec_checkpointPartCopy {die unit} (s : State) : exec (.checkpointPartCopy die unit) s = execCheckpointPartCopy die unit s := rfl
theorem exec_checkpointEnd (s : State) : exec .checkpointEnd s = execCheckpointEnd s := rfl
theorem exec_snapctlArm {die} (s : State) : exec (.snapctlArm die) s = execSnapctlArm die s := rfl
theorem exec_snapctlNow {die} (s : State) : exec (.snapctlNow die) s = execSnapctlNow die s := rfl
theorem exec_snapctlDoneClear {die} (s : State) : exec (.snapctlDoneClear die) s = execSnapctlDoneClear die s := rfl
theorem exec_snapshotLatch {die} (s : State) : exec (.snapshotLatch die) s = execSnapshotLatch die s := rfl
theorem exec_rlogctlWrapClear {core} (s : State) : exec (.rlogctlWrapClear core) s = execRlogctlWrapClear core s := rfl
theorem exec_pctlLiveSet {die part} (s : State) : exec (.pctlLiveSet die part) s = execPctlLiveSet die part s := rfl
theorem exec_pctlLiveClear {die part} (s : State) : exec (.pctlLiveClear die part) s = execPctlLiveClear die part s := rfl
theorem exec_prstctlGo {die part} (s : State) : exec (.prstctlGo die part) s = execPrstctlGo die part s := rfl
theorem exec_prstctlDoneClear {die part} (s : State) : exec (.prstctlDoneClear die part) s = execPrstctlDoneClear die part s := rfl
theorem exec_partitionResetComplete {part} (s : State) : exec (.partitionResetComplete part) s = execPartitionResetComplete part s := rfl
theorem exec_pswctlSwapOut {die part v} (s : State) : exec (.pswctlSwapOut die part v) s = execPswctlSwapOut die part v s := rfl
theorem exec_pswctlResume {die part v} (s : State) : exec (.pswctlResume die part v) s = execPswctlResume die part v s := rfl
theorem exec_swapComplete {part} (s : State) : exec (.swapComplete part) s = execSwapComplete part s := rfl
theorem exec_mgmtRegisterWrite {die off v} (s : State) : exec (.mgmtRegisterWrite die off v) s = execMgmtRegisterWrite die off v s := rfl
theorem exec_dieLinkModuleRetire {die link mod} (s : State) : exec (.dieLinkModuleRetire die link mod) s = execDieLinkModuleRetire die link mod s := rfl
theorem exec_dieLinkFailure {die link} (s : State) : exec (.dieLinkFailure die link) s = execDieLinkFailure die link s := rfl
theorem exec_dieIsolation {die} (s : State) : exec (.dieIsolation die) s = execDieIsolation die s := rfl
theorem exec_cxlLinkDown {die port} (s : State) : exec (.cxlLinkDown die port) s = execCxlLinkDown die port s := rfl
theorem exec_cxlLinkUp {die port speed width} (s : State) : exec (.cxlLinkUp die port speed width) s = execCxlLinkUp die port speed width s := rfl
theorem exec_cxlViralEntry {die port err} (s : State) : exec (.cxlViralEntry die port err) s = execCxlViralEntry die port err s := rfl
theorem exec_cxlpsViralClear {die port} (s : State) : exec (.cxlpsViralClear die port) s = execCxlpsViralClear die port s := rfl
theorem exec_thermalClockStep {die} (s : State) : exec (.thermalClockStep die) s = execThermalClockStep die s := rfl
theorem exec_thermalCritical {die} (s : State) : exec (.thermalCritical die) s = execThermalCritical die s := rfl
theorem exec_powerLimitInput {on} (s : State) : exec (.powerLimitInput on) s = execPowerLimitInput on s := rfl
theorem exec_thermalTrip {die} (s : State) : exec (.thermalTrip die) s = execThermalTrip die s := rfl
theorem exec_deviceReset (s : State) : exec .deviceReset s = execDeviceReset s := rfl
theorem exec_bootRom {die} (s : State) : exec (.bootRom die) s = execBootRom die s := rfl
theorem exec_gtcStart (s : State) : exec .gtcStart s = execGtcStart s := rfl
theorem exec_gtcTick (s : State) : exec .gtcTick s = execGtcTick s := rfl
theorem exec_clusterEnableStep (s : State) : exec .clusterEnableStep s = execClusterEnableStep s := rfl
theorem exec_spdmMeasurementRequest {die nonce} (s : State) : exec (.spdmMeasurementRequest die nonce) s = execSpdmMeasurementRequest die nonce s := rfl
theorem exec_dieLinkCrcError {die link mod} (s : State) : exec (.dieLinkCrcError die link mod) s = execDieLinkCrcError die link mod s := rfl
theorem exec_dieLinkRetrainDone {die link} (s : State) : exec (.dieLinkRetrainDone die link) s = execDieLinkRetrainDone die link s := rfl
theorem exec_linkLayerRetry {die port} (s : State) : exec (.linkLayerRetry die port) s = execLinkLayerRetry die port s := rfl
theorem exec_acceptanceOrRefusal {id} (s : State) : exec (.acceptanceOrRefusal id) s = execAcceptanceOrRefusal id s := rfl
theorem exec_queueRemove {part q} (s : State) : exec (.queueRemove part q) s = execQueueRemove part q s := rfl

end Sys2Proof.Machine
end

