-- ==== Sys2Proof/Laws/Map.lean ====
section
/-! SUPPORT. Sparse maps: what a read gives after a write, and the canonical form that writes keep. -/

namespace Sys2Proof.Machine

variable {α : Type}

@[simp] theorem mget_mput_same (d : α) (m : SMap α) (k : Nat) (v : α) : mget d (mput m k v) k = v := by
  induction m with
  | nil => simp [mput, mget]
  | cons e t ih =>
    obtain ⟨k', v'⟩ := e
    simp only [mput]
    split
    · simp_all [mget]
    · split <;> simp_all [mget]
theorem mget_mput_ne (d : α) (m : SMap α) {k j : Nat} (v : α) (h : j ≠ k) : mget d (mput m k v) j = mget d m j := by
  induction m with
  | nil => simp [mput, mget, h]
  | cons e t ih =>
    obtain ⟨k', v'⟩ := e
    simp only [mput]
    split
    · simp_all [mget]
    · split <;> simp_all [mget]
@[simp] theorem mput_mput (m : SMap α) (k : Nat) (v w : α) : mput (mput m k v) k w = mput m k w := by
  induction m with
  | nil => simp [mput]
  | cons e t ih =>
    obtain ⟨k', v'⟩ := e
    simp only [mput]
    split
    · simp [mput]
    · split <;> simp_all [mput]
@[simp] theorem mget_mdel_same (d : α) (m : SMap α) (k : Nat) : mget d (mdel m k) k = d := by
  induction m with
  | nil => rfl
  | cons e t ih => obtain ⟨k', v'⟩ := e; simp only [mdel]; split <;> simp_all [mget]
theorem mget_mdel_ne (d : α) (m : SMap α) {k j : Nat} (h : j ≠ k) : mget d (mdel m k) j = mget d m j := by
  induction m with
  | nil => rfl
  | cons e t ih => obtain ⟨k', v'⟩ := e; simp only [mdel]; split <;> simp_all [mget]
@[simp] theorem mget_mset_same [DecidableEq α] (d : α) (m : SMap α) (k : Nat) (v : α) : mget d (mset d m k v) k = v := by
  unfold mset; split <;> simp_all
theorem mget_mset_ne [DecidableEq α] (d : α) (m : SMap α) {k j : Nat} (v : α) (h : j ≠ k) : mget d (mset d m k v) j = mget d m j := by
  unfold mset; split
  · exact mget_mdel_ne d m h
  · exact mget_mput_ne d m v h
/-- A read after a write, in one equation. -/
theorem mget_mset [DecidableEq α] (d : α) (m : SMap α) (k j : Nat) (v : α) : mget d (mset d m k v) j = if j = k then v else mget d m j := by
  split
  · subst j; simp
  · exact mget_mset_ne d m v ‹_›

/-! ### The canonical form -/

/-- Every key of the map is above `b`. -/
def Above (b : Nat) (m : SMap α) : Prop := ∀ e ∈ m, b < e.1
/-- The canonical form, by its first entry. -/
theorem mwf_cons [DecidableEq α] (d : α) (k : Nat) (v : α) (t : SMap α) :
    mwf d ((k, v) :: t) = true ↔ v ≠ d ∧ Above k t ∧ mwf d t = true := by
  induction t generalizing k v with
  | nil => simp [mwf, Above]
  | cons e t ih =>
    obtain ⟨k', v'⟩ := e
    simp only [mwf, Bool.and_eq_true, decide_eq_true_eq]
    rw [ih k' v']
    constructor
    · rintro ⟨⟨h1, h2⟩, h3, h4, h5⟩
      exact ⟨h2, fun e he => by rcases List.mem_cons.1 he with rfl | he; · exact h1
                                · exact Nat.lt_trans h1 (h4 e he), h3, h4, h5⟩
    · rintro ⟨h2, h1, h3, h4, h5⟩
      exact ⟨⟨h1 (k', v') (by simp), h2⟩, h3, h4, h5⟩
@[simp] theorem mwf_nil [DecidableEq α] (d : α) : mwf d ([] : SMap α) = true := rfl
theorem mem_mput {m : SMap α} {k : Nat} {v : α} {e : Nat × α} (h : e ∈ mput m k v) : e = (k, v) ∨ e ∈ m := by
  induction m with
  | nil => simpa [mput] using h
  | cons f t ih =>
    obtain ⟨k', v'⟩ := f
    simp only [mput] at h
    split at h
    · simpa using h
    · split at h
      · rcases List.mem_cons.1 h with h | h
        · exact .inl h
        · exact .inr (by simp [h])
      · rcases List.mem_cons.1 h with h | h
        · exact .inr (by simp [h])
        · exact (ih h).imp id (by intro h; simp [h])
theorem mem_mdel {m : SMap α} {k : Nat} {e : Nat × α} (h : e ∈ mdel m k) : e ∈ m := by
  induction m with
  | nil => simp [mdel] at h
  | cons f t ih =>
    obtain ⟨k', v'⟩ := f
    simp only [mdel] at h
    split at h
    · simp [ih h]
    · rcases List.mem_cons.1 h with h | h
      · simp [h]
      · simp [ih h]
theorem mwf_mput [DecidableEq α] {d : α} {m : SMap α} {k : Nat} {v : α} (h : mwf d m = true) (hv : v ≠ d) : mwf d (mput m k v) = true := by
  induction m with
  | nil => simpa [mput, mwf] using hv
  | cons e t ih =>
    obtain ⟨k', v'⟩ := e
    obtain ⟨h1, h2, h3⟩ := (mwf_cons d k' v' t).1 h
    simp only [mput]
    split
    · rename_i hk
      refine (mwf_cons ..).2 ⟨hv, fun e he => ?_, h⟩
      rcases List.mem_cons.1 he with rfl | he
      · exact hk
      · exact Nat.lt_trans hk (h2 e he)
    · split
      · subst k; exact (mwf_cons ..).2 ⟨hv, h2, h3⟩
      · refine (mwf_cons ..).2 ⟨h1, fun e he => ?_, ih h3⟩
        rcases mem_mput he with rfl | he
        · show k' < k; omega
        · exact h2 e he
theorem mwf_mdel [DecidableEq α] {d : α} {m : SMap α} {k : Nat} (h : mwf d m = true) : mwf d (mdel m k) = true := by
  induction m with
  | nil => rfl
  | cons e t ih =>
    obtain ⟨k', v'⟩ := e
    obtain ⟨h1, h2, h3⟩ := (mwf_cons d k' v' t).1 h
    simp only [mdel]
    split
    · exact ih h3
    · exact (mwf_cons ..).2 ⟨h1, fun e he => h2 e (mem_mdel he), ih h3⟩
/-- A write keeps the canonical form. -/
theorem mwf_mset [DecidableEq α] {d : α} {m : SMap α} {k : Nat} {v : α} (h : mwf d m = true) : mwf d (mset d m k v) = true := by
  unfold mset; split
  · exact mwf_mdel h
  · exact mwf_mput h ‹_›
/-- So does taking entries out. -/
theorem mwf_filter [DecidableEq α] {d : α} {m : SMap α} (p : Nat × α → Bool) (h : mwf d m = true) : mwf d (m.filter p) = true := by
  induction m with
  | nil => rfl
  | cons e t ih =>
    obtain ⟨k', v'⟩ := e
    obtain ⟨h1, h2, h3⟩ := (mwf_cons d k' v' t).1 h
    rw [List.filter_cons]
    split
    · exact (mwf_cons ..).2 ⟨h1, fun e he => h2 e (List.mem_filter.1 he).1, ih h3⟩
    · exact ih h3

end Sys2Proof.Machine
end

