-- ==== Sys2Proof/Laws/State.lean ====
section
/-! SUPPORT. What reading a field of the state gives after each update: one lemma per field and update, and reads and writes of the maps. -/

namespace Sys2Proof.Machine

/-! ### Reading a slot, core, cluster or die after it was written -/
@[simp] theorem State.setSlot_slot (s : State) (i : Nat) (x : Slot) : (s.setSlot i x).slot i = x := by simp [State.slot, State.setSlot]
theorem State.setSlot_slot_ne (s : State) (x : Slot) {i j : Nat} (h : j ≠ i) : (s.setSlot i x).slot j = s.slot j := mget_mput_ne _ _ _ h
@[simp] theorem State.setSlot_setSlot (s : State) (i : Nat) (x y : Slot) : (s.setSlot i x).setSlot i y = s.setSlot i y := by simp [State.setSlot]
@[simp] theorem State.modSlot_slot (s : State) (i : Nat) (f : Slot → Slot) : (s.modSlot i f).slot i = f (s.slot i) := State.setSlot_slot ..
theorem State.modSlot_slot_ne (s : State) (f : Slot → Slot) {i j : Nat} (h : j ≠ i) : (s.modSlot i f).slot j = s.slot j := State.setSlot_slot_ne _ _ h
@[simp] theorem State.modSlot_modSlot (s : State) (i : Nat) (f g : Slot → Slot) : (s.modSlot i f).modSlot i g = s.modSlot i (fun x => g (f x)) := by
  simp [State.modSlot]
@[simp] theorem State.setSlot_core (s : State) (i j : Nat) (x : Slot) : (s.setSlot i x).core j = s.core j := rfl
@[simp] theorem State.modSlot_core (s : State) (i j : Nat) (f : Slot → Slot) : (s.modSlot i f).core j = s.core j := rfl
@[simp] theorem State.setSlot_cluster (s : State) (i j : Nat) (x : Slot) : (s.setSlot i x).cluster j = s.cluster j := rfl
@[simp] theorem State.modSlot_cluster (s : State) (i j : Nat) (f : Slot → Slot) : (s.modSlot i f).cluster j = s.cluster j := rfl
@[simp] theorem State.setSlot_die (s : State) (i j : Nat) (x : Slot) : (s.setSlot i x).die j = s.die j := rfl
@[simp] theorem State.modSlot_die (s : State) (i j : Nat) (f : Slot → Slot) : (s.modSlot i f).die j = s.die j := rfl
@[simp] theorem State.setCore_core (s : State) (i : Nat) (x : Core) : (s.setCore i x).core i = x := by simp [State.core, State.setCore]
theorem State.setCore_core_ne (s : State) (x : Core) {i j : Nat} (h : j ≠ i) : (s.setCore i x).core j = s.core j := mget_mput_ne _ _ _ h
@[simp] theorem State.setCore_setCore (s : State) (i : Nat) (x y : Core) : (s.setCore i x).setCore i y = s.setCore i y := by simp [State.setCore]
@[simp] theorem State.modCore_core (s : State) (i : Nat) (f : Core → Core) : (s.modCore i f).core i = f (s.core i) := State.setCore_core ..
theorem State.modCore_core_ne (s : State) (f : Core → Core) {i j : Nat} (h : j ≠ i) : (s.modCore i f).core j = s.core j := State.setCore_core_ne _ _ h
@[simp] theorem State.modCore_modCore (s : State) (i : Nat) (f g : Core → Core) : (s.modCore i f).modCore i g = s.modCore i (fun x => g (f x)) := by
  simp [State.modCore]
@[simp] theorem State.setCore_slot (s : State) (i j : Nat) (x : Core) : (s.setCore i x).slot j = s.slot j := rfl
@[simp] theorem State.modCore_slot (s : State) (i j : Nat) (f : Core → Core) : (s.modCore i f).slot j = s.slot j := rfl
@[simp] theorem State.setCore_cluster (s : State) (i j : Nat) (x : Core) : (s.setCore i x).cluster j = s.cluster j := rfl
@[simp] theorem State.modCore_cluster (s : State) (i j : Nat) (f : Core → Core) : (s.modCore i f).cluster j = s.cluster j := rfl
@[simp] theorem State.setCore_die (s : State) (i j : Nat) (x : Core) : (s.setCore i x).die j = s.die j := rfl
@[simp] theorem State.modCore_die (s : State) (i j : Nat) (f : Core → Core) : (s.modCore i f).die j = s.die j := rfl
@[simp] theorem State.setCluster_cluster (s : State) (i : Nat) (x : Cluster) : (s.setCluster i x).cluster i = x := by simp [State.cluster, State.setCluster]
theorem State.setCluster_cluster_ne (s : State) (x : Cluster) {i j : Nat} (h : j ≠ i) : (s.setCluster i x).cluster j = s.cluster j := mget_mput_ne _ _ _ h
@[simp] theorem State.setCluster_setCluster (s : State) (i : Nat) (x y : Cluster) : (s.setCluster i x).setCluster i y = s.setCluster i y := by simp [State.setCluster]
@[simp] theorem State.modCluster_cluster (s : State) (i : Nat) (f : Cluster → Cluster) : (s.modCluster i f).cluster i = f (s.cluster i) := State.setCluster_cluster ..
theorem State.modCluster_cluster_ne (s : State) (f : Cluster → Cluster) {i j : Nat} (h : j ≠ i) : (s.modCluster i f).cluster j = s.cluster j := State.setCluster_cluster_ne _ _ h
@[simp] theorem State.modCluster_modCluster (s : State) (i : Nat) (f g : Cluster → Cluster) : (s.modCluster i f).modCluster i g = s.modCluster i (fun x => g (f x)) := by
  simp [State.modCluster]
@[simp] theorem State.setCluster_slot (s : State) (i j : Nat) (x : Cluster) : (s.setCluster i x).slot j = s.slot j := rfl
@[simp] theorem State.modCluster_slot (s : State) (i j : Nat) (f : Cluster → Cluster) : (s.modCluster i f).slot j = s.slot j := rfl
@[simp] theorem State.setCluster_core (s : State) (i j : Nat) (x : Cluster) : (s.setCluster i x).core j = s.core j := rfl
@[simp] theorem State.modCluster_core (s : State) (i j : Nat) (f : Cluster → Cluster) : (s.modCluster i f).core j = s.core j := rfl
@[simp] theorem State.setCluster_die (s : State) (i j : Nat) (x : Cluster) : (s.setCluster i x).die j = s.die j := rfl
@[simp] theorem State.modCluster_die (s : State) (i j : Nat) (f : Cluster → Cluster) : (s.modCluster i f).die j = s.die j := rfl
@[simp] theorem State.setDie_die (s : State) (i : Nat) (x : Die) : (s.setDie i x).die i = x := by simp [State.die, State.setDie]
theorem State.setDie_die_ne (s : State) (x : Die) {i j : Nat} (h : j ≠ i) : (s.setDie i x).die j = s.die j := mget_mput_ne _ _ _ h
@[simp] theorem State.setDie_setDie (s : State) (i : Nat) (x y : Die) : (s.setDie i x).setDie i y = s.setDie i y := by simp [State.setDie]
@[simp] theorem State.modDie_die (s : State) (i : Nat) (f : Die → Die) : (s.modDie i f).die i = f (s.die i) := State.setDie_die ..
theorem State.modDie_die_ne (s : State) (f : Die → Die) {i j : Nat} (h : j ≠ i) : (s.modDie i f).die j = s.die j := State.setDie_die_ne _ _ h
@[simp] theorem State.modDie_modDie (s : State) (i : Nat) (f g : Die → Die) : (s.modDie i f).modDie i g = s.modDie i (fun x => g (f x)) := by
  simp [State.modDie]
@[simp] theorem State.setDie_slot (s : State) (i j : Nat) (x : Die) : (s.setDie i x).slot j = s.slot j := rfl
@[simp] theorem State.modDie_slot (s : State) (i j : Nat) (f : Die → Die) : (s.modDie i f).slot j = s.slot j := rfl
@[simp] theorem State.setDie_core (s : State) (i j : Nat) (x : Die) : (s.setDie i x).core j = s.core j := rfl
@[simp] theorem State.modDie_core (s : State) (i j : Nat) (f : Die → Die) : (s.modDie i f).core j = s.core j := rfl
@[simp] theorem State.setDie_cluster (s : State) (i j : Nat) (x : Die) : (s.setDie i x).cluster j = s.cluster j := rfl
@[simp] theorem State.modDie_cluster (s : State) (i j : Nat) (f : Die → Die) : (s.modDie i f).cluster j = s.cluster j := rfl

/-! ### Fields of the state that an update leaves -/

@[simp] theorem State.setSlot_cores (s : State) (i : Nat) (x : Slot) : (s.setSlot i x).cores = s.cores := rfl
@[simp] theorem State.modSlot_cores (s : State) (i : Nat) (f : Slot → Slot) : (s.modSlot i f).cores = s.cores := rfl
@[simp] theorem State.setSlot_clusters (s : State) (i : Nat) (x : Slot) : (s.setSlot i x).clusters = s.clusters := rfl
@[simp] theorem State.modSlot_clusters (s : State) (i : Nat) (f : Slot → Slot) : (s.modSlot i f).clusters = s.clusters := rfl
@[simp] theorem State.setSlot_dies (s : State) (i : Nat) (x : Slot) : (s.setSlot i x).dies = s.dies := rfl
@[simp] theorem State.modSlot_dies (s : State) (i : Nat) (f : Slot → Slot) : (s.modSlot i f).dies = s.dies := rfl
@[simp] theorem State.setSlot_mem (s : State) (i : Nat) (x : Slot) : (s.setSlot i x).mem = s.mem := rfl
@[simp] theorem State.modSlot_mem (s : State) (i : Nat) (f : Slot → Slot) : (s.modSlot i f).mem = s.mem := rfl
@[simp] theorem State.setSlot_hot (s : State) (i : Nat) (x : Slot) : (s.setSlot i x).hot = s.hot := rfl
@[simp] theorem State.modSlot_hot (s : State) (i : Nat) (f : Slot → Slot) : (s.modSlot i f).hot = s.hot := rfl
@[simp] theorem State.setSlot_ls (s : State) (i : Nat) (x : Slot) : (s.setSlot i x).ls = s.ls := rfl
@[simp] theorem State.modSlot_ls (s : State) (i : Nat) (f : Slot → Slot) : (s.modSlot i f).ls = s.ls := rfl
@[simp] theorem State.setSlot_lsEmpty (s : State) (i : Nat) (x : Slot) : (s.setSlot i x).lsEmpty = s.lsEmpty := rfl
@[simp] theorem State.modSlot_lsEmpty (s : State) (i : Nat) (f : Slot → Slot) : (s.modSlot i f).lsEmpty = s.lsEmpty := rfl
@[simp] theorem State.setSlot_lsPois (s : State) (i : Nat) (x : Slot) : (s.setSlot i x).lsPois = s.lsPois := rfl
@[simp] theorem State.modSlot_lsPois (s : State) (i : Nat) (f : Slot → Slot) : (s.modSlot i f).lsPois = s.lsPois := rfl
@[simp] theorem State.setSlot_pois (s : State) (i : Nat) (x : Slot) : (s.setSlot i x).pois = s.pois := rfl
@[simp] theorem State.modSlot_pois (s : State) (i : Nat) (f : Slot → Slot) : (s.modSlot i f).pois = s.pois := rfl
@[simp] theorem State.setSlot_bad (s : State) (i : Nat) (x : Slot) : (s.setSlot i x).bad = s.bad := rfl
@[simp] theorem State.modSlot_bad (s : State) (i : Nat) (f : Slot → Slot) : (s.modSlot i f).bad = s.bad := rfl
@[simp] theorem State.setSlot_saves (s : State) (i : Nat) (x : Slot) : (s.setSlot i x).saves = s.saves := rfl
@[simp] theorem State.modSlot_saves (s : State) (i : Nat) (f : Slot → Slot) : (s.modSlot i f).saves = s.saves := rfl
@[simp] theorem State.setSlot_gangs (s : State) (i : Nat) (x : Slot) : (s.setSlot i x).gangs = s.gangs := rfl
@[simp] theorem State.modSlot_gangs (s : State) (i : Nat) (f : Slot → Slot) : (s.modSlot i f).gangs = s.gangs := rfl
@[simp] theorem State.setSlot_nextGang (s : State) (i : Nat) (x : Slot) : (s.setSlot i x).nextGang = s.nextGang := rfl
@[simp] theorem State.modSlot_nextGang (s : State) (i : Nat) (f : Slot → Slot) : (s.modSlot i f).nextGang = s.nextGang := rfl
@[simp] theorem State.setSlot_net (s : State) (i : Nat) (x : Slot) : (s.setSlot i x).net = s.net := rfl
@[simp] theorem State.modSlot_net (s : State) (i : Nat) (f : Slot → Slot) : (s.modSlot i f).net = s.net := rfl
@[simp] theorem State.setSlot_answers (s : State) (i : Nat) (x : Slot) : (s.setSlot i x).answers = s.answers := rfl
@[simp] theorem State.modSlot_answers (s : State) (i : Nat) (f : Slot → Slot) : (s.modSlot i f).answers = s.answers := rfl
@[simp] theorem State.setSlot_nextMsg (s : State) (i : Nat) (x : Slot) : (s.setSlot i x).nextMsg = s.nextMsg := rfl
@[simp] theorem State.modSlot_nextMsg (s : State) (i : Nat) (f : Slot → Slot) : (s.modSlot i f).nextMsg = s.nextMsg := rfl
@[simp] theorem State.setSlot_nextWait (s : State) (i : Nat) (x : Slot) : (s.setSlot i x).nextWait = s.nextWait := rfl
@[simp] theorem State.modSlot_nextWait (s : State) (i : Nat) (f : Slot → Slot) : (s.modSlot i f).nextWait = s.nextWait := rfl
@[simp] theorem State.setSlot_coh (s : State) (i : Nat) (x : Slot) : (s.setSlot i x).coh = s.coh := rfl
@[simp] theorem State.modSlot_coh (s : State) (i : Nat) (f : Slot → Slot) : (s.modSlot i f).coh = s.coh := rfl
@[simp] theorem State.setSlot_ckpt (s : State) (i : Nat) (x : Slot) : (s.setSlot i x).ckpt = s.ckpt := rfl
@[simp] theorem State.modSlot_ckpt (s : State) (i : Nat) (f : Slot → Slot) : (s.modSlot i f).ckpt = s.ckpt := rfl
@[simp] theorem State.setSlot_primary (s : State) (i : Nat) (x : Slot) : (s.setSlot i x).primary = s.primary := rfl
@[simp] theorem State.modSlot_primary (s : State) (i : Nat) (f : Slot → Slot) : (s.modSlot i f).primary = s.primary := rfl
@[simp] theorem State.setSlot_deviceFault (s : State) (i : Nat) (x : Slot) : (s.setSlot i x).deviceFault = s.deviceFault := rfl
@[simp] theorem State.modSlot_deviceFault (s : State) (i : Nat) (f : Slot → Slot) : (s.modSlot i f).deviceFault = s.deviceFault := rfl
@[simp] theorem State.setSlot_powerLimit (s : State) (i : Nat) (x : Slot) : (s.setSlot i x).powerLimit = s.powerLimit := rfl
@[simp] theorem State.modSlot_powerLimit (s : State) (i : Nat) (f : Slot → Slot) : (s.modSlot i f).powerLimit = s.powerLimit := rfl
@[simp] theorem State.setSlot_gtc (s : State) (i : Nat) (x : Slot) : (s.setSlot i x).gtc = s.gtc := rfl
@[simp] theorem State.modSlot_gtc (s : State) (i : Nat) (f : Slot → Slot) : (s.modSlot i f).gtc = s.gtc := rfl
@[simp] theorem State.setSlot_gtcOn (s : State) (i : Nat) (x : Slot) : (s.setSlot i x).gtcOn = s.gtcOn := rfl
@[simp] theorem State.modSlot_gtcOn (s : State) (i : Nat) (f : Slot → Slot) : (s.modSlot i f).gtcOn = s.gtcOn := rfl
@[simp] theorem State.setSlot_relTick (s : State) (i : Nat) (x : Slot) : (s.setSlot i x).relTick = s.relTick := rfl
@[simp] theorem State.modSlot_relTick (s : State) (i : Nat) (f : Slot → Slot) : (s.modSlot i f).relTick = s.relTick := rfl
@[simp] theorem State.setSlot_relStep (s : State) (i : Nat) (x : Slot) : (s.setSlot i x).relStep = s.relStep := rfl
@[simp] theorem State.modSlot_relStep (s : State) (i : Nat) (f : Slot → Slot) : (s.modSlot i f).relStep = s.relStep := rfl
@[simp] theorem State.setSlot_cycle (s : State) (i : Nat) (x : Slot) : (s.setSlot i x).cycle = s.cycle := rfl
@[simp] theorem State.modSlot_cycle (s : State) (i : Nat) (f : Slot → Slot) : (s.modSlot i f).cycle = s.cycle := rfl
@[simp] theorem State.setSlot_cur (s : State) (i : Nat) (x : Slot) : (s.setSlot i x).cur = s.cur := rfl
@[simp] theorem State.modSlot_cur (s : State) (i : Nat) (f : Slot → Slot) : (s.modSlot i f).cur = s.cur := rfl
@[simp] theorem State.setSlot_turn (s : State) (i : Nat) (x : Slot) : (s.setSlot i x).turn = s.turn := rfl
@[simp] theorem State.modSlot_turn (s : State) (i : Nat) (f : Slot → Slot) : (s.modSlot i f).turn = s.turn := rfl
@[simp] theorem State.setSlot_acc (s : State) (i : Nat) (x : Slot) : (s.setSlot i x).acc = s.acc := rfl
@[simp] theorem State.modSlot_acc (s : State) (i : Nat) (f : Slot → Slot) : (s.modSlot i f).acc = s.acc := rfl
@[simp] theorem State.setSlot_free (s : State) (i : Nat) (x : Slot) : (s.setSlot i x).free = s.free := rfl
@[simp] theorem State.modSlot_free (s : State) (i : Nat) (f : Slot → Slot) : (s.modSlot i f).free = s.free := rfl
@[simp] theorem State.setSlot_inputs (s : State) (i : Nat) (x : Slot) : (s.setSlot i x).inputs = s.inputs := rfl
@[simp] theorem State.modSlot_inputs (s : State) (i : Nat) (f : Slot → Slot) : (s.modSlot i f).inputs = s.inputs := rfl
@[simp] theorem State.setSlot_mgmtq (s : State) (i : Nat) (x : Slot) : (s.setSlot i x).mgmtq = s.mgmtq := rfl
@[simp] theorem State.modSlot_mgmtq (s : State) (i : Nat) (f : Slot → Slot) : (s.modSlot i f).mgmtq = s.mgmtq := rfl
@[simp] theorem State.setSlot_uio (s : State) (i : Nat) (x : Slot) : (s.setSlot i x).uio = s.uio := rfl
@[simp] theorem State.modSlot_uio (s : State) (i : Nat) (f : Slot → Slot) : (s.modSlot i f).uio = s.uio := rfl
@[simp] theorem State.setSlot_outputs (s : State) (i : Nat) (x : Slot) : (s.setSlot i x).outputs = s.outputs := rfl
@[simp] theorem State.modSlot_outputs (s : State) (i : Nat) (f : Slot → Slot) : (s.modSlot i f).outputs = s.outputs := rfl
@[simp] theorem State.setSlot_hw (s : State) (i : Nat) (x : Slot) : (s.setSlot i x).hw = s.hw := rfl
@[simp] theorem State.modSlot_hw (s : State) (i : Nat) (f : Slot → Slot) : (s.modSlot i f).hw = s.hw := rfl
@[simp] theorem State.setSlot_undet (s : State) (i : Nat) (x : Slot) : (s.setSlot i x).undet = s.undet := rfl
@[simp] theorem State.modSlot_undet (s : State) (i : Nat) (f : Slot → Slot) : (s.modSlot i f).undet = s.undet := rfl

@[simp] theorem State.setCore_slots (s : State) (i : Nat) (x : Core) : (s.setCore i x).slots = s.slots := rfl
@[simp] theorem State.modCore_slots (s : State) (i : Nat) (f : Core → Core) : (s.modCore i f).slots = s.slots := rfl
@[simp] theorem State.setCore_clusters (s : State) (i : Nat) (x : Core) : (s.setCore i x).clusters = s.clusters := rfl
@[simp] theorem State.modCore_clusters (s : State) (i : Nat) (f : Core → Core) : (s.modCore i f).clusters = s.clusters := rfl
@[simp] theorem State.setCore_dies (s : State) (i : Nat) (x : Core) : (s.setCore i x).dies = s.dies := rfl
@[simp] theorem State.modCore_dies (s : State) (i : Nat) (f : Core → Core) : (s.modCore i f).dies = s.dies := rfl
@[simp] theorem State.setCore_mem (s : State) (i : Nat) (x : Core) : (s.setCore i x).mem = s.mem := rfl
@[simp] theorem State.modCore_mem (s : State) (i : Nat) (f : Core → Core) : (s.modCore i f).mem = s.mem := rfl
@[simp] theorem State.setCore_hot (s : State) (i : Nat) (x : Core) : (s.setCore i x).hot = s.hot := rfl
@[simp] theorem State.modCore_hot (s : State) (i : Nat) (f : Core → Core) : (s.modCore i f).hot = s.hot := rfl
@[simp] theorem State.setCore_ls (s : State) (i : Nat) (x : Core) : (s.setCore i x).ls = s.ls := rfl
@[simp] theorem State.modCore_ls (s : State) (i : Nat) (f : Core → Core) : (s.modCore i f).ls = s.ls := rfl
@[simp] theorem State.setCore_lsEmpty (s : State) (i : Nat) (x : Core) : (s.setCore i x).lsEmpty = s.lsEmpty := rfl
@[simp] theorem State.modCore_lsEmpty (s : State) (i : Nat) (f : Core → Core) : (s.modCore i f).lsEmpty = s.lsEmpty := rfl
@[simp] theorem State.setCore_lsPois (s : State) (i : Nat) (x : Core) : (s.setCore i x).lsPois = s.lsPois := rfl
@[simp] theorem State.modCore_lsPois (s : State) (i : Nat) (f : Core → Core) : (s.modCore i f).lsPois = s.lsPois := rfl
@[simp] theorem State.setCore_pois (s : State) (i : Nat) (x : Core) : (s.setCore i x).pois = s.pois := rfl
@[simp] theorem State.modCore_pois (s : State) (i : Nat) (f : Core → Core) : (s.modCore i f).pois = s.pois := rfl
@[simp] theorem State.setCore_bad (s : State) (i : Nat) (x : Core) : (s.setCore i x).bad = s.bad := rfl
@[simp] theorem State.modCore_bad (s : State) (i : Nat) (f : Core → Core) : (s.modCore i f).bad = s.bad := rfl
@[simp] theorem State.setCore_saves (s : State) (i : Nat) (x : Core) : (s.setCore i x).saves = s.saves := rfl
@[simp] theorem State.modCore_saves (s : State) (i : Nat) (f : Core → Core) : (s.modCore i f).saves = s.saves := rfl
@[simp] theorem State.setCore_gangs (s : State) (i : Nat) (x : Core) : (s.setCore i x).gangs = s.gangs := rfl
@[simp] theorem State.modCore_gangs (s : State) (i : Nat) (f : Core → Core) : (s.modCore i f).gangs = s.gangs := rfl
@[simp] theorem State.setCore_nextGang (s : State) (i : Nat) (x : Core) : (s.setCore i x).nextGang = s.nextGang := rfl
@[simp] theorem State.modCore_nextGang (s : State) (i : Nat) (f : Core → Core) : (s.modCore i f).nextGang = s.nextGang := rfl
@[simp] theorem State.setCore_net (s : State) (i : Nat) (x : Core) : (s.setCore i x).net = s.net := rfl
@[simp] theorem State.modCore_net (s : State) (i : Nat) (f : Core → Core) : (s.modCore i f).net = s.net := rfl
@[simp] theorem State.setCore_answers (s : State) (i : Nat) (x : Core) : (s.setCore i x).answers = s.answers := rfl
@[simp] theorem State.modCore_answers (s : State) (i : Nat) (f : Core → Core) : (s.modCore i f).answers = s.answers := rfl
@[simp] theorem State.setCore_nextMsg (s : State) (i : Nat) (x : Core) : (s.setCore i x).nextMsg = s.nextMsg := rfl
@[simp] theorem State.modCore_nextMsg (s : State) (i : Nat) (f : Core → Core) : (s.modCore i f).nextMsg = s.nextMsg := rfl
@[simp] theorem State.setCore_nextWait (s : State) (i : Nat) (x : Core) : (s.setCore i x).nextWait = s.nextWait := rfl
@[simp] theorem State.modCore_nextWait (s : State) (i : Nat) (f : Core → Core) : (s.modCore i f).nextWait = s.nextWait := rfl
@[simp] theorem State.setCore_coh (s : State) (i : Nat) (x : Core) : (s.setCore i x).coh = s.coh := rfl
@[simp] theorem State.modCore_coh (s : State) (i : Nat) (f : Core → Core) : (s.modCore i f).coh = s.coh := rfl
@[simp] theorem State.setCore_ckpt (s : State) (i : Nat) (x : Core) : (s.setCore i x).ckpt = s.ckpt := rfl
@[simp] theorem State.modCore_ckpt (s : State) (i : Nat) (f : Core → Core) : (s.modCore i f).ckpt = s.ckpt := rfl
@[simp] theorem State.setCore_primary (s : State) (i : Nat) (x : Core) : (s.setCore i x).primary = s.primary := rfl
@[simp] theorem State.modCore_primary (s : State) (i : Nat) (f : Core → Core) : (s.modCore i f).primary = s.primary := rfl
@[simp] theorem State.setCore_deviceFault (s : State) (i : Nat) (x : Core) : (s.setCore i x).deviceFault = s.deviceFault := rfl
@[simp] theorem State.modCore_deviceFault (s : State) (i : Nat) (f : Core → Core) : (s.modCore i f).deviceFault = s.deviceFault := rfl
@[simp] theorem State.setCore_powerLimit (s : State) (i : Nat) (x : Core) : (s.setCore i x).powerLimit = s.powerLimit := rfl
@[simp] theorem State.modCore_powerLimit (s : State) (i : Nat) (f : Core → Core) : (s.modCore i f).powerLimit = s.powerLimit := rfl
@[simp] theorem State.setCore_gtc (s : State) (i : Nat) (x : Core) : (s.setCore i x).gtc = s.gtc := rfl
@[simp] theorem State.modCore_gtc (s : State) (i : Nat) (f : Core → Core) : (s.modCore i f).gtc = s.gtc := rfl
@[simp] theorem State.setCore_gtcOn (s : State) (i : Nat) (x : Core) : (s.setCore i x).gtcOn = s.gtcOn := rfl
@[simp] theorem State.modCore_gtcOn (s : State) (i : Nat) (f : Core → Core) : (s.modCore i f).gtcOn = s.gtcOn := rfl
@[simp] theorem State.setCore_relTick (s : State) (i : Nat) (x : Core) : (s.setCore i x).relTick = s.relTick := rfl
@[simp] theorem State.modCore_relTick (s : State) (i : Nat) (f : Core → Core) : (s.modCore i f).relTick = s.relTick := rfl
@[simp] theorem State.setCore_relStep (s : State) (i : Nat) (x : Core) : (s.setCore i x).relStep = s.relStep := rfl
@[simp] theorem State.modCore_relStep (s : State) (i : Nat) (f : Core → Core) : (s.modCore i f).relStep = s.relStep := rfl
@[simp] theorem State.setCore_cycle (s : State) (i : Nat) (x : Core) : (s.setCore i x).cycle = s.cycle := rfl
@[simp] theorem State.modCore_cycle (s : State) (i : Nat) (f : Core → Core) : (s.modCore i f).cycle = s.cycle := rfl
@[simp] theorem State.setCore_cur (s : State) (i : Nat) (x : Core) : (s.setCore i x).cur = s.cur := rfl
@[simp] theorem State.modCore_cur (s : State) (i : Nat) (f : Core → Core) : (s.modCore i f).cur = s.cur := rfl
@[simp] theorem State.setCore_turn (s : State) (i : Nat) (x : Core) : (s.setCore i x).turn = s.turn := rfl
@[simp] theorem State.modCore_turn (s : State) (i : Nat) (f : Core → Core) : (s.modCore i f).turn = s.turn := rfl
@[simp] theorem State.setCore_acc (s : State) (i : Nat) (x : Core) : (s.setCore i x).acc = s.acc := rfl
@[simp] theorem State.modCore_acc (s : State) (i : Nat) (f : Core → Core) : (s.modCore i f).acc = s.acc := rfl
@[simp] theorem State.setCore_free (s : State) (i : Nat) (x : Core) : (s.setCore i x).free = s.free := rfl
@[simp] theorem State.modCore_free (s : State) (i : Nat) (f : Core → Core) : (s.modCore i f).free = s.free := rfl
@[simp] theorem State.setCore_inputs (s : State) (i : Nat) (x : Core) : (s.setCore i x).inputs = s.inputs := rfl
@[simp] theorem State.modCore_inputs (s : State) (i : Nat) (f : Core → Core) : (s.modCore i f).inputs = s.inputs := rfl
@[simp] theorem State.setCore_mgmtq (s : State) (i : Nat) (x : Core) : (s.setCore i x).mgmtq = s.mgmtq := rfl
@[simp] theorem State.modCore_mgmtq (s : State) (i : Nat) (f : Core → Core) : (s.modCore i f).mgmtq = s.mgmtq := rfl
@[simp] theorem State.setCore_uio (s : State) (i : Nat) (x : Core) : (s.setCore i x).uio = s.uio := rfl
@[simp] theorem State.modCore_uio (s : State) (i : Nat) (f : Core → Core) : (s.modCore i f).uio = s.uio := rfl
@[simp] theorem State.setCore_outputs (s : State) (i : Nat) (x : Core) : (s.setCore i x).outputs = s.outputs := rfl
@[simp] theorem State.modCore_outputs (s : State) (i : Nat) (f : Core → Core) : (s.modCore i f).outputs = s.outputs := rfl
@[simp] theorem State.setCore_hw (s : State) (i : Nat) (x : Core) : (s.setCore i x).hw = s.hw := rfl
@[simp] theorem State.modCore_hw (s : State) (i : Nat) (f : Core → Core) : (s.modCore i f).hw = s.hw := rfl
@[simp] theorem State.setCore_undet (s : State) (i : Nat) (x : Core) : (s.setCore i x).undet = s.undet := rfl
@[simp] theorem State.modCore_undet (s : State) (i : Nat) (f : Core → Core) : (s.modCore i f).undet = s.undet := rfl

@[simp] theorem State.setCluster_slots (s : State) (i : Nat) (x : Cluster) : (s.setCluster i x).slots = s.slots := rfl
@[simp] theorem State.modCluster_slots (s : State) (i : Nat) (f : Cluster → Cluster) : (s.modCluster i f).slots = s.slots := rfl
@[simp] theorem State.setCluster_cores (s : State) (i : Nat) (x : Cluster) : (s.setCluster i x).cores = s.cores := rfl
@[simp] theorem State.modCluster_cores (s : State) (i : Nat) (f : Cluster → Cluster) : (s.modCluster i f).cores = s.cores := rfl
@[simp] theorem State.setCluster_dies (s : State) (i : Nat) (x : Cluster) : (s.setCluster i x).dies = s.dies := rfl
@[simp] theorem State.modCluster_dies (s : State) (i : Nat) (f : Cluster → Cluster) : (s.modCluster i f).dies = s.dies := rfl
@[simp] theorem State.setCluster_mem (s : State) (i : Nat) (x : Cluster) : (s.setCluster i x).mem = s.mem := rfl
@[simp] theorem State.modCluster_mem (s : State) (i : Nat) (f : Cluster → Cluster) : (s.modCluster i f).mem = s.mem := rfl
@[simp] theorem State.setCluster_hot (s : State) (i : Nat) (x : Cluster) : (s.setCluster i x).hot = s.hot := rfl
@[simp] theorem State.modCluster_hot (s : State) (i : Nat) (f : Cluster → Cluster) : (s.modCluster i f).hot = s.hot := rfl
@[simp] theorem State.setCluster_ls (s : State) (i : Nat) (x : Cluster) : (s.setCluster i x).ls = s.ls := rfl
@[simp] theorem State.modCluster_ls (s : State) (i : Nat) (f : Cluster → Cluster) : (s.modCluster i f).ls = s.ls := rfl
@[simp] theorem State.setCluster_lsEmpty (s : State) (i : Nat) (x : Cluster) : (s.setCluster i x).lsEmpty = s.lsEmpty := rfl
@[simp] theorem State.modCluster_lsEmpty (s : State) (i : Nat) (f : Cluster → Cluster) : (s.modCluster i f).lsEmpty = s.lsEmpty := rfl
@[simp] theorem State.setCluster_lsPois (s : State) (i : Nat) (x : Cluster) : (s.setCluster i x).lsPois = s.lsPois := rfl
@[simp] theorem State.modCluster_lsPois (s : State) (i : Nat) (f : Cluster → Cluster) : (s.modCluster i f).lsPois = s.lsPois := rfl
@[simp] theorem State.setCluster_pois (s : State) (i : Nat) (x : Cluster) : (s.setCluster i x).pois = s.pois := rfl
@[simp] theorem State.modCluster_pois (s : State) (i : Nat) (f : Cluster → Cluster) : (s.modCluster i f).pois = s.pois := rfl
@[simp] theorem State.setCluster_bad (s : State) (i : Nat) (x : Cluster) : (s.setCluster i x).bad = s.bad := rfl
@[simp] theorem State.modCluster_bad (s : State) (i : Nat) (f : Cluster → Cluster) : (s.modCluster i f).bad = s.bad := rfl
@[simp] theorem State.setCluster_saves (s : State) (i : Nat) (x : Cluster) : (s.setCluster i x).saves = s.saves := rfl
@[simp] theorem State.modCluster_saves (s : State) (i : Nat) (f : Cluster → Cluster) : (s.modCluster i f).saves = s.saves := rfl
@[simp] theorem State.setCluster_gangs (s : State) (i : Nat) (x : Cluster) : (s.setCluster i x).gangs = s.gangs := rfl
@[simp] theorem State.modCluster_gangs (s : State) (i : Nat) (f : Cluster → Cluster) : (s.modCluster i f).gangs = s.gangs := rfl
@[simp] theorem State.setCluster_nextGang (s : State) (i : Nat) (x : Cluster) : (s.setCluster i x).nextGang = s.nextGang := rfl
@[simp] theorem State.modCluster_nextGang (s : State) (i : Nat) (f : Cluster → Cluster) : (s.modCluster i f).nextGang = s.nextGang := rfl
@[simp] theorem State.setCluster_net (s : State) (i : Nat) (x : Cluster) : (s.setCluster i x).net = s.net := rfl
@[simp] theorem State.modCluster_net (s : State) (i : Nat) (f : Cluster → Cluster) : (s.modCluster i f).net = s.net := rfl
@[simp] theorem State.setCluster_answers (s : State) (i : Nat) (x : Cluster) : (s.setCluster i x).answers = s.answers := rfl
@[simp] theorem State.modCluster_answers (s : State) (i : Nat) (f : Cluster → Cluster) : (s.modCluster i f).answers = s.answers := rfl
@[simp] theorem State.setCluster_nextMsg (s : State) (i : Nat) (x : Cluster) : (s.setCluster i x).nextMsg = s.nextMsg := rfl
@[simp] theorem State.modCluster_nextMsg (s : State) (i : Nat) (f : Cluster → Cluster) : (s.modCluster i f).nextMsg = s.nextMsg := rfl
@[simp] theorem State.setCluster_nextWait (s : State) (i : Nat) (x : Cluster) : (s.setCluster i x).nextWait = s.nextWait := rfl
@[simp] theorem State.modCluster_nextWait (s : State) (i : Nat) (f : Cluster → Cluster) : (s.modCluster i f).nextWait = s.nextWait := rfl
@[simp] theorem State.setCluster_coh (s : State) (i : Nat) (x : Cluster) : (s.setCluster i x).coh = s.coh := rfl
@[simp] theorem State.modCluster_coh (s : State) (i : Nat) (f : Cluster → Cluster) : (s.modCluster i f).coh = s.coh := rfl
@[simp] theorem State.setCluster_ckpt (s : State) (i : Nat) (x : Cluster) : (s.setCluster i x).ckpt = s.ckpt := rfl
@[simp] theorem State.modCluster_ckpt (s : State) (i : Nat) (f : Cluster → Cluster) : (s.modCluster i f).ckpt = s.ckpt := rfl
@[simp] theorem State.setCluster_primary (s : State) (i : Nat) (x : Cluster) : (s.setCluster i x).primary = s.primary := rfl
@[simp] theorem State.modCluster_primary (s : State) (i : Nat) (f : Cluster → Cluster) : (s.modCluster i f).primary = s.primary := rfl
@[simp] theorem State.setCluster_deviceFault (s : State) (i : Nat) (x : Cluster) : (s.setCluster i x).deviceFault = s.deviceFault := rfl
@[simp] theorem State.modCluster_deviceFault (s : State) (i : Nat) (f : Cluster → Cluster) : (s.modCluster i f).deviceFault = s.deviceFault := rfl
@[simp] theorem State.setCluster_powerLimit (s : State) (i : Nat) (x : Cluster) : (s.setCluster i x).powerLimit = s.powerLimit := rfl
@[simp] theorem State.modCluster_powerLimit (s : State) (i : Nat) (f : Cluster → Cluster) : (s.modCluster i f).powerLimit = s.powerLimit := rfl
@[simp] theorem State.setCluster_gtc (s : State) (i : Nat) (x : Cluster) : (s.setCluster i x).gtc = s.gtc := rfl
@[simp] theorem State.modCluster_gtc (s : State) (i : Nat) (f : Cluster → Cluster) : (s.modCluster i f).gtc = s.gtc := rfl
@[simp] theorem State.setCluster_gtcOn (s : State) (i : Nat) (x : Cluster) : (s.setCluster i x).gtcOn = s.gtcOn := rfl
@[simp] theorem State.modCluster_gtcOn (s : State) (i : Nat) (f : Cluster → Cluster) : (s.modCluster i f).gtcOn = s.gtcOn := rfl
@[simp] theorem State.setCluster_relTick (s : State) (i : Nat) (x : Cluster) : (s.setCluster i x).relTick = s.relTick := rfl
@[simp] theorem State.modCluster_relTick (s : State) (i : Nat) (f : Cluster → Cluster) : (s.modCluster i f).relTick = s.relTick := rfl
@[simp] theorem State.setCluster_relStep (s : State) (i : Nat) (x : Cluster) : (s.setCluster i x).relStep = s.relStep := rfl
@[simp] theorem State.modCluster_relStep (s : State) (i : Nat) (f : Cluster → Cluster) : (s.modCluster i f).relStep = s.relStep := rfl
@[simp] theorem State.setCluster_cycle (s : State) (i : Nat) (x : Cluster) : (s.setCluster i x).cycle = s.cycle := rfl
@[simp] theorem State.modCluster_cycle (s : State) (i : Nat) (f : Cluster → Cluster) : (s.modCluster i f).cycle = s.cycle := rfl
@[simp] theorem State.setCluster_cur (s : State) (i : Nat) (x : Cluster) : (s.setCluster i x).cur = s.cur := rfl
@[simp] theorem State.modCluster_cur (s : State) (i : Nat) (f : Cluster → Cluster) : (s.modCluster i f).cur = s.cur := rfl
@[simp] theorem State.setCluster_turn (s : State) (i : Nat) (x : Cluster) : (s.setCluster i x).turn = s.turn := rfl
@[simp] theorem State.modCluster_turn (s : State) (i : Nat) (f : Cluster → Cluster) : (s.modCluster i f).turn = s.turn := rfl
@[simp] theorem State.setCluster_acc (s : State) (i : Nat) (x : Cluster) : (s.setCluster i x).acc = s.acc := rfl
@[simp] theorem State.modCluster_acc (s : State) (i : Nat) (f : Cluster → Cluster) : (s.modCluster i f).acc = s.acc := rfl
@[simp] theorem State.setCluster_free (s : State) (i : Nat) (x : Cluster) : (s.setCluster i x).free = s.free := rfl
@[simp] theorem State.modCluster_free (s : State) (i : Nat) (f : Cluster → Cluster) : (s.modCluster i f).free = s.free := rfl
@[simp] theorem State.setCluster_inputs (s : State) (i : Nat) (x : Cluster) : (s.setCluster i x).inputs = s.inputs := rfl
@[simp] theorem State.modCluster_inputs (s : State) (i : Nat) (f : Cluster → Cluster) : (s.modCluster i f).inputs = s.inputs := rfl
@[simp] theorem State.setCluster_mgmtq (s : State) (i : Nat) (x : Cluster) : (s.setCluster i x).mgmtq = s.mgmtq := rfl
@[simp] theorem State.modCluster_mgmtq (s : State) (i : Nat) (f : Cluster → Cluster) : (s.modCluster i f).mgmtq = s.mgmtq := rfl
@[simp] theorem State.setCluster_uio (s : State) (i : Nat) (x : Cluster) : (s.setCluster i x).uio = s.uio := rfl
@[simp] theorem State.modCluster_uio (s : State) (i : Nat) (f : Cluster → Cluster) : (s.modCluster i f).uio = s.uio := rfl
@[simp] theorem State.setCluster_outputs (s : State) (i : Nat) (x : Cluster) : (s.setCluster i x).outputs = s.outputs := rfl
@[simp] theorem State.modCluster_outputs (s : State) (i : Nat) (f : Cluster → Cluster) : (s.modCluster i f).outputs = s.outputs := rfl
@[simp] theorem State.setCluster_hw (s : State) (i : Nat) (x : Cluster) : (s.setCluster i x).hw = s.hw := rfl
@[simp] theorem State.modCluster_hw (s : State) (i : Nat) (f : Cluster → Cluster) : (s.modCluster i f).hw = s.hw := rfl
@[simp] theorem State.setCluster_undet (s : State) (i : Nat) (x : Cluster) : (s.setCluster i x).undet = s.undet := rfl
@[simp] theorem State.modCluster_undet (s : State) (i : Nat) (f : Cluster → Cluster) : (s.modCluster i f).undet = s.undet := rfl

@[simp] theorem State.setDie_slots (s : State) (i : Nat) (x : Die) : (s.setDie i x).slots = s.slots := rfl
@[simp] theorem State.modDie_slots (s : State) (i : Nat) (f : Die → Die) : (s.modDie i f).slots = s.slots := rfl
@[simp] theorem State.setDie_cores (s : State) (i : Nat) (x : Die) : (s.setDie i x).cores = s.cores := rfl
@[simp] theorem State.modDie_cores (s : State) (i : Nat) (f : Die → Die) : (s.modDie i f).cores = s.cores := rfl
@[simp] theorem State.setDie_clusters (s : State) (i : Nat) (x : Die) : (s.setDie i x).clusters = s.clusters := rfl
@[simp] theorem State.modDie_clusters (s : State) (i : Nat) (f : Die → Die) : (s.modDie i f).clusters = s.clusters := rfl
@[simp] theorem State.setDie_mem (s : State) (i : Nat) (x : Die) : (s.setDie i x).mem = s.mem := rfl
@[simp] theorem State.modDie_mem (s : State) (i : Nat) (f : Die → Die) : (s.modDie i f).mem = s.mem := rfl
@[simp] theorem State.setDie_hot (s : State) (i : Nat) (x : Die) : (s.setDie i x).hot = s.hot := rfl
@[simp] theorem State.modDie_hot (s : State) (i : Nat) (f : Die → Die) : (s.modDie i f).hot = s.hot := rfl
@[simp] theorem State.setDie_ls (s : State) (i : Nat) (x : Die) : (s.setDie i x).ls = s.ls := rfl
@[simp] theorem State.modDie_ls (s : State) (i : Nat) (f : Die → Die) : (s.modDie i f).ls = s.ls := rfl
@[simp] theorem State.setDie_lsEmpty (s : State) (i : Nat) (x : Die) : (s.setDie i x).lsEmpty = s.lsEmpty := rfl
@[simp] theorem State.modDie_lsEmpty (s : State) (i : Nat) (f : Die → Die) : (s.modDie i f).lsEmpty = s.lsEmpty := rfl
@[simp] theorem State.setDie_lsPois (s : State) (i : Nat) (x : Die) : (s.setDie i x).lsPois = s.lsPois := rfl
@[simp] theorem State.modDie_lsPois (s : State) (i : Nat) (f : Die → Die) : (s.modDie i f).lsPois = s.lsPois := rfl
@[simp] theorem State.setDie_pois (s : State) (i : Nat) (x : Die) : (s.setDie i x).pois = s.pois := rfl
@[simp] theorem State.modDie_pois (s : State) (i : Nat) (f : Die → Die) : (s.modDie i f).pois = s.pois := rfl
@[simp] theorem State.setDie_bad (s : State) (i : Nat) (x : Die) : (s.setDie i x).bad = s.bad := rfl
@[simp] theorem State.modDie_bad (s : State) (i : Nat) (f : Die → Die) : (s.modDie i f).bad = s.bad := rfl
@[simp] theorem State.setDie_saves (s : State) (i : Nat) (x : Die) : (s.setDie i x).saves = s.saves := rfl
@[simp] theorem State.modDie_saves (s : State) (i : Nat) (f : Die → Die) : (s.modDie i f).saves = s.saves := rfl
@[simp] theorem State.setDie_gangs (s : State) (i : Nat) (x : Die) : (s.setDie i x).gangs = s.gangs := rfl
@[simp] theorem State.modDie_gangs (s : State) (i : Nat) (f : Die → Die) : (s.modDie i f).gangs = s.gangs := rfl
@[simp] theorem State.setDie_nextGang (s : State) (i : Nat) (x : Die) : (s.setDie i x).nextGang = s.nextGang := rfl
@[simp] theorem State.modDie_nextGang (s : State) (i : Nat) (f : Die → Die) : (s.modDie i f).nextGang = s.nextGang := rfl
@[simp] theorem State.setDie_net (s : State) (i : Nat) (x : Die) : (s.setDie i x).net = s.net := rfl
@[simp] theorem State.modDie_net (s : State) (i : Nat) (f : Die → Die) : (s.modDie i f).net = s.net := rfl
@[simp] theorem State.setDie_answers (s : State) (i : Nat) (x : Die) : (s.setDie i x).answers = s.answers := rfl
@[simp] theorem State.modDie_answers (s : State) (i : Nat) (f : Die → Die) : (s.modDie i f).answers = s.answers := rfl
@[simp] theorem State.setDie_nextMsg (s : State) (i : Nat) (x : Die) : (s.setDie i x).nextMsg = s.nextMsg := rfl
@[simp] theorem State.modDie_nextMsg (s : State) (i : Nat) (f : Die → Die) : (s.modDie i f).nextMsg = s.nextMsg := rfl
@[simp] theorem State.setDie_nextWait (s : State) (i : Nat) (x : Die) : (s.setDie i x).nextWait = s.nextWait := rfl
@[simp] theorem State.modDie_nextWait (s : State) (i : Nat) (f : Die → Die) : (s.modDie i f).nextWait = s.nextWait := rfl
@[simp] theorem State.setDie_coh (s : State) (i : Nat) (x : Die) : (s.setDie i x).coh = s.coh := rfl
@[simp] theorem State.modDie_coh (s : State) (i : Nat) (f : Die → Die) : (s.modDie i f).coh = s.coh := rfl
@[simp] theorem State.setDie_ckpt (s : State) (i : Nat) (x : Die) : (s.setDie i x).ckpt = s.ckpt := rfl
@[simp] theorem State.modDie_ckpt (s : State) (i : Nat) (f : Die → Die) : (s.modDie i f).ckpt = s.ckpt := rfl
@[simp] theorem State.setDie_primary (s : State) (i : Nat) (x : Die) : (s.setDie i x).primary = s.primary := rfl
@[simp] theorem State.modDie_primary (s : State) (i : Nat) (f : Die → Die) : (s.modDie i f).primary = s.primary := rfl
@[simp] theorem State.setDie_deviceFault (s : State) (i : Nat) (x : Die) : (s.setDie i x).deviceFault = s.deviceFault := rfl
@[simp] theorem State.modDie_deviceFault (s : State) (i : Nat) (f : Die → Die) : (s.modDie i f).deviceFault = s.deviceFault := rfl
@[simp] theorem State.setDie_powerLimit (s : State) (i : Nat) (x : Die) : (s.setDie i x).powerLimit = s.powerLimit := rfl
@[simp] theorem State.modDie_powerLimit (s : State) (i : Nat) (f : Die → Die) : (s.modDie i f).powerLimit = s.powerLimit := rfl
@[simp] theorem State.setDie_gtc (s : State) (i : Nat) (x : Die) : (s.setDie i x).gtc = s.gtc := rfl
@[simp] theorem State.modDie_gtc (s : State) (i : Nat) (f : Die → Die) : (s.modDie i f).gtc = s.gtc := rfl
@[simp] theorem State.setDie_gtcOn (s : State) (i : Nat) (x : Die) : (s.setDie i x).gtcOn = s.gtcOn := rfl
@[simp] theorem State.modDie_gtcOn (s : State) (i : Nat) (f : Die → Die) : (s.modDie i f).gtcOn = s.gtcOn := rfl
@[simp] theorem State.setDie_relTick (s : State) (i : Nat) (x : Die) : (s.setDie i x).relTick = s.relTick := rfl
@[simp] theorem State.modDie_relTick (s : State) (i : Nat) (f : Die → Die) : (s.modDie i f).relTick = s.relTick := rfl
@[simp] theorem State.setDie_relStep (s : State) (i : Nat) (x : Die) : (s.setDie i x).relStep = s.relStep := rfl
@[simp] theorem State.modDie_relStep (s : State) (i : Nat) (f : Die → Die) : (s.modDie i f).relStep = s.relStep := rfl
@[simp] theorem State.setDie_cycle (s : State) (i : Nat) (x : Die) : (s.setDie i x).cycle = s.cycle := rfl
@[simp] theorem State.modDie_cycle (s : State) (i : Nat) (f : Die → Die) : (s.modDie i f).cycle = s.cycle := rfl
@[simp] theorem State.setDie_cur (s : State) (i : Nat) (x : Die) : (s.setDie i x).cur = s.cur := rfl
@[simp] theorem State.modDie_cur (s : State) (i : Nat) (f : Die → Die) : (s.modDie i f).cur = s.cur := rfl
@[simp] theorem State.setDie_turn (s : State) (i : Nat) (x : Die) : (s.setDie i x).turn = s.turn := rfl
@[simp] theorem State.modDie_turn (s : State) (i : Nat) (f : Die → Die) : (s.modDie i f).turn = s.turn := rfl
@[simp] theorem State.setDie_acc (s : State) (i : Nat) (x : Die) : (s.setDie i x).acc = s.acc := rfl
@[simp] theorem State.modDie_acc (s : State) (i : Nat) (f : Die → Die) : (s.modDie i f).acc = s.acc := rfl
@[simp] theorem State.setDie_free (s : State) (i : Nat) (x : Die) : (s.setDie i x).free = s.free := rfl
@[simp] theorem State.modDie_free (s : State) (i : Nat) (f : Die → Die) : (s.modDie i f).free = s.free := rfl
@[simp] theorem State.setDie_inputs (s : State) (i : Nat) (x : Die) : (s.setDie i x).inputs = s.inputs := rfl
@[simp] theorem State.modDie_inputs (s : State) (i : Nat) (f : Die → Die) : (s.modDie i f).inputs = s.inputs := rfl
@[simp] theorem State.setDie_mgmtq (s : State) (i : Nat) (x : Die) : (s.setDie i x).mgmtq = s.mgmtq := rfl
@[simp] theorem State.modDie_mgmtq (s : State) (i : Nat) (f : Die → Die) : (s.modDie i f).mgmtq = s.mgmtq := rfl
@[simp] theorem State.setDie_uio (s : State) (i : Nat) (x : Die) : (s.setDie i x).uio = s.uio := rfl
@[simp] theorem State.modDie_uio (s : State) (i : Nat) (f : Die → Die) : (s.modDie i f).uio = s.uio := rfl
@[simp] theorem State.setDie_outputs (s : State) (i : Nat) (x : Die) : (s.setDie i x).outputs = s.outputs := rfl
@[simp] theorem State.modDie_outputs (s : State) (i : Nat) (f : Die → Die) : (s.modDie i f).outputs = s.outputs := rfl
@[simp] theorem State.setDie_hw (s : State) (i : Nat) (x : Die) : (s.setDie i x).hw = s.hw := rfl
@[simp] theorem State.modDie_hw (s : State) (i : Nat) (f : Die → Die) : (s.modDie i f).hw = s.hw := rfl
@[simp] theorem State.setDie_undet (s : State) (i : Nat) (x : Die) : (s.setDie i x).undet = s.undet := rfl
@[simp] theorem State.modDie_undet (s : State) (i : Nat) (f : Die → Die) : (s.modDie i f).undet = s.undet := rfl

/-! ### Fields of a slot that an update leaves -/

@[simp] theorem Slot.setS_phase (x : Slot) (n : Nat) (v : W64) : (x.setS n v).phase = x.phase := rfl
@[simp] theorem Slot.setS_park (x : Slot) (n : Nat) (v : W64) : (x.setS n v).park = x.park := rfl
@[simp] theorem Slot.setS_pc (x : Slot) (n : Nat) (v : W64) : (x.setS n v).pc = x.pc := rfl
@[simp] theorem Slot.setS_clause (x : Slot) (n : Nat) (v : W64) : (x.setS n v).clause = x.clause := rfl
@[simp] theorem Slot.setS_hdrWait (x : Slot) (n : Nat) (v : W64) : (x.setS n v).hdrWait = x.hdrWait := rfl
@[simp] theorem Slot.setS_resuming (x : Slot) (n : Nat) (v : W64) : (x.setS n v).resuming = x.resuming := rfl
@[simp] theorem Slot.setS_v (x : Slot) (n : Nat) (v : W64) : (x.setS n v).v = x.v := rfl
@[simp] theorem Slot.setS_m (x : Slot) (n : Nat) (v : W64) : (x.setS n v).m = x.m := rfl
@[simp] theorem Slot.setS_p (x : Slot) (n : Nat) (v : W64) : (x.setS n v).p = x.p := rfl
@[simp] theorem Slot.setS_shadow0 (x : Slot) (n : Nat) (v : W64) : (x.setS n v).shadow0 = x.shadow0 := rfl
@[simp] theorem Slot.setS_shadow1 (x : Slot) (n : Nat) (v : W64) : (x.setS n v).shadow1 = x.shadow1 := rfl
@[simp] theorem Slot.setS_stack (x : Slot) (n : Nat) (v : W64) : (x.setS n v).stack = x.stack := rfl
@[simp] theorem Slot.setS_links (x : Slot) (n : Nat) (v : W64) : (x.setS n v).links = x.links := rfl
@[simp] theorem Slot.setS_rcnt (x : Slot) (n : Nat) (v : W64) : (x.setS n v).rcnt = x.rcnt := rfl
@[simp] theorem Slot.setS_budget (x : Slot) (n : Nat) (v : W64) : (x.setS n v).budget = x.budget := rfl
@[simp] theorem Slot.setS_width (x : Slot) (n : Nat) (v : W64) : (x.setS n v).width = x.width := rfl
@[simp] theorem Slot.setS_slices (x : Slot) (n : Nat) (v : W64) : (x.setS n v).slices = x.slices := rfl
@[simp] theorem Slot.setS_job (x : Slot) (n : Nat) (v : W64) : (x.setS n v).job = x.job := rfl
@[simp] theorem Slot.setS_gen (x : Slot) (n : Nat) (v : W64) : (x.setS n v).gen = x.gen := rfl
@[simp] theorem Slot.setS_segs (x : Slot) (n : Nat) (v : W64) : (x.setS n v).segs = x.segs := rfl
@[simp] theorem Slot.setS_fmt (x : Slot) (n : Nat) (v : W64) : (x.setS n v).fmt = x.fmt := rfl
@[simp] theorem Slot.setS_asid (x : Slot) (n : Nat) (v : W64) : (x.setS n v).asid = x.asid := rfl
@[simp] theorem Slot.setS_status (x : Slot) (n : Nat) (v : W64) : (x.setS n v).status = x.status := rfl
@[simp] theorem Slot.setS_cause (x : Slot) (n : Nat) (v : W64) : (x.setS n v).cause = x.cause := rfl
@[simp] theorem Slot.setS_epc (x : Slot) (n : Nat) (v : W64) : (x.setS n v).epc = x.epc := rfl
@[simp] theorem Slot.setS_tval (x : Slot) (n : Nat) (v : W64) : (x.setS n v).tval = x.tval := rfl
@[simp] theorem Slot.setS_fmask (x : Slot) (n : Nat) (v : W64) : (x.setS n v).fmask = x.fmask := rfl
@[simp] theorem Slot.setS_lfm (x : Slot) (n : Nat) (v : W64) : (x.setS n v).lfm = x.lfm := rfl
@[simp] theorem Slot.setS_sowst (x : Slot) (n : Nat) (v : W64) : (x.setS n v).sowst = x.sowst := rfl
@[simp] theorem Slot.setS_sowsth (x : Slot) (n : Nat) (v : W64) : (x.setS n v).sowsth = x.sowsth := rfl
@[simp] theorem Slot.setS_tvec (x : Slot) (n : Nat) (v : W64) : (x.setS n v).tvec = x.tvec := rfl
@[simp] theorem Slot.setS_utvec (x : Slot) (n : Nat) (v : W64) : (x.setS n v).utvec = x.utvec := rfl
@[simp] theorem Slot.setS_udeleg (x : Slot) (n : Nat) (v : W64) : (x.setS n v).udeleg = x.udeleg := rfl
@[simp] theorem Slot.setS_ie (x : Slot) (n : Nat) (v : W64) : (x.setS n v).ie = x.ie := rfl
@[simp] theorem Slot.setS_ip (x : Slot) (n : Nat) (v : W64) : (x.setS n v).ip = x.ip := rfl
@[simp] theorem Slot.setS_escr (x : Slot) (n : Nat) (v : W64) : (x.setS n v).escr = x.escr := rfl
@[simp] theorem Slot.setS_uscr (x : Slot) (n : Nat) (v : W64) : (x.setS n v).uscr = x.uscr := rfl
@[simp] theorem Slot.setS_timecmp (x : Slot) (n : Nat) (v : W64) : (x.setS n v).timecmp = x.timecmp := rfl
@[simp] theorem Slot.setS_wlim (x : Slot) (n : Nat) (v : W64) : (x.setS n v).wlim = x.wlim := rfl
@[simp] theorem Slot.setS_outdst (x : Slot) (n : Nat) (v : W64) : (x.setS n v).outdst = x.outdst := rfl
@[simp] theorem Slot.setS_msbase (x : Slot) (n : Nat) (v : W64) : (x.setS n v).msbase = x.msbase := rfl
@[simp] theorem Slot.setS_savea (x : Slot) (n : Nat) (v : W64) : (x.setS n v).savea = x.savea := rfl
@[simp] theorem Slot.setS_gseed (x : Slot) (n : Nat) (v : W64) : (x.setS n v).gseed = x.gseed := rfl
@[simp] theorem Slot.setS_ranks (x : Slot) (n : Nat) (v : W64) : (x.setS n v).ranks = x.ranks := rfl
@[simp] theorem Slot.setS_fflags (x : Slot) (n : Nat) (v : W64) : (x.setS n v).fflags = x.fflags := rfl
@[simp] theorem Slot.setS_replv (x : Slot) (n : Nat) (v : W64) : (x.setS n v).replv = x.replv := rfl
@[simp] theorem Slot.setS_binds (x : Slot) (n : Nat) (v : W64) : (x.setS n v).binds = x.binds := rfl
@[simp] theorem Slot.setS_marks (x : Slot) (n : Nat) (v : W64) : (x.setS n v).marks = x.marks := rfl
@[simp] theorem Slot.setS_seqRep (x : Slot) (n : Nat) (v : W64) : (x.setS n v).seqRep = x.seqRep := rfl
@[simp] theorem Slot.setS_remote (x : Slot) (n : Nat) (v : W64) : (x.setS n v).remote = x.remote := rfl
@[simp] theorem Slot.setS_reconv (x : Slot) (n : Nat) (v : W64) : (x.setS n v).reconv = x.reconv := rfl
@[simp] theorem Slot.setS_replay (x : Slot) (n : Nat) (v : W64) : (x.setS n v).replay = x.replay := rfl
@[simp] theorem Slot.setS_replayHeld (x : Slot) (n : Nat) (v : W64) : (x.setS n v).replayHeld = x.replayHeld := rfl
@[simp] theorem Slot.setS_reported (x : Slot) (n : Nat) (v : W64) : (x.setS n v).reported = x.reported := rfl
@[simp] theorem Slot.setS_resumed (x : Slot) (n : Nat) (v : W64) : (x.setS n v).resumed = x.resumed := rfl
@[simp] theorem Slot.setS_sowDem (x : Slot) (n : Nat) (v : W64) : (x.setS n v).sowDem = x.sowDem := rfl
@[simp] theorem Slot.setS_held (x : Slot) (n : Nat) (v : W64) : (x.setS n v).held = x.held := rfl
@[simp] theorem Slot.setS_pairOf (x : Slot) (n : Nat) (v : W64) : (x.setS n v).pairOf = x.pairOf := rfl
@[simp] theorem Slot.setS_kern (x : Slot) (n : Nat) (v : W64) : (x.setS n v).kern = x.kern := rfl
@[simp] theorem Slot.setS_sc (x : Slot) (n : Nat) (v : W64) : (x.setS n v).sc = x.sc := rfl
@[simp] theorem Slot.setS_ready (x : Slot) (n : Nat) (v : W64) : (x.setS n v).ready = x.ready := rfl
@[simp] theorem Slot.setS_demAt (x : Slot) (n : Nat) (v : W64) : (x.setS n v).demAt = x.demAt := rfl
@[simp] theorem Slot.setS_born (x : Slot) (n : Nat) (v : W64) : (x.setS n v).born = x.born := rfl

@[simp] theorem Slot.setSReg_phase (x : Slot) (n : Nat) (v : SReg) : (x.setSReg n v).phase = x.phase := rfl
@[simp] theorem Slot.setSReg_park (x : Slot) (n : Nat) (v : SReg) : (x.setSReg n v).park = x.park := rfl
@[simp] theorem Slot.setSReg_pc (x : Slot) (n : Nat) (v : SReg) : (x.setSReg n v).pc = x.pc := rfl
@[simp] theorem Slot.setSReg_clause (x : Slot) (n : Nat) (v : SReg) : (x.setSReg n v).clause = x.clause := rfl
@[simp] theorem Slot.setSReg_hdrWait (x : Slot) (n : Nat) (v : SReg) : (x.setSReg n v).hdrWait = x.hdrWait := rfl
@[simp] theorem Slot.setSReg_resuming (x : Slot) (n : Nat) (v : SReg) : (x.setSReg n v).resuming = x.resuming := rfl
@[simp] theorem Slot.setSReg_v (x : Slot) (n : Nat) (v : SReg) : (x.setSReg n v).v = x.v := rfl
@[simp] theorem Slot.setSReg_m (x : Slot) (n : Nat) (v : SReg) : (x.setSReg n v).m = x.m := rfl
@[simp] theorem Slot.setSReg_p (x : Slot) (n : Nat) (v : SReg) : (x.setSReg n v).p = x.p := rfl
@[simp] theorem Slot.setSReg_shadow0 (x : Slot) (n : Nat) (v : SReg) : (x.setSReg n v).shadow0 = x.shadow0 := rfl
@[simp] theorem Slot.setSReg_shadow1 (x : Slot) (n : Nat) (v : SReg) : (x.setSReg n v).shadow1 = x.shadow1 := rfl
@[simp] theorem Slot.setSReg_stack (x : Slot) (n : Nat) (v : SReg) : (x.setSReg n v).stack = x.stack := rfl
@[simp] theorem Slot.setSReg_links (x : Slot) (n : Nat) (v : SReg) : (x.setSReg n v).links = x.links := rfl
@[simp] theorem Slot.setSReg_rcnt (x : Slot) (n : Nat) (v : SReg) : (x.setSReg n v).rcnt = x.rcnt := rfl
@[simp] theorem Slot.setSReg_budget (x : Slot) (n : Nat) (v : SReg) : (x.setSReg n v).budget = x.budget := rfl
@[simp] theorem Slot.setSReg_width (x : Slot) (n : Nat) (v : SReg) : (x.setSReg n v).width = x.width := rfl
@[simp] theorem Slot.setSReg_slices (x : Slot) (n : Nat) (v : SReg) : (x.setSReg n v).slices = x.slices := rfl
@[simp] theorem Slot.setSReg_job (x : Slot) (n : Nat) (v : SReg) : (x.setSReg n v).job = x.job := rfl
@[simp] theorem Slot.setSReg_gen (x : Slot) (n : Nat) (v : SReg) : (x.setSReg n v).gen = x.gen := rfl
@[simp] theorem Slot.setSReg_segs (x : Slot) (n : Nat) (v : SReg) : (x.setSReg n v).segs = x.segs := rfl
@[simp] theorem Slot.setSReg_fmt (x : Slot) (n : Nat) (v : SReg) : (x.setSReg n v).fmt = x.fmt := rfl
@[simp] theorem Slot.setSReg_asid (x : Slot) (n : Nat) (v : SReg) : (x.setSReg n v).asid = x.asid := rfl
@[simp] theorem Slot.setSReg_status (x : Slot) (n : Nat) (v : SReg) : (x.setSReg n v).status = x.status := rfl
@[simp] theorem Slot.setSReg_cause (x : Slot) (n : Nat) (v : SReg) : (x.setSReg n v).cause = x.cause := rfl
@[simp] theorem Slot.setSReg_epc (x : Slot) (n : Nat) (v : SReg) : (x.setSReg n v).epc = x.epc := rfl
@[simp] theorem Slot.setSReg_tval (x : Slot) (n : Nat) (v : SReg) : (x.setSReg n v).tval = x.tval := rfl
@[simp] theorem Slot.setSReg_fmask (x : Slot) (n : Nat) (v : SReg) : (x.setSReg n v).fmask = x.fmask := rfl
@[simp] theorem Slot.setSReg_lfm (x : Slot) (n : Nat) (v : SReg) : (x.setSReg n v).lfm = x.lfm := rfl
@[simp] theorem Slot.setSReg_sowst (x : Slot) (n : Nat) (v : SReg) : (x.setSReg n v).sowst = x.sowst := rfl
@[simp] theorem Slot.setSReg_sowsth (x : Slot) (n : Nat) (v : SReg) : (x.setSReg n v).sowsth = x.sowsth := rfl
@[simp] theorem Slot.setSReg_tvec (x : Slot) (n : Nat) (v : SReg) : (x.setSReg n v).tvec = x.tvec := rfl
@[simp] theorem Slot.setSReg_utvec (x : Slot) (n : Nat) (v : SReg) : (x.setSReg n v).utvec = x.utvec := rfl
@[simp] theorem Slot.setSReg_udeleg (x : Slot) (n : Nat) (v : SReg) : (x.setSReg n v).udeleg = x.udeleg := rfl
@[simp] theorem Slot.setSReg_ie (x : Slot) (n : Nat) (v : SReg) : (x.setSReg n v).ie = x.ie := rfl
@[simp] theorem Slot.setSReg_ip (x : Slot) (n : Nat) (v : SReg) : (x.setSReg n v).ip = x.ip := rfl
@[simp] theorem Slot.setSReg_escr (x : Slot) (n : Nat) (v : SReg) : (x.setSReg n v).escr = x.escr := rfl
@[simp] theorem Slot.setSReg_uscr (x : Slot) (n : Nat) (v : SReg) : (x.setSReg n v).uscr = x.uscr := rfl
@[simp] theorem Slot.setSReg_timecmp (x : Slot) (n : Nat) (v : SReg) : (x.setSReg n v).timecmp = x.timecmp := rfl
@[simp] theorem Slot.setSReg_wlim (x : Slot) (n : Nat) (v : SReg) : (x.setSReg n v).wlim = x.wlim := rfl
@[simp] theorem Slot.setSReg_outdst (x : Slot) (n : Nat) (v : SReg) : (x.setSReg n v).outdst = x.outdst := rfl
@[simp] theorem Slot.setSReg_msbase (x : Slot) (n : Nat) (v : SReg) : (x.setSReg n v).msbase = x.msbase := rfl
@[simp] theorem Slot.setSReg_savea (x : Slot) (n : Nat) (v : SReg) : (x.setSReg n v).savea = x.savea := rfl
@[simp] theorem Slot.setSReg_gseed (x : Slot) (n : Nat) (v : SReg) : (x.setSReg n v).gseed = x.gseed := rfl
@[simp] theorem Slot.setSReg_ranks (x : Slot) (n : Nat) (v : SReg) : (x.setSReg n v).ranks = x.ranks := rfl
@[simp] theorem Slot.setSReg_fflags (x : Slot) (n : Nat) (v : SReg) : (x.setSReg n v).fflags = x.fflags := rfl
@[simp] theorem Slot.setSReg_replv (x : Slot) (n : Nat) (v : SReg) : (x.setSReg n v).replv = x.replv := rfl
@[simp] theorem Slot.setSReg_binds (x : Slot) (n : Nat) (v : SReg) : (x.setSReg n v).binds = x.binds := rfl
@[simp] theorem Slot.setSReg_marks (x : Slot) (n : Nat) (v : SReg) : (x.setSReg n v).marks = x.marks := rfl
@[simp] theorem Slot.setSReg_seqRep (x : Slot) (n : Nat) (v : SReg) : (x.setSReg n v).seqRep = x.seqRep := rfl
@[simp] theorem Slot.setSReg_remote (x : Slot) (n : Nat) (v : SReg) : (x.setSReg n v).remote = x.remote := rfl
@[simp] theorem Slot.setSReg_reconv (x : Slot) (n : Nat) (v : SReg) : (x.setSReg n v).reconv = x.reconv := rfl
@[simp] theorem Slot.setSReg_replay (x : Slot) (n : Nat) (v : SReg) : (x.setSReg n v).replay = x.replay := rfl
@[simp] theorem Slot.setSReg_replayHeld (x : Slot) (n : Nat) (v : SReg) : (x.setSReg n v).replayHeld = x.replayHeld := rfl
@[simp] theorem Slot.setSReg_reported (x : Slot) (n : Nat) (v : SReg) : (x.setSReg n v).reported = x.reported := rfl
@[simp] theorem Slot.setSReg_resumed (x : Slot) (n : Nat) (v : SReg) : (x.setSReg n v).resumed = x.resumed := rfl
@[simp] theorem Slot.setSReg_sowDem (x : Slot) (n : Nat) (v : SReg) : (x.setSReg n v).sowDem = x.sowDem := rfl
@[simp] theorem Slot.setSReg_held (x : Slot) (n : Nat) (v : SReg) : (x.setSReg n v).held = x.held := rfl
@[simp] theorem Slot.setSReg_pairOf (x : Slot) (n : Nat) (v : SReg) : (x.setSReg n v).pairOf = x.pairOf := rfl
@[simp] theorem Slot.setSReg_kern (x : Slot) (n : Nat) (v : SReg) : (x.setSReg n v).kern = x.kern := rfl
@[simp] theorem Slot.setSReg_sc (x : Slot) (n : Nat) (v : SReg) : (x.setSReg n v).sc = x.sc := rfl
@[simp] theorem Slot.setSReg_ready (x : Slot) (n : Nat) (v : SReg) : (x.setSReg n v).ready = x.ready := rfl
@[simp] theorem Slot.setSReg_demAt (x : Slot) (n : Nat) (v : SReg) : (x.setSReg n v).demAt = x.demAt := rfl
@[simp] theorem Slot.setSReg_born (x : Slot) (n : Nat) (v : SReg) : (x.setSReg n v).born = x.born := rfl

@[simp] theorem Slot.setV_phase (x : Slot) (r l : Nat) (v : W32) : (x.setV r l v).phase = x.phase := rfl
@[simp] theorem Slot.setV_park (x : Slot) (r l : Nat) (v : W32) : (x.setV r l v).park = x.park := rfl
@[simp] theorem Slot.setV_pc (x : Slot) (r l : Nat) (v : W32) : (x.setV r l v).pc = x.pc := rfl
@[simp] theorem Slot.setV_clause (x : Slot) (r l : Nat) (v : W32) : (x.setV r l v).clause = x.clause := rfl
@[simp] theorem Slot.setV_hdrWait (x : Slot) (r l : Nat) (v : W32) : (x.setV r l v).hdrWait = x.hdrWait := rfl
@[simp] theorem Slot.setV_resuming (x : Slot) (r l : Nat) (v : W32) : (x.setV r l v).resuming = x.resuming := rfl
@[simp] theorem Slot.setV_s (x : Slot) (r l : Nat) (v : W32) : (x.setV r l v).s = x.s := rfl
@[simp] theorem Slot.setV_m (x : Slot) (r l : Nat) (v : W32) : (x.setV r l v).m = x.m := rfl
@[simp] theorem Slot.setV_p (x : Slot) (r l : Nat) (v : W32) : (x.setV r l v).p = x.p := rfl
@[simp] theorem Slot.setV_shadow0 (x : Slot) (r l : Nat) (v : W32) : (x.setV r l v).shadow0 = x.shadow0 := rfl
@[simp] theorem Slot.setV_shadow1 (x : Slot) (r l : Nat) (v : W32) : (x.setV r l v).shadow1 = x.shadow1 := rfl
@[simp] theorem Slot.setV_stack (x : Slot) (r l : Nat) (v : W32) : (x.setV r l v).stack = x.stack := rfl
@[simp] theorem Slot.setV_links (x : Slot) (r l : Nat) (v : W32) : (x.setV r l v).links = x.links := rfl
@[simp] theorem Slot.setV_rcnt (x : Slot) (r l : Nat) (v : W32) : (x.setV r l v).rcnt = x.rcnt := rfl
@[simp] theorem Slot.setV_budget (x : Slot) (r l : Nat) (v : W32) : (x.setV r l v).budget = x.budget := rfl
@[simp] theorem Slot.setV_width (x : Slot) (r l : Nat) (v : W32) : (x.setV r l v).width = x.width := rfl
@[simp] theorem Slot.setV_slices (x : Slot) (r l : Nat) (v : W32) : (x.setV r l v).slices = x.slices := rfl
@[simp] theorem Slot.setV_job (x : Slot) (r l : Nat) (v : W32) : (x.setV r l v).job = x.job := rfl
@[simp] theorem Slot.setV_gen (x : Slot) (r l : Nat) (v : W32) : (x.setV r l v).gen = x.gen := rfl
@[simp] theorem Slot.setV_segs (x : Slot) (r l : Nat) (v : W32) : (x.setV r l v).segs = x.segs := rfl
@[simp] theorem Slot.setV_fmt (x : Slot) (r l : Nat) (v : W32) : (x.setV r l v).fmt = x.fmt := rfl
@[simp] theorem Slot.setV_asid (x : Slot) (r l : Nat) (v : W32) : (x.setV r l v).asid = x.asid := rfl
@[simp] theorem Slot.setV_status (x : Slot) (r l : Nat) (v : W32) : (x.setV r l v).status = x.status := rfl
@[simp] theorem Slot.setV_cause (x : Slot) (r l : Nat) (v : W32) : (x.setV r l v).cause = x.cause := rfl
@[simp] theorem Slot.setV_epc (x : Slot) (r l : Nat) (v : W32) : (x.setV r l v).epc = x.epc := rfl
@[simp] theorem Slot.setV_tval (x : Slot) (r l : Nat) (v : W32) : (x.setV r l v).tval = x.tval := rfl
@[simp] theorem Slot.setV_fmask (x : Slot) (r l : Nat) (v : W32) : (x.setV r l v).fmask = x.fmask := rfl
@[simp] theorem Slot.setV_lfm (x : Slot) (r l : Nat) (v : W32) : (x.setV r l v).lfm = x.lfm := rfl
@[simp] theorem Slot.setV_sowst (x : Slot) (r l : Nat) (v : W32) : (x.setV r l v).sowst = x.sowst := rfl
@[simp] theorem Slot.setV_sowsth (x : Slot) (r l : Nat) (v : W32) : (x.setV r l v).sowsth = x.sowsth := rfl
@[simp] theorem Slot.setV_tvec (x : Slot) (r l : Nat) (v : W32) : (x.setV r l v).tvec = x.tvec := rfl
@[simp] theorem Slot.setV_utvec (x : Slot) (r l : Nat) (v : W32) : (x.setV r l v).utvec = x.utvec := rfl
@[simp] theorem Slot.setV_udeleg (x : Slot) (r l : Nat) (v : W32) : (x.setV r l v).udeleg = x.udeleg := rfl
@[simp] theorem Slot.setV_ie (x : Slot) (r l : Nat) (v : W32) : (x.setV r l v).ie = x.ie := rfl
@[simp] theorem Slot.setV_ip (x : Slot) (r l : Nat) (v : W32) : (x.setV r l v).ip = x.ip := rfl
@[simp] theorem Slot.setV_escr (x : Slot) (r l : Nat) (v : W32) : (x.setV r l v).escr = x.escr := rfl
@[simp] theorem Slot.setV_uscr (x : Slot) (r l : Nat) (v : W32) : (x.setV r l v).uscr = x.uscr := rfl
@[simp] theorem Slot.setV_timecmp (x : Slot) (r l : Nat) (v : W32) : (x.setV r l v).timecmp = x.timecmp := rfl
@[simp] theorem Slot.setV_wlim (x : Slot) (r l : Nat) (v : W32) : (x.setV r l v).wlim = x.wlim := rfl
@[simp] theorem Slot.setV_outdst (x : Slot) (r l : Nat) (v : W32) : (x.setV r l v).outdst = x.outdst := rfl
@[simp] theorem Slot.setV_msbase (x : Slot) (r l : Nat) (v : W32) : (x.setV r l v).msbase = x.msbase := rfl
@[simp] theorem Slot.setV_savea (x : Slot) (r l : Nat) (v : W32) : (x.setV r l v).savea = x.savea := rfl
@[simp] theorem Slot.setV_gseed (x : Slot) (r l : Nat) (v : W32) : (x.setV r l v).gseed = x.gseed := rfl
@[simp] theorem Slot.setV_ranks (x : Slot) (r l : Nat) (v : W32) : (x.setV r l v).ranks = x.ranks := rfl
@[simp] theorem Slot.setV_fflags (x : Slot) (r l : Nat) (v : W32) : (x.setV r l v).fflags = x.fflags := rfl
@[simp] theorem Slot.setV_replv (x : Slot) (r l : Nat) (v : W32) : (x.setV r l v).replv = x.replv := rfl
@[simp] theorem Slot.setV_binds (x : Slot) (r l : Nat) (v : W32) : (x.setV r l v).binds = x.binds := rfl
@[simp] theorem Slot.setV_marks (x : Slot) (r l : Nat) (v : W32) : (x.setV r l v).marks = x.marks := rfl
@[simp] theorem Slot.setV_seqRep (x : Slot) (r l : Nat) (v : W32) : (x.setV r l v).seqRep = x.seqRep := rfl
@[simp] theorem Slot.setV_remote (x : Slot) (r l : Nat) (v : W32) : (x.setV r l v).remote = x.remote := rfl
@[simp] theorem Slot.setV_reconv (x : Slot) (r l : Nat) (v : W32) : (x.setV r l v).reconv = x.reconv := rfl
@[simp] theorem Slot.setV_replay (x : Slot) (r l : Nat) (v : W32) : (x.setV r l v).replay = x.replay := rfl
@[simp] theorem Slot.setV_replayHeld (x : Slot) (r l : Nat) (v : W32) : (x.setV r l v).replayHeld = x.replayHeld := rfl
@[simp] theorem Slot.setV_reported (x : Slot) (r l : Nat) (v : W32) : (x.setV r l v).reported = x.reported := rfl
@[simp] theorem Slot.setV_resumed (x : Slot) (r l : Nat) (v : W32) : (x.setV r l v).resumed = x.resumed := rfl
@[simp] theorem Slot.setV_sowDem (x : Slot) (r l : Nat) (v : W32) : (x.setV r l v).sowDem = x.sowDem := rfl
@[simp] theorem Slot.setV_held (x : Slot) (r l : Nat) (v : W32) : (x.setV r l v).held = x.held := rfl
@[simp] theorem Slot.setV_pairOf (x : Slot) (r l : Nat) (v : W32) : (x.setV r l v).pairOf = x.pairOf := rfl
@[simp] theorem Slot.setV_kern (x : Slot) (r l : Nat) (v : W32) : (x.setV r l v).kern = x.kern := rfl
@[simp] theorem Slot.setV_sc (x : Slot) (r l : Nat) (v : W32) : (x.setV r l v).sc = x.sc := rfl
@[simp] theorem Slot.setV_ready (x : Slot) (r l : Nat) (v : W32) : (x.setV r l v).ready = x.ready := rfl
@[simp] theorem Slot.setV_demAt (x : Slot) (r l : Nat) (v : W32) : (x.setV r l v).demAt = x.demAt := rfl
@[simp] theorem Slot.setV_born (x : Slot) (r l : Nat) (v : W32) : (x.setV r l v).born = x.born := rfl

@[simp] theorem Slot.setVReg_phase (x : Slot) (r l : Nat) (v : VReg) : (x.setVReg r l v).phase = x.phase := rfl
@[simp] theorem Slot.setVReg_park (x : Slot) (r l : Nat) (v : VReg) : (x.setVReg r l v).park = x.park := rfl
@[simp] theorem Slot.setVReg_pc (x : Slot) (r l : Nat) (v : VReg) : (x.setVReg r l v).pc = x.pc := rfl
@[simp] theorem Slot.setVReg_clause (x : Slot) (r l : Nat) (v : VReg) : (x.setVReg r l v).clause = x.clause := rfl
@[simp] theorem Slot.setVReg_hdrWait (x : Slot) (r l : Nat) (v : VReg) : (x.setVReg r l v).hdrWait = x.hdrWait := rfl
@[simp] theorem Slot.setVReg_resuming (x : Slot) (r l : Nat) (v : VReg) : (x.setVReg r l v).resuming = x.resuming := rfl
@[simp] theorem Slot.setVReg_s (x : Slot) (r l : Nat) (v : VReg) : (x.setVReg r l v).s = x.s := rfl
@[simp] theorem Slot.setVReg_m (x : Slot) (r l : Nat) (v : VReg) : (x.setVReg r l v).m = x.m := rfl
@[simp] theorem Slot.setVReg_p (x : Slot) (r l : Nat) (v : VReg) : (x.setVReg r l v).p = x.p := rfl
@[simp] theorem Slot.setVReg_shadow0 (x : Slot) (r l : Nat) (v : VReg) : (x.setVReg r l v).shadow0 = x.shadow0 := rfl
@[simp] theorem Slot.setVReg_shadow1 (x : Slot) (r l : Nat) (v : VReg) : (x.setVReg r l v).shadow1 = x.shadow1 := rfl
@[simp] theorem Slot.setVReg_stack (x : Slot) (r l : Nat) (v : VReg) : (x.setVReg r l v).stack = x.stack := rfl
@[simp] theorem Slot.setVReg_links (x : Slot) (r l : Nat) (v : VReg) : (x.setVReg r l v).links = x.links := rfl
@[simp] theorem Slot.setVReg_rcnt (x : Slot) (r l : Nat) (v : VReg) : (x.setVReg r l v).rcnt = x.rcnt := rfl
@[simp] theorem Slot.setVReg_budget (x : Slot) (r l : Nat) (v : VReg) : (x.setVReg r l v).budget = x.budget := rfl
@[simp] theorem Slot.setVReg_width (x : Slot) (r l : Nat) (v : VReg) : (x.setVReg r l v).width = x.width := rfl
@[simp] theorem Slot.setVReg_slices (x : Slot) (r l : Nat) (v : VReg) : (x.setVReg r l v).slices = x.slices := rfl
@[simp] theorem Slot.setVReg_job (x : Slot) (r l : Nat) (v : VReg) : (x.setVReg r l v).job = x.job := rfl
@[simp] theorem Slot.setVReg_gen (x : Slot) (r l : Nat) (v : VReg) : (x.setVReg r l v).gen = x.gen := rfl
@[simp] theorem Slot.setVReg_segs (x : Slot) (r l : Nat) (v : VReg) : (x.setVReg r l v).segs = x.segs := rfl
@[simp] theorem Slot.setVReg_fmt (x : Slot) (r l : Nat) (v : VReg) : (x.setVReg r l v).fmt = x.fmt := rfl
@[simp] theorem Slot.setVReg_asid (x : Slot) (r l : Nat) (v : VReg) : (x.setVReg r l v).asid = x.asid := rfl
@[simp] theorem Slot.setVReg_status (x : Slot) (r l : Nat) (v : VReg) : (x.setVReg r l v).status = x.status := rfl
@[simp] theorem Slot.setVReg_cause (x : Slot) (r l : Nat) (v : VReg) : (x.setVReg r l v).cause = x.cause := rfl
@[simp] theorem Slot.setVReg_epc (x : Slot) (r l : Nat) (v : VReg) : (x.setVReg r l v).epc = x.epc := rfl
@[simp] theorem Slot.setVReg_tval (x : Slot) (r l : Nat) (v : VReg) : (x.setVReg r l v).tval = x.tval := rfl
@[simp] theorem Slot.setVReg_fmask (x : Slot) (r l : Nat) (v : VReg) : (x.setVReg r l v).fmask = x.fmask := rfl
@[simp] theorem Slot.setVReg_lfm (x : Slot) (r l : Nat) (v : VReg) : (x.setVReg r l v).lfm = x.lfm := rfl
@[simp] theorem Slot.setVReg_sowst (x : Slot) (r l : Nat) (v : VReg) : (x.setVReg r l v).sowst = x.sowst := rfl
@[simp] theorem Slot.setVReg_sowsth (x : Slot) (r l : Nat) (v : VReg) : (x.setVReg r l v).sowsth = x.sowsth := rfl
@[simp] theorem Slot.setVReg_tvec (x : Slot) (r l : Nat) (v : VReg) : (x.setVReg r l v).tvec = x.tvec := rfl
@[simp] theorem Slot.setVReg_utvec (x : Slot) (r l : Nat) (v : VReg) : (x.setVReg r l v).utvec = x.utvec := rfl
@[simp] theorem Slot.setVReg_udeleg (x : Slot) (r l : Nat) (v : VReg) : (x.setVReg r l v).udeleg = x.udeleg := rfl
@[simp] theorem Slot.setVReg_ie (x : Slot) (r l : Nat) (v : VReg) : (x.setVReg r l v).ie = x.ie := rfl
@[simp] theorem Slot.setVReg_ip (x : Slot) (r l : Nat) (v : VReg) : (x.setVReg r l v).ip = x.ip := rfl
@[simp] theorem Slot.setVReg_escr (x : Slot) (r l : Nat) (v : VReg) : (x.setVReg r l v).escr = x.escr := rfl
@[simp] theorem Slot.setVReg_uscr (x : Slot) (r l : Nat) (v : VReg) : (x.setVReg r l v).uscr = x.uscr := rfl
@[simp] theorem Slot.setVReg_timecmp (x : Slot) (r l : Nat) (v : VReg) : (x.setVReg r l v).timecmp = x.timecmp := rfl
@[simp] theorem Slot.setVReg_wlim (x : Slot) (r l : Nat) (v : VReg) : (x.setVReg r l v).wlim = x.wlim := rfl
@[simp] theorem Slot.setVReg_outdst (x : Slot) (r l : Nat) (v : VReg) : (x.setVReg r l v).outdst = x.outdst := rfl
@[simp] theorem Slot.setVReg_msbase (x : Slot) (r l : Nat) (v : VReg) : (x.setVReg r l v).msbase = x.msbase := rfl
@[simp] theorem Slot.setVReg_savea (x : Slot) (r l : Nat) (v : VReg) : (x.setVReg r l v).savea = x.savea := rfl
@[simp] theorem Slot.setVReg_gseed (x : Slot) (r l : Nat) (v : VReg) : (x.setVReg r l v).gseed = x.gseed := rfl
@[simp] theorem Slot.setVReg_ranks (x : Slot) (r l : Nat) (v : VReg) : (x.setVReg r l v).ranks = x.ranks := rfl
@[simp] theorem Slot.setVReg_fflags (x : Slot) (r l : Nat) (v : VReg) : (x.setVReg r l v).fflags = x.fflags := rfl
@[simp] theorem Slot.setVReg_replv (x : Slot) (r l : Nat) (v : VReg) : (x.setVReg r l v).replv = x.replv := rfl
@[simp] theorem Slot.setVReg_binds (x : Slot) (r l : Nat) (v : VReg) : (x.setVReg r l v).binds = x.binds := rfl
@[simp] theorem Slot.setVReg_marks (x : Slot) (r l : Nat) (v : VReg) : (x.setVReg r l v).marks = x.marks := rfl
@[simp] theorem Slot.setVReg_seqRep (x : Slot) (r l : Nat) (v : VReg) : (x.setVReg r l v).seqRep = x.seqRep := rfl
@[simp] theorem Slot.setVReg_remote (x : Slot) (r l : Nat) (v : VReg) : (x.setVReg r l v).remote = x.remote := rfl
@[simp] theorem Slot.setVReg_reconv (x : Slot) (r l : Nat) (v : VReg) : (x.setVReg r l v).reconv = x.reconv := rfl
@[simp] theorem Slot.setVReg_replay (x : Slot) (r l : Nat) (v : VReg) : (x.setVReg r l v).replay = x.replay := rfl
@[simp] theorem Slot.setVReg_replayHeld (x : Slot) (r l : Nat) (v : VReg) : (x.setVReg r l v).replayHeld = x.replayHeld := rfl
@[simp] theorem Slot.setVReg_reported (x : Slot) (r l : Nat) (v : VReg) : (x.setVReg r l v).reported = x.reported := rfl
@[simp] theorem Slot.setVReg_resumed (x : Slot) (r l : Nat) (v : VReg) : (x.setVReg r l v).resumed = x.resumed := rfl
@[simp] theorem Slot.setVReg_sowDem (x : Slot) (r l : Nat) (v : VReg) : (x.setVReg r l v).sowDem = x.sowDem := rfl
@[simp] theorem Slot.setVReg_held (x : Slot) (r l : Nat) (v : VReg) : (x.setVReg r l v).held = x.held := rfl
@[simp] theorem Slot.setVReg_pairOf (x : Slot) (r l : Nat) (v : VReg) : (x.setVReg r l v).pairOf = x.pairOf := rfl
@[simp] theorem Slot.setVReg_kern (x : Slot) (r l : Nat) (v : VReg) : (x.setVReg r l v).kern = x.kern := rfl
@[simp] theorem Slot.setVReg_sc (x : Slot) (r l : Nat) (v : VReg) : (x.setVReg r l v).sc = x.sc := rfl
@[simp] theorem Slot.setVReg_ready (x : Slot) (r l : Nat) (v : VReg) : (x.setVReg r l v).ready = x.ready := rfl
@[simp] theorem Slot.setVReg_demAt (x : Slot) (r l : Nat) (v : VReg) : (x.setVReg r l v).demAt = x.demAt := rfl
@[simp] theorem Slot.setVReg_born (x : Slot) (r l : Nat) (v : VReg) : (x.setVReg r l v).born = x.born := rfl

@[simp] theorem Slot.setP_phase (x : Slot) (n : Nat) (v : BitVec 128) : (x.setP n v).phase = x.phase := rfl
@[simp] theorem Slot.setP_park (x : Slot) (n : Nat) (v : BitVec 128) : (x.setP n v).park = x.park := rfl
@[simp] theorem Slot.setP_pc (x : Slot) (n : Nat) (v : BitVec 128) : (x.setP n v).pc = x.pc := rfl
@[simp] theorem Slot.setP_clause (x : Slot) (n : Nat) (v : BitVec 128) : (x.setP n v).clause = x.clause := rfl
@[simp] theorem Slot.setP_hdrWait (x : Slot) (n : Nat) (v : BitVec 128) : (x.setP n v).hdrWait = x.hdrWait := rfl
@[simp] theorem Slot.setP_resuming (x : Slot) (n : Nat) (v : BitVec 128) : (x.setP n v).resuming = x.resuming := rfl
@[simp] theorem Slot.setP_s (x : Slot) (n : Nat) (v : BitVec 128) : (x.setP n v).s = x.s := rfl
@[simp] theorem Slot.setP_v (x : Slot) (n : Nat) (v : BitVec 128) : (x.setP n v).v = x.v := rfl
@[simp] theorem Slot.setP_m (x : Slot) (n : Nat) (v : BitVec 128) : (x.setP n v).m = x.m := rfl
@[simp] theorem Slot.setP_shadow0 (x : Slot) (n : Nat) (v : BitVec 128) : (x.setP n v).shadow0 = x.shadow0 := rfl
@[simp] theorem Slot.setP_shadow1 (x : Slot) (n : Nat) (v : BitVec 128) : (x.setP n v).shadow1 = x.shadow1 := rfl
@[simp] theorem Slot.setP_stack (x : Slot) (n : Nat) (v : BitVec 128) : (x.setP n v).stack = x.stack := rfl
@[simp] theorem Slot.setP_links (x : Slot) (n : Nat) (v : BitVec 128) : (x.setP n v).links = x.links := rfl
@[simp] theorem Slot.setP_rcnt (x : Slot) (n : Nat) (v : BitVec 128) : (x.setP n v).rcnt = x.rcnt := rfl
@[simp] theorem Slot.setP_budget (x : Slot) (n : Nat) (v : BitVec 128) : (x.setP n v).budget = x.budget := rfl
@[simp] theorem Slot.setP_width (x : Slot) (n : Nat) (v : BitVec 128) : (x.setP n v).width = x.width := rfl
@[simp] theorem Slot.setP_slices (x : Slot) (n : Nat) (v : BitVec 128) : (x.setP n v).slices = x.slices := rfl
@[simp] theorem Slot.setP_job (x : Slot) (n : Nat) (v : BitVec 128) : (x.setP n v).job = x.job := rfl
@[simp] theorem Slot.setP_gen (x : Slot) (n : Nat) (v : BitVec 128) : (x.setP n v).gen = x.gen := rfl
@[simp] theorem Slot.setP_segs (x : Slot) (n : Nat) (v : BitVec 128) : (x.setP n v).segs = x.segs := rfl
@[simp] theorem Slot.setP_fmt (x : Slot) (n : Nat) (v : BitVec 128) : (x.setP n v).fmt = x.fmt := rfl
@[simp] theorem Slot.setP_asid (x : Slot) (n : Nat) (v : BitVec 128) : (x.setP n v).asid = x.asid := rfl
@[simp] theorem Slot.setP_status (x : Slot) (n : Nat) (v : BitVec 128) : (x.setP n v).status = x.status := rfl
@[simp] theorem Slot.setP_cause (x : Slot) (n : Nat) (v : BitVec 128) : (x.setP n v).cause = x.cause := rfl
@[simp] theorem Slot.setP_epc (x : Slot) (n : Nat) (v : BitVec 128) : (x.setP n v).epc = x.epc := rfl
@[simp] theorem Slot.setP_tval (x : Slot) (n : Nat) (v : BitVec 128) : (x.setP n v).tval = x.tval := rfl
@[simp] theorem Slot.setP_fmask (x : Slot) (n : Nat) (v : BitVec 128) : (x.setP n v).fmask = x.fmask := rfl
@[simp] theorem Slot.setP_lfm (x : Slot) (n : Nat) (v : BitVec 128) : (x.setP n v).lfm = x.lfm := rfl
@[simp] theorem Slot.setP_sowst (x : Slot) (n : Nat) (v : BitVec 128) : (x.setP n v).sowst = x.sowst := rfl
@[simp] theorem Slot.setP_sowsth (x : Slot) (n : Nat) (v : BitVec 128) : (x.setP n v).sowsth = x.sowsth := rfl
@[simp] theorem Slot.setP_tvec (x : Slot) (n : Nat) (v : BitVec 128) : (x.setP n v).tvec = x.tvec := rfl
@[simp] theorem Slot.setP_utvec (x : Slot) (n : Nat) (v : BitVec 128) : (x.setP n v).utvec = x.utvec := rfl
@[simp] theorem Slot.setP_udeleg (x : Slot) (n : Nat) (v : BitVec 128) : (x.setP n v).udeleg = x.udeleg := rfl
@[simp] theorem Slot.setP_ie (x : Slot) (n : Nat) (v : BitVec 128) : (x.setP n v).ie = x.ie := rfl
@[simp] theorem Slot.setP_ip (x : Slot) (n : Nat) (v : BitVec 128) : (x.setP n v).ip = x.ip := rfl
@[simp] theorem Slot.setP_escr (x : Slot) (n : Nat) (v : BitVec 128) : (x.setP n v).escr = x.escr := rfl
@[simp] theorem Slot.setP_uscr (x : Slot) (n : Nat) (v : BitVec 128) : (x.setP n v).uscr = x.uscr := rfl
@[simp] theorem Slot.setP_timecmp (x : Slot) (n : Nat) (v : BitVec 128) : (x.setP n v).timecmp = x.timecmp := rfl
@[simp] theorem Slot.setP_wlim (x : Slot) (n : Nat) (v : BitVec 128) : (x.setP n v).wlim = x.wlim := rfl
@[simp] theorem Slot.setP_outdst (x : Slot) (n : Nat) (v : BitVec 128) : (x.setP n v).outdst = x.outdst := rfl
@[simp] theorem Slot.setP_msbase (x : Slot) (n : Nat) (v : BitVec 128) : (x.setP n v).msbase = x.msbase := rfl
@[simp] theorem Slot.setP_savea (x : Slot) (n : Nat) (v : BitVec 128) : (x.setP n v).savea = x.savea := rfl
@[simp] theorem Slot.setP_gseed (x : Slot) (n : Nat) (v : BitVec 128) : (x.setP n v).gseed = x.gseed := rfl
@[simp] theorem Slot.setP_ranks (x : Slot) (n : Nat) (v : BitVec 128) : (x.setP n v).ranks = x.ranks := rfl
@[simp] theorem Slot.setP_fflags (x : Slot) (n : Nat) (v : BitVec 128) : (x.setP n v).fflags = x.fflags := rfl
@[simp] theorem Slot.setP_replv (x : Slot) (n : Nat) (v : BitVec 128) : (x.setP n v).replv = x.replv := rfl
@[simp] theorem Slot.setP_binds (x : Slot) (n : Nat) (v : BitVec 128) : (x.setP n v).binds = x.binds := rfl
@[simp] theorem Slot.setP_marks (x : Slot) (n : Nat) (v : BitVec 128) : (x.setP n v).marks = x.marks := rfl
@[simp] theorem Slot.setP_seqRep (x : Slot) (n : Nat) (v : BitVec 128) : (x.setP n v).seqRep = x.seqRep := rfl
@[simp] theorem Slot.setP_remote (x : Slot) (n : Nat) (v : BitVec 128) : (x.setP n v).remote = x.remote := rfl
@[simp] theorem Slot.setP_reconv (x : Slot) (n : Nat) (v : BitVec 128) : (x.setP n v).reconv = x.reconv := rfl
@[simp] theorem Slot.setP_replay (x : Slot) (n : Nat) (v : BitVec 128) : (x.setP n v).replay = x.replay := rfl
@[simp] theorem Slot.setP_replayHeld (x : Slot) (n : Nat) (v : BitVec 128) : (x.setP n v).replayHeld = x.replayHeld := rfl
@[simp] theorem Slot.setP_reported (x : Slot) (n : Nat) (v : BitVec 128) : (x.setP n v).reported = x.reported := rfl
@[simp] theorem Slot.setP_resumed (x : Slot) (n : Nat) (v : BitVec 128) : (x.setP n v).resumed = x.resumed := rfl
@[simp] theorem Slot.setP_sowDem (x : Slot) (n : Nat) (v : BitVec 128) : (x.setP n v).sowDem = x.sowDem := rfl
@[simp] theorem Slot.setP_held (x : Slot) (n : Nat) (v : BitVec 128) : (x.setP n v).held = x.held := rfl
@[simp] theorem Slot.setP_pairOf (x : Slot) (n : Nat) (v : BitVec 128) : (x.setP n v).pairOf = x.pairOf := rfl
@[simp] theorem Slot.setP_kern (x : Slot) (n : Nat) (v : BitVec 128) : (x.setP n v).kern = x.kern := rfl
@[simp] theorem Slot.setP_sc (x : Slot) (n : Nat) (v : BitVec 128) : (x.setP n v).sc = x.sc := rfl
@[simp] theorem Slot.setP_ready (x : Slot) (n : Nat) (v : BitVec 128) : (x.setP n v).ready = x.ready := rfl
@[simp] theorem Slot.setP_demAt (x : Slot) (n : Nat) (v : BitVec 128) : (x.setP n v).demAt = x.demAt := rfl
@[simp] theorem Slot.setP_born (x : Slot) (n : Nat) (v : BitVec 128) : (x.setP n v).born = x.born := rfl

@[simp] theorem Slot.setM_phase (x : Slot) (n : Nat) (v : W64) : (x.setM n v).phase = x.phase := rfl
@[simp] theorem Slot.setM_park (x : Slot) (n : Nat) (v : W64) : (x.setM n v).park = x.park := rfl
@[simp] theorem Slot.setM_pc (x : Slot) (n : Nat) (v : W64) : (x.setM n v).pc = x.pc := rfl
@[simp] theorem Slot.setM_clause (x : Slot) (n : Nat) (v : W64) : (x.setM n v).clause = x.clause := rfl
@[simp] theorem Slot.setM_hdrWait (x : Slot) (n : Nat) (v : W64) : (x.setM n v).hdrWait = x.hdrWait := rfl
@[simp] theorem Slot.setM_resuming (x : Slot) (n : Nat) (v : W64) : (x.setM n v).resuming = x.resuming := rfl
@[simp] theorem Slot.setM_s (x : Slot) (n : Nat) (v : W64) : (x.setM n v).s = x.s := rfl
@[simp] theorem Slot.setM_v (x : Slot) (n : Nat) (v : W64) : (x.setM n v).v = x.v := rfl
@[simp] theorem Slot.setM_p (x : Slot) (n : Nat) (v : W64) : (x.setM n v).p = x.p := rfl
@[simp] theorem Slot.setM_shadow0 (x : Slot) (n : Nat) (v : W64) : (x.setM n v).shadow0 = x.shadow0 := rfl
@[simp] theorem Slot.setM_shadow1 (x : Slot) (n : Nat) (v : W64) : (x.setM n v).shadow1 = x.shadow1 := rfl
@[simp] theorem Slot.setM_stack (x : Slot) (n : Nat) (v : W64) : (x.setM n v).stack = x.stack := rfl
@[simp] theorem Slot.setM_links (x : Slot) (n : Nat) (v : W64) : (x.setM n v).links = x.links := rfl
@[simp] theorem Slot.setM_rcnt (x : Slot) (n : Nat) (v : W64) : (x.setM n v).rcnt = x.rcnt := rfl
@[simp] theorem Slot.setM_budget (x : Slot) (n : Nat) (v : W64) : (x.setM n v).budget = x.budget := rfl
@[simp] theorem Slot.setM_width (x : Slot) (n : Nat) (v : W64) : (x.setM n v).width = x.width := rfl
@[simp] theorem Slot.setM_slices (x : Slot) (n : Nat) (v : W64) : (x.setM n v).slices = x.slices := rfl
@[simp] theorem Slot.setM_job (x : Slot) (n : Nat) (v : W64) : (x.setM n v).job = x.job := rfl
@[simp] theorem Slot.setM_gen (x : Slot) (n : Nat) (v : W64) : (x.setM n v).gen = x.gen := rfl
@[simp] theorem Slot.setM_segs (x : Slot) (n : Nat) (v : W64) : (x.setM n v).segs = x.segs := rfl
@[simp] theorem Slot.setM_fmt (x : Slot) (n : Nat) (v : W64) : (x.setM n v).fmt = x.fmt := rfl
@[simp] theorem Slot.setM_asid (x : Slot) (n : Nat) (v : W64) : (x.setM n v).asid = x.asid := rfl
@[simp] theorem Slot.setM_status (x : Slot) (n : Nat) (v : W64) : (x.setM n v).status = x.status := rfl
@[simp] theorem Slot.setM_cause (x : Slot) (n : Nat) (v : W64) : (x.setM n v).cause = x.cause := rfl
@[simp] theorem Slot.setM_epc (x : Slot) (n : Nat) (v : W64) : (x.setM n v).epc = x.epc := rfl
@[simp] theorem Slot.setM_tval (x : Slot) (n : Nat) (v : W64) : (x.setM n v).tval = x.tval := rfl
@[simp] theorem Slot.setM_fmask (x : Slot) (n : Nat) (v : W64) : (x.setM n v).fmask = x.fmask := rfl
@[simp] theorem Slot.setM_lfm (x : Slot) (n : Nat) (v : W64) : (x.setM n v).lfm = x.lfm := rfl
@[simp] theorem Slot.setM_sowst (x : Slot) (n : Nat) (v : W64) : (x.setM n v).sowst = x.sowst := rfl
@[simp] theorem Slot.setM_sowsth (x : Slot) (n : Nat) (v : W64) : (x.setM n v).sowsth = x.sowsth := rfl
@[simp] theorem Slot.setM_tvec (x : Slot) (n : Nat) (v : W64) : (x.setM n v).tvec = x.tvec := rfl
@[simp] theorem Slot.setM_utvec (x : Slot) (n : Nat) (v : W64) : (x.setM n v).utvec = x.utvec := rfl
@[simp] theorem Slot.setM_udeleg (x : Slot) (n : Nat) (v : W64) : (x.setM n v).udeleg = x.udeleg := rfl
@[simp] theorem Slot.setM_ie (x : Slot) (n : Nat) (v : W64) : (x.setM n v).ie = x.ie := rfl
@[simp] theorem Slot.setM_ip (x : Slot) (n : Nat) (v : W64) : (x.setM n v).ip = x.ip := rfl
@[simp] theorem Slot.setM_escr (x : Slot) (n : Nat) (v : W64) : (x.setM n v).escr = x.escr := rfl
@[simp] theorem Slot.setM_uscr (x : Slot) (n : Nat) (v : W64) : (x.setM n v).uscr = x.uscr := rfl
@[simp] theorem Slot.setM_timecmp (x : Slot) (n : Nat) (v : W64) : (x.setM n v).timecmp = x.timecmp := rfl
@[simp] theorem Slot.setM_wlim (x : Slot) (n : Nat) (v : W64) : (x.setM n v).wlim = x.wlim := rfl
@[simp] theorem Slot.setM_outdst (x : Slot) (n : Nat) (v : W64) : (x.setM n v).outdst = x.outdst := rfl
@[simp] theorem Slot.setM_msbase (x : Slot) (n : Nat) (v : W64) : (x.setM n v).msbase = x.msbase := rfl
@[simp] theorem Slot.setM_savea (x : Slot) (n : Nat) (v : W64) : (x.setM n v).savea = x.savea := rfl
@[simp] theorem Slot.setM_gseed (x : Slot) (n : Nat) (v : W64) : (x.setM n v).gseed = x.gseed := rfl
@[simp] theorem Slot.setM_ranks (x : Slot) (n : Nat) (v : W64) : (x.setM n v).ranks = x.ranks := rfl
@[simp] theorem Slot.setM_fflags (x : Slot) (n : Nat) (v : W64) : (x.setM n v).fflags = x.fflags := rfl
@[simp] theorem Slot.setM_replv (x : Slot) (n : Nat) (v : W64) : (x.setM n v).replv = x.replv := rfl
@[simp] theorem Slot.setM_binds (x : Slot) (n : Nat) (v : W64) : (x.setM n v).binds = x.binds := rfl
@[simp] theorem Slot.setM_marks (x : Slot) (n : Nat) (v : W64) : (x.setM n v).marks = x.marks := rfl
@[simp] theorem Slot.setM_seqRep (x : Slot) (n : Nat) (v : W64) : (x.setM n v).seqRep = x.seqRep := rfl
@[simp] theorem Slot.setM_remote (x : Slot) (n : Nat) (v : W64) : (x.setM n v).remote = x.remote := rfl
@[simp] theorem Slot.setM_reconv (x : Slot) (n : Nat) (v : W64) : (x.setM n v).reconv = x.reconv := rfl
@[simp] theorem Slot.setM_replay (x : Slot) (n : Nat) (v : W64) : (x.setM n v).replay = x.replay := rfl
@[simp] theorem Slot.setM_replayHeld (x : Slot) (n : Nat) (v : W64) : (x.setM n v).replayHeld = x.replayHeld := rfl
@[simp] theorem Slot.setM_reported (x : Slot) (n : Nat) (v : W64) : (x.setM n v).reported = x.reported := rfl
@[simp] theorem Slot.setM_resumed (x : Slot) (n : Nat) (v : W64) : (x.setM n v).resumed = x.resumed := rfl
@[simp] theorem Slot.setM_sowDem (x : Slot) (n : Nat) (v : W64) : (x.setM n v).sowDem = x.sowDem := rfl
@[simp] theorem Slot.setM_held (x : Slot) (n : Nat) (v : W64) : (x.setM n v).held = x.held := rfl
@[simp] theorem Slot.setM_pairOf (x : Slot) (n : Nat) (v : W64) : (x.setM n v).pairOf = x.pairOf := rfl
@[simp] theorem Slot.setM_kern (x : Slot) (n : Nat) (v : W64) : (x.setM n v).kern = x.kern := rfl
@[simp] theorem Slot.setM_sc (x : Slot) (n : Nat) (v : W64) : (x.setM n v).sc = x.sc := rfl
@[simp] theorem Slot.setM_ready (x : Slot) (n : Nat) (v : W64) : (x.setM n v).ready = x.ready := rfl
@[simp] theorem Slot.setM_demAt (x : Slot) (n : Nat) (v : W64) : (x.setM n v).demAt = x.demAt := rfl
@[simp] theorem Slot.setM_born (x : Slot) (n : Nat) (v : W64) : (x.setM n v).born = x.born := rfl

@[simp] theorem Slot.flag_phase (x : Slot) (fl : Nat) : (x.flag fl).phase = x.phase := rfl
@[simp] theorem Slot.flag_park (x : Slot) (fl : Nat) : (x.flag fl).park = x.park := rfl
@[simp] theorem Slot.flag_pc (x : Slot) (fl : Nat) : (x.flag fl).pc = x.pc := rfl
@[simp] theorem Slot.flag_clause (x : Slot) (fl : Nat) : (x.flag fl).clause = x.clause := rfl
@[simp] theorem Slot.flag_hdrWait (x : Slot) (fl : Nat) : (x.flag fl).hdrWait = x.hdrWait := rfl
@[simp] theorem Slot.flag_resuming (x : Slot) (fl : Nat) : (x.flag fl).resuming = x.resuming := rfl
@[simp] theorem Slot.flag_s (x : Slot) (fl : Nat) : (x.flag fl).s = x.s := rfl
@[simp] theorem Slot.flag_v (x : Slot) (fl : Nat) : (x.flag fl).v = x.v := rfl
@[simp] theorem Slot.flag_m (x : Slot) (fl : Nat) : (x.flag fl).m = x.m := rfl
@[simp] theorem Slot.flag_p (x : Slot) (fl : Nat) : (x.flag fl).p = x.p := rfl
@[simp] theorem Slot.flag_shadow0 (x : Slot) (fl : Nat) : (x.flag fl).shadow0 = x.shadow0 := rfl
@[simp] theorem Slot.flag_shadow1 (x : Slot) (fl : Nat) : (x.flag fl).shadow1 = x.shadow1 := rfl
@[simp] theorem Slot.flag_stack (x : Slot) (fl : Nat) : (x.flag fl).stack = x.stack := rfl
@[simp] theorem Slot.flag_links (x : Slot) (fl : Nat) : (x.flag fl).links = x.links := rfl
@[simp] theorem Slot.flag_rcnt (x : Slot) (fl : Nat) : (x.flag fl).rcnt = x.rcnt := rfl
@[simp] theorem Slot.flag_budget (x : Slot) (fl : Nat) : (x.flag fl).budget = x.budget := rfl
@[simp] theorem Slot.flag_width (x : Slot) (fl : Nat) : (x.flag fl).width = x.width := rfl
@[simp] theorem Slot.flag_slices (x : Slot) (fl : Nat) : (x.flag fl).slices = x.slices := rfl
@[simp] theorem Slot.flag_job (x : Slot) (fl : Nat) : (x.flag fl).job = x.job := rfl
@[simp] theorem Slot.flag_gen (x : Slot) (fl : Nat) : (x.flag fl).gen = x.gen := rfl
@[simp] theorem Slot.flag_segs (x : Slot) (fl : Nat) : (x.flag fl).segs = x.segs := rfl
@[simp] theorem Slot.flag_fmt (x : Slot) (fl : Nat) : (x.flag fl).fmt = x.fmt := rfl
@[simp] theorem Slot.flag_asid (x : Slot) (fl : Nat) : (x.flag fl).asid = x.asid := rfl
@[simp] theorem Slot.flag_status (x : Slot) (fl : Nat) : (x.flag fl).status = x.status := rfl
@[simp] theorem Slot.flag_cause (x : Slot) (fl : Nat) : (x.flag fl).cause = x.cause := rfl
@[simp] theorem Slot.flag_epc (x : Slot) (fl : Nat) : (x.flag fl).epc = x.epc := rfl
@[simp] theorem Slot.flag_tval (x : Slot) (fl : Nat) : (x.flag fl).tval = x.tval := rfl
@[simp] theorem Slot.flag_fmask (x : Slot) (fl : Nat) : (x.flag fl).fmask = x.fmask := rfl
@[simp] theorem Slot.flag_lfm (x : Slot) (fl : Nat) : (x.flag fl).lfm = x.lfm := rfl
@[simp] theorem Slot.flag_sowst (x : Slot) (fl : Nat) : (x.flag fl).sowst = x.sowst := rfl
@[simp] theorem Slot.flag_sowsth (x : Slot) (fl : Nat) : (x.flag fl).sowsth = x.sowsth := rfl
@[simp] theorem Slot.flag_tvec (x : Slot) (fl : Nat) : (x.flag fl).tvec = x.tvec := rfl
@[simp] theorem Slot.flag_utvec (x : Slot) (fl : Nat) : (x.flag fl).utvec = x.utvec := rfl
@[simp] theorem Slot.flag_udeleg (x : Slot) (fl : Nat) : (x.flag fl).udeleg = x.udeleg := rfl
@[simp] theorem Slot.flag_ie (x : Slot) (fl : Nat) : (x.flag fl).ie = x.ie := rfl
@[simp] theorem Slot.flag_ip (x : Slot) (fl : Nat) : (x.flag fl).ip = x.ip := rfl
@[simp] theorem Slot.flag_escr (x : Slot) (fl : Nat) : (x.flag fl).escr = x.escr := rfl
@[simp] theorem Slot.flag_uscr (x : Slot) (fl : Nat) : (x.flag fl).uscr = x.uscr := rfl
@[simp] theorem Slot.flag_timecmp (x : Slot) (fl : Nat) : (x.flag fl).timecmp = x.timecmp := rfl
@[simp] theorem Slot.flag_wlim (x : Slot) (fl : Nat) : (x.flag fl).wlim = x.wlim := rfl
@[simp] theorem Slot.flag_outdst (x : Slot) (fl : Nat) : (x.flag fl).outdst = x.outdst := rfl
@[simp] theorem Slot.flag_msbase (x : Slot) (fl : Nat) : (x.flag fl).msbase = x.msbase := rfl
@[simp] theorem Slot.flag_savea (x : Slot) (fl : Nat) : (x.flag fl).savea = x.savea := rfl
@[simp] theorem Slot.flag_gseed (x : Slot) (fl : Nat) : (x.flag fl).gseed = x.gseed := rfl
@[simp] theorem Slot.flag_ranks (x : Slot) (fl : Nat) : (x.flag fl).ranks = x.ranks := rfl
@[simp] theorem Slot.flag_replv (x : Slot) (fl : Nat) : (x.flag fl).replv = x.replv := rfl
@[simp] theorem Slot.flag_binds (x : Slot) (fl : Nat) : (x.flag fl).binds = x.binds := rfl
@[simp] theorem Slot.flag_marks (x : Slot) (fl : Nat) : (x.flag fl).marks = x.marks := rfl
@[simp] theorem Slot.flag_seqRep (x : Slot) (fl : Nat) : (x.flag fl).seqRep = x.seqRep := rfl
@[simp] theorem Slot.flag_remote (x : Slot) (fl : Nat) : (x.flag fl).remote = x.remote := rfl
@[simp] theorem Slot.flag_reconv (x : Slot) (fl : Nat) : (x.flag fl).reconv = x.reconv := rfl
@[simp] theorem Slot.flag_replay (x : Slot) (fl : Nat) : (x.flag fl).replay = x.replay := rfl
@[simp] theorem Slot.flag_replayHeld (x : Slot) (fl : Nat) : (x.flag fl).replayHeld = x.replayHeld := rfl
@[simp] theorem Slot.flag_reported (x : Slot) (fl : Nat) : (x.flag fl).reported = x.reported := rfl
@[simp] theorem Slot.flag_resumed (x : Slot) (fl : Nat) : (x.flag fl).resumed = x.resumed := rfl
@[simp] theorem Slot.flag_sowDem (x : Slot) (fl : Nat) : (x.flag fl).sowDem = x.sowDem := rfl
@[simp] theorem Slot.flag_held (x : Slot) (fl : Nat) : (x.flag fl).held = x.held := rfl
@[simp] theorem Slot.flag_pairOf (x : Slot) (fl : Nat) : (x.flag fl).pairOf = x.pairOf := rfl
@[simp] theorem Slot.flag_kern (x : Slot) (fl : Nat) : (x.flag fl).kern = x.kern := rfl
@[simp] theorem Slot.flag_sc (x : Slot) (fl : Nat) : (x.flag fl).sc = x.sc := rfl
@[simp] theorem Slot.flag_ready (x : Slot) (fl : Nat) : (x.flag fl).ready = x.ready := rfl
@[simp] theorem Slot.flag_demAt (x : Slot) (fl : Nat) : (x.flag fl).demAt = x.demAt := rfl
@[simp] theorem Slot.flag_born (x : Slot) (fl : Nat) : (x.flag fl).born = x.born := rfl

/-! ### Registers of a slot after a write -/

@[simp] theorem Slot.setS_sreg (x : Slot) (n : Nat) (v : W64) : (x.setS n v).sreg n = ⟨v, true, false⟩ := mget_mset_same ..
theorem Slot.setS_sreg_ne (x : Slot) (v : W64) {n j : Nat} (h : j ≠ n) : (x.setS n v).sreg j = x.sreg j := mget_mset_ne _ _ _ h
@[simp] theorem Slot.setSReg_sreg (x : Slot) (n : Nat) (v : SReg) : (x.setSReg n v).sreg n = v := mget_mset_same ..
theorem Slot.setSReg_sreg_ne (x : Slot) (v : SReg) {n j : Nat} (h : j ≠ n) : (x.setSReg n v).sreg j = x.sreg j := mget_mset_ne _ _ _ h
@[simp] theorem Slot.setV_vreg (x : Slot) (r l : Nat) (v : W32) : (x.setV r l v).vreg r l = ⟨v, true, false⟩ := mget_mset_same ..
theorem Slot.setV_vreg_ne (x : Slot) (v : W32) {r l r' l' : Nat} (h : r' * 64 + l' ≠ r * 64 + l) : (x.setV r l v).vreg r' l' = x.vreg r' l' :=
  mget_mset_ne _ _ _ h
@[simp] theorem Slot.setP_preg (x : Slot) (n : Nat) (v : BitVec 128) : (x.setP n v).preg n = v := mget_mset_same ..
theorem Slot.setP_preg_ne (x : Slot) (v : BitVec 128) {n j : Nat} (h : j ≠ n) : (x.setP n v).preg j = x.preg j := mget_mset_ne _ _ _ h
/-- R70: a mask register takes the value within its lanes; m0 within m7 too. -/
theorem Slot.setM_mreg (x : Slot) (n : Nat) (v : W64) : (x.setM n v).mreg n = if n = 0 then v &&& laneMask x.lanes &&& x.mreg 7 else v &&& laneMask x.lanes :=
  mget_mset_same ..
theorem Slot.setM_mreg_ne (x : Slot) (v : W64) {n j : Nat} (h : j ≠ n) : (x.setM n v).mreg j = x.mreg j := mget_mset_ne _ _ _ h

end Sys2Proof.Machine
end

