-- ==== Sys2Proof/Laws/Memory.lean ====
section
/-! SUPPORT. Physical memory: what a byte reads after a write, and what every operation on memory leaves alone: the strands, the local stores, gangs
and messages, and the canonical form of the memory's list. -/

namespace Sys2Proof.Machine

/-! ### Bytes -/

@[simp] theorem rb_wb (s : State) (a : Nat) (b : Byte) : (s.wb a b).rb a = b := by
  unfold State.wb State.rb; split <;> simp
theorem rb_wb_ne (s : State) {a c : Nat} (b : Byte) (h : c ≠ a) : (s.wb a b).rb c = s.rb c := by
  unfold State.wb State.rb
  by_cases ha : hotBase ≤ a <;> by_cases hc : hotBase ≤ c <;> simp only [ha, hc, if_true, if_false]
  · exact mget_mset_ne _ _ _ (by omega)
  · exact mget_mset_ne _ _ _ h
/-- A write of `n` bytes changes no byte outside them. -/
theorem rb_wrN (s : State) (n pa v : Nat) {c : Nat} (h : c < pa ∨ pa + n ≤ c) : (s.wrN pa v n).rb c = s.rb c := by
  induction n generalizing s pa v with
  | zero => rfl
  | succ n ih =>
    simp only [State.wrN]
    rw [ih _ _ _ (by omega), rb_wb_ne _ _ (by omega)]
/-- Bytes written are read back. -/
theorem rb_wrN_in (s : State) (n pa v i : Nat) (h : i < n) : (s.wrN pa v n).rb (pa + i) = BitVec.ofNat 8 (v / 256 ^ i) := by
  induction n generalizing s pa v i with
  | zero => omega
  | succ n ih =>
    simp only [State.wrN]
    cases i with
    | zero => rw [rb_wrN _ _ _ _ (by omega)]; simp
    | succ j =>
      have := ih (s.wb pa (BitVec.ofNat 8 v)) (pa + 1) (v / 256) j (by omega)
      rw [show pa + (j + 1) = pa + 1 + j by omega, this, Nat.div_div_eq_div_mul, Nat.pow_succ, Nat.mul_comm (256 ^ j)]
@[simp] theorem lsByte_set (s : State) (c o : Nat) (b : Byte) : (s.setLsByte c o b).lsByte c o = b := by
  simp [State.setLsByte, State.lsByte]
theorem lsByte_set_ne (s : State) {c o c' o' : Nat} (b : Byte) (h : lsKey c' o' ≠ lsKey c o) : (s.setLsByte c o b).lsByte c' o' = s.lsByte c' o' :=
  mget_mset_ne _ _ _ h

/-! ### What operations on memory leave alone -/

/-- Strands, save areas, local stores, gangs, messages and the agent at work are as before, and memory keeps its canonical form. -/
structure Calm (s t : State) : Prop where
  slots : t.slots = s.slots
  saves : t.saves = s.saves
  cur : t.cur = s.cur
  ls : t.ls = s.ls
  lsEmpty : t.lsEmpty = s.lsEmpty
  lsPois : t.lsPois = s.lsPois
  gangs : t.gangs = s.gangs
  net : t.net = s.net
  form : Memory.wf s.mem = true → Memory.wf t.mem = true

theorem Calm.refl (s : State) : Calm s s := ⟨rfl, rfl, rfl, rfl, rfl, rfl, rfl, rfl, id⟩
theorem Calm.trans {s t u : State} (h : Calm s t) (g : Calm t u) : Calm s u :=
  ⟨g.slots.trans h.slots, g.saves.trans h.saves, g.cur.trans h.cur, g.ls.trans h.ls, g.lsEmpty.trans h.lsEmpty, g.lsPois.trans h.lsPois,
   g.gangs.trans h.gangs, g.net.trans h.net, fun w => g.form (h.form w)⟩
theorem Calm.slot {s t : State} (h : Calm s t) (k : Nat) : t.slot k = s.slot k := by simp only [State.slot, h.slots]
theorem Calm.lsByte {s t : State} (h : Calm s t) (c o : Nat) : t.lsByte c o = s.lsByte c o := by simp only [State.lsByte, h.ls]
/-- A run of calm operations is calm. -/
theorem calm_foldl {α : Type} {f : State → α → State} (h : ∀ s a, Calm s (f s a)) (l : List α) (s : State) : Calm s (l.foldl f s) := by
  induction l generalizing s with
  | nil => exact .refl s
  | cons a t ih => exact (h s a).trans (ih _)
theorem Calm.fold {α : Type} {f : State → α → State} {l : List α} {s u : State} (g : Calm u s) (h : ∀ s a, Calm s (f s a)) : Calm u (l.foldl f s) :=
  g.trans (calm_foldl h l s)
/-- Changes of fields that no strand and no memory byte lies in. -/
theorem calm_of_eq {s t : State} (h1 : t.slots = s.slots) (h2 : t.saves = s.saves) (h3 : t.cur = s.cur) (h4 : t.ls = s.ls) (h5 : t.lsEmpty = s.lsEmpty)
    (h6 : t.lsPois = s.lsPois) (h7 : t.gangs = s.gangs) (h8 : t.net = s.net) (h9 : t.mem = s.mem) : Calm s t :=
  ⟨h1, h2, h3, h4, h5, h6, h7, h8, fun w => by rw [h9]; exact w⟩
theorem calm_ite {s t u : State} {c : Prop} [Decidable c] (h : Calm s t) (g : Calm s u) : Calm s (if c then t else u) := by split <;> assumption

theorem wb_form (s : State) (a : Nat) (b : Byte) (h : Memory.wf s.mem = true) : Memory.wf (s.wb a b).mem = true := by
  unfold State.wb
  split
  · exact h
  · exact mwf_mset h
theorem wb_calm (s : State) (a : Nat) (b : Byte) : Calm s (s.wb a b) :=
  ⟨by unfold State.wb; split <;> rfl, by unfold State.wb; split <;> rfl, by unfold State.wb; split <;> rfl, by unfold State.wb; split <;> rfl,
   by unfold State.wb; split <;> rfl, by unfold State.wb; split <;> rfl, by unfold State.wb; split <;> rfl, by unfold State.wb; split <;> rfl, wb_form s a b⟩
theorem wrN_calm (s : State) (pa v n : Nat) : Calm s (s.wrN pa v n) := by
  induction n generalizing s pa v with
  | zero => exact .refl s
  | succ n ih => exact (wb_calm ..).trans (ih ..)
theorem wr64_calm (s : State) (pa : Nat) (v : W64) : Calm s (s.wr64 pa v) := wrN_calm ..
theorem setCore_calm (s : State) (c : Nat) (x : Core) : Calm s (s.setCore c x) := calm_of_eq rfl rfl rfl rfl rfl rfl rfl rfl rfl
theorem setCluster_calm (s : State) (c : Nat) (x : Cluster) : Calm s (s.setCluster c x) := calm_of_eq rfl rfl rfl rfl rfl rfl rfl rfl rfl
theorem setDie_calm (s : State) (c : Nat) (x : Die) : Calm s (s.setDie c x) := calm_of_eq rfl rfl rfl rfl rfl rfl rfl rfl rfl
theorem modCore_calm (s : State) (c : Nat) (f : Core → Core) : Calm s (s.modCore c f) := setCore_calm ..
theorem modCluster_calm (s : State) (c : Nat) (f : Cluster → Cluster) : Calm s (s.modCluster c f) := setCluster_calm ..
theorem modDie_calm (s : State) (c : Nat) (f : Die → Die) : Calm s (s.modDie c f) := setDie_calm ..
theorem setCfg_calm (s : State) (d p o : Nat) (v : W64) : Calm s (s.setCfg d p o v) := modDie_calm ..
theorem setMg_calm (s : State) (d o : Nat) (v : W64) : Calm s (s.setMg d o v) := modDie_calm ..
theorem poisonSector_calm (s : State) (x : Nat) : Calm s (s.poisonSector x) := calm_of_eq rfl rfl rfl rfl rfl rfl rfl rfl rfl
theorem cleanSector_calm (s : State) (x : Nat) : Calm s (s.cleanSector x) := calm_of_eq rfl rfl rfl rfl rfl rfl rfl rfl rfl
theorem emit_calm (s : State) (o : Output) : Calm s (s.emit o) := by
  unfold State.emit
  split
  · split
    · exact .refl s
    · exact calm_of_eq rfl rfl rfl rfl rfl rfl rfl rfl rfl
  · exact calm_of_eq rfl rfl rfl rfl rfl rfl rfl rfl rfl

/-! ### Rings, copies, a checkpoint's hold -/

theorem ringWrite_calm (s : State) (d : Nat) (ctl idx : W64) (e : LogEntry) : Calm s (ringWrite s d ctl idx e).1 := by
  unfold ringWrite
  dsimp only
  split
  · exact (wrN_calm ..).trans ((cleanSector_calm ..).trans ((wr64_calm ..).trans ((wr64_calm ..).trans ((wr64_calm ..).trans
      ((wr64_calm ..).trans ((wr64_calm ..).trans (wr64_calm ..)))))))
  · exact .refl s
theorem rawLog_calm (s : State) (d : Nat) (e : LogEntry) : Calm s (s.rawLog d e) := (ringWrite_calm ..).trans (setMg_calm ..)
theorem copyRange_calm (s : State) (src dst n : Nat) : Calm s (s.copyRange src dst n) := by
  unfold State.copyRange
  dsimp only
  refine Calm.fold ?_ (fun t x => ?_)
  · have h : Calm s (if hotBase ≤ dst then { s with hot := s.hot.filter (fun e => e.1 < dst - hotBase || dst - hotBase + n ≤ e.1) }
        else { s with mem := s.mem.filter (fun e => e.1 < dst || dst + n ≤ e.1) }) := by
      split
      · exact calm_of_eq rfl rfl rfl rfl rfl rfl rfl rfl rfl
      · exact ⟨rfl, rfl, rfl, rfl, rfl, rfl, rfl, rfl, fun h => mwf_filter _ h⟩
    have g (l : List (Nat × Byte)) := h.fold (l := l) (fun (t : State) e => wb_calm t (dst + e.1) e.2)
    exact ⟨(g _).slots, (g _).saves, (g _).cur, (g _).ls, (g _).lsEmpty, (g _).lsPois, (g _).gangs, (g _).net, (g _).form⟩
  · exact calm_of_eq rfl rfl rfl rfl rfl rfl rfl rfl rfl
theorem putHeader_calm (s : State) (d off : Nat) (v : W64) : Calm s (s.putHeader d off v) := by
  unfold State.putHeader; dsimp only; exact calm_ite (wr64_calm ..) (.refl s)
theorem ckptFail_calm (s : State) (d off : Nat) : Calm s (s.ckptFail d off) := by
  unfold State.ckptFail
  dsimp only
  refine Calm.trans (t := { s with ckpt := none }) (calm_of_eq rfl rfl rfl rfl rfl rfl rfl rfl rfl) ?_
  exact (calm_foldl (fun t e => putHeader_calm ..) _ _).trans ((setMg_calm ..).trans (rawLog_calm ..))
theorem copyUnit_calm (s : State) (d u : Nat) : Calm s (s.copyUnit d u) := by
  unfold State.copyUnit
  dsimp only
  have h (a b : Nat) := copyRange_calm s a b 65536
  exact calm_ite (ckptFail_calm ..) ⟨(h _ _).slots, (h _ _).saves, (h _ _).cur, (h _ _).ls, (h _ _).lsEmpty, (h _ _).lsPois, (h _ _).gangs, (h _ _).net, (h _ _).form⟩
theorem ckptHold_calm (s : State) (pa : Nat) : Calm s (s.ckptHold pa) := by
  unfold State.ckptHold
  split
  · exact calm_ite (calm_ite (.refl s) (copyUnit_calm ..)) (.refl s)
  · exact .refl s

/-! ### Logs -/

theorem logPart_calm (s : State) (d p : Nat) (e : LogEntry) : Calm s (s.logPart d p e) := by
  simp only [State.logPart]
  split
  · exact (ckptHold_calm ..).trans ((ringWrite_calm ..).trans ((setCfg_calm ..).trans (emit_calm ..)))
  · exact (ckptHold_calm ..).trans ((ringWrite_calm ..).trans (setCfg_calm ..))
theorem logDie_calm (s : State) (d : Nat) (e : LogEntry) : Calm s (s.logDie d e) := (ckptHold_calm ..).trans (rawLog_calm ..)
theorem logTo_calm (s : State) (d : Nat) (p : Option Nat) (e : LogEntry) : Calm s (s.logTo d p e) := by
  unfold State.logTo; split
  · exact logPart_calm ..
  · exact logDie_calm ..
theorem deadLetter_calm (s : State) (d p : Nat) : Calm s (s.deadLetter d p) := setCfg_calm ..
theorem memEvent_calm (s : State) (part : Option Nat) (d src code dom : Nat) (tval detail : W64) : Calm s (s.memEvent part d src code dom tval detail) :=
  logTo_calm ..
theorem unreachEvent_calm (s : State) (part : Option Nat) (d pa : Nat) : Calm s (s.unreachEvent part d pa) := by
  unfold State.unreachEvent; split
  · exact .refl s
  · split
    · exact memEvent_calm ..
    · exact .refl s
theorem undet_calm (s : State) (l : List HwUnit) : Calm s { s with undet := l } := calm_of_eq rfl rfl rfl rfl rfl rfl rfl rfl rfl
/-- Errors that a strand's read finds are reported. -/
theorem findErr_calm (s : State) (k : Nat) (us : List HwUnit) : Calm s (s.findErr k us).2 := by
  unfold State.findErr
  dsimp only
  split
  · exact .refl s
  · show Calm s (List.foldl _ _ _)
    exact (undet_calm ..).fold (fun t u => memEvent_calm ..)

/-! ### Checks, notify lines, queues -/

theorem readChk_calm (s : State) (part : Option Nat) (d pa n : Nat) : Calm s (s.readChk part d pa n).2 := by
  unfold State.readChk; split
  · exact unreachEvent_calm ..
  · dsimp only; split
    · exact .refl s
    · exact calm_foldl (fun t x => (poisonSector_calm ..).trans (memEvent_calm ..)) _ _
theorem touchLine_calm (s : State) (pa : Nat) : Calm s (s.touchLine pa) := by
  unfold State.touchLine; exact calm_ite (modDie_calm ..) (.refl s)
theorem askQueue_calm (s : State) (d p q : Nat) : Calm s (s.askQueue d p q) := calm_of_eq rfl rfl rfl rfl rfl rfl rfl rfl rfl
theorem askMap_calm (s : State) (d p q : Nat) : Calm s (s.askMap d p q) := by
  unfold State.askMap; exact calm_ite (.refl s) (askQueue_calm ..)
theorem notifyWrite_calm (s : State) (d p i pa n v mask : Nat) : Calm s (s.notifyWrite d p i pa n v mask) := by
  unfold State.notifyWrite
  exact calm_ite ((wrN_calm ..).trans (calm_foldl (fun t q => askMap_calm ..) _ _)) (.refl s)
theorem queueSet_calm (s : State) (d p q : Nat) (v : Bool) : Calm s (s.queueSet d p q v) := by
  unfold State.queueSet
  dsimp only
  split
  · exact Calm.fold (.refl s) (fun t e => modDie_calm ..)
  · split
    · exact ((Calm.fold (.refl s) (fun t e => modDie_calm ..)).trans (wr64_calm ..)).trans (askMap_calm ..)
    · exact (Calm.fold (.refl s) (fun t e => modDie_calm ..)).trans (wr64_calm ..)
/-! ### Writes -/

theorem commitMask_calm (s : State) (part : Option Nat) (d pa n v mask : Nat) : Calm s (s.commitMask part d pa n v mask) := by
  unfold State.commitMask
  refine calm_ite (unreachEvent_calm ..) ?_
  split
  · exact calm_ite (calm_of_eq rfl rfl rfl rfl rfl rfl rfl rfl rfl) (.refl s)
  · dsimp only
    refine Calm.trans ((ckptHold_calm s pa).trans (touchLine_calm _ pa)) ?_
    split
    · exact notifyWrite_calm ..
    · refine (calm_foldl (fun t x => ?_) _ _).trans ((calm_foldl (fun t i => ?_) _ _).trans (calm_foldl (fun t e => ?_) _ _))
      · exact calm_ite (cleanSector_calm ..) (calm_ite ((poisonSector_calm ..).trans (memEvent_calm ..)) (.refl _))
      · exact calm_ite (wb_calm ..) (.refl _)
      · exact calm_ite (.refl _) (queueSet_calm ..)
theorem commit_calm (s : State) (part : Option Nat) (d pa n v : Nat) : Calm s (s.commit part d pa n v) := commitMask_calm ..

/-! ### Tokens and directory entries -/

theorem setSliceTok_calm (s : State) (d b : Nat) (t : Tok) : Calm s (s.setSliceTok d b t) := modDie_calm ..
theorem setCdcTok_calm (s : State) (c b : Nat) (t : Tok) : Calm s (s.setCdcTok c b t) := modCore_calm ..
theorem coh_calm (s : State) (l : List Coh) : Calm s { s with coh := l } := calm_of_eq rfl rfl rfl rfl rfl rfl rfl rfl rfl
theorem cdcFlush_calm (s : State) (c b : Nat) : Calm s (s.cdcFlush c b) := (setCdcTok_calm ..).trans (setSliceTok_calm ..)
theorem collectDie_calm (s : State) (d b : Nat) : Calm s (s.collectDie d b) := calm_foldl (fun _ _ => cdcFlush_calm ..) _ _
theorem takeOne_calm (s : State) (d b : Nat) : Calm s (s.takeOne d b) := by
  unfold State.takeOne
  refine calm_ite (.refl s) ?_
  dsimp only
  split
  · exact .refl s
  · exact calm_ite ((setCdcTok_calm ..).trans (setSliceTok_calm ..)) ((setCdcTok_calm ..).trans (setSliceTok_calm ..))
theorem fullSlice_calm (s : State) (d b : Nat) (x : Bool) : Calm s (s.fullSlice d b x) :=
  (calm_foldl (fun _ _ => setCdcTok_calm ..) _ _).trans ((coh_calm ..).trans (setSliceTok_calm ..))
theorem askAgain_calm (s : State) (d b : Nat) : Calm s (s.askAgain d b) := modDie_calm ..
theorem loseDie_calm (s : State) (d b : Nat) : Calm s (s.loseDie d b) := (fullSlice_calm ..).trans ((setSliceTok_calm ..).trans (askAgain_calm ..))
theorem setDirSts_calm (s : State) (b : Nat) (st : List Nat) : Calm s (s.setDirSts b st) := by unfold State.setDirSts; exact modDie_calm ..
theorem setSt_calm (s : State) (b d v : Nat) : Calm s (s.setSt b d v) := calm_ite (.refl s) (setDirSts_calm ..)
theorem backInval_calm (s : State) (b : Nat) : Calm s (s.backInval b) := calm_ite (.refl s) (modDie_calm ..)
theorem backShare_calm (s : State) (b : Nat) : Calm s (s.backShare b) := calm_ite (.refl s) (modDie_calm ..)
theorem sendSnoop_calm (s : State) (l : Nat) (i : Bool) : Calm s (s.sendSnoop l i) := by
  unfold State.sendSnoop; exact calm_ite (.refl s) ((modDie_calm ..).trans (emit_calm ..))
theorem sendCoh_calm (s : State) (m : Coh) : Calm s (s.sendCoh m) := calm_of_eq rfl rfl rfl rfl rfl rfl rfl rfl rfl
theorem dropCoh_calm (s : State) (i : Nat) : Calm s (s.dropCoh i) := coh_calm ..

/-! ### A slice serves requests -/

theorem modTreq_calm (s : State) (c b : Nat) (f : TReq → TReq) : Calm s (s.modTreq c b f) := modDie_calm ..
theorem dropTreq_calm (s : State) (c b : Nat) : Calm s (s.dropTreq c b) := modDie_calm ..
theorem addHint_calm (s : State) (d b c : Nat) : Calm s (s.addHint d b c) := modDie_calm ..
theorem sliceSend_calm (s : State) (d b c n : Nat) : Calm s (s.sliceSend d b c n) := by
  unfold State.sliceSend; exact calm_ite (.refl s) ((setSliceTok_calm ..).trans ((addHint_calm ..).trans (sendCoh_calm ..)))
theorem cdcSend_calm (s : State) (d b h c : Nat) : Calm s (s.cdcSend d b h c) := by
  unfold State.cdcSend; exact calm_ite (.refl s) ((setCdcTok_calm ..).trans ((addHint_calm ..).trans (sendCoh_calm ..)))
theorem askOwner_calm (s : State) (d b c : Nat) : Calm s (s.askOwner d b c) := by
  unfold State.askOwner; split
  · exact sendCoh_calm ..
  · exact .refl s
theorem serveReq_calm (s : State) (r : TReq) : Calm s (s.serveReq r) := by
  unfold State.serveReq
  refine calm_ite (.refl s) (calm_ite (calm_ite ?_ (.refl s)) (calm_ite ?_ (.refl s)))
  · exact ((sliceSend_calm ..).fold (fun _ _ => sendCoh_calm ..)).trans (modTreq_calm ..)
  · exact (calm_ite (sliceSend_calm ..) (askOwner_calm ..)).trans (modTreq_calm ..)
theorem serveActive_calm (s : State) (r : TReq) : Calm s (s.serveActive r) := by
  unfold State.serveActive
  refine calm_ite ?_ (.refl s)
  refine Calm.trans (Calm.fold ?_ (fun _ _ => cdcSend_calm ..)) (modTreq_calm ..)
  exact (calm_ite (.refl s) (takeOne_calm ..)).trans (calm_ite (sliceSend_calm ..) (sliceSend_calm ..))
theorem serveBlk_calm (s : State) (d b : Nat) : Calm s (s.serveBlk d b) :=
  calm_foldl (fun _ _ => calm_ite (serveActive_calm ..) (calm_ite (.refl _) (serveReq_calm ..))) _ _
theorem takeTcoll_calm (m : Coh) (s : State) : Calm s (s.takeTcoll m) := by
  unfold State.takeTcoll
  refine calm_ite (calm_ite (.refl s) (calm_ite (cdcSend_calm ..) ?_)) (calm_foldl (fun _ _ => cdcSend_calm ..) _ _)
  exact (setCdcTok_calm ..).trans ((addHint_calm ..).trans (sendCoh_calm ..))
theorem cdcRoom_calm (s : State) (c b : Nat) : Calm s (s.cdcRoom c b) := by
  unfold State.cdcRoom
  refine calm_ite (.refl s) ?_
  split
  · exact cdcFlush_calm ..
  · exact .refl s
theorem takeTok_calm (m : Coh) (s : State) : Calm s (s.takeTok m) := by
  unfold State.takeTok
  split
  · exact (addHint_calm ..).trans (sendCoh_calm ..)
  · have h := (cdcRoom_calm s m.req m.blk).trans (setCdcTok_calm _ m.req m.blk
      ⟨((s.cdcRoom m.req m.blk).cdcTok m.req m.blk).n + m.n, ((s.cdcRoom m.req m.blk).cdcTok m.req m.blk).owner || m.owner,
       ((s.cdcRoom m.req m.blk).cdcTok m.req m.blk).dirty || m.dirty⟩)
    dsimp only
    split
    · exact calm_ite (h.trans (dropTreq_calm ..)) h
    · exact h

/-! ### Transactions at a home -/

theorem setTxn_calm (s : State) (h b : Nat) (t : Txn) : Calm s (s.setTxn h b t) := modDie_calm ..
theorem evictHost_calm (s : State) (b : Nat) (x : Bool) : Calm s (s.evictHost b x) := (emit_calm ..).trans (emit_calm ..)
theorem regain_calm (s : State) (h b : Nat) (x : Bool) : Calm s (s.regain h b x) := by
  unfold State.regain
  exact calm_ite (calm_ite (evictHost_calm ..) (.refl s)) (calm_ite (calm_ite (.refl s) (fullSlice_calm ..)) (calm_ite (setSliceTok_calm ..) (.refl s)))
theorem anomaly_calm (s : State) (h b c : Nat) : Calm s (s.anomaly h b c) := logTo_calm ..
theorem tryGrant_calm (s : State) (h b : Nat) : Calm s (s.tryGrant h b) := by
  unfold State.tryGrant
  split
  · exact .refl s
  · rename_i t _
    dsimp only
    have away (u : State) : Calm u (if s.homed h b = true ∧ t.req ≠ h then u.loseDie h b else u) := calm_ite (loseDie_calm ..) (.refl u)
    refine calm_ite (.refl s) (calm_ite ((calm_ite (away s) (.refl s)).trans (setTxn_calm ..)) (calm_ite (.refl s) (calm_ite (.refl s) ?_)))
    split
    · exact (setTxn_calm s h b _).trans ((calm_ite (loseDie_calm ..) (calm_ite (takeOne_calm ..) (.refl _))).trans (sendCoh_calm ..))
    · exact (setTxn_calm s h b _).trans ((away _).trans (sendCoh_calm ..))
    · exact (setTxn_calm s h b _).trans ((away _).trans (sendCoh_calm ..))
    · exact .refl s
theorem startTxn_calm (s : State) (h d b : Nat) (kd : TxKind) : Calm s (s.startTxn h d b kd) := by
  unfold State.startTxn
  dsimp only
  have ask (k : CohKind) (es : List Nat) (t : State) : Calm t (es.foldl (fun u e => u.sendCoh (cohMsg k e h b d 0 false false)) t) :=
    calm_foldl (fun _ _ => sendCoh_calm ..) es t
  have set (c : Prop) [Decidable c] (f : Die → Die) (t : Txn) : Calm s ((if c then s.modDie h f else s).setTxn h b t) :=
    (calm_ite (modDie_calm ..) (.refl s)).trans (setTxn_calm ..)
  split
  · exact (set ..).trans ((tryGrant_calm ..).trans (ask ..))
  · exact (set ..).trans ((tryGrant_calm ..).trans ((ask ..).trans (ask ..)))
  · exact (set ..).trans ((tryGrant_calm ..).trans (ask ..))
  · exact (set ..).trans (ask ..)
theorem endBinv_calm (s : State) (h b : Nat) : Calm s (s.endBinv h b) := by
  unfold State.endBinv; split
  · exact calm_ite ((modDie_calm ..).trans ((setDirSts_calm ..).trans (regain_calm ..))) (.refl s)
  · exact .refl s
theorem request_calm (s : State) (h d b : Nat) (kd : TxKind) : Calm s (s.request h d b kd) := by
  unfold State.request
  dsimp only
  refine calm_ite (modDie_calm ..) (calm_ite ?_ (startTxn_calm ..))
  split
  · exact (modDie_calm s h _).trans ((startTxn_calm ..).trans (endBinv_calm ..))
  · exact modDie_calm ..
theorem retryWaiting_calm (s : State) (h : Nat) : Calm s (s.retryWaiting h) :=
  calm_ite (.refl s) ((modDie_calm ..).fold (fun _ _ => request_calm ..))
theorem goOn_calm (s : State) (h b : Nat) : Calm s (s.goOn h b) :=
  calm_ite ((endBinv_calm ..).trans (retryWaiting_calm ..)) (endBinv_calm ..)

/-! ### Messages at holders, homes and requesters -/

theorem atHolder_calm {f : Coh → State → State} (hf : ∀ m t, Calm t (f m t)) (m : Coh) (s : State) : Calm s (s.atHolder f m) :=
  calm_ite (sendCoh_calm ..) (hf ..)
theorem cleanDie_calm (s : State) (d b : Nat) : Calm s (s.cleanDie d b) :=
  (calm_foldl (fun _ _ => setCdcTok_calm ..) _ _).trans ((setSliceTok_calm ..).trans (coh_calm ..))
theorem takeFwds_calm (m : Coh) (s : State) : Calm s (s.takeFwds m) := by
  unfold State.takeFwds
  dsimp only
  exact (calm_ite ((evictHost_calm ..).trans (cleanDie_calm ..)) (.refl s)).trans ((takeOne_calm ..).trans ((setSt_calm ..).trans
    ((askAgain_calm ..).trans ((sendCoh_calm ..).trans (sendCoh_calm ..)))))
theorem takeFwdx_calm (m : Coh) (s : State) : Calm s (s.takeFwdx m) :=
  (loseDie_calm ..).trans ((setSt_calm ..).trans ((sendCoh_calm ..).trans (sendCoh_calm ..)))
theorem takeInv_calm (m : Coh) (s : State) : Calm s (s.takeInv m) := (loseDie_calm ..).trans ((setSt_calm ..).trans (sendCoh_calm ..))
theorem takeBinv_calm (m : Coh) (s : State) : Calm s (s.takeBinv m) := (loseDie_calm ..).trans ((setSt_calm ..).trans (sendCoh_calm ..))
theorem atHome_calm {f : Coh → Txn → State → State} (hf : ∀ m x t, Calm t (f m x t)) (m : Coh) (s : State) : Calm s (s.atHome f m) := by
  unfold State.atHome; split
  · exact calm_ite (hf ..) (anomaly_calm ..)
  · exact anomaly_calm ..
theorem answered_calm (m : Coh) (x : Txn) (s : State) : Calm s (s.answered m x) := (setTxn_calm ..).trans (tryGrant_calm ..)
theorem takeBinvack_calm (m : Coh) (x : Txn) (s : State) : Calm s (s.takeBinvack m x) := (answered_calm ..).trans (goOn_calm ..)
theorem takeBinvdata_calm (m : Coh) (x : Txn) (s : State) : Calm s (s.takeBinvdata m x) := (answered_calm ..).trans ((regain_calm ..).trans (goOn_calm ..))
theorem takeGone_calm (m : Coh) (x : Txn) (s : State) : Calm s (s.takeGone m x) := (setTxn_calm ..).trans ((tryGrant_calm ..).trans (goOn_calm ..))
theorem takeCmp_calm (m : Coh) (s : State) : Calm s (s.takeCmp m) := by
  unfold State.takeCmp; split
  · exact calm_ite ((modDie_calm ..).trans ((calm_ite (setDirSts_calm ..) (.refl _)).trans ((serveBlk_calm ..).trans (retryWaiting_calm ..)))) (anomaly_calm ..)
  · exact anomaly_calm ..
theorem takeNote_calm (x : Bool) (m : Coh) (s : State) : Calm s (s.takeNote x m) := by
  unfold State.takeNote
  dsimp only
  refine calm_ite ((anomaly_calm ..).trans (sendCoh_calm ..)) (Calm.trans ?_ (sendCoh_calm ..))
  have h := ((calm_ite (c := (x && s.dirSt m.blk m.src == 1) = true) (anomaly_calm s m.die m.blk 2) (.refl s)).trans (setSt_calm _ m.blk m.src 0)).trans
    (regain_calm _ m.die m.blk (x && s.dirSt m.blk m.src != 1))
  split
  · exact h.trans ((setTxn_calm ..).trans ((tryGrant_calm ..).trans (goOn_calm ..)))
  · exact h
theorem takeNoteack_calm (m : Coh) (s : State) : Calm s (s.takeNoteack m) := modDie_calm ..
theorem evictOver_calm (s : State) (d b : Nat) : Calm s (s.evictOver d b) := by
  unfold State.evictOver
  refine calm_ite (.refl s) ?_
  split
  · exact .refl s
  · exact (loseDie_calm ..).trans ((modDie_calm ..).trans (sendCoh_calm ..))
theorem atRequester_calm (m : Coh) (s : State) : Calm s (s.atRequester m) := by
  unfold State.atRequester
  exact (setSt_calm ..).trans ((sendCoh_calm ..).trans ((serveBlk_calm ..).trans (evictOver_calm ..)))
theorem takeData_calm (m : Coh) (s : State) : Calm s (s.takeData m) := (fullSlice_calm ..).trans (atRequester_calm ..)
theorem takeUpgack_calm (m : Coh) (s : State) : Calm s (s.takeUpgack m) := (calm_ite (setSliceTok_calm ..) (.refl s)).trans (atRequester_calm ..)
theorem takeReq_calm (m : Coh) (s : State) : Calm s (s.takeReq m) := request_calm ..
theorem poisonBlock_calm (s : State) (b : Nat) : Calm s (s.poisonBlock b) := calm_of_eq rfl rfl rfl rfl rfl rfl rfl rfl rfl
theorem overdueAct_calm (s : State) (b : Nat) (x : Txn) : Calm s (s.overdueAct b x) := by
  unfold State.overdueAct
  dsimp only
  split
  · refine calm_ite ((setTxn_calm ..).trans ((logTo_calm ..).trans (modDie_calm ..))) ?_
    exact (setTxn_calm ..).fold (fun _ _ => calm_ite (.refl _) (sendCoh_calm ..))
  · refine calm_ite (.refl s) (calm_ite ((setTxn_calm ..).trans ((logTo_calm ..).trans (modDie_calm ..))) ?_)
    exact (setTxn_calm ..).trans ((regain_calm ..).trans ((poisonBlock_calm ..).trans ((logTo_calm ..).trans ((coh_calm ..).trans (sendCoh_calm ..)))))

/-! ### What an access obtains within a step -/

/-- A message that arrives changes what a die may do with a block, and nothing of the strands. -/
theorem deliverCoh_calm (s : State) (m : Coh) : Calm s (s.deliverCoh m) := by
  have h := dropCoh_calm s m.id
  unfold State.deliverCoh
  dsimp only
  split
  · exact h.trans (takeTcoll_calm ..)
  · exact h.trans (takeTok_calm ..)
  · exact h.trans (atHolder_calm takeFwds_calm ..)
  · exact h.trans (atHolder_calm takeFwdx_calm ..)
  · exact h.trans (atHolder_calm takeInv_calm ..)
  · exact h.trans (atHolder_calm takeBinv_calm ..)
  · exact h.trans (atHome_calm answered_calm ..)
  · exact h.trans (atHome_calm answered_calm ..)
  · exact h.trans (atHome_calm takeBinvack_calm ..)
  · exact h.trans (atHome_calm takeBinvdata_calm ..)
  · exact h.trans (atHome_calm takeGone_calm ..)
  · exact h.trans (takeData_calm ..)
  · exact h.trans (takeData_calm ..)
  · exact h.trans (takeUpgack_calm ..)
  · exact h.trans (takeCmp_calm ..)
  · exact h.trans (takeNote_calm ..)
  · exact h.trans (takeNote_calm ..)
  · exact h.trans (takeNoteack_calm ..)
  · exact h.trans (takeReq_calm ..)
  · exact h.trans (takeReq_calm ..)
  · exact h.trans (takeReq_calm ..)
  · exact .refl s
  · exact .refl s
theorem pushTxn_calm (s : State) (h b : Nat) (t : Txn) : Calm s (s.pushTxn h b t) := by
  unfold State.pushTxn
  dsimp only
  exact (calm_ite (.refl s) (calm_ite (backShare_calm ..) (backInval_calm ..))).trans
    ((calm_ite ((setTxn_calm ..).trans ((emit_calm ..).trans (emit_calm ..))) (.refl _)).trans (tryGrant_calm ..))
/-- A step that may have nothing to do is calm when there is one. -/
def OCalm (s : State) (o : Option State) : Prop := ∀ t, o = some t → Calm s t
theorem ocalm_some {s t : State} (h : Calm s t) : OCalm s (some t) := fun _ e => Option.some.inj e ▸ h
theorem ocalm_none (s : State) : OCalm s none := fun _ e => nomatch e
theorem ocalm_ite {s : State} {o p : Option State} {c : Prop} [Decidable c] (h : OCalm s o) (g : OCalm s p) : OCalm s (if c then o else p) := by
  split <;> assumption
theorem cohAdvance_calm (s : State) (b : Nat) : OCalm s (s.cohAdvance b) := by
  unfold State.cohAdvance
  dsimp only
  split
  · exact ocalm_some (deliverCoh_calm ..)
  · split
    · exact ocalm_ite (ocalm_some (pushTxn_calm ..)) (ocalm_ite (ocalm_some (overdueAct_calm ..)) (ocalm_some (modDie_calm ..)))
    · split
      · exact ocalm_ite (ocalm_none s) (ocalm_some ((modDie_calm ..).trans (request_calm ..)))
      · exact ocalm_none s
theorem settleStep_calm (s : State) (b : Nat) : OCalm s (s.settleStep b) := by
  unfold State.settleStep
  split
  · rename_i hu; exact ocalm_some (cohAdvance_calm s b _ hu)
  · dsimp only
    refine ocalm_ite ?_ (ocalm_none s)
    split
    · rename_i v _; exact cohAdvance_calm s v
    · exact ocalm_some ((startTxn_calm ..).trans (goOn_calm ..))
    · intro t h
      obtain ⟨e, _, he⟩ := Option.bind_eq_some_iff.1 h
      exact cohAdvance_calm s e.1 t he
theorem settleN_calm (s : State) (b n : Nat) : Calm s (s.settleN b n) := by
  induction n generalizing s with
  | zero => exact .refl s
  | succ n ih =>
    unfold State.settleN
    split
    · rename_i t ht; exact (settleStep_calm s b t ht).trans (ih t)
    · exact .refl s
theorem settle_calm (s : State) (b : Nat) : Calm s (s.settle b) := settleN_calm ..
theorem obtain_calm (s : State) (d b : Nat) (kd : TxKind) : Calm s (s.obtain d b kd) := (modDie_calm ..).trans (settle_calm ..)
theorem recallAll_calm (s : State) (b : Nat) : Calm s (s.recallAll b) := by
  unfold State.recallAll
  dsimp only
  have h : Calm s (if ((s.settle b).dirSts b).all (· == 0) then s.settle b
      else (((s.settle b).startTxn (s.homeOf (128 * b)) (s.homeOf (128 * b)) b .binv).goOn (s.homeOf (128 * b)) b).settle b) :=
    calm_ite (settle_calm ..) ((settle_calm ..).trans ((startTxn_calm ..).trans ((goOn_calm ..).trans (settle_calm ..))))
  exact calm_ite (h.trans ((collectDie_calm ..).trans (askAgain_calm ..))) h
theorem grabBlk_calm (s : State) (d b : Nat) : Calm s (s.grabBlk d b) := by
  unfold State.grabBlk
  refine calm_ite (.refl s) ?_
  dsimp only
  exact (settle_calm ..).trans ((calm_ite (.refl _) (obtain_calm ..)).trans ((backInval_calm ..).trans ((collectDie_calm ..).trans
    ((askAgain_calm ..).trans (setSliceTok_calm ..)))))
theorem shareDev_calm (s : State) (d b : Nat) : Calm s (s.shareDev d b) :=
  calm_ite (.refl s) (calm_ite (settle_calm ..) ((settle_calm ..).trans (obtain_calm ..)))
theorem shareBlk_calm (s : State) (d b : Nat) : Calm s (s.shareBlk d b) := calm_ite (.refl s) ((shareDev_calm ..).trans (backShare_calm ..))
/-- A step that takes no line of the host's owes it no answer (R171). -/
theorem hostOwes_none {s t : State} (h : ∀ d, (t.die d).filter = (s.die d).filter) : s.hostOwes t = none := by
  simp [State.hostOwes, h]

/-! ### Coherent accesses, the lane L1 -/

theorem beforeRead_calm (s : State) (x : Bool) (d pa : Nat) : Calm s (s.beforeRead x d pa) := by
  unfold State.beforeRead
  exact calm_ite (.refl s) ((calm_ite ((recallAll_calm ..).trans (backShare_calm ..)) (shareBlk_calm ..)).trans (touchLine_calm ..))
theorem readAt_calm (s : State) (x : Bool) (part : Option Nat) (d pa n : Nat) : Calm s (s.readAt x part d pa n).2.2 := by
  have h := (beforeRead_calm s x d pa).trans (readChk_calm _ part d pa n)
  unfold State.readAt
  dsimp only
  split <;> exact h
theorem cread_calm (s : State) (part : Option Nat) (d pa n : Nat) : Calm s (s.cread part d pa n).2.2 := readAt_calm ..
theorem uread_calm (s : State) (part : Option Nat) (d pa n : Nat) : Calm s (s.uread part d pa n).2.2 := readAt_calm ..
theorem uwrite_calm (s : State) (part : Option Nat) (d pa n v : Nat) : Calm s (s.uwrite part d pa n v) :=
  (calm_ite (grabBlk_calm ..) (.refl s)).trans (commitMask_calm ..)
theorem cread64_calm (s : State) (part : Option Nat) (d pa : Nat) : Calm s (s.cread64 part d pa).2.2 := cread_calm s part d pa 8
theorem cwriteMask_calm (s : State) (part : Option Nat) (d pa n v mask : Nat) : Calm s (s.cwriteMask part d pa n v mask) := by
  unfold State.cwriteMask
  refine Calm.trans ?_ (commitMask_calm ..)
  split
  · exact grabBlk_calm ..
  · exact .refl s
theorem cwrite_calm (s : State) (part : Option Nat) (d pa n v : Nat) : Calm s (s.cwrite part d pa n v) := cwriteMask_calm ..
theorem wbSector_calm (s : State) (c x : Nat) : Calm s (s.wbSector c x) := by
  unfold State.wbSector
  refine calm_ite (.refl s) ?_
  dsimp only
  exact (cwriteMask_calm ..).trans ((calm_ite ((poisonSector_calm ..).trans (findErr_calm ..)) (.refl _)).trans (modCore_calm ..))
theorem invSector_calm (s : State) (c x : Nat) : Calm s (s.invSector c x) := modCore_calm ..
theorem wbAllL1_calm (s : State) (c : Nat) : Calm s (s.wbAllL1 c) := calm_foldl (fun _ _ => wbSector_calm ..) _ _
theorem invAllL1_calm (s : State) (c : Nat) : Calm s (s.invAllL1 c) := modCore_calm ..
theorem acqL1_calm (s : State) (c : Nat) : Calm s (s.acqL1 c) := (wbAllL1_calm ..).trans (invAllL1_calm ..)
theorem flushSector_calm (s : State) (c x : Nat) : Calm s (s.flushSector c x) := (wbSector_calm ..).trans (invSector_calm ..)
theorem relTo_calm (s : State) (k c : Nat) : Calm s (s.relTo k c) := calm_ite (.refl s) (wbAllL1_calm ..)
theorem acqFrom_calm (s : State) (x c : Nat) : Calm s (s.acqFrom x c) := calm_ite (.refl s) (acqL1_calm ..)
theorem l1Room_calm (s : State) (c x : Nat) : Calm s (s.l1Room c x) := by
  unfold State.l1Room
  refine calm_ite (.refl s) ?_
  split
  · exact calm_foldl (fun _ _ => flushSector_calm ..) _ _
  · exact .refl s
theorem l1Store_calm (s : State) (c pa n v : Nat) : Calm s (s.l1Store c pa n v) := by
  unfold State.l1Store; exact (l1Room_calm ..).trans (modCore_calm ..)
theorem l1Load_calm (s : State) (c pa n : Nat) : Calm s (s.l1Load c pa n).2.2 := by
  unfold State.l1Load
  dsimp only
  have found {u : State} (h : Calm s u) (b : Bool) : Calm s (if b = true then u.findErr (16 * c) [.l1s c (pa / 64)] else (0, u)).2 := by
    split
    · exact h.trans (findErr_calm ..)
    · exact h
  split
  · exact found (.refl s) _
  · split
    · exact cread_calm ..
    · exact found ((cread_calm s (s.partOf (clOfCore c)) (dieOfCore c) (64 * (pa / 64)) 64).trans ((l1Room_calm ..).trans (modCore_calm ..))) _
/-! ### Translation and code words: results that carry a state -/

/-- A result with the state `f` of its value, or a failure with the state that it leaves, both calm. -/
def XCalm {α : Type} (s : State) (f : α → State) : XR α → Prop
  | .ok a => Calm s (f a)
  | .error e => Calm s e.2
/-- As `XCalm`, for the results of instruction bodies; a stop without a state leaves the one before. -/
def RCalm {α : Type} (s : State) (f : α → State) : Res α → Prop
  | .ok a => Calm s (f a)
  | .error (.trapWith t _) => Calm s t
  | .error (.parkWith t _) => Calm s t
  | .error _ => True
theorem XCalm.trans {α : Type} {s t : State} {f : α → State} {r : XR α} (h : Calm s t) (g : XCalm t f r) : XCalm s f r := by
  cases r <;> exact h.trans g
theorem RCalm.trans {α : Type} {s t : State} {f : α → State} {r : Res α} (h : Calm s t) (g : RCalm t f r) : RCalm s f r := by
  cases r with
  | ok a => exact h.trans g
  | error e => cases e <;> first | exact h.trans g | exact g
theorem RCalm.ok {α : Type} {s : State} {f : α → State} {r : Res α} {a : α} (h : RCalm s f r) (e : r = .ok a) : Calm s (f a) := by
  subst e; exact h
/-- A calm step and, from its state, a calm rest. -/
theorem RCalm.bind {α β : Type} {s : State} {f : α → State} {g : β → State} {r : Res α} {k : α → Res β} (h : RCalm s f r)
    (hk : ∀ a, r = .ok a → RCalm (f a) g (k a)) : RCalm s g (r >>= k) := by
  cases r with
  | ok a => exact RCalm.trans h (hk a rfl)
  | error e => cases e <;> exact h
theorem XCalm.bind {α β : Type} {s : State} {f : α → State} {g : β → State} {r : XR α} {k : α → XR β} (h : XCalm s f r)
    (hk : ∀ a, r = .ok a → XCalm (f a) g (k a)) : XCalm s g (r >>= k) := by
  cases r with
  | ok a => exact XCalm.trans h (hk a rfl)
  | error e => exact h
theorem XCalm.pure {α : Type} {s : State} {f : α → State} {a : α} (h : Calm s (f a)) : XCalm s f (Pure.pure a) := h
theorem RCalm.pure {α : Type} {s : State} {f : α → State} {a : α} (h : Calm s (f a)) : RCalm s f (Pure.pure a) := h
theorem raiseV_calm {α : Type} {s : State} {f : α → State} (c : Nat) (v : W64) : RCalm s f (raiseV c v : Res α) := trivial
theorem raise_calm {α : Type} {s : State} {f : α → State} (c : Nat) : RCalm s f (raise c : Res α) := trivial
theorem ensureV_calm {s : State} {f : Unit → State} (h : ∀ a, f a = s) (b : Bool) (c : Nat) (v : W64) : RCalm s f (ensureV b c v) := by
  unfold ensureV; split
  · show Calm s (f ()); rw [h]; exact .refl s
  · exact raiseV_calm ..
theorem ensure_calm {s : State} {f : Unit → State} (h : ∀ a, f a = s) (b : Bool) (c : Nat) : RCalm s f (ensure b c) := by
  unfold ensure; split
  · show Calm s (f ()); rw [h]; exact .refl s
  · exact raise_calm ..

theorem markPte_calm (s : State) (d p a : Nat) (e : W64) (w : Bool) : Calm s (s.markPte d p a e w).2 := by
  unfold State.markPte; exact calm_ite (.refl s) (cwrite_calm ..)
theorem walkFrom_calm (s : State) (d p va level table : Nat) : XCalm s (fun r => r.2.2.2) (s.walkFrom d p va level table) := by
  induction level generalizing s table with
  | zero =>
    unfold State.walkFrom
    dsimp only
    split
    · exact cread64_calm ..
    · split
      · exact .refl s
      · split
        · exact .refl s
        · exact cread64_calm ..
  | succ l ih =>
    unfold State.walkFrom
    dsimp only
    split
    · exact cread64_calm ..
    · split
      · exact .refl s
      · split
        · split
          · exact .refl s
          · split
            · exact .refl s
            · exact .refl s
            · exact XCalm.trans (cread64_calm ..) (ih ..)
        · exact cread64_calm ..
theorem walk_calm (s : State) (d p asid va : Nat) (acc : Acc) : XCalm s (fun r => r.2.2.2) (s.walk d p asid va acc) := by
  unfold State.walk
  dsimp only
  have h := cread64_calm s (some p) d (wf (s.cfg d p 0x018) 13 39 * 8192 + 8 * asid)
  split
  · exact h
  · simp only [bind, Except.bind, pure, Except.pure]
    split
    · exact .refl s
    · split
      · exact .refl s
      · have g := XCalm.trans h (walkFrom_calm _ d p (va % 2 ^ 56) 3 (wf (s.cread64 (some p) d (wf (s.cfg d p 0x018) 13 39 * 8192 + 8 * asid)).2.1 13 39 * 8192))
        revert g
        generalize State.walkFrom _ d p (va % 2 ^ 56) 3 _ = r
        intro g
        cases r with
        | error e => exact g
        | ok a =>
          obtain ⟨a, level, e, s2⟩ := a
          dsimp only
          split
          · exact .refl s
          · exact Calm.trans g (markPte_calm ..)
theorem mods_calm {u s : State} (h : Calm u s) (c d : Nat) (f : Core → Core) (g : Cluster → Cluster) : Calm u ((s.modCore c f).modCluster d g) :=
  h.trans ((modCore_calm ..).trans (modCluster_calm ..))
theorem xlate_calm (s : State) (c p asid : Nat) (acc : Acc) (va : Nat) : XCalm s (fun r => r.2) (s.xlate c p asid acc va) := by
  unfold State.xlate
  dsimp only
  have hw := walk_calm s (dieOfCore c) p asid va acc
  split
  · exact XCalm.bind hw (fun r _ => XCalm.pure (by dsimp only; exact calm_ite (mods_calm (.refl r.2.2.2) ..) (.refl _)))
  · split
    · exact XCalm.bind hw (fun r _ => XCalm.pure (by dsimp only; exact calm_ite (mods_calm (.refl r.2.2.2) ..) (.refl _)))
    · split
      · exact Calm.refl s
      · split
        · dsimp only [XCalm]; exact mods_calm (.refl s) ..
        · dsimp only [XCalm]; exact mods_calm (.refl s) ..
theorem ofX_calm {α : Type} {s : State} {f : α → State} {r : XR α} (h : XCalm s f r) (acc va : Nat) (lanes : Option W64) : RCalm s f (ofX acc va lanes r) := by
  cases r with
  | ok a => exact h
  | error e =>
    obtain ⟨c, t⟩ := e
    unfold ofX
    dsimp only
    split
    · exact h
    · trivial
theorem xlateS_calm (s : State) (k : Nat) (acc : Acc) (kind va : Nat) : RCalm s (fun r => r.2) (s.xlateS k acc kind va) := ofX_calm (xlate_calm ..) ..
theorem okData_calm {s t : State} (h : Calm s t) (st pa va : Nat) : RCalm s (fun _ => t) (okData st pa va t) := by
  unfold okData; split <;> exact h
theorem codeWord_calm (s : State) (k : Nat) (p0 : BitVec 128) (off : Int) : RCalm s (fun r => r.2) (s.codeWord k p0 off) := by
  unfold State.codeWord
  dsimp only
  split
  · exact raiseV_calm ..
  · simp only [bind, Except.bind, pure, Except.pure]
    split
    · exact raiseV_calm ..
    · rename_i va _
      have h := xlateS_calm s k (accX (s.slot k).priv) 3 va
      cases hx : s.xlateS k (accX (s.slot k).priv) 3 va with
      | error e => rw [hx] at h; cases e <;> exact h
      | ok r =>
        obtain ⟨x, s1⟩ := r
        rw [hx] at h
        dsimp only
        split
        · exact h
        · have g := Calm.trans h (readAt_calm s1 x.direct (s1.partOf (clOfCore (coreOf k))) (dieOfCore (coreOf k)) x.pa 8)
          unfold okData
          split
          · rename_i he
            split at he
            · cases he
            · cases he; exact g
          · exact calm_ite g (g.trans (modCore_calm ..))
theorem checkTarget_calm (s : State) (k : Nat) (p0 : BitVec 128) (t : Int) : RCalm s id (s.checkTarget k p0 t) := by
  unfold State.checkTarget
  split
  · exact raiseV_calm ..
  · exact RCalm.bind (codeWord_calm ..) (fun r _ => RCalm.bind (f := fun _ => r.2) (ensureV_calm (fun _ => rfl) ..) (fun _ _ => Calm.refl _))
theorem clauseWords_calm (s : State) (k : Nat) (p0 : BitVec 128) (off n : Nat) : RCalm s (fun r => r.2) (s.clauseWords k p0 off n) := by
  induction n generalizing s off with
  | zero => exact Calm.refl s
  | succ n ih =>
    unfold State.clauseWords
    refine RCalm.bind (codeWord_calm ..) (fun r _ => RCalm.bind (ih ..) (fun r2 _ => Calm.refl _))
theorem findHdr_calm (s : State) (k : Nat) (p0 : BitVec 128) (t : Int) (n : Nat) : RCalm s (fun r => r.2) (s.findHdr k p0 t n) := by
  induction n generalizing s t with
  | zero => exact Calm.refl s
  | succ n ih =>
    unfold State.findHdr
    split
    · exact Calm.refl s
    · refine RCalm.bind (codeWord_calm ..) (fun r _ => ?_)
      dsimp only
      split
      · exact Calm.refl _
      · exact ih ..
theorem loadPtr_calm (s : State) (k : Nat) (p1 : BitVec 128) (j : Nat) : RCalm s (fun r => r.2) (s.loadPtr k p1 j) := by
  unfold State.loadPtr
  dsimp only
  split
  · exact raiseV_calm ..
  · split
    · exact raiseV_calm ..
    · split
      · exact raiseV_calm ..
      · refine RCalm.bind (xlateS_calm ..) (fun r _ => ?_)
        exact RCalm.bind (f := fun _ => _) (okData_calm (cread_calm ..) _ _ _) (fun _ _ => Calm.refl _)
/-- A resumption changes, of the strands, only the one that resumes. -/
theorem resumeAt_slot {s t : State} {k : Nat} {pc : Int} (h : s.resumeAt k pc = .ok t) :
    ∃ x, t.slot k = x ∧ t.slots = mput s.slots k x ∧ x = { s.slot k with
      pc := pc.toNat, clause := x.clause, hdrWait := false, resuming := false, replay := none, resumed := false, park := none } := by
  unfold State.resumeAt at h
  split at h
  · cases h
  · simp only [bind, Except.bind, pure, Except.pure] at h
    have hc := codeWord_calm s k ((s.slot k).preg 0) pc
    cases hx : s.codeWord k ((s.slot k).preg 0) pc with
    | error e => rw [hx] at h; cases h
    | ok r =>
      obtain ⟨w, s1⟩ := r
      have c1 : Calm s s1 := hc.ok hx
      rw [hx] at h
      dsimp only at h
      split at h
      · cases h
        refine ⟨_, rfl, ?_, ?_⟩
        · simp [State.goto, State.modSlot, State.setSlot, State.slot, c1.slots]
        · simp [State.goto, c1.slot]
      · have hf := findHdr_calm s1 k ((s.slot k).preg 0) (pc - 2) 16
        cases hy : s1.findHdr k ((s.slot k).preg 0) (pc - 2) 16 with
        | error e => rw [hy] at h; cases h
        | ok r =>
          obtain ⟨o, s2⟩ := r
          have c2 : Calm s s2 := c1.trans (hf.ok hy)
          rw [hy] at h
          dsimp only at h
          split at h
          · cases h
          · rename_i off hw
            split at h
            · cases h
            · have hg := clauseWords_calm s2 k ((s.slot k).preg 0) off (wf hw 52 4 + 1)
              cases hz : s2.clauseWords k ((s.slot k).preg 0) off (wf hw 52 4 + 1) with
              | error e => rw [hz] at h; cases h
              | ok r =>
                obtain ⟨ws, s3⟩ := r
                have c3 : Calm s s3 := c2.trans (hg.ok hz)
                rw [hz] at h
                cases h
                refine ⟨_, rfl, ?_, ?_⟩
                · simp [State.modSlot, State.setSlot, State.slot, c3.slots]
                · simp [c3.slot]

end Sys2Proof.Machine
end

