-- ==== Sys2Proof/Laws/Ops.lean ====
section
/-! SUPPORT. What the shared operations can do, once for each: issue of an instruction, reads and writes of registers. -/

namespace Sys2Proof.Machine

theorem refuse_none {x : Slot} {lvl : Nat} {dsts vecs : List Nat} (h : x.May lvl dsts vecs) : x.refuse lvl dsts vecs = none := by
  obtain ⟨h1, h2, h3⟩ := h
  have h4 : ¬ (x.priv < lvl ∨ x.priv = 0 ∧ (dsts.any (fun d => decide (68 ≤ d))) = true) := by
    rintro (h | ⟨h, h'⟩)
    · omega
    · rw [List.any_eq_true] at h'
      obtain ⟨d, hd, hd'⟩ := h'
      have := h2 h d hd
      simp only [decide_eq_true_eq] at hd'
      omega
  have h5 : ¬ (vecs.any (fun r => decide (x.budget ≤ r))) = true := by
    rw [List.any_eq_true]
    rintro ⟨r, hr, hr'⟩
    have := h3 r hr
    simp only [decide_eq_true_eq] at hr'
    omega
  simp only [Slot.refuse]
  rw [if_neg h4, if_neg h5]

/-- An instruction that may issue and whose body answers `t` completes with `t`. -/
theorem strandWith_ok {i : Instr} {lvl : Nat} {dsts vecs : List Nat} {p : Pred} {adv : Bool} {body : Nat → State → Res State} {s t : State} {k : Nat}
    (hc : s.Turn k) (hm : (s.slot k).May lvl dsts vecs) (hb : body k s = .ok t) :
    strandWith i lvl dsts vecs p adv body s = .next (if adv then t.advance k else t) := by
  simp only [State.Turn] at hc
  simp only [strandWith, strandIf, hc, refuse_none hm, hb]

/-- An instruction that may issue and whose body stops takes the stop's effect. -/
theorem strandWith_stop {i : Instr} {lvl : Nat} {dsts vecs : List Nat} {p : Pred} {adv : Bool} {body : Nat → State → Res State} {s : State} {k : Nat} {e : Stop}
    (hc : s.Turn k) (hm : (s.slot k).May lvl dsts vecs) (hb : body k s = .error e) :
    strandWith i lvl dsts vecs p adv body s = .next (s.stop k (wordOf i) ((s.slot k).m0 &&& (s.slot k).predMask p) e) := by
  simp only [State.Turn] at hc
  simp only [strandWith, strandIf, hc, refuse_none hm, hb]

/-- An instruction that the strand may not issue traps with the cause of the check that fails first. -/
theorem strandWith_refused {i : Instr} {lvl : Nat} {dsts vecs : List Nat} {p : Pred} {adv : Bool} {body : Nat → State → Res State} {s : State} {k c : Nat}
    (hc : s.Turn k) (hm : (s.slot k).refuse lvl dsts vecs = some c) :
    strandWith i lvl dsts vecs p adv body s = .next (s.takeTrap k c (s.slot k).pc (wordOf i) ((s.slot k).m0 &&& (s.slot k).predMask p) 0) := by
  simp only [State.Turn] at hc
  simp only [strandWith, strandIf, hc, hm]

theorem rdScs_one {k : Nat} {fm : W64} {n : Nat} {s t : State} {v : W64} : s.Reads k fm [n] [v] t ↔ rdSc k fm n s = .ok (v, t) := by
  simp only [State.Reads, rdScs, bind, Except.bind, pure, Except.pure]
  cases h : rdSc k fm n s with
  | error e => simp
  | ok a =>
    obtain ⟨w, u⟩ := a
    simp

theorem reads_nil {k : Nat} {fm : W64} {s t : State} {vs : List W64} : s.Reads k fm [] vs t ↔ vs = [] ∧ t = s := by
  simp [State.Reads, rdScs, eq_comm]

/-- Reading gives one value for each register named. -/
theorem reads_len {k : Nat} {fm : W64} : ∀ {ns : List Nat} {vs : List W64} {s t : State}, s.Reads k fm ns vs t → vs.length = ns.length := by
  intro ns
  induction ns with
  | nil => intro vs s t h; simp_all [reads_nil]
  | cons n ns ih =>
    intro vs s t h
    simp only [State.Reads, rdScs, bind, Except.bind, pure, Except.pure] at h
    split at h
    · cases h
    · split at h
      · cases h
      · rename_i a ha
        injection h with h
        injection h with h1 h2
        subst h1
        simp [ih (s := _) (t := a.2) (vs := a.1) ha]
theorem bind_ok {α β : Type} (a : α) (f : α → Res β) : (Except.ok a >>= f) = f a := rfl

/-! ### Scalar and system instructions -/

theorem scalarI_ok {i : Instr} {dsts : List Nat} {body : Nat → State → Res State} {s t : State} {k : Nat}
    (hc : s.Turn k) (hm : (s.slot k).May 0 dsts []) (hb : body k s = .ok t) : scalarI i dsts body s = .next (t.advance k) := by
  rw [scalarI, strandWith_ok hc hm hb]; rfl
theorem scalarI_stop {i : Instr} {dsts : List Nat} {body : Nat → State → Res State} {s : State} {k : Nat} {e : Stop}
    (hc : s.Turn k) (hm : (s.slot k).May 0 dsts []) (hb : body k s = .error e) :
    scalarI i dsts body s = .next (s.stop k (wordOf i) ((s.slot k).m0 &&& (s.slot k).predMask allLanes) e) := by
  rw [scalarI, strandWith_stop hc hm hb]
theorem sysI_ok {i : Instr} {dsts : List Nat} {body : Nat → State → Res State} {s t : State} {k : Nat}
    (hc : s.Turn k) (hm : (s.slot k).May 1 dsts []) (hb : body k s = .ok t) : sysI i dsts body s = .next (t.advance k) := by
  rw [sysI, strandWith_ok hc hm hb]; rfl
/-- An instruction that computes a value from scalar sources: reads, flags, the write of its destination. -/
theorem scOp_ok {i : Instr} {d : Nat} {srcs : List Nat} {f : List W64 → W64 × Nat} {s s1 t : State} {k : Nat} {vs : List W64}
    (hT : s.Turn k) (hM : (s.slot k).May 0 [d] []) (hr : s.Reads k 1 srcs vs s1) (hw : (s1.flagged k (f vs).2).Writes k d (f vs).1 t) :
    scOp i d srcs f s = .next (t.advance k) := by
  rw [scOp, scalarI, strandWith_ok hT hM]
  · rfl
  · simp only [State.Reads] at hr
    simp only [State.Writes, State.flagged] at hw
    simp only [hr, bind, Except.bind]
    exact hw

/-! ### Lane instructions -/

theorem emptyReg_none {x : Slot} {e : W64} {regs : List Nat} (h : x.LanesReady e regs) : x.emptyReg e regs = none := by
  simp only [Slot.emptyReg, List.find?_eq_none, List.any_eq_true, lanesOf, List.mem_filter]
  rintro r hr ⟨l, ⟨_, hl⟩, hf⟩
  simp [(h l hl r hr).1] at hf
theorem poisLanes_zero {x : Slot} {e : W64} {regs : List Nat} (h : x.LanesReady e regs) : x.poisLanes e regs = 0 := by
  have : (lanesOf e).filter (fun l => regs.any (fun r => (x.vreg r l).pois)) = [] := by
    rw [List.filter_eq_nil_iff]
    intro l hl
    simp only [lanesOf, List.mem_filter] at hl
    simp only [List.any_eq_true, not_exists, not_and]
    intro r hr
    simp [(h l hl.2 r hr).2]
  simp only [Slot.poisLanes, this]; rfl
theorem and_compl_zero (e : W64) : e &&& ~~~(0 : W64) = e := by
  have : ~~~(0 : W64) = BitVec.allOnes 64 := by decide
  rw [this]; exact BitVec.and_allOnes
/-- With every register full and clean in the executing lanes, the lanes' results are written. -/
theorem runLanes_ok {k : Nat} {e : W64} {regs : List Nat} {go : W64 → Slot → Slot} {s : State} (h : (s.slot k).LanesReady e regs) :
    runLanes k e regs go s = .ok (s.setSlot k (go e (s.slot k))) := by
  simp only [runLanes, emptyReg_none h, poisLanes_zero h, and_compl_zero]; rfl
theorem laneI_ok {i : Instr} {p : Pred} {vecs : List Nat} {body : W64 → Nat → State → Res State} {s t : State} {k : Nat}
    (hT : s.Turn k) (hM : (s.slot k).May 0 [] vecs) (he : (s.slot k).exec p ≠ 0) (h : body ((s.slot k).exec p) k s = .ok t) :
    laneI i p vecs body s = .next (t.advance k) := by
  rw [laneI, strandWith_ok hT hM (t := t)]
  · rfl
  · simp only [laneRun, he, if_false]; exact h
/-- Without an executing lane a lane instruction only advances. -/
theorem laneI_none {i : Instr} {p : Pred} {vecs : List Nat} {body : W64 → Nat → State → Res State} {s : State} {k : Nat}
    (hT : s.Turn k) (hM : (s.slot k).May 0 [] vecs) (he : (s.slot k).exec p = 0) : laneI i p vecs body s = .next (s.advance k) := by
  rw [laneI, strandWith_ok hT hM (t := s)]
  · rfl
  · simp only [laneRun, he, if_true]
/-- A scalar in the place of a vector source is read once (R228). -/
theorem rdSbs_ok {k : Nat} {e : W64} {sbs : Bool} {b : Nat} {s t : State} {v : Option W64} (h : s.ReadsFor k e (if sbs then some b else none) v t) :
    rdSbs k e sbs b s = .ok (v, t) := by
  cases sbs with
  | false => obtain ⟨rfl, rfl⟩ := h; rfl
  | true =>
    obtain ⟨w, hw, rfl⟩ := h
    rw [rdScs_one] at hw
    simp only [rdSbs, hw]; rfl

/-! ### Lane memory instructions -/

theorem checkRes_nil {s : State} {refs : List Ref} {all : Option W64} : checkRes (s, refs, []) all = .ok (s, refs, []) := rfl
theorem memDone_nil {s : State} {all : Option W64} {acc : Nat} : memDone s [] [] [] all acc = .ok s := by
  simp [memDone]
theorem bitAt_zero (i : Nat) : bitAt 0 i = false := by simp [bitAt]
theorem lanesOf_zero : lanesOf 0 = [] := List.filter_eq_nil_iff.2 (fun a _ => by rw [bitAt_zero]; decide)
theorem vUnits_zero (k : Nat) (regs : List Nat) : vUnits k 0 regs = [] := by simp only [vUnits, lanesOf_zero, List.flatMap_nil]
theorem regBad_zero (c : Nat) (l : List (Nat × Int × W64)) : regBad c 0 l = [] := by
  rw [regBad, List.filter_eq_nil_iff.2 (fun a _ => by rw [bitAt_zero]; decide)]; rfl
/-- Of no unit an error is found. -/
theorem findErr_nil (s : State) (k : Nat) : s.findErr k [] = (0x11, s) := rfl
theorem LanesReady.sub {x : Slot} {e : W64} {regs xr : List Nat} (h : x.LanesReady e regs) (hx : ∀ r ∈ xr, r ∈ regs) : x.LanesReady e xr :=
  fun l hl r hr => h l hl r (hx r hr)
/-- Every access passes its checks and is performed. -/
theorem accessLanes_ok {k : Nat} {e : W64} {regs : List Nat} {acc : Nat} {all : Option W64} {f : State → Int → Nat → XR (Ref × State)}
    {offs : Slot → W64 → List (Nat × Int × W64)} {perform : List Ref → State → Res (State × List Bad × Bool)} {xr : List Nat} {s s1 s2 : State} {refs : List Ref} {dem : Bool}
    (hr : (s.slot k).LanesReady e regs) (hx : ∀ r ∈ xr, r ∈ regs) (hc : checkAll f (offs (s.slot k) e) s [] [] = (s1, refs, []))
    (hp : perform refs s1 = .ok (s2, [], dem)) : accessLanes k e regs xr acc all f offs perform s = .ok (dem, s2) := by
  have hf : refs.filter (fun r => !bitAt 0 r.lane) = refs := List.filter_eq_self.2 (fun a _ => by rw [bitAt_zero]; rfl)
  simp only [accessLanes, emptyReg_none hr, poisLanes_zero hr, poisLanes_zero (LanesReady.sub hr hx), and_compl_zero, hc, checkRes_nil, bind_ok, hf, hp,
    vUnits_zero, regBad_zero, List.isEmpty_nil, ite_self, findErr_nil, BEq.rfl, Bool.and_self, memDone_nil, if_true]
  rfl
theorem memGo_ok {i : Instr} {p : Pred} {vecs : List Nat} {run : W64 → Nat → State → Res (Bool × State)} {s t : State} {k : Nat} {dem : Bool}
    (hc : s.Turn k) (hm : (s.slot k).May 0 [] vecs) (he : (s.slot k).exec p ≠ 0)
    (hr : run ((s.slot k).exec p) k s = .ok (dem, t)) : memGo i p vecs run s = .next (t.finish k dem) := by
  rw [memGo, strandWith_ok hc hm (t := t.finish k dem)]
  · rfl
  · simp only [if_neg he, hr, bind_ok]; rfl

/-! ### Control transfers, stops, refusals -/

theorem jumpI_ok {i : Instr} {body : Nat → State → Res State} {s t : State} {k : Nat}
    (hc : s.Turn k) (hm : (s.slot k).May 0 [] []) (hb : body k s = .ok t) : jumpI i body s = .next t := by
  rw [jumpI, strandWith_ok hc hm hb]; rfl
theorem ensure_ok {b : Bool} {c : Nat} (h : b = true) : ensure b c = .ok () := by simp [ensure, h]
theorem ensureV_ok {b : Bool} {c : Nat} {v : W64} (h : b = true) : ensureV b c v = .ok () := by simp [ensureV, h]
theorem res_pure {α : Type} (a : α) : (pure a : Res α) = .ok a := rfl
theorem error_bind {α β : Type} (e : Stop) (f : α → Res β) : ((Except.error e : Res α) >>= f) = Except.error e := rfl
/-- A trap whose TVAL is the instruction word, for every word: cite it with `rw`, since unfolding `wordOf` of an instruction runs the encoder. -/
theorem stop_mk1 (s : State) (k c : Nat) (w l : W64) :
    s.stop k w l (.trap (Trap.mk1 c)) = (s.takeTrap k c (s.slot k).pc w l 0).modSlot k (fun y => { y with reported := true }) := rfl
theorem stop_mkV (s : State) (k c : Nat) (v w l : W64) :
    s.stop k w l (.trap (Trap.mk1 c (some v))) = (s.takeTrap k c (s.slot k).pc v l 0).modSlot k (fun y => { y with reported := true }) := rfl
theorem stop_park (s : State) (k : Nat) (a : Await) (w l : W64) : s.stop k w l (.park a) = s.doPark k a false := rfl
/-- A lane instruction that names a register at or above the budget traps 0x08 (R68). -/
theorem laneI_budget {i : Instr} {vecs : List Nat} {p : Pred} {body : W64 → Nat → State → Res State} {s : State} {k : Nat}
    (hT : s.Turn k) (hb : ∃ r ∈ vecs, (s.slot k).budget ≤ r) :
    laneI i p vecs body s = .next (s.takeTrap k 0x08 (s.slot k).pc (wordOf i) ((s.slot k).m0 &&& (s.slot k).predMask p) 0) := by
  refine strandWith_refused hT ?_
  obtain ⟨r, hr, hr2⟩ := hb
  simp [Slot.refuse]
  exact ⟨r, hr, hr2⟩
/-- A strand's instruction in the matrix stream stops the sequencer (R188). -/
theorem strandWith_seq {i : Instr} {lvl : Nat} {dsts vecs : List Nat} {p : Pred} {adv : Bool} {body : Nat → State → Res State} {s : State} {cl : Nat}
    (h : s.cur = .seq cl) : strandWith i lvl dsts vecs p adv body s = .next (s.seqStop cl 0x01 0) := by
  simp [strandWith, strandIf, h]

/-! ### Local store -/

/-- A load of full, unpoisoned words answers their bytes. -/
theorem lsLoad_ok {s : State} {k off n : Nat} (h : s.LsReady (coreOf k) off n) : s.lsLoad k off n = .ok (s.lsRead (coreOf k) off n) := by
  have h1 : (wordsOf off n).find? (fun w => s.wordEmpty (coreOf k) w) = none := by
    rw [List.find?_eq_none]; intro w hw; simp [(h w hw).1]
  have h2 : (wordsOf off n).any (fun w => s.wordPois (coreOf k) w) = false := by
    rw [List.any_eq_false]; intro w hw; simp [(h w hw).2]
  simp only [State.lsLoad, h1, h2]; rfl

/-! ### The matrix stream -/

theorem matrixI_ok {i : Instr} {adv : Bool} {body : Nat → Gang → State → SRes State} {s t : State} {cl : Nat} (h : s.cur = .seq cl)
    (hb : body cl (s.streamGang cl) s = .ok t) :
    matrixI i adv body s = .next (if adv then t.modCluster cl (fun x => { x with seqPc := x.seqPc + 2 }) else t) := by
  simp only [State.streamGang] at hb
  simp only [matrixI, h, hb]
theorem matrixI_stop {i : Instr} {adv : Bool} {body : Nat → Gang → State → SRes State} {s : State} {cl code tile : Nat} (h : s.cur = .seq cl)
    (hb : body cl (s.streamGang cl) s = .error (.stop code tile)) : matrixI i adv body s = .next (s.seqStop cl code tile) := by
  simp only [State.streamGang] at hb
  simp only [matrixI, h, hb]
/-- A matrix instruction in a strand traps 0x01 (R188). -/
theorem matrixI_strand {i : Instr} {adv : Bool} {body : Nat → Gang → State → SRes State} {s : State} {k : Nat} (h : s.Turn k) :
    matrixI i adv body s = .next (s.takeTrap k 0x01 (s.slot k).pc (wordOf i) (s.slot k).m0 0) := by
  simp only [State.Turn] at h
  simp only [matrixI, h]

end Sys2Proof.Machine
end

