-- ==== Sys2Proof/Tests/Slice0.lean ====
section
/-! SUPPORT. The model's own tests: ill-formed terms refused, words of the spec's own examples decoded, and the values of its worked examples. -/

namespace Sys2Proof.Tests

open Sys2Proof.Machine

/-! Words the spec writes out (sources: the examples after R183, R189, R204, R223, R240, R242, R249, R253, R255, R257, R260, R290, R302, R318). -/

theorem test_decode_vfadd : decodeTableWord 64 0x68004040500A0040 = some (.vfadd ⟨4, 4, 5, .f32, .rne, false, ⟨2, true⟩⟩) := by decide
theorem test_decode_vld : decodeTableWord 64 0x9060603020000000 = some (.vld ⟨6, 3, some 2, 2, true, 0, false, ⟨0, false⟩⟩) := by decide
theorem test_decode_mdiv : decodeTableWord 64 0x4200100000000008 = some (.mdiv ⟨1, 8⟩) := by decide
theorem test_decode_br : decodeTableWord 64 0x3000000000000006 = some (.br 6) := by decide
theorem test_decode_addi : decodeTableWord 64 0x1900303FFFF0FF40 = some (.addi ⟨3, 3, 0xFFFFFF4, .s64, false⟩) := by decide
theorem test_decode_vsub : decodeTableWord 64 0x5100808090000000 = some (.vsub ⟨8, 8, 9, .s32, false, false, ⟨0, false⟩⟩) := by decide
theorem test_decode_vqblk : decodeTableWord 64 0x7600D020C0000A40 = some (.vqblkMan ⟨13, 2, 12, 2, ⟨0, false⟩⟩) := by decide
theorem test_decode_vred : decodeTableWord 64 0x7F00B0A000007240 = some (.vred ⟨11, 10, .max, .f32, .rne, false, 7, ⟨0, false⟩⟩) := by decide
theorem test_decode_vaadd : decodeTableWord 64 0x9620603020004C40 = some (.vaadd ⟨6, 3, some 2, 0, .rel, .dv, .f32, ⟨0, false⟩⟩) := by decide
theorem test_decode_ld : decodeTableWord 64 0xA030503FF0000010 = some (.ld ⟨5, 3, none, 3, false, 16, false⟩) := by decide
theorem test_decode_ldf : decodeTableWord 64 0xA430602FF0200008 = some (.ldf ⟨true, 6, 2, none, 8⟩) := by decide
theorem test_decode_sputfe : decodeTableWord 64 0xA9304090A0000008 = some (.sputfe ⟨4, 9, some 10, 8⟩) := by decide
theorem test_decode_fence : decodeTableWord 64 0xB300000000305400 = some (.fence ⟨.rel, .grp, 3⟩) := by decide
theorem test_decode_cpy_bp : decodeTableWord 64 0xE000A030B0C040A0 = some (.cpyMl ⟨10, 3, 11, 12, false, some .s8, none⟩) := by decide
theorem test_decode_trl_set : decodeTableWord 64 0xE610002000000200 = some (.trlSetTerm 2 2 0) := by decide
theorem test_decode_cpy_on : decodeTableWord 64 0xE011404151602200 = some (.cpyLm ⟨20, 4, 21, 22, false, none, some 2⟩) := by decide
theorem test_decode_xfmt : decodeTableWord 64 0xF800101000000000 = some (.xfmt 2 2) := by decide
theorem test_decode_xldb : decodeTableWord 64 0xF113800012000000 = some (.xldb ⟨1, true, 3, 0, 1, 2, 0⟩) := by decide
theorem test_decode_xloop : decodeTableWord 64 0xFB00000FFF000000 = some (.xloop 0xFFF0) := by decide

/-! Words written out bit by bit from an encoding (R188 and the entry of each). -/

/-- OP 0x22, DST 3, SA 1, SB 2, TYPE 4, RND 0 (R205). -/
theorem test_decode_fadd : decodeTableWord 64 0x2200301020000040 = some (.fadd ⟨3, 1, 2, .f32, .rne⟩) := by decide
/-- OP 0x47, DST m1, SA m2, SB m3 (R219). -/
theorem test_decode_mand : decodeTableWord 64 0x4700102030000000 = some (.mand ⟨1, 2, 3⟩) := by decide
/-- OP 0xC6, SA s5 (R272). -/
theorem test_decode_launch : decodeTableWord 64 0xC600005000000000 = some (.launch 5) := by decide
theorem test_decode_eret : decodeTableWord 64 0xD200000000000000 = some .eret := by decide
/-- R395, R205: `fadd.rsto` is no instruction. -/
theorem test_reject_fadd_rsto : decodeTableWord 64 0x2200304050000044 = none := by decide
/-- R191: SGN with a 64-bit size is an illegal encoding. -/
theorem test_reject_vld_sgn64 : decodeTableWord 64 0x9072803020000000 = none := by decide
theorem test_reject_opcode_zero : decode 0 = .error .opcode := rfl

/-! Ill-formed terms, one for each check of WellFormed. -/

theorem test_ill_scalar : [Instr.add ⟨60, 1, 2, .s64, false⟩, .add ⟨72, 1, 2, .s64, false⟩, .add ⟨3, 61, 2, .s64, false⟩, .add ⟨3, 1, 72, .s64, false⟩, .add ⟨3, 1, 2, .f32, false⟩,
    .slt ⟨3, 1, 2, .n32⟩, .sltn ⟨3, 1, 2, .s32⟩, .sext ⟨3, 1, 0⟩, .sext ⟨3, 1, 65⟩, .shli ⟨3, 1, 32, .s32⟩, .lih ⟨3, 3, 5, 10⟩].all (fun i => !WellFormed i) = true := by decide
theorem test_ill_float : [Instr.fadd ⟨3, 1, 2, .s32, .rne⟩, .fadd ⟨3, 1, 2, .f32, .rsto⟩, .fcvt ⟨3, 1, .f32, .f32, .rne⟩, .fcvt ⟨3, 1, .s32, .n32, .rne⟩].all (fun i => !WellFormed i) = true := by decide
theorem test_ill_masks : [Instr.mset ⟨7, 1⟩, .mand ⟨1, 8, 3⟩, .mdiv ⟨8, 4⟩, .lexit ⟨0, true⟩, .sow 3 ⟨0, false⟩].all (fun i => !WellFormed i) = true := by decide
theorem test_ill_lanes : [Instr.vadd ⟨128, 5, 6, .s32, false, false, ⟨0, false⟩⟩, .vadd ⟨4, 5, 6, .s64, false, false, ⟨0, false⟩⟩, .vadd ⟨4, 5, 61, .s32, false, true, ⟨0, false⟩⟩,
    .vand ⟨4, 5, 6, .s8, false, ⟨0, false⟩⟩, .vsext ⟨4, 5, 33, .s32, ⟨0, false⟩⟩, .vqblkExp ⟨4, 5, 8, ⟨0, false⟩⟩, .vfcvt ⟨4, 5, .s32, .s64, false, false, .rne, ⟨0, false⟩⟩].all (fun i => !WellFormed i) = true := by decide
theorem test_ill_cross : [Instr.vred ⟨4, 5, .and, .f32, .rne, false, 3, ⟨0, false⟩⟩, .vred ⟨4, 5, .add, .s32, .rup, false, 3, ⟨0, false⟩⟩, .vred ⟨4, 5, .add, .f32, .rne, false, 8, ⟨0, false⟩⟩].all (fun i => !WellFormed i) = true := by decide
theorem test_ill_memory : [Instr.vld ⟨6, 16, none, 2, false, 0, false, ⟨0, false⟩⟩, .vld ⟨7, 3, none, 3, false, 0, false, ⟨0, false⟩⟩, .vld ⟨6, 3, none, 3, true, 0, false, ⟨0, false⟩⟩,
    .vld ⟨6, 3, none, 4, false, 0, false, ⟨0, false⟩⟩, .ld ⟨5, 16, none, 3, false, 0, false⟩, .steScalar 0, .pmov ⟨0, 1⟩, .pget ⟨3, 1, 4⟩, .ptest ⟨3, 1, 2, 32⟩].all (fun i => !WellFormed i) = true := by decide
theorem test_ill_atomics : [Instr.aadd ⟨5, 3, none, 0, .rlx, .grp, .s32⟩, .aadd ⟨5, 3, none, 1, .rlx, .cl, .s32⟩, .aadd ⟨5, 3, none, 0, .rlx, .cl, .f64⟩, .fence ⟨.rlx, .cl, 0⟩, .fence ⟨.rel, .cl, 3⟩].all
    (fun i => !WellFormed i) = true := by decide
theorem test_ill_sync : [Instr.barSync ⟨true, 16, 3⟩, .barSync ⟨false, 5, 3⟩, .cntWait ⟨60, 3⟩, .cfq 3 8, .expect ⟨.reg 0, 3⟩].all (fun i => !WellFormed i) = true := by decide
theorem test_ill_engine : [Instr.cpyMl ⟨10, 16, 11, 12, false, none, none⟩, .cpyMl ⟨10, 3, 11, 12, false, some .s64, none⟩, .cpyMl ⟨10, 3, 11, 12, false, none, some 32⟩, .cpyLm ⟨10, 3, 11, 12, true, none, none⟩,
    .fwTake 3 16, .trlSetCounter 16 3, .trlSetTerm 32 1 2, .trlClrTerm 32].all (fun i => !WellFormed i) = true := by decide
theorem test_ill_matrix : [Instr.xlda ⟨8, false, 0, 0, 0, 0, 0⟩, .xmul ⟨4, 0, false, 1, false⟩, .xzero 4, .xrow 100 29, .xfmt 0 1, .xfmt 1 257, .xwait 16, .xloopBegin 0].all (fun i => !WellFormed i) = true := by decide
theorem test_ill_events : WellFormed (.spill 24576) = false ∧ WellFormed (.seedTrayDrain 1536) = false ∧ WellFormed (.commandAcceptance 96) = false ∧ WellFormed (.doorbell 16) = false ∧
    WellFormed (.bootRom 4) = false ∧ WellFormed (.gang 0 4096) = false ∧ WellFormed (.hostMemRead 0 3 0 0) = false ∧ WellFormed (.dieLinkFailure 0 2) = false := by decide

/-! Values of the spec's worked examples. -/

/-- R24: slot 5 of core 9 in cluster 14 of D2. -/
theorem test_source_number : srcOfSlot (16 * (2 * 384 + 14 * 16 + 9) + 5) = 0x9C95 := by decide
/-- R14: core 9 of cluster 14 stands at row 10, column 9; (10, 10) is core 10 of the same cluster. -/
theorem test_grid : gridCore 2 10 9 = 2 * 384 + 14 * 16 + 9 ∧ gridCore 2 10 10 = 2 * 384 + 14 * 16 + 10 := by decide
/-- R122. -/
theorem test_slice : sliceHash 0x0012_3456_7880 = 17 := by decide
/-- R131: offset 0x0180 of index 5. -/
theorem test_hothouse_slot : hothouseSlot 5 0x180 = (6, 5, 8) := by decide
def p3 : BitVec 128 := 0x0100_0001_0000_0000_8300_0040_0000_0100
/-- R135: a load at the last word of the bounds, and one beyond them. -/
theorem test_check_access : checkAccess p3 0xEFC 4 1 = some 0x40_0000_0FFC ∧ checkAccess p3 0xF00 4 1 = none := by decide
/-- R264: `pnarrow` with 1,000 bytes. -/
theorem test_pnarrow : pNarrow (mkPtr 4 64 0x40_0000_0000 1 0 19 0x40_0000_1234) 1000 = some 0x0044_0001_0000_0048_9300_0040_0000_1234 := by decide
/-- R97: stochastic rounding of 1.0 + 2^-25. -/
theorem test_rsto : (addV f32 .rsto 0x3FFF_FFFF (unpack f32 0x3F80_0000) (unpack f32 0x3300_0000)).1 = 0x3F80_0001 ∧
    (addV f32 .rsto 0x4000_0000 (unpack f32 0x3F80_0000) (unpack f32 0x3300_0000)).1 = 0x3F80_0000 := by decide
/-- R92: the tree sum of 2^24, 0, 1, 1 and zeros. -/
theorem test_reduce_tree : (reduceTree (redApply .add .f32 .rne) 5 1 ([0x4B80_0000, 0, 0x3F80_0000, 0x3F80_0000] ++ List.replicate 28 0) 0).1 = 0x4B80_0001 := by decide +kernel
/-- R106: residues 511, 512 and 513 stand for -1,536, which folds with exponent -5 to -48.0. -/
theorem test_fold : crtSigned 511 512 513 = -1536 ∧ foldAdd 0 (-1536) (-5) .rne 0 = 0xC240_0000 ∧ crtSigned 1020 1024 1028 = -7168 := by decide
/-- R109: -48.0 with a row scale of 0.125 converts to BF16 -6.0. -/
theorem test_output_conversion : cvtOut bf16 .rne 0 false [0xC240_0000, 0x3E00_0000] = 0xC0C0 := by decide

/-- A strand that runs in slot 1 of core 0, in a world where nothing else is. -/
def one (x : Slot) : State := { State.reset with cur := .slot 1, slots := [(1, { x with phase := .running, gen := 1, slices := 15, budget := 128 })] }
def lit (v : W64) : SReg := ⟨v, true, false⟩
/-- The register that a step of `i` leaves. -/
def after (i : Instr) (x : Slot) (f : State → W64) : Option W64 := match exec i (one x) with
  | .next t => some (f t)
  | _ => none
def sAt (n : Nat) (t : State) : W64 := ((t.slot 1).sreg n).val
/-- R204: the three loads of 0x0123_4567_89AB_CDEF. -/
theorem test_li : after (.li 3 0x9ABCDEF) Slot.reset (sAt 3) = some 0xFFFF_FFFF_F9AB_CDEF := by decide +kernel
theorem test_lih : after (.lih ⟨3, 3, 0x2345678, 7⟩) { Slot.reset with s := [(3, lit 0xFFFF_FFFF_F9AB_CDEF)] } (sAt 3) = some 0xFF23_4567_89AB_CDEF ∧
    after (.lih ⟨3, 3, 0x0123456, 9⟩) { Slot.reset with s := [(3, lit 0xFF23_4567_89AB_CDEF)] } (sAt 3) = some 0x0123_4567_89AB_CDEF := by decide +kernel
/-- R82: the trap of a poisoned lane load at U with UDELEG = 8, and the return from it. -/
def tU : Slot := { Slot.reset with status := 0x10, udeleg := 8, clause := none }
theorem test_trap_entry : let x := ((one tU).takeTrap 1 0x11 0x140 0 0x20008 0).slot 1
    x.epc = 0x140 ∧ x.cause = 0x111 ∧ x.fmask = 0x20008 ∧ x.lfm = 0x20008 ∧ x.status = 0x60 := by decide +kernel
theorem test_eret : ((((one tU).takeTrap 1 0x11 0x140 0 0x20008 0).eretRestore 1).slot 1).status = 0x10 := by decide +kernel
/-- R268: the word of a `cnt.wait s7` at slot 2 of a core, with COUNT = 3. -/
theorem test_cnt_wait : (match exec (.cntWait ⟨7, 8⟩) { one Slot.reset with
    cur := .slot 2, slots := [(2, { Slot.reset with phase := .running, gen := 1, s := [(8, lit 0x100)] })], ls := [(lsKey 0 0x100, 3)] } with
    | .next t => decide (t.lsRead 0 0x100 8 = 0x0000_0C87_0000_0003 ∧ ((t.slot 2).sreg 7).full = false)
    | _ => false) = true := by decide +kernel
/-- R242: `vred.add.f32 v4, v5, m3`: the members that execute are lanes 0 to 3, and lanes 4 to 7 keep v4; with lane 9 exited it traps 0x0A. -/
def tRed (live : W64) : Slot := { Slot.reset with width := 32, m := [(0, 0xFF), (3, 0xF0F), (7, live)], v := (List.range 8).map (fun l => (5 * 64 + l, ⟨BitVec.ofNat 32 ([0x3F800000, 0x40000000, 0x40400000, 0x40800000, 0x40A00000, 0x40C00000, 0x40E00000, 0x41000000].getD l 0), true, false⟩)) }
theorem test_vred : (match exec (.vred ⟨4, 5, .add, .f32, .rne, false, 3, ⟨0, false⟩⟩) (one (tRed 0xFFFFFFFF)) with
    | .next t => decide (((t.slot 1).vreg 4 0).val = 0x41200000 ∧ ((t.slot 1).vreg 4 3).val = 0x41200000 ∧ ((t.slot 1).vreg 4 4).val = 0)
    | _ => false) = true := by decide +kernel
theorem test_vred_exited : (match exec (.vred ⟨4, 5, .add, .f32, .rne, false, 3, ⟨0, false⟩⟩) (one (tRed 0xFFFFFDFF)) with
    | .next t => decide (wf (t.slot 1).cause 0 8 = 0x0A ∧ (t.slot 1).tval = 0xF0F ∧ (t.slot 1).fmask = 0xFF)
    | _ => false) = true := by decide +kernel
/-- R394: a step runs the word at the fetch position; the illegal word of the example after R394 traps 0x01 with itself as TVAL. -/
theorem test_step_illegal : (match step ((one Slot.reset).withFetchWord 64 0x9072803020000000) with
    | .next t => decide (wf (t.slot 0).cause 0 8 = 0x01 ∧ (t.slot 0).tval = 0x9072803020000000)
    | _ => false) = true := by decide +kernel
theorem test_step_li : (match step (State.reset.withFetchWord 64 0x1D00300000000500) with
    | .next t => decide (t.mem = [])
    | _ => false) = true := by decide +kernel

end Sys2Proof.Tests
end

