-- ==== Sys2Proof/Tests/Witness.lean ====
section
/-! SUPPORT. Witnesses: for the clauses of the statements about strands, a state and operands that meet all hypotheses of a clause together. -/

namespace Sys2Proof.Tests

open Sys2Proof.Machine

set_option maxRecDepth 60000

/-! ### What a witness shows -/

/-- Some state and slot meet every hypothesis of a clause of the form `Completes`. -/
def Met {i : Instr} {l : Nat} {d v : List Nat} {eff : Nat → State → State → Prop} (_ : Completes i l d v eff) : Prop :=
  ∃ s k t, s.Turn k ∧ (s.slot k).May l d v ∧ eff k s t
/-- The same for `Ends`. -/
def MetE {i : Instr} {l : Nat} {d v : List Nat} {eff : Nat → State → State → Prop} (_ : Ends i l d v eff) : Prop :=
  ∃ s k t, s.Turn k ∧ (s.slot k).May l d v ∧ eff k s t

/-- The hypotheses of a `Completes` clause are met by a strand that is not in slot 0. -/
def MetC {i : Instr} {l : Nat} {d v : List Nat} {eff : Nat → State → State → Prop} (_ : Completes i l d v eff) : Prop :=
  ∃ s k t, slotNo k ≠ 0 ∧ s.Turn k ∧ (s.slot k).May l d v ∧ eff k s t
/-- The hypotheses of an `Ends` clause are met in a given state. -/
def MetAt {i : Instr} {l : Nat} {d v : List Nat} {eff : Nat → State → State → Prop} (_ : Ends i l d v eff) (s : State) (k : Nat) : Prop :=
  ∃ t, s.Turn k ∧ (s.slot k).May l d v ∧ eff k s t

/-! ### A small machine -/

/-- A pointer of 64 KiB to ordinary memory at 0, one to the local store, one to a page of hothouse lines, and one to a table of pointers at 0x10000. -/
def pMem : BitVec 128 := mkPtr 2 256 0 1 0 31 0
def pLs : BitVec 128 := mkPtr 10 4 0 1 1 31 0
def pHh : BitVec 128 := mkPtr 2 256 0x20000 1 0 31 0x20000
def pTab : BitVec 128 := mkPtr 2 256 0x10000 1 0 31 0x10000
/-- A running strand of width 32 with every lane live: s1 to s13 hold the values below (s3 zero, s7 a target value, s10 a task handle), m1 the lower lanes. -/
def x0 : Slot := { Slot.reset with
  phase := .running, width := 32, budget := 128, slices := 15, pc := 2, gen := 1, job := .gang 1 0,
  s := [(1, ⟨5, true, false⟩), (2, ⟨16, true, false⟩), (4, ⟨0xFFFFFFFF, true, false⟩), (5, ⟨10, true, false⟩), (6, ⟨64, true, false⟩), (7, ⟨0x80000000A, true, false⟩), (8, ⟨8, true, false⟩), (9, ⟨128, true, false⟩), (10, ⟨0x400000, true, false⟩), (11, ⟨0x10000, true, false⟩), (12, ⟨0x1001000040, true, false⟩), (13, ⟨0x80050001, true, false⟩)],
  m := [(0, 0xFFFFFFFF), (1, 0xFFFF), (7, 0xFFFFFFFF)], p := [(0, pMem), (1, pTab), (2, pMem), (3, pLs), (4, pHh)] }
/-- A core that has translated pages 0 to 2 (ordinary, binding, hothouse) and holds the code words of a clause of four words. -/
def c0 : Core := { Core.reset with
  started := true, gang := some 1, cdc := [(0, ⟨512, true, false⟩)],
  itlb := [⟨0, 0, 0, 0, 0x3FB⟩], dtlb := [⟨0, 0, 0, 0, 0x3FB⟩, ⟨0, 0, 1, 0, 0x103FF⟩, ⟨0, 0, 2, 0, 0x3FD⟩],
  icache := [(0, 0xFF30000000000000), (1, 0x3E00000000000000), (2, 0x3E00000000000000), (3, 0x3E00000000000000), (4, 0x3E00000000000000), (5, 0xFF30000000000000)] }
/-- One core of two strands, with the matrix lease and the message slot; format slots 0 to 2 are an A, a B and an output slot. -/
def g0 : Gang := { protoGang [0x30020101, 3, 0, 0, 0, 0, 0, 0, 0x40, 0x41, 2] [] with
  id := 1, p0 := pMem, p1 := pTab, released := true, live := [0, 1] }
def k0 : Cluster := { Cluster.reset with enabled := true, lease := some 1, seqGang := 1 }
def d0 : Die := { Die.reset with booted := true, cfg := [(0, 1), (8, 0xFFFFFF), (0x10, 0x1000000), (0x20, 0x2000001), (0x50, 0x10000)] }
/-- Partition 0 holds die 0; the strand `x` runs in slot 1 of core `c` of cluster `y`. -/
def world (x : Slot) (c : Core) (y : Cluster) : State :=
  { State.reset with cur := .slot 1, slots := [(1, x)], cores := [(0, c)], clusters := [(0, y)], dies := [(0, d0)], gangs := [g0], nextGang := 2, gtcOn := true }
def w0 : State := world x0 c0 k0
def lanes0 : Pred := ⟨0, false⟩
/-- No lane executes. -/
def noLane : Pred := ⟨0, true⟩
def xS : Slot := { x0 with status := 0x15 }

theorem may0 {l : Nat} {d v : List Nat} (h : (decide (l ≤ x0.priv) && (decide (x0.priv ≠ 0) || d.all (decide <| · < 68)) && v.all (decide <| · < x0.budget)) = true) :
    (w0.slot 1).May l d v := by
  simp only [Bool.and_eq_true, Bool.or_eq_true, decide_eq_true_eq, List.all_eq_true] at h
  exact ⟨h.1.1, fun e => h.1.2.resolve_left (fun n => n e), h.2⟩

/-! ### Scalar instructions -/

/-- In a map of full, clean registers every register is full and clean. -/
theorem allFull (m : SMap SReg) (n : Nat) (h : m.all (fun e => e.2.full && !e.2.pois) = true) : (mget sDef m n).full = true ∧ (mget sDef m n).pois = false := by
  induction m with
  | nil => exact ⟨rfl, rfl⟩
  | cons a t ih =>
    simp only [List.all_cons, Bool.and_eq_true, Bool.not_eq_true'] at h
    simp only [mget]; split
    · exact h.1
    · exact ih h.2
theorem sreg0 (n : Nat) : ((w0.slot 1).sreg n).full = true ∧ ((w0.slot 1).sreg n).pois = false := allFull _ n rfl
theorem reads0 (fm : W64) (ns : List Nat) (h : ∀ n ∈ ns, n < 60) : ∃ vs, w0.Reads 1 fm ns vs w0 := by
  induction ns with
  | nil => exact ⟨[], rfl⟩
  | cons n t ih =>
    obtain ⟨vs, hv⟩ := ih (fun m hm => h m (List.mem_cons_of_mem _ hm))
    have hn := h n (List.mem_cons_self ..)
    simp only [State.Reads] at hv
    obtain ⟨h1, h2⟩ := sreg0 n
    by_cases h0 : n = 0
    · refine ⟨0 :: vs, ?_⟩
      simp only [State.Reads, rdScs, rdSc, h0, if_true, bind_ok, hv]; rfl
    · refine ⟨((w0.slot 1).sreg n).val :: vs, ?_⟩
      simp only [State.Reads, rdScs, rdSc, if_neg h0, hn, if_true, h1, h2, Bool.not_true, Bool.false_eq_true, if_false, bind_ok, hv]; rfl
theorem writes0 (s : State) (d : Nat) (v : W64) (h : d < 60) : ∃ t, s.Writes 1 d v t := by
  simp only [State.Writes, wrSc, h]
  split <;> exact ⟨_, rfl⟩
/-- Every scalar form with operands s0 to s59 meets the hypotheses of its clause in one state. -/
theorem met_ScalarResults (h : Obligations.ScalarResults) (i : Instr) (f : ScalarForm) (hf : scalarForm i = some f) (hd : f.d < 60)
    (hs : ∀ n ∈ f.srcs, n < 60) : Met (h i f hf) := by
  obtain ⟨vs, hv⟩ := reads0 1 f.srcs hs
  obtain ⟨t, ht⟩ := writes0 (w0.flagged 1 (f.res w0 1 vs).2) f.d (f.res w0 1 vs).1 hd
  exact ⟨w0, 1, t, rfl, may0 (by simp [x0, Slot.priv]; omega), vs, w0, hv, ht⟩
theorem met_ScalarFrame : ∃ (i : Instr) (f : ScalarForm) (s : State) (k : Nat), scalarForm i = some f ∧ s.Turn k ∧ f.d < 60 ∧ ∀ n ∈ f.srcs, (s.slot k).Ready n :=
  ⟨.add ⟨3, 1, 2, .s64, false⟩, _, w0, 1, rfl, rfl, by decide, by intro n _; rcases Nat.eq_zero_or_pos n with h | h; exact .inl h; exact .inr ⟨by simp_all; omega, sreg0 n⟩⟩

/-- s1 empty, s2 poisoned, a message for the strand, four items in the gang's queue with two handed out. -/
def xR : Slot := { x0 with s := [(1, ⟨0, false, false⟩), (2, ⟨0, true, true⟩)] }
def cR : Core := { c0 with inbox := [⟨0, 1, none, 1, 77, false⟩], k := [(0, 9)], kold := [(0, [(8, 1)])] }
def wR : State := { world xR cR k0 with cycle := 20 }
def wW (work : Nat) : State := { w0 with gangs := [{ g0 with work := work }] }
theorem met_ScalarOperands_reads :
    (0 < 3 ∧ 3 < 60 ∧ ((w0.slot 1).sreg 3).full = true ∧ ((w0.slot 1).sreg 3).pois = false) ∧
    ((wR.slot 1).sreg 1).full = false ∧ (((wR.slot 1).sreg 2).full = true ∧ ((wR.slot 1).sreg 2).pois = true) ∧
    (∃ m, (wR.core (coreOf 1)).inbox.find? (wR.msgFor 1) = some m) ∧ (w0.core (coreOf 1)).inbox.find? (w0.msgFor 1) = none ∧
    (∃ g, (wW 2).myGang 1 = some g ∧ g.work < (lrw g.lrec 1).toNat) ∧ (∃ g, (wW 3).myGang 1 = some g ∧ (lrw g.lrec 1).toNat ≤ g.work) ∧
    (64 ≤ 64 ∧ ∀ e ∈ mget [] (wR.core (coreOf 1)).kold (64 - 64), e.2 + 16 ≤ wR.cycle) :=
  ⟨by decide, by decide, by decide, ⟨_, rfl⟩, rfl, ⟨_, rfl, by decide⟩, ⟨_, rfl, by decide⟩, by decide⟩
theorem met_IntegerArithmetic : Ty.s32.typed = true ∧ 0 % 2 ^ Ty.s32.width = 0 ∧ 5 % 2 ^ Ty.s32.width ≠ 0 := by decide

/-! ### Branches, calls, retirement -/

/-- An entry of kind 2 on the mask stack that resumes at the clause's third word. -/
def xCall : Slot := { x0 with stack := [0x020000040000FFFF] }
/-- The state after a read, a check or a write that succeeds. -/
theorem met_ControlFlow_branches (h : Obligations.ControlFlow) :
    MetE (h.1.1 8) ∧ MetE (h.1.2.1 ⟨3, 8⟩) ∧ MetE (h.1.2.2.1 ⟨1, 8⟩) ∧ MetE (h.1.2.2.2.1 ⟨1, 2, 8⟩) ∧ MetE (h.1.2.2.2.2.1 ⟨1, 2, 8⟩) ∧
    MetE (h.1.2.2.2.2.2.1 ⟨1, 2, 8⟩) ∧ MetE (h.1.2.2.2.2.2.2.1 ⟨1, 2, 8⟩) ∧ MetE (h.1.2.2.2.2.2.2.2.1 ⟨1, 2, 8⟩) ∧ MetE (h.1.2.2.2.2.2.2.2.2 ⟨1, 2, 8⟩) :=
  ⟨⟨w0, 1, _, rfl, may0 rfl, _, _, rfl, .inr ⟨rfl, _, rfl, rfl⟩⟩,
   ⟨w0, 1, _, rfl, may0 rfl, _, _, rfl, .inr ⟨rfl, _, rfl, rfl⟩⟩,
   ⟨w0, 1, _, rfl, may0 rfl, _, _, rfl, .inr ⟨rfl, _, rfl, rfl⟩⟩,
   ⟨w0, 1, _, rfl, may0 rfl, _, _, rfl, .inl ⟨rfl, rfl⟩⟩,
   ⟨w0, 1, _, rfl, may0 rfl, _, _, rfl, .inr ⟨rfl, _, rfl, rfl⟩⟩,
   ⟨w0, 1, _, rfl, may0 rfl, _, _, rfl, .inr ⟨rfl, _, rfl, rfl⟩⟩,
   ⟨w0, 1, _, rfl, may0 rfl, _, _, rfl, .inl ⟨rfl, rfl⟩⟩,
   ⟨w0, 1, _, rfl, may0 rfl, _, _, rfl, .inr ⟨rfl, _, rfl, rfl⟩⟩,
   ⟨w0, 1, _, rfl, may0 rfl, _, _, rfl, .inl ⟨rfl, rfl⟩⟩⟩

def wx (x : Slot) : State := world x c0 k0
theorem met_ControlFlow_calls (h : Obligations.ControlFlow) :
    MetE (h.2.1.1 8) ∧ MetE (h.2.1.2.1 7) ∧ MetE h.2.1.2.2.1 ∧ MetE (h.2.1.2.2.2.1 5) ∧ MetE h.2.1.2.2.2.2.1 ∧ MetE (h.2.1.2.2.2.2.2.1 1) ∧ Met h.2.1.2.2.2.2.2.2 :=
  ⟨⟨w0, 1, _, rfl, may0 rfl, _, rfl, rfl, rfl⟩,
   ⟨w0, 1, _, rfl, may0 rfl, _, _, rfl, by decide, rfl⟩,
   ⟨wx xCall, 1, _, rfl, ⟨by decide, by decide, by decide⟩, by decide, by decide, by decide, _, rfl, rfl⟩,
   ⟨w0, 1, _, rfl, may0 rfl, _, _, _, rfl, by decide, rfl, rfl⟩,
   ⟨w0, 1, _, rfl, may0 rfl, rfl, rfl⟩,
   ⟨w0, 1, _, rfl, may0 rfl, _, _, rfl, by decide, rfl, rfl⟩,
   ⟨w0, 1, _, rfl, may0 rfl, rfl⟩⟩
theorem met_ControlFlow_halt : (wx { x0 with job := .none }).Turn 1 ∧ ((wx { x0 with job := .none }).slot 1).inReconv = none ∧
    ((wx { x0 with job := .none }).slot 1).width ≠ 64 ∧ ((wx { x0 with job := .none }).slot 1).job = .none := ⟨rfl, rfl, by decide, rfl⟩

/-! ### Masks -/

/-- A join entry at the top of the mask stack. -/
def xJoin : Slot := { x0 with stack := [0x010000040000FFFF] }
/-- A block for `mfill` at 64: masks of zeros, one entry. -/
def wFill : State := { w0 with ls := [(lsKey 0 128, 1), (lsKey 0 143, 1)] }
theorem met_DivergenceAndMaskStack (h : Obligations.DivergenceAndMaskStack) :
    (MetE (h.1.1 ⟨1, 8⟩) ∧ MetE (h.1.1 ⟨7, 8⟩) ∧ MetE (h.1.1 ⟨2, 8⟩)) ∧ (MetE (h.1.2.1 ⟨1, 8⟩) ∧ MetE (h.1.2.1 ⟨7, 8⟩) ∧ MetE (h.1.2.1 ⟨2, 8⟩)) ∧ MetE h.1.2.2 ∧
    Met (h.2.1 6) ∧ Met (h.2.2.1 3) ∧ (Met (h.2.2.2.1 ⟨3, 3⟩) ∧ Met (h.2.2.2.1 ⟨3, 1⟩)) ∧ Met (h.2.2.2.2.1 3) ∧ Met (h.2.2.2.2.2.1 3 6) ∧ Met (h.2.2.2.2.2.2.1 6) ∧ Met (h.2.2.2.2.2.2.2 6) :=
  ⟨⟨⟨w0, 1, _, rfl, may0 rfl, .inl ⟨by decide, by decide, by decide, by decide, by decide, rfl⟩⟩, ⟨w0, 1, _, rfl, may0 rfl, .inr (.inl ⟨by decide, by decide, by decide, rfl⟩)⟩,
    ⟨w0, 1, _, rfl, may0 rfl, .inr (.inr ⟨by decide, _, rfl, by decide, rfl⟩)⟩⟩,
   ⟨⟨w0, 1, _, rfl, may0 rfl, .inl ⟨by decide, by decide, by decide, by decide, by decide, rfl⟩⟩, ⟨w0, 1, _, rfl, may0 rfl, .inr (.inl ⟨by decide, by decide, by decide, rfl⟩)⟩,
    ⟨w0, 1, _, rfl, may0 rfl, .inr (.inr ⟨by decide, _, rfl, by decide, rfl⟩)⟩⟩,
   ⟨wx xJoin, 1, _, rfl, ⟨by decide, by decide, by decide⟩, rfl, by decide, by decide, .inl ⟨by decide, rfl⟩⟩,
   ⟨w0, 1, _, rfl, may0 rfl, _, _, rfl, rfl, by decide, by decide, rfl, rfl⟩,
   ⟨wx xJoin, 1, _, rfl, ⟨by decide, by decide, by decide⟩, rfl, by decide, by decide, rfl⟩,
   ⟨⟨wx xJoin, 1, _, rfl, ⟨by decide, by decide, by decide⟩, _, _, rfl, rfl, .inl ⟨by decide, by decide, rfl⟩⟩,
    ⟨wx xJoin, 1, _, rfl, ⟨by decide, by decide, by decide⟩, _, _, rfl, rfl, .inr ⟨by decide, rfl⟩⟩⟩,
   ⟨w0, 1, _, rfl, may0 rfl, rfl, rfl⟩,
   ⟨wx xJoin, 1, _, rfl, ⟨by decide, by decide, by decide⟩, _, _, _, rfl, rfl, by decide, by decide, rfl⟩,
   ⟨w0, 1, _, rfl, may0 rfl, _, _, rfl, by decide, by decide, rfl⟩,
   ⟨wFill, 1, _, rfl, may0 rfl, _, _, rfl, by decide, by decide, by decide, by decide, by decide, by decide, rfl⟩⟩
/-- Vector registers of which every listed lane is full and clean are ready in every lane. -/
theorem vready {x : Slot} (h : x.v.all (fun e => e.2.full && !e.2.pois) = true) (e : W64) (regs : List Nat) : x.LanesReady e regs := by
  intro l _ r _
  have : ∀ (m : SMap VReg) (n : Nat), m.all (fun e => e.2.full && !e.2.pois) = true → (mget vDef m n).full = true ∧ (mget vDef m n).pois = false := by
    intro m n
    induction m with
    | nil => intro _; exact ⟨rfl, rfl⟩
    | cons a t ih =>
      intro h
      simp only [List.all_cons, Bool.and_eq_true, Bool.not_eq_true'] at h
      simp only [mget]; split
      · exact h.1
      · exact ih h.2
  exact this _ _ h
theorem ready0 (e : W64) (regs : List Nat) : (w0.slot 1).LanesReady e regs := vready rfl e regs
theorem met_ComparesAndMasks (h : Obligations.ComparesAndMasks) :
    Met (h.1.1 ⟨1, 2, 3, .s32, .lt, lanes0⟩) ∧ Met (h.1.2 ⟨1, 2, 3, .f32, .lt, lanes0⟩) ∧
    Met (h.2.1.1 ⟨1, 4⟩) ∧ Met (h.2.1.2.1 ⟨1, 0, 1⟩) ∧ Met (h.2.1.2.2.1 ⟨1, 0, 1⟩) ∧ Met (h.2.1.2.2.2.1 ⟨1, 0, 1⟩) ∧ Met (h.2.1.2.2.2.2 ⟨1, 0⟩) :=
  ⟨⟨w0, 1, _, rfl, may0 rfl, ready0 _ _, _, rfl, rfl⟩, ⟨w0, 1, _, rfl, may0 rfl, ready0 _ _, _, rfl, rfl⟩,
   ⟨w0, 1, _, rfl, may0 rfl, _, _, rfl, rfl⟩, ⟨w0, 1, _, rfl, may0 rfl, rfl⟩, ⟨w0, 1, _, rfl, may0 rfl, rfl⟩, ⟨w0, 1, _, rfl, may0 rfl, rfl⟩, ⟨w0, 1, _, rfl, may0 rfl, rfl⟩⟩

/-- Lanes 0 and 1 live, of which lane 0 has exited, in a gang whose queue has an item left. -/
def xRef : Slot := { x0 with m := [(0, 0xFFFFFFFE), (7, 0xFFFFFFFE)], slices := 15 }
/-- Every lane's sown word is `vadd.s32 v4, v5, v6`. -/
def xSow : Slot := { x0 with m := [(0, 1), (7, 1)], v := [(2 * 64, ⟨0x60000000, true, false⟩), (3 * 64, ⟨0x50004050, true, false⟩)] }
/-- Lane 0 names the target 10 of the module, with budget 8. -/
def xVc : Slot := { x0 with m := [(0, 1), (7, 1)], v := [(2 * 64, ⟨10, true, false⟩), (3 * 64, ⟨8, true, false⟩)] }
theorem met_LanesOfTheStrand (h : Obligations.LanesOfTheStrand) :
    MetE (h.1.1 ⟨1, false⟩) ∧ Met h.1.2.1 ∧ MetE (h.1.2.2.1 2 noLane) ∧ MetE (h.1.2.2.2.1 2 lanes0) ∧ MetE (h.1.2.2.2.2.1 2 lanes0) ∧ MetE (h.1.2.2.2.2.2 2 noLane) :=
  ⟨⟨w0, 1, _, rfl, may0 rfl, rfl, rfl⟩,
   ⟨{ wx xRef with gangs := [g0] }, 1, _, rfl, ⟨by decide, by decide, by decide⟩, .inr (.inr ⟨_, _, rfl, rfl, rfl, rfl⟩)⟩,
   ⟨w0, 1, _, rfl, may0 rfl, rfl, rfl, rfl⟩,
   ⟨wx xSow, 1, _, rfl, ⟨by decide, by decide, by decide⟩, rfl, vready rfl _ _, 0x5000405060000000, (sowDecode xSow 0x5000405060000000).get (by decide), _, by decide, by decide, (Option.some_get _).symm, rfl, rfl⟩,
   ⟨wx xVc, 1, _, rfl, ⟨by decide, by decide, by decide⟩, by decide, by decide, rfl⟩,
   ⟨w0, 1, _, rfl, may0 rfl, rfl, rfl⟩⟩

/-! ### Lane instructions -/

/-- Every lane form with a predicate under which a lane executes, registers below the budget, and a scalar source of s0 to s59. -/
theorem met_LaneResults (h : Obligations.LaneResults) (i : Instr) (f : LaneForm) (hf : laneForm i = some f) (hp : x0.exec f.p ≠ 0) (hv : ∀ r ∈ f.vecs, r < 128)
    (hs : ∀ b, f.sc = some b → b < 60) : Met (h i f hf) := by
  have hm : (w0.slot 1).May 0 [] f.vecs := ⟨Nat.zero_le _, fun _ _ hd => (List.not_mem_nil hd).elim, hv⟩
  rcases Option.eq_none_or_eq_some f.sc with hb | ⟨b, hb⟩
  · exact ⟨w0, 1, _, rfl, hm, none, w0, hp, by rw [hb]; exact ⟨rfl, rfl⟩, ready0 _ _, rfl⟩
  · obtain ⟨vs, hr⟩ := reads0 ((w0.slot 1).exec f.p) [b] (by intro n hn; rw [List.mem_singleton] at hn; subst hn; exact hs _ hb)
    have hl := reads_len hr
    match vs, hl with
    | [v], _ => exact ⟨w0, 1, _, rfl, hm, some v, w0, hp, by rw [hb]; exact ⟨v, hr, rfl⟩, ready0 _ _, rfl⟩
theorem met_LaneFrame : ∃ (i : Instr) (f : LaneForm) (s : State) (k : Nat), laneForm i = some f ∧ f.sc = none ∧ s.Turn k ∧ (s.slot k).May 0 [] f.vecs ∧
    (s.slot k).exec f.p ≠ 0 ∧ (s.slot k).LanesReady ((s.slot k).exec f.p) f.srcs :=
  ⟨.vadd ⟨4, 5, 6, .s64, false, false, ⟨1, true⟩⟩, _, w0, 1, rfl, rfl, rfl, may0 rfl, by decide, ready0 _ _⟩

/-- Lane 0 alone is live; format slot 0 is a conversion to 8 bits. -/
def xl : Slot := { x0 with m := [(0, 1), (1, 1), (7, 1)], fmt := [0x83] }
def wl : State := wx xl
theorem mayl {l : Nat} {d v : List Nat} (h : (decide (l ≤ x0.priv) && (decide (x0.priv ≠ 0) || d.all (decide <| · < 68)) && v.all (decide <| · < x0.budget)) = true) :
    (wl.slot 1).May l d v := may0 h
theorem readyl (e : W64) (regs : List Nat) : (wl.slot 1).LanesReady e regs := vready rfl e regs
theorem met_LaneMoves (h : Obligations.LaneMovesAndShuffles) :
    Met (h.1.1 ⟨3, 2, 0, .s32, false⟩) ∧ (Met (h.1.2.1 ⟨2, 1, 3, .s32, lanes0⟩) ∧ Met (h.1.2.1 ⟨2, 1, 6, .s32, lanes0⟩)) ∧ Met (h.1.2.2.1 ⟨3, 2, 0, lanes0⟩) ∧
    Met (h.1.2.2.2.1 ⟨3, 2, 4, 0, lanes0⟩) ∧ Met (h.1.2.2.2.2 ⟨3, 2, lanes0⟩) :=
  ⟨⟨w0, 1, _, rfl, may0 rfl, _, _, rfl, by decide, by decide, by decide, rfl, by decide, rfl⟩,
   ⟨⟨w0, 1, _, rfl, may0 rfl, _, _, _, by decide, rfl, .inl ⟨by decide, by decide, rfl⟩⟩, ⟨w0, 1, _, rfl, may0 rfl, _, _, _, by decide, rfl, .inr ⟨by decide, rfl⟩⟩⟩,
   ⟨wl, 1, _, rfl, mayl rfl, _, _, rfl, by decide, readyl _ _, rfl⟩,
   ⟨wl, 1, _, rfl, mayl rfl, _, _, rfl, by decide, readyl _ _, rfl⟩,
   ⟨wl, 1, _, rfl, mayl rfl, by decide, readyl _ _, rfl⟩⟩
/-- Every cross-lane form under which a lane executes. -/
theorem met_CrossForms (h : Obligations.LaneMovesAndShuffles) (i : Instr) (f : CrossForm) (hf : crossForm i = some f) (hv : ∀ r ∈ f.vecs, r < 128)
    (hs : ∀ b, f.sc = some b → b < 60) (hl : f.live = true) (he : x0.exec f.p ≠ 0) : Met (h.2.1 i f hf) := by
  have hm : (w0.slot 1).May 0 [] f.vecs := ⟨Nat.zero_le _, fun _ _ hd => (List.not_mem_nil hd).elim, hv⟩
  rcases Option.eq_none_or_eq_some f.sc with hb | ⟨b, hb⟩
  · exact ⟨w0, 1, _, rfl, hm, .inl hl, he, none, w0, by rw [hb]; exact ⟨rfl, rfl⟩, ready0 _ _, rfl⟩
  · obtain ⟨vs, hr⟩ := reads0 (f.lanes x0) [b] (by intro n hn; rw [List.mem_singleton] at hn; subst hn; exact hs _ hb)
    have hl' := reads_len hr
    match vs, hl' with
    | [v], _ => exact ⟨w0, 1, _, rfl, hm, .inl hl, he, some v, w0, by rw [hb]; exact ⟨v, hr, rfl⟩, ready0 _ _, rfl⟩
theorem met_CrossForms_each (h : Obligations.LaneMovesAndShuffles) :
    Met (h.2.1 (.vshuf ⟨3, 2, 4, .s32, true, 0, lanes0⟩) _ rfl) ∧ Met (h.2.1 (.vbcast ⟨3, 2, 1, .s32, true, 0, lanes0⟩) _ rfl) ∧ Met (h.2.1 (.vrot ⟨3, 2, 1, .s32, true, 3, lanes0⟩) _ rfl) ∧
    Met (h.2.1 (.vred ⟨3, 2, .max, .f32, .rne, true, 0, lanes0⟩) _ rfl) ∧ Met (h.2.1 (.vscan ⟨3, 2, .add, true, .s32, .rne, true, 0, lanes0⟩) _ rfl) ∧
    Met (h.2.2.1 (.vshuf ⟨3, 2, 4, .s32, false, 3, noLane⟩) _ rfl) ∧ crossForm (.vred ⟨3, 2, .add, .f32, .rne, true, 0, lanes0⟩) ≠ none ∧
    Met (h.2.2.2.2 ⟨3, 2, .s32, false, 1, lanes0⟩) ∧ Met (h.2.2.2.2 ⟨3, 2, .s32, true, 0, lanes0⟩) :=
  ⟨met_CrossForms h _ _ rfl (by decide) (by decide) rfl (by decide), met_CrossForms h _ _ rfl (by decide) (by decide) rfl (by decide),
   met_CrossForms h _ _ rfl (by decide) (by decide) rfl (by decide), met_CrossForms h _ _ rfl (by decide) (by decide) rfl (by decide),
   met_CrossForms h _ _ rfl (by decide) (by decide) rfl (by decide),
   ⟨w0, 1, _, rfl, may0 rfl, rfl, rfl⟩, (fun e => nomatch e),
   ⟨w0, 1, _, rfl, may0 rfl, .inr rfl, by decide, by decide, ready0 _ _, rfl⟩, ⟨w0, 1, _, rfl, may0 rfl, .inl rfl, by decide, by decide, ready0 _ _, rfl⟩⟩

/-! ### Memory -/

theorem met_AccessChecks : (pTag 0 = false) ∧ (pTag pLs = true ∧ pHas pLs 3 = true ∧ (pBase pLs : Int) ≤ pCur pLs + 8 ∧ pCur pLs + (8 : Int) + 4 ≤ (pLim pLs : Int) ∧ pSP pLs = true ∧
    pCur pLs + (8 : Int) + 4 ≤ 262144 ∧ (pCur pLs + (8 : Int)) % 4 = 0) ∧ (pCur pLs + (6 : Int)) % 4 ≠ 0 := by decide
theorem met_LaneLoadsAndStores (h : Obligations.LaneLoadsAndStores) :
    MetE (h.1 (.vld ⟨6, 3, none, 2, true, 8, false, lanes0⟩) _ _ _ rfl) ∧ MetE (h.1 (.vldu ⟨6, 3, some 3, 2, true, 8, false, lanes0⟩) _ _ _ rfl) ∧
    MetE (h.1 (.lld ⟨6, 2, some 4, 2, true, 8, false, lanes0⟩) _ _ _ rfl) ∧ MetE (h.1 (.vld ⟨6, 2, some 4, 2, true, 8, false, lanes0⟩) _ _ _ rfl) ∧
    MetE (h.2 (.vst ⟨6, 3, some 4, 2, 8, lanes0⟩) _ _ rfl) ∧ MetE (h.2 (.lst ⟨6, 2, some 4, 3, 8, lanes0⟩) _ _ rfl) ∧ MetE (h.2 (.vst ⟨6, 2, none, 2, 8, lanes0⟩) _ _ rfl) :=
  ⟨⟨wl, 1, _, rfl, mayl rfl, _, _, ⟨by decide, _, _, ⟨rfl, rfl⟩, readyl _ _, rfl⟩, rfl, rfl, rfl⟩,
   ⟨wl, 1, _, rfl, mayl rfl, _, _, ⟨by decide, _, _, ⟨_, rfl, rfl⟩, readyl _ _, rfl⟩, rfl, rfl, rfl⟩,
   ⟨wl, 1, _, rfl, mayl rfl, _, _, ⟨by decide, _, _, ⟨_, rfl, rfl⟩, readyl _ _, rfl⟩, rfl, rfl, rfl⟩,
   ⟨wl, 1, _, rfl, mayl rfl, _, _, ⟨by decide, _, _, ⟨rfl, rfl⟩, readyl _ _, rfl⟩, rfl, rfl, rfl⟩,
   ⟨wl, 1, _, rfl, mayl rfl, _, _, ⟨by decide, _, _, ⟨rfl, rfl⟩, readyl _ _, rfl⟩, rfl⟩,
   ⟨wl, 1, _, rfl, mayl rfl, _, _, ⟨by decide, _, _, ⟨_, rfl, rfl⟩, readyl _ _, rfl⟩, rfl⟩,
   ⟨wl, 1, _, rfl, mayl rfl, _, _, ⟨by decide, _, _, ⟨rfl, rfl⟩, readyl _ _, rfl⟩, rfl⟩⟩
theorem lsReady_of {s : State} {c off n : Nat} (h : (wordsOf off n).all (fun w => !s.wordEmpty c w && !s.wordPois c w) = true) : s.LsReady c off n := by
  intro w hw
  have := List.all_eq_true.mp h w hw
  simpa using this
/-- An SC operation whose tick has come, on the local-store word at 8. -/
def xSc : Slot := { xl with sc := some ⟨0, [⟨0, true, 8, 8, false⟩], [5, 0, 7]⟩ }
theorem met_LaneAtomics (h : Obligations.LaneAtomics) (i : Instr) (op : AKind) (h1 : laneAtom i = some (op, ⟨6, 3, some 4, 8, .ar, .cl, .s32, lanes0⟩)) :
    MetE (h.1 i op _ h1) := by
  cases op <;> exact ⟨wl, 1, _, rfl, mayl rfl, rfl, by decide, _, _, ⟨by decide, _, _, ⟨rfl, rfl⟩, readyl _ _, rfl⟩, rfl, rfl, rfl⟩
theorem met_LaneAtomics_sc (h : Obligations.LaneAtomics) (i : Instr) (op : AKind) (h1 : laneAtom i = some (op, ⟨6, 3, some 4, 8, .sc, .cl, .s32, lanes0⟩)) :
    MetE (h.2.1 i op _ h1) ∧ MetE (h.2.2 i op _ h1) := by
  cases op <;> exact ⟨⟨wl, 1, _, rfl, mayl rfl, rfl, rfl, _, _, ⟨by decide, _, _, ⟨rfl, rfl⟩, readyl _ _, rfl⟩, by decide, rfl, rfl⟩,
    ⟨wx xSc, 1, _, rfl, mayl rfl, _, rfl, by decide, by decide, readyl _ _, rfl, rfl, rfl⟩⟩
theorem laneAtoms : laneAtom (.vaadd ⟨6, 3, some 4, 8, .ar, .cl, .s32, lanes0⟩) = some (.add, ⟨6, 3, some 4, 8, .ar, .cl, .s32, lanes0⟩) ∧
    laneAtom (.vacas ⟨6, 3, some 4, 8, .sc, .cl, .s32, lanes0⟩) = some (.cas, ⟨6, 3, some 4, 8, .sc, .cl, .s32, lanes0⟩) := ⟨rfl, rfl⟩
theorem met_NoExecutingLane (h : Obligations.NoExecutingLane) :
    ((∃ f, laneForm (.vadd ⟨4, 5, 6, .s32, false, false, noLane⟩) = some f ∧ w0.Turn 1 ∧ (w0.slot 1).May 0 [] f.vecs ∧ (w0.slot 1).exec f.p = 0)) ∧
    MetE (h.2.1 (.vld ⟨6, 3, none, 2, true, 8, false, noLane⟩) _ (.inl rfl)) ∧ MetE (h.2.1 (.vst ⟨6, 3, none, 2, 8, noLane⟩) _ (.inr (.inl rfl))) ∧
    MetE (h.2.1 (.vaadd ⟨6, 3, none, 8, .ar, .cl, .s32, noLane⟩) _ (.inr (.inr rfl))) ∧ MetE (h.2.2.1 ⟨6, 3, none, 8, noLane⟩) ∧ MetE (h.2.2.2 ⟨6, 2, some 4, 8, lanes0⟩) :=
  ⟨⟨_, rfl, rfl, may0 rfl, rfl⟩, ⟨w0, 1, _, rfl, may0 rfl, rfl, rfl⟩, ⟨w0, 1, _, rfl, may0 rfl, rfl, rfl⟩, ⟨w0, 1, _, rfl, may0 rfl, rfl, rfl⟩,
   ⟨w0, 1, _, rfl, may0 rfl, rfl, rfl⟩, ⟨wl, 1, _, rfl, mayl rfl, by decide, rfl, readyl _ _, _, _, rfl, by decide, rfl⟩⟩
theorem met_ScalarLoadsAndStores (h : Obligations.ScalarLoadsAndStores) :
    MetE (h.1 ⟨3, 3, some 2, 3, false, 8, false⟩) ∧ MetE (h.1 ⟨3, 2, some 2, 3, false, 8, false⟩) ∧ Met (h.2.1 ⟨1, 3, some 2, 3, 8⟩) ∧ Met (h.2.1 ⟨1, 2, some 2, 3, 8⟩) ∧
    MetE (h.2.2.1 ⟨3, 2, none, 3, false, 8, false⟩) ∧ Met (h.2.2.2 ⟨1, 2, none, 3, 8⟩) :=
  ⟨⟨w0, 1, _, rfl, may0 rfl, _, _, _, _, _, _, _, rfl, rfl, rfl, rfl, rfl⟩, ⟨w0, 1, _, rfl, may0 rfl, _, _, _, _, _, _, _, rfl, rfl, rfl, rfl, rfl⟩,
   ⟨w0, 1, _, rfl, may0 rfl, _, _, _, _, _, _, rfl, rfl, rfl, rfl⟩, ⟨w0, 1, _, rfl, may0 rfl, _, _, _, _, _, _, rfl, rfl, rfl, rfl⟩,
   ⟨w0, 1, _, rfl, may0 rfl, _, _, _, rfl, by decide, by decide, by decide, lsReady_of rfl, rfl, rfl⟩,
   ⟨w0, 1, _, rfl, may0 rfl, _, _, _, _, rfl, rfl, by decide, by decide, by decide, rfl⟩⟩
theorem met_StoreFrames : (8 + 8 ≤ 262144) ∧ (24 + 8 ≤ 0x9000000000 ∧ w0.reach 0 24 = true ∧ w0.ckpt = none ∧ w0.notifyOf 24 = none ∧ w0.queuesAt 24 8 = [] ∧ w0.bad = []) ∧
    (let r : Ref := ⟨0, false, 24, 24, false⟩
     r.ls = false ∧ r.direct = false ∧ r.addr + 8 ≤ 0x9000000000 ∧ w0.reach (dieOfCore (coreOf 1)) r.addr = true ∧ w0.cdcOk (coreOf 1) (blkOf r.addr) true = true ∧
     w0.ckpt = none ∧ w0.notifyOf r.addr = none ∧ w0.queuesAt r.addr 8 = [] ∧ w0.bad = []) := by decide
/-- The local-store word at 24 is empty. -/
def wE : State := { w0 with lsEmpty := [3] }
theorem met_FullEmpty (h : Obligations.FullEmpty) :
    Met (h.1 ⟨true, 3, 2, none, 0⟩) ∧ Met (h.1 ⟨false, 3, 3, some 2, 0⟩) ∧ Met (h.2.1 ⟨true, 3, 2, none, 0⟩) ∧ Met (h.2.2.1 ⟨true, 1, 2, none, 8⟩) ∧ Met (h.2.2.2.1 ⟨true, 0, 2, none, 0⟩) ∧
    Met (h.2.2.2.2.1 3) ∧ Met (h.2.2.2.2.2 6) :=
  ⟨⟨w0, 1, _, rfl, may0 rfl, _, _, rfl, lsReady_of rfl, rfl, rfl⟩, ⟨w0, 1, _, rfl, may0 rfl, _, _, rfl, lsReady_of rfl, rfl, rfl⟩, ⟨w0, 1, _, rfl, may0 rfl, _, _, rfl, lsReady_of rfl, rfl⟩,
   ⟨wE, 1, _, rfl, may0 rfl, _, _, _, _, rfl, rfl, rfl, rfl, rfl⟩, ⟨w0, 1, _, rfl, may0 rfl, _, _, rfl, rfl⟩, ⟨w0, 1, _, rfl, may0 rfl, rfl⟩, ⟨wl, 1, _, rfl, mayl rfl, rfl⟩⟩
theorem met_RemoteWrites (h : Obligations.RemoteWrites) :
    (∃ c, coreOfSrc (wf ((wx { x0 with outdst := 0x12 }).slot 1).outdst 0 16) = some c ∧ wf ((wx { x0 with outdst := 0x12 }).slot 1).outdst 16 2 ≠ 3 ∧
      (wx { x0 with outdst := 0x12 }).partOf (clOfCore c) = (wx { x0 with outdst := 0x12 }).partOf (clOfSlot 1) ∧ ((wx { x0 with outdst := 0x12 }).core c).heldq.length < 256 ∧
      (wx { x0 with outdst := 0x12 }).credit c = true) ∧
    MetE (h.2.1 ⟨1, 3, 5⟩) ∧ MetE (h.2.2.1 ⟨1, 3, some 2, 8⟩) ∧ MetE (h.2.2.2 ⟨3, 3, 3⟩) :=
  ⟨⟨_, rfl, by decide, rfl, by decide, rfl⟩,
   ⟨w0, 1, _, rfl, may0 rfl, _, _, _, _, _, rfl, rfl, by decide, by decide, rfl, rfl⟩,
   ⟨w0, 1, _, rfl, may0 rfl, _, _, _, _, _, rfl, rfl, by decide, by decide, by decide, by decide, by decide, rfl⟩,
   ⟨w0, 1, _, rfl, may0 rfl, _, _, _, _, _, rfl, rfl, by decide, by decide, by decide, rfl⟩⟩
theorem met_ScalarAtomics (h : Obligations.ScalarAtomics) (i : Instr) (op : AKind) (h1 : scalarAtom i = some (op, ⟨1, 3, some 2, 3, .ar, .cl, .s64⟩)) : MetE (h i op _ h1).1 := by
  cases op <;> exact ⟨w0, 1, _, rfl, may0 rfl, rfl, by decide, _, _, _, _, rfl, rfl, rfl, rfl, _, rfl, rfl⟩
theorem met_ScalarAtomics_sc (h : Obligations.ScalarAtomics) (i : Instr) (op : AKind) (h1 : scalarAtom i = some (op, ⟨1, 3, some 2, 3, .sc, .cl, .s64⟩)) :
    MetE (h i op _ h1).2.1 ∧ MetE (h i op _ h1).2.2 := by
  cases op <;> exact ⟨⟨w0, 1, _, rfl, may0 rfl, rfl, rfl, _, _, _, _, rfl, rfl, rfl, rfl⟩, ⟨wx xSc, 1, _, rfl, mayl rfl, _, _, rfl, by decide, rfl, rfl, _, rfl, rfl⟩⟩
theorem scalarAtoms : scalarAtom (.aadd ⟨1, 3, some 2, 3, .ar, .cl, .s64⟩) = some (.add, ⟨1, 3, some 2, 3, .ar, .cl, .s64⟩) ∧
    scalarAtom (.acas ⟨1, 3, some 2, 3, .sc, .cl, .s64⟩) = some (.cas, ⟨1, 3, some 2, 3, .sc, .cl, .s64⟩) := ⟨rfl, rfl⟩
theorem met_Fences (h : Obligations.FencesAndCaches) :
    Met (h.1 ⟨.ar, .grp, 0⟩) ∧ MetE (h.2.1 ⟨.sc, .dv, 0⟩) ∧ Met (h.2.2.1 ⟨.sc, .dv, 0⟩) ∧ MetE h.2.2.2.1 ∧ Met h.2.2.2.2.2.1 ∧ Met h.2.2.2.2.2.2.1 ∧ Met h.2.2.2.2.2.2.2.1 ∧ Met h.2.2.2.2.2.2.2.2 :=
  ⟨⟨w0, 1, _, rfl, may0 rfl, by decide, rfl, by decide, rfl⟩, ⟨w0, 1, _, rfl, may0 rfl, by decide, rfl, rfl, rfl⟩,
   ⟨wx xSc, 1, _, rfl, mayl rfl, by decide, _, rfl, by decide, rfl⟩, ⟨w0, 1, _, rfl, may0 rfl, rfl⟩, ⟨w0, 1, _, rfl, may0 rfl, rfl⟩,
   ⟨wx xS, 1, _, rfl, ⟨by decide, by decide, by decide⟩, rfl⟩, ⟨w0, 1, _, rfl, may0 rfl, rfl⟩, ⟨wx xS, 1, _, rfl, ⟨by decide, by decide, by decide⟩, rfl⟩⟩
theorem met_CacheRanges (h : Obligations.FencesAndCaches) :
    Met (h.2.2.2.2.1 (.l1wb ⟨2, 3⟩) _ _ _ _ _ rfl) ∧ Met (h.2.2.2.2.1 (.l1wb ⟨3, 6⟩) _ _ _ _ _ rfl) ∧ Met (h.2.2.2.2.1 (.l1wb ⟨2, 6⟩) _ _ _ _ _ rfl) ∧
    Met (h.2.2.2.2.1 (.l1inv ⟨2, 6⟩) _ _ _ _ _ rfl) ∧ Met (h.2.2.2.2.1 (.l1wbi ⟨2, 6⟩) _ _ _ _ _ rfl) ∧ Met (h.2.2.2.2.1 (.cdcf ⟨2, 6⟩) _ _ _ _ _ rfl) :=
  ⟨⟨w0, 1, _, rfl, may0 rfl, _, _, rfl, .inl ⟨rfl, rfl⟩⟩, ⟨w0, 1, _, rfl, may0 rfl, _, _, rfl, .inr ⟨by decide, _, rfl, by decide, by decide, .inl ⟨rfl, rfl⟩⟩⟩,
   ⟨w0, 1, _, rfl, may0 rfl, _, _, rfl, .inr ⟨by decide, _, rfl, by decide, by decide, .inr ⟨rfl, _, _, rfl, rfl⟩⟩⟩,
   ⟨w0, 1, _, rfl, may0 rfl, _, _, rfl, .inr ⟨by decide, _, rfl, by decide, by decide, .inr ⟨rfl, _, _, rfl, rfl⟩⟩⟩,
   ⟨w0, 1, _, rfl, may0 rfl, _, _, rfl, .inr ⟨by decide, _, rfl, by decide, by decide, .inr ⟨rfl, _, _, rfl, rfl⟩⟩⟩,
   ⟨w0, 1, _, rfl, may0 rfl, _, _, rfl, .inr ⟨by decide, _, rfl, by decide, by decide, .inr ⟨rfl, _, _, rfl, rfl⟩⟩⟩⟩
theorem met_Pointers (h : Obligations.Pointers) :
    Met (h.1.1 4 3 2) ∧ Met (h.1.2.1 ⟨4, 2⟩) ∧ Met (h.1.2.2.1 ⟨4, 2, 1⟩) ∧ Met (h.1.2.2.2.1 ⟨4, 2, 6⟩) ∧ Met (h.1.2.2.2.2 ⟨4, 2, 1⟩) ∧ MetE (h.2.2.1 ⟨4, 2, 4⟩) ∧
    (∃ q, pNarrow pMem 100 = some q) ∧ (31 < 32 ∧ pTag pMem = true ∧ pHas pMem 16 = true) :=
  ⟨⟨w0, 1, _, rfl, may0 rfl, _, _, _, _, rfl, rfl, rfl⟩, ⟨w0, 1, _, rfl, may0 rfl, rfl⟩, ⟨w0, 1, _, rfl, may0 rfl, _, _, rfl, rfl⟩, ⟨w0, 1, _, rfl, may0 rfl, _, _, _, rfl, rfl, rfl⟩,
   ⟨w0, 1, _, rfl, may0 rfl, _, _, rfl, rfl⟩, ⟨w0, 1, _, rfl, may0 rfl, _, _, _, rfl, rfl, rfl, rfl⟩, ⟨_, rfl⟩, by decide⟩

/-! ### Barriers, counters, tasks, launches -/

/-- The strand has arrived at group 0 and at numbered barrier 3 before. -/
def xMark : Slot := { x0 with marks := [⟨false, 0, 0, 16777216⟩, ⟨true, 3, 0, 16777216⟩] }
def xMark2 : Slot := { x0 with marks := [⟨false, 0, 0, 2⟩] }
def wPast (x : Slot) : State := { wx x with gangs := [{ g0 with phases := [(0, 1)] }] }
/-- The gang has one live strand. -/
def wOne : State := { w0 with gangs := [{ g0 with live := [0] }] }
theorem met_Barriers (h : Obligations.Barriers) :
    Met (h.1 ⟨false, 0, 0⟩) ∧ Met (h.1 ⟨true, 3, 1⟩) ∧ Met (h.2.1 ⟨false, 0, 0⟩) ∧ Met (h.2.1 ⟨true, 3, 1⟩) ∧ MetE (h.2.2.1 ⟨false, 0, 0⟩) ∧ MetE (h.2.2.1 ⟨true, 3, 1⟩) ∧
    MetE (h.2.2.2.1 ⟨true, 3, 1⟩).1 ∧ MetE (h.2.2.2.1 ⟨false, 0, 0⟩).1 ∧ Met (h.2.2.2.1 ⟨false, 0, 0⟩).2 ∧ MetE h.2.2.2.2.1 ∧ Met h.2.2.2.2.2 :=
  ⟨⟨w0, 1, _, rfl, may0 rfl, ⟨by decide, rfl, rfl⟩, _, .inl ⟨rfl, _, _, _, rfl, rfl, rfl, rfl, rfl⟩, rfl⟩,
   ⟨w0, 1, _, rfl, may0 rfl, ⟨by decide, rfl, rfl⟩, _, .inr ⟨rfl, _, _, rfl, rfl⟩, rfl⟩,
   ⟨w0, 1, _, rfl, may0 rfl, ⟨by decide, rfl, rfl⟩, .inl ⟨rfl, rfl⟩⟩,
   ⟨{ wx xMark with clusters := [(0, { k0 with nbars := [(3, { NBar.reset with phase := 1 })] })] }, 1, _, rfl, may0 rfl, ⟨by decide, rfl, rfl⟩, .inr ⟨_, rfl, rfl, rfl⟩⟩,
   ⟨wx xMark, 1, _, rfl, may0 rfl, ⟨by decide, rfl, rfl⟩, _, rfl, rfl, rfl⟩,
   ⟨wx xMark, 1, _, rfl, may0 rfl, ⟨by decide, rfl, rfl⟩, _, rfl, rfl, rfl⟩,
   ⟨w0, 1, _, rfl, may0 rfl, ⟨by decide, rfl, rfl⟩, (fun _ e => nomatch e), _, _, .inr ⟨rfl, _, _, rfl, rfl⟩, rfl, .inr ⟨rfl, rfl⟩⟩,
   ⟨wOne, 1, _, rfl, may0 rfl, ⟨by decide, rfl, rfl⟩, (fun _ e => nomatch e), _, _, .inl ⟨rfl, _, _, _, rfl, rfl, rfl, rfl, rfl⟩, rfl, .inl ⟨rfl, rfl⟩⟩,
   ⟨wPast xMark2, 1, _, rfl, may0 rfl, by decide, rfl, _, rfl, rfl, rfl, rfl⟩,
   ⟨w0, 1, _, rfl, may0 rfl, ⟨by decide, rfl, rfl⟩, (fun _ e => nomatch e), _, _, .inl ⟨rfl, _, _, _, rfl, rfl, rfl, rfl, rfl⟩, rfl, .inr ⟨rfl, rfl⟩⟩,
   ⟨wPast xMark2, 1, _, rfl, may0 rfl, by decide, rfl, _, rfl, rfl, rfl, rfl⟩⟩
/-- Numbered barrier 3 in a state. -/
def wBar (b : NBar) : State := world x0 c0 { k0 with nbars := [(3, b)] }
theorem met_BarrierPhases : (∃ g r, (w0.slot 1).job = .gang g r ∧ w0.holdsLease 1 = true) ∧
    (let b := w0.nbar (clOfSlot 1) 3; b.sa = 0 ∧ b.arr.contains 0 = false) ∧
    (let b := (wBar ⟨0, [0], 2, false, [], 0⟩).nbar (clOfSlot 1) 3; b.sa ≠ 0 ∧ b.arr.length < b.sa ∧ b.arr.contains 0 = true) ∧
    (let b := (wBar ⟨0, [1], 2, false, [], 0⟩).nbar (clOfSlot 1) 3; b.sa ≠ 0 ∧ b.arr.length < b.sa ∧ b.arr.contains 0 = false ∧ (240 : W64).toNat ≠ b.sa ∧ (2 : W64).toNat = b.sa) ∧
    (let b := (wBar ⟨0, [0], 1, false, [], 0⟩).nbar (clOfSlot 1) 3; b.sa ≠ 0 ∧ b.sa ≤ b.arr.length ∧ b.arr2 = []) ∧
    ({ g0 with live := [0] } : Gang).liveOf 0 ≠ [] ∧ (∀ q ∈ ({ g0 with live := [0] } : Gang).liveOf 0, q = 0 ∨ (g0.arrived 0).contains q = true) ∧
    (1 ∈ g0.liveOf 0 ∧ 1 ≠ 0 ∧ (g0.arrived 0).contains 1 = false) :=
  ⟨⟨_, _, rfl, rfl⟩, by decide⟩
/-- A counter of 3 at 64; a new task's record with budget 8 at 4,096, and its code pointer in the table; a launch record at 64. -/
def wCnt : State := { w0 with ls := [(lsKey 0 64, 3)] }
def wTask : State := { w0 with ls := [(lsKey 0 4100, 1)], mem := [(0x10007, 0x9F), (0x1000F, 0x14)] }
def wLaunch : State := { w0 with ls := [(lsKey 0 64, 1), (lsKey 0 65, 1), (lsKey 0 66, 0x11), (lsKey 0 120, 1)] ++ (List.range 8).map (fun i => (lsKey 0 (128 + 8 * i), 2)) }
theorem met_CountersTasksLaunch (h : Obligations.CountersTasksLaunch) :
    Met (h.1.1 ⟨.reg 4, 3⟩) ∧ Met (h.1.1 ⟨.inbox, 3⟩) ∧ Met (h.1.1 ⟨.ls 6, 3⟩) ∧ Met (h.1.2.1 2 1) ∧ Met (h.1.2.2.1 ⟨3, 6⟩) ∧ Met (h.1.2.2.1 ⟨4, 6⟩) ∧ Met (h.1.2.2.2.1 ⟨3, 6⟩) ∧
    Met (h.1.2.2.2.2.1 2 1) ∧ Met (h.1.2.2.2.2.2 6) :=
  ⟨⟨w0, 1, _, rfl, may0 rfl, _, _, _, _, _, rfl, rfl, by decide, by decide, rfl, rfl⟩,
   ⟨w0, 1, _, rfl, may0 rfl, _, _, _, _, _, rfl, rfl, by decide, by decide, rfl, rfl⟩,
   ⟨w0, 1, _, rfl, may0 rfl, _, _, _, _, _, rfl, rfl, by decide, by decide, ⟨by decide, by decide, rfl⟩, rfl⟩,
   ⟨w0, 1, _, rfl, may0 rfl, _, _, _, _, rfl, by decide, rfl, by decide, rfl, rfl⟩,
   ⟨w0, 1, _, rfl, may0 rfl, _, _, rfl, by decide, by decide, rfl, by decide, .inl ⟨by decide, rfl⟩⟩,
   ⟨wCnt, 1, _, rfl, may0 rfl, _, _, rfl, by decide, by decide, rfl, by decide, .inr ⟨by decide, rfl⟩⟩,
   ⟨wTask, 1, _, rfl, may0 rfl, _, _, _, _, _, rfl, by decide, by decide, lsReady_of rfl, ⟨by decide, by decide, by decide, by decide, by decide⟩, rfl, rfl, rfl, rfl, rfl, rfl⟩,
   ⟨w0, 1, _, rfl, may0 rfl, _, _, _, _, rfl, by decide, rfl, rfl, rfl⟩,
   ⟨wLaunch, 1, _, rfl, may0 rfl, _, _, rfl, by decide, by decide, lsReady_of rfl, by decide, .inl (by decide), by decide, by decide, rfl⟩⟩
/-- A counter at 64 of 2 whose waiter is register s5 of slot 1 (generation 1). -/
def wWait : State := { world { x0 with s := [(5, ⟨0, false, false⟩)] } c0 k0 with ls := [(lsKey 0 64, 2), (lsKey 0 68, 0x45), (lsKey 0 69, 0x0C)] }
theorem met_countDec : (wf (w0.lsWord 0 8) 0 32 = 0) ∧ (1 < wf (wCnt.lsWord 0 8) 0 32) ∧
    (let v := wWait.lsWord 0 8; 0 < wf v 0 32 ∧ wf v 0 32 ≤ 2 ∧ bitAt v 42 = true ∧ 0 < wf v 32 6 ∧ wf v 32 6 < 60 ∧ wWait.regFree (16 * 0 + wf v 38 4) (wf v 43 16) (wf v 32 6) true = true) := by
  decide

/-! ### Slot control, queues, waits -/

/-- Slot 0 at S controls its core; slot 5 stands as given. -/
def wS (x5 : Slot) : State := { wx xS with cur := .slot 0, slots := [(0, { xS with savea := 0x10000 }), (5, x5)] }
theorem mayS {s : State} {d v : List Nat} (h1 : (s.slot 1) = xS) (h2 : v = []) : (s.slot 1).May 1 d v := by
  subst h2; rw [h1]; exact ⟨by decide, fun e => absurd e (by decide), by simp⟩
theorem mayC (x : Slot) {d : List Nat} : ((wS x).slot 0).May 1 d [] :=
  ⟨(by decide : 1 ≤ xS.priv), fun e => absurd e (by decide : ¬ xS.priv = 0), fun _ h => (List.not_mem_nil h).elim⟩
/-- A spilled strand whose save area lies outside every page, and one that waits for its reply. -/
def xLost : Slot := { Slot.reset with phase := .spilled, savea := 0x80000000 }
theorem met_SlotControl (h : Obligations.SlotControl) :
    (Met (h.1.1 ⟨3, 1, 3⟩) ∧ Met (h.1.1 ⟨3, 6, 3⟩) ∧ MetC (h.1.1 ⟨3, 1, 3⟩)) ∧ (Met (h.1.2.1 ⟨3, 1, 10⟩) ∧ Met (h.1.2.1 ⟨3, 6, 10⟩)) ∧ (Met (h.1.2.2.1 ⟨3, 1⟩) ∧ Met (h.1.2.2.1 ⟨3, 6⟩)) ∧
    (Met (h.1.2.2.2.1 ⟨3, 1, 11⟩) ∧ Met (h.1.2.2.2.1 ⟨3, 1, 1⟩) ∧ Met (h.1.2.2.2.1 ⟨3, 6, 11⟩) ∧ Met (h.1.2.2.2.1 ⟨4, 1, 11⟩)) ∧
    (Met (h.1.2.2.2.2 ⟨3, 1⟩) ∧ Met (h.1.2.2.2.2 ⟨3, 6⟩) ∧ Met (h.1.2.2.2.2 ⟨4, 1⟩)) :=
  ⟨⟨⟨wS Slot.reset, 0, _, rfl, mayC _, _, _, _, rfl, .inr ⟨_, rfl, rfl⟩⟩, ⟨wS Slot.reset, 0, _, rfl, mayC _, _, _, _, rfl, .inl ⟨rfl, rfl⟩⟩,
     ⟨wx xS, 1, _, by decide, rfl, mayS rfl rfl, _, _, _, rfl, .inl ⟨rfl, rfl⟩⟩⟩,
   ⟨⟨wS Slot.reset, 0, _, rfl, mayC _, _, _, _, rfl, .inr ⟨_, rfl, rfl⟩⟩, ⟨wS Slot.reset, 0, _, rfl, mayC _, _, _, _, rfl, .inl ⟨rfl, rfl⟩⟩⟩,
   ⟨⟨wS x0, 0, _, rfl, mayC _, _, _, rfl, .inr ⟨_, rfl, rfl⟩⟩, ⟨wS x0, 0, _, rfl, mayC _, _, _, rfl, .inl ⟨rfl, rfl⟩⟩⟩,
   ⟨⟨wS x0, 0, _, rfl, mayC _, _, _, _, rfl, .inr ⟨_, rfl, .inr ⟨.inl rfl, .inr ⟨rfl, rfl, rfl⟩⟩⟩⟩,
    ⟨wS x0, 0, _, rfl, mayC _, _, _, _, rfl, .inr ⟨_, rfl, .inr ⟨.inl rfl, .inl ⟨rfl, rfl⟩⟩⟩⟩,
    ⟨wS x0, 0, _, rfl, mayC _, _, _, _, rfl, .inl ⟨rfl, rfl⟩⟩, ⟨wS Slot.reset, 0, _, rfl, mayC _, _, _, _, rfl, .inr ⟨_, rfl, .inl ⟨by decide, by decide, rfl⟩⟩⟩⟩,
   ⟨⟨wS Slot.reset, 0, _, rfl, mayC _, _, _, rfl, .inr ⟨_, rfl, .inr ⟨(fun e => absurd e.1 (by decide)), rfl⟩⟩⟩, ⟨wS x0, 0, _, rfl, mayC _, _, _, rfl, .inl ⟨rfl, rfl⟩⟩,
    ⟨wS xLost, 0, _, rfl, mayC _, _, _, rfl, .inr ⟨_, rfl, .inl ⟨⟨rfl, rfl⟩, rfl⟩⟩⟩⟩⟩
theorem met_startStrand : ((State.reset.slot 5).held = none) ∧ ([1, 2] : List W64).length ≤ 59 := by decide
/-- Task 64 of the core is registered and taken out; its handle may stand in the queue of priority 0. -/
def wQ (rq : List W64) : State := { world xS { c0 with tctx := [(64, { noTask with live := true })], rq := [rq, [], [], []] } k0 with ls := [(lsKey 0 4102, 0x30)] }
theorem met_QueuesAndWaits (h : Obligations.QueuesAndWaits) :
    Met (h.1 10) ∧ Met (h.2.1 ⟨3, 1⟩) ∧ Met (h.2.1 ⟨4, 1⟩) ∧ MetE h.2.2.1 ∧ MetE h.2.2.2.1 ∧ Met h.2.2.2.2.1 ∧ MetE h.2.2.2.2.2.1 ∧ Met h.2.2.2.2.2.2 :=
  ⟨⟨wQ [], 1, _, rfl, mayS rfl rfl, _, _, rfl, rfl, by decide, rfl, by decide, .inl (by decide), rfl⟩,
   ⟨wQ [], 1, _, rfl, mayS rfl rfl, _, _, rfl, by decide, .inr ⟨rfl, rfl⟩⟩,
   ⟨wQ [0x400000], 1, _, rfl, mayS rfl rfl, _, _, rfl, by decide, .inl ⟨_, _, rfl, rfl⟩⟩,
   ⟨w0, 1, _, rfl, may0 rfl, .inr rfl, rfl⟩,
   ⟨wx { x0 with ip := 0x10 }, 1, _, rfl, may0 rfl, rfl, rfl, rfl⟩,
   ⟨wx { xS with ip := 0x10 }, 1, _, rfl, ⟨by decide, by decide, by decide⟩, rfl, rfl, rfl⟩,
   ⟨wx xS, 1, _, rfl, mayS rfl rfl, rfl, rfl, rfl⟩,
   ⟨wx { xS with ip := 0x10, park := some ⟨.irq, 0, 0, false, 0⟩ }, 1, _, rfl, ⟨by decide, by decide, by decide⟩, by decide, rfl, rfl⟩⟩

/-! ### Traps, control registers, invalidation -/

theorem met_TrapEntry (h : Obligations.TrapEntry) :
    (((w0.slot 1).delegates 4 = false) ∧ (w0.slot 1).th = false) ∧ ({ x0 with udeleg := 8 } : Slot).delegates 0x11 = true ∧
    MetE (h.2.1 7) ∧ MetE (h.2.2.1 7) ∧ MetE (h.2.2.2.1 1 7) ∧ Met (h.2.2.2.2 3 7) :=
  ⟨⟨rfl, rfl⟩, by decide, ⟨w0, 1, _, rfl, may0 rfl, rfl⟩, ⟨w0, 1, _, rfl, may0 rfl, rfl⟩, ⟨w0, 1, _, rfl, may0 rfl, _, _, rfl, by decide, rfl⟩, ⟨w0, 1, _, rfl, may0 rfl, _, rfl, rfl⟩⟩
/-- In a handler entered with a cause from offset 2. -/
def xT (cause : W64) : Slot := { x0 with status := 0x51, cause := cause, epc := 2, shadow0 := pMem, shadow1 := pTab }
theorem met_TrapReturn (h : Obligations.TrapReturn) : MetAt h.1 (wx (xT 0x18)) 1 ∧ MetAt h.1 (wx (xT 0x04)) 1 ∧ MetAt h.1 (wx (xT 0x17)) 1 :=
  ⟨⟨_, rfl, ⟨by decide, by decide, by decide⟩, rfl, rfl, rfl, by decide, .inl ⟨.inl (by decide), _, rfl, rfl⟩⟩,
   ⟨_, rfl, ⟨by decide, by decide, by decide⟩, rfl, rfl, rfl, by decide, .inr (.inl ⟨by decide, by decide, by decide, rfl, _, rfl, rfl⟩)⟩,
   ⟨_, rfl, ⟨by decide, by decide, by decide⟩, rfl, rfl, rfl, by decide, .inr (.inr ⟨by decide, by decide, .inl ⟨by decide, by decide⟩, rfl, _, rfl, rfl⟩)⟩⟩
theorem met_ControlRegisters (h : Obligations.ControlRegisters) :
    Met (h.1 3 0x00D) ∧ Met (h.2.1 0x00D 1) ∧ Met (h.2.2.1 3 0x00D 1) ∧ (∃ lvl y, xS.crWrite 0x000 0x15 = some (lvl, y)) ∧ (∃ lvl y, (w0.slot 1).crWrite 0x010 5 = some (lvl, y)) :=
  ⟨⟨w0, 1, _, rfl, may0 rfl, _, _, rfl, by decide, rfl⟩, ⟨w0, 1, _, rfl, may0 rfl, _, _, _, _, rfl, rfl, by decide, by decide, rfl⟩,
   ⟨w0, 1, _, rfl, may0 rfl, _, _, _, _, _, _, rfl, rfl, by decide, rfl, by decide, by decide, rfl⟩, ⟨_, _, rfl⟩, ⟨_, _, rfl⟩⟩
theorem met_TlbAndHothouse (h : Obligations.TlbAndHothouse) :
    Met (h.1 1 3) ∧ Met (h.2.1 3 1) ∧ Met (h.2.2.1 3 3) ∧ (∃ e, e ∈ ((w0.tlbDrop 1 (fun _ => true)).core 0).itlb) ∧
    Met (h.2.2.2.2 (.hhDsc 4 9) 4 9 false (.inl ⟨rfl, rfl⟩)) ∧ Met (h.2.2.2.2 (.hhZero 4 9) 4 9 true (.inr ⟨rfl, rfl⟩)) :=
  ⟨⟨wx xS, 1, _, rfl, mayS rfl rfl, _, _, _, rfl, by decide, by decide, rfl⟩, ⟨wx xS, 1, _, rfl, mayS rfl rfl, _, _, _, rfl, rfl, by decide, rfl⟩,
   ⟨wx xS, 1, _, rfl, mayS rfl rfl, _, _, _, rfl, rfl, rfl, rfl⟩, ⟨⟨0, 0, 0, 0, 0x3FB⟩, by decide⟩,
   ⟨w0, 1, _, rfl, may0 rfl, _, _, _, _, _, rfl, rfl, rfl, by decide, by decide, rfl, rfl⟩, ⟨w0, 1, _, rfl, may0 rfl, _, _, _, _, _, rfl, rfl, rfl, by decide, by decide, rfl, rfl⟩⟩

/-! ### Engines, furrows, the trellis -/

def cmd0 : Cmd := ⟨0, 1, 3, .ml, 1, 1, .gang 1, 0, 0, true, 0, 0, 1, 8, 0, none, some (.ls 0 64), none, false, 0, 0, 0, none, false, false, none, false, [], none⟩
/-- The engine's command table is full. -/
def wFull : State := world x0 c0 { k0 with cmds := List.replicate 64 cmd0 }
theorem met_Copies (h : Obligations.Copies) :
    Met (h.1.1 (.cpyMl ⟨3, 2, 6, 8, false, none, none⟩) _ _ rfl) ∧ Met (h.1.1 (.cpyLm ⟨3, 2, 6, 8, false, none, none⟩) _ _ rfl) ∧
    Met (h.1.1 (.cpyLl ⟨3, 6, 9, 8, false, none, none⟩) _ _ rfl) ∧ Met (h.1.1 (.cpyMr ⟨3, 2, 1, 8, false, none, none⟩) _ _ rfl) ∧
    MetE (h.1.2.1 (.cpyMl ⟨3, 2, 6, 8, false, none, none⟩) _ _ rfl) ∧ Met (h.1.2.2.2.1 3) ∧ MetE (h.1.2.2.2.2 1) :=
  ⟨⟨w0, 1, _, rfl, may0 rfl, _, _, _, _, _, _, _, _, .inr ⟨by decide, rfl, rfl⟩, rfl, rfl, rfl, rfl, rfl, rfl⟩,
   ⟨w0, 1, _, rfl, may0 rfl, _, _, _, _, _, _, _, _, .inr ⟨by decide, rfl, rfl⟩, rfl, rfl, rfl, rfl, rfl, rfl⟩,
   ⟨w0, 1, _, rfl, may0 rfl, _, _, _, _, _, _, _, _, .inl ⟨rfl, rfl⟩, rfl, rfl, rfl, rfl, rfl, rfl⟩,
   ⟨w0, 1, _, rfl, may0 rfl, _, _, _, _, _, _, _, _, .inr ⟨by decide, rfl, rfl⟩, rfl, rfl, rfl, rfl, rfl, rfl⟩,
   ⟨wFull, 1, _, rfl, may0 rfl, _, _, _, _, _, _, _, _, .inr ⟨by decide, rfl, rfl⟩, rfl, rfl, rfl, .inl rfl, rfl⟩,
   ⟨w0, 1, _, rfl, may0 rfl, _, _, rfl, by decide, rfl⟩, ⟨w0, 1, _, rfl, may0 rfl, _, _, rfl, by decide, rfl⟩⟩
/-- Every condition of the completion of a copy in one state: the registers are ready, the descriptors sound, the pages translated, and the engine has room. -/
def CopyMet (i : Instr) (o : Cpy) (dir : Dir) : Prop :=
  (i = .cpyMl o ∧ dir = .ml ∨ i = .cpyLm o ∧ dir = .lm ∨ i = .cpyLl o ∧ dir = .ll ∨ i = .cpyMr o ∧ dir = .mr) ∧ w0.Turn 1 ∧ (w0.slot 1).May 0 [o.d] [] ∧ o.d ≠ 61 ∧
  (dir = .ll → (w0.slot 1).Ready o.a) ∧ (w0.slot 1).Ready o.b ∧ (w0.slot 1).Ready o.c ∧
  w0.CopyOk 1 o dir (if dir = .ll then (w0.slot 1).val o.a else 0) ((w0.slot 1).val o.b) ((w0.slot 1).val o.c) ∧
  ∃ pages s1, w0.xlatePages 1 (if dir = .lm then accW (w0.slot 1).priv else accR (w0.slot 1).priv) (if dir = .lm then 1 else 0)
      (copyPages ((w0.slot 1).preg o.a) dir ((w0.slot 1).val o.c)) [] = .ok (pages, s1) ∧
    ((s1.wbAllL1 (coreOf 1)).cluster (clOfSlot 1)).room = true ∧ ((s1.wbAllL1 (coreOf 1)).cluster (clOfSlot 1)).pend = []
theorem readyN (n : Nat) (h : n < 60) : (w0.slot 1).Ready n := .inr ⟨h, sreg0 n⟩
theorem met_Copies_complete : CopyMet (.cpyMl ⟨3, 2, 6, 8, false, none, none⟩) ⟨3, 2, 6, 8, false, none, none⟩ .ml ∧
    CopyMet (.cpyLm ⟨3, 2, 6, 8, false, none, none⟩) ⟨3, 2, 6, 8, false, none, none⟩ .lm ∧ CopyMet (.cpyLl ⟨3, 6, 9, 8, false, none, none⟩) ⟨3, 6, 9, 8, false, none, none⟩ .ll ∧
    CopyMet (.cpyMr ⟨3, 2, 1, 8, false, none, none⟩) ⟨3, 2, 1, 8, false, none, none⟩ .mr :=
  ⟨⟨.inl ⟨rfl, rfl⟩, rfl, may0 rfl, by decide, (fun e => nomatch e), readyN _ (by decide), readyN _ (by decide), (by simp only [State.CopyOk, State.SideOk, RowsOk]; decide), _, _, rfl, rfl, rfl⟩,
   ⟨.inr (.inl ⟨rfl, rfl⟩), rfl, may0 rfl, by decide, (fun e => nomatch e), readyN _ (by decide), readyN _ (by decide), (by simp only [State.CopyOk, State.SideOk, RowsOk]; decide), _, _, rfl, rfl, rfl⟩,
   ⟨.inr (.inr (.inl ⟨rfl, rfl⟩)), rfl, may0 rfl, by decide, (fun _ => readyN _ (by decide)), readyN _ (by decide), readyN _ (by decide), (by simp only [State.CopyOk, State.SideOk]; decide), _, _, rfl, rfl, rfl⟩,
   ⟨.inr (.inr (.inr ⟨rfl, rfl⟩)), rfl, may0 rfl, by decide, (fun e => nomatch e), readyN _ (by decide), readyN _ (by decide), (by simp only [State.CopyOk, RowsOk]; decide), _, _, rfl, rfl, rfl⟩⟩
theorem met_cpyWait : w0.Turn 1 ∧ (w0.slot 1).Ready 3 ∧ covers (w0.cluster (clOfSlot 1)).seq0 (BitVec.ofNat 32 ((w0.slot 1).val 3).toNat) = true :=
  ⟨rfl, readyN _ (by decide), by decide⟩
theorem met_seqNumbers : (0 < k0.nextSeq ∧ ∀ d ∈ k0.cmds, 0 < d.seq) ∧ ∃ d ∈ ({ k0 with cmds := [cmd0] } : Cluster).cmds, 0 < d.seq := ⟨by decide, cmd0, by decide⟩

/-- Furrow 2 of the block with two slots of 64 bytes at 64, and indices as given; counter 5 and term 1 of the block. -/
def wF (res pub tak giv : Nat) : State := world x0 c0 { k0 with furrows := [(2, ⟨.gang 1, 0, 64, 1, 1, res, pub, tak, giv, [], [], [], []⟩)] }
def wTrl : State := world x0 c0 { k0 with counters := [(5, ⟨.gang 1, 1, 8, 0⟩)], terms := [(1, ⟨.gang 1, none, none, none, none⟩)] }
theorem met_Furrows (h : Obligations.FurrowsAndTrellis) :
    Met (h.1.1 3 2 true (.fwTake 3 2) (.inl ⟨rfl, rfl⟩)) ∧ Met (h.1.1 3 2 false (.fwRes 3 2) (.inr ⟨rfl, rfl⟩)) ∧ MetE (h.1.2.1 3 2 true (.fwTake 3 2) (.inl ⟨rfl, rfl⟩)) ∧
    MetE (h.1.2.1 3 2 false (.fwRes 3 2) (.inr ⟨rfl, rfl⟩)) ∧ Met (h.1.2.2.1 2 6) ∧ Met (h.1.2.2.2.1 2 6) ∧ Met (h.1.2.2.2.2 2 3) ∧ Met (h.1.2.2.2.2 2 12) :=
  ⟨⟨wF 1 1 0 0, 1, _, rfl, may0 rfl, _, rfl, rfl, rfl, by decide, rfl⟩, ⟨wF 1 1 0 0, 1, _, rfl, may0 rfl, _, rfl, rfl, rfl, by decide, rfl⟩,
   ⟨wF 1 1 1 0, 1, _, rfl, may0 rfl, _, rfl, rfl, rfl, rfl⟩, ⟨wF 2 1 0 0, 1, _, rfl, may0 rfl, _, rfl, rfl, rfl, rfl⟩,
   ⟨wF 1 1 1 0, 1, _, rfl, may0 rfl, _, _, _, _, rfl, rfl, rfl, rfl, rfl, rfl⟩, ⟨wF 1 0 0 0, 1, _, rfl, may0 rfl, _, _, _, _, rfl, rfl, rfl, rfl, rfl, rfl⟩,
   ⟨wF 1 1 1 1, 1, _, rfl, may0 rfl, _, _, rfl, .inl ⟨rfl, ⟨_, rfl, rfl, rfl⟩, rfl⟩⟩,
   ⟨w0, 1, _, rfl, may0 rfl, _, _, rfl, .inr ⟨by decide, by decide, by decide, by decide, by decide, by decide, .inr rfl, rfl, by decide, rfl⟩⟩⟩
theorem met_Trellis (h : Obligations.FurrowsAndTrellis) :
    Met (h.2.1 5 8) ∧ Met (h.2.2.1 1 13 3) ∧ Met (h.2.2.2.1 5) ∧ Met (h.2.2.2.2 1) :=
  ⟨⟨w0, 1, _, rfl, may0 rfl, _, _, rfl, by decide, by decide, by decide, by decide, (fun _ e => nomatch e), rfl⟩,
   ⟨{ wTrl with gtc := 1 }, 1, _, rfl, may0 rfl, _, _, _, _, rfl, rfl, by decide, by decide, by decide, by decide, (fun _ e => by cases e; rfl), by decide, rfl⟩,
   ⟨wTrl, 1, _, rfl, may0 rfl, rfl, by decide, rfl⟩, ⟨wTrl, 1, _, rfl, may0 rfl, rfl, by decide, rfl⟩⟩

/-! ### The matrix stream -/

/-- The hypotheses of clauses about the matrix stream. -/
def MetS {i : Instr} {eff : Nat → Gang → State → State → Prop} (_ : Streams i eff) : Prop := ∃ s cl t, s.cur = .seq cl ∧ eff cl (s.streamGang cl) s t
def MetT {i : Instr} {eff : Nat → Gang → State → State → Prop} (_ : StreamsTo i eff) : Prop := ∃ s cl t, s.cur = .seq cl ∧ eff cl (s.streamGang cl) s t
/-- The sequencer of cluster 0 runs the stream of gang 1; the page tables of address space 0 map page 0, where a matrix clause stands at word 10. -/
def kM : Cluster := { k0 with seqPhase := .running, seqPc := 2 }
def wM (y : Cluster) : State := { world x0 c0 y with
  cur := .seq 0, dies := [(0, { d0 with cfg := [(0, 1), (8, 0xFFFFFF), (0x10, 0x1000000), (0x18, 0x100000), (0x20, 0x2000001), (0x50, 0x10000)] })],
  mem := [(46, 0x38), (47, 0xFF), (0x100000, 1), (0x100002, 0x20), (0x200000, 1), (0x200002, 0x30), (0x300000, 1), (0x300002, 0x40), (0x400000, 1), (0x400002, 0x50),
    (0x500000, 0xFB), (0x500001, 3)] }
def hA : Half := ⟨0, List.replicate 4 [5], [], false⟩
def kH : Cluster := { kM with halves := [(0, hA), (2, { hA with slot := 1 })] }
theorem met_OperandLoads (h : Obligations.OperandLoads) :
    MetS (h false ⟨0, false, 0, 4, 0, 0, 0⟩ (.xlda ⟨0, false, 0, 4, 0, 0, 0⟩) (.inl ⟨rfl, rfl⟩)) ∧ MetS (h true ⟨1, true, 0, 4, 0, 0, 0⟩ (.xldb ⟨1, true, 0, 4, 0, 0, 0⟩) (.inr ⟨rfl, rfl⟩)) :=
  ⟨⟨wM kM, 0, _, rfl, by decide, by decide, (fun e => absurd e (by decide)), by decide, by decide, by decide, (fun e => absurd e (by decide)), _,
      .inl ⟨rfl, rfl, rfl, rfl⟩, .inr (.inl ⟨by decide, rfl, rfl⟩)⟩,
   ⟨wM kM, 0, _, rfl, by decide, by decide, (fun e => absurd e (by decide)), by decide, by decide, by decide, (fun e => absurd e (by decide)), _,
      .inl ⟨rfl, rfl, rfl, rfl⟩, .inr (.inr (.inl ⟨by decide, rfl, rfl, rfl⟩))⟩⟩
theorem met_ProductsAndFolds (h : Obligations.ProductsAndFolds) :
    MetS (h.1.1 ⟨0, 0, false, 1, false⟩) ∧ MetS (h.1.2 ⟨0, 2, false, false⟩) ∧ (-4294966272 ≤ (-1 : Int) ∧ (-1 : Int) ≤ 4294966271) :=
  ⟨⟨wM kH, 0, _, rfl, _, _, rfl, rfl, rfl, rfl, by decide, by decide, by decide, by decide, rfl⟩, ⟨wM kH, 0, _, rfl, _, _, rfl, rfl, by decide, rfl⟩, by decide⟩
theorem met_OutputConversion : (wM kM).cur = .seq 0 ∧ (let o : XCvt := ⟨0, 2, 0, 4, 0, 0⟩
    let f := ((wM kM).streamGang 0).fmtAt o.slot
    wf f 0 4 = 2 ∧ blockCore ((wM kM).streamGang 0) 0 o.core = true ∧ 16 * o.off16 + 16384 * 4 ≤ 262144 ∧ ((wM kM).cluster 0).matHaz = none ∧ ((wM kM).cluster 0).room = true ∧
    ((wM kM).cluster 0).cmds.any (conflict [] [(16 * 0 + o.core + 1, 16 * o.off16, 16384 * 4)]) = false) ∧
    (∀ i, i < 16384 → (mget Cell.reset ((wM kM).cluster 0).acc (0 * 16384 + i)).pois = false) ∧
    (bitAt (0x801 : W64) 11 = true ∧ blockCore ((wM kM).streamGang 0) 0 0 = true ∧ 1024 * 0 + 512 ≤ 262144) :=
  ⟨rfl, by decide, fun _ _ => rfl, by decide⟩
/-- The word read back by the sequencer through the page tables is a matrix header. -/
theorem headerRead {r : SRes (W64 × State)} (h : (match r with
    | .ok (w, _) => isHdr w && bitAt w 51
    | .error _ => false) = true) : ∃ w s1, r = .ok (w, s1) ∧ isHdr w = true ∧ bitAt w 51 = true := by
  match r, h with
  | .ok (w, s1), h => exact ⟨w, s1, rfl, by simpa using h⟩
theorem header10 : ∃ w s1, (wM { kM with loops := [(2, 0)] }).seqWord 0 ((wM { kM with loops := [(2, 0)] }).streamGang 0) 10 = .ok (w, s1) ∧ isHdr w = true ∧ bitAt w 51 = true :=
  headerRead (by decide +kernel)
theorem met_StreamControl (h : Obligations.StreamControl) :
    MetS (h.1 1) ∧ MetS (h.2.1 0 3) ∧ MetS (h.2.2.1 0 3) ∧ MetS (h.2.2.2.1 1 1) ∧ MetS (h.2.2.2.2.1 3) ∧ MetS (h.2.2.2.2.2.1 3) ∧ MetT (h.2.2.2.2.2.2.1 3) ∧ MetS (h.2.2.2.2.2.2.2.1 3) ∧
    MetS (h.2.2.2.2.2.2.2.2.1 4) ∧ MetT (h.2.2.2.2.2.2.2.2.2.1 8) ∧ MetT (h.2.2.2.2.2.2.2.2.2.2.1 8) ∧ MetS h.2.2.2.2.2.2.2.2.2.2.2.1 ∧ MetT (h.2.2.2.2.2.2.2.2.2.2.2.2.1 4) ∧
    MetT (h.2.2.2.2.2.2.2.2.2.2.2.2.2.1 8) :=
  ⟨⟨wM kM, 0, _, rfl, rfl⟩, ⟨wM kM, 0, _, rfl, rfl⟩, ⟨wM kM, 0, _, rfl, rfl⟩, ⟨wM kM, 0, _, rfl, rfl⟩,
   ⟨wM { kM with nbars := [(3, ⟨0, [0], 1, false, [], 0⟩)] }, 0, _, rfl, (fun _ _ e => nomatch e), rfl, by decide, rfl⟩,
   ⟨wM { kM with seqPhase := .waiting 3 0, nbars := [(3, ⟨1, [], 0, false, [], 0⟩)] }, 0, _, rfl, _, _, rfl, by decide, rfl⟩,
   ⟨wM kM, 0, _, rfl, (fun _ _ e => nomatch e), rfl, by decide, rfl⟩, ⟨wM kM, 0, _, rfl, rfl, rfl⟩,
   ⟨wM kM, 0, _, rfl, by decide, rfl⟩, ⟨wM { kM with loops := [(2, 1)] }, 0, _, rfl, _, _, _, rfl, by decide, rfl⟩,
   (let ⟨w, s1, h1, h2, h3⟩ := header10
    ⟨wM { kM with loops := [(2, 0)] }, 0, _, rfl, _, _, _, w, s1, rfl, by decide, by decide, h1, h2, h3, rfl⟩),
   ⟨wM kM, 0, _, rfl, rfl⟩, ⟨wM { kM with loops := [(2, 0), (2, 0), (2, 0), (2, 0)] }, 0, _, rfl, by decide, rfl⟩, ⟨wM kM, 0, _, rfl, rfl, rfl⟩⟩
theorem met_InstructionChecks : (w0.Turn 1 ∧ (w0.slot 1).priv = 0) ∧
    (∃ f, laneForm (.vadd ⟨4, 5, 6, .s32, false, false, lanes0⟩) = some f ∧ ∃ r ∈ f.vecs, ((wx { x0 with budget := 6 }).slot 1).budget ≤ r) ∧ (wM kM).cur = .seq 0 ∧
    (scalarForm (.nop)).isSome = false ∧ (scalarForm (.mov ⟨1, 2⟩)).isSome = true :=
  ⟨⟨rfl, rfl⟩, ⟨_, rfl, 6, by decide, by decide⟩, rfl, rfl, rfl⟩

end Sys2Proof.Tests
end

