-- ==== Sys2Proof/Tests/WitnessEvents.lean ====
section
/-! SUPPORT. States that meet the hypotheses of the statements about events, steps, encodings and invariants. -/

namespace Sys2Proof.Tests
open Sys2Proof.Machine
set_option maxRecDepth 60000

/-- The hypotheses of an event's clause are met. -/
def MetH {i : Instr} {eff : State → State → Prop} (_ : Happens i eff) : Prop := ∃ s t, eff s t
/-- What a computation of the sequencer gives. -/
def gotS {α : Type} (r : SRes (α × State)) (d : α × State) : α × State := match r with
  | .ok a => a
  | .error _ => d
theorem gotS_eq {α : Type} {r : SRes (α × State)} {d : α × State} (h : (match r with
    | .ok _ => true
    | .error _ => false) = true) : r = .ok ((gotS r d).1, (gotS r d).2) := by
  match r, h with
  | .ok a, _ => rfl

/-! ### Events of strands, messages and the kernel -/

/-- A strand that is about to fetch the clause at 0; one whose fetched clause waits for counter 5; one parked. -/
def xF : Slot := { x0 with pc := 0 }
def xHW (hdr : W64) : Slot := { x0 with hdrWait := true, clause := some ⟨0, hdr, [0]⟩ }
def xP (p : Park) : Slot := { x0 with phase := .parked, park := some p }
def wC (x : Slot) (v : BitVec 16) : State := world x c0 { k0 with counters := [(5, ⟨.gang 1, 1, 8, v⟩)] }
def wSeq : State := wM { kM with seqPc := 10 }
def seqW : W64 × State := gotS (wSeq.seqWord 0 g0 10) (0, wSeq)
def seqWs : List W64 × State := gotS (seqW.2.seqWords 0 g0 10 (hdrCount seqW.1)) ([], wSeq)
theorem met_StrandEvents_fetch (h : Obligations.StrandEvents) :
    MetH (h.1 1) ∧ MetH (h.2.1 1) ∧ MetH (h.2.2.1 1) ∧ MetH (h.2.2.2.1 0) :=
  ⟨⟨wx xF, _, _, _, _, _, rfl, rfl, .inl rfl, rfl, by decide, by decide, by decide, rfl, by decide, rfl⟩,
   ⟨wC (xHW 0xFF30000000450001) 0, _, _, _, _, rfl, rfl, rfl, rfl, rfl, rfl, by decide, by decide, rfl⟩,
   ⟨wC (xHW 0xFF30450000450000) 0, _, _, rfl, rfl, rfl, rfl, rfl, by decide, rfl⟩,
   ⟨wSeq, _, g0, seqW.1, seqW.2, seqWs.1, seqWs.2, rfl, rfl, rfl, gotS_eq (by decide +kernel), by decide +kernel, by decide +kernel, by decide +kernel, by decide +kernel,
    gotS_eq (by decide +kernel), rfl⟩⟩
theorem met_StrandEvents_parks (h : Obligations.StrandEvents) :
    MetH (h.2.2.2.2.1 1) ∧ MetH (h.2.2.2.2.2.1 1) ∧ MetH (h.2.2.2.2.2.2.1 1) ∧ MetH (h.2.2.2.2.2.2.2.1 1) ∧ MetH (h.2.2.2.2.2.2.2.2.2.1 1) ∧ MetH (h.2.2.2.2.2.2.2.2.2.2 1) :=
  ⟨⟨wx (xP ⟨.sreg 1, 0, 0, false, 0⟩), _, _, rfl, rfl, rfl, (fun _ _ _ _ e => nomatch e), (fun _ _ e => nomatch e), (fun _ e => nomatch e), rfl⟩,
   ⟨wx (xP ⟨.wrack 7, 0, 0, false, 0⟩), _, _, rfl, rfl, rfl, .inr ⟨7, rfl, rfl⟩⟩,
   ⟨wx { xP ⟨.remote 7 false 0 0, 0, 0, false, 0⟩ with remote := some ⟨7, some true⟩ }, _, _, _, _, _, _, _, rfl, rfl, rfl, rfl, .inl ⟨rfl, rfl⟩⟩,
   ⟨wx (xP ⟨.counter 5 9, 100, 100, false, 0⟩), _, _, rfl, rfl, by decide, by decide, by decide, by decide, .inl ⟨(fun _ _ _ _ e => nomatch e), rfl⟩⟩,
   ⟨wx { x0 with ip := 0x10, clause := some ⟨0, 0xFF30000000000000, [0, 0, 0, 0]⟩ }, _, rfl, _, rfl, rfl⟩,
   ⟨w0, _, .inr rfl, rfl⟩⟩

/-- A message for register 5 of slot 1 (generation 1), which is empty; one for the local-store word at 24, which is empty. -/
def mR : Net := ⟨7, .rput, srcOfSlot 17, 0, 1, 1, 5, 99, 0, 0, true, false, false, false, false, 0⟩
def mW : Net := ⟨7, .sputfe, srcOfSlot 17, 0, 0, 0, 24, 99, 0, 0, true, false, false, false, false, 0⟩
def xE5 : Slot := { x0 with s := [(5, ⟨0, false, false⟩)] }
def wN (x : Slot) (n : Net) : State := { wx x with net := [n], lsEmpty := [3] }
theorem met_RemoteWriteEvents (h : Obligations.RemoteWriteEvents) :
    MetH (h.1 7 (.rputDelivery 7) .rput (.inl ⟨rfl, rfl⟩)) ∧ MetH (h.1 7 (.sputfeDelivery 7) .sputfe (.inr ⟨rfl, rfl⟩)) ∧ MetH (h.2.1 7) ∧ MetH (h.2.2.1 7) ∧ MetH (h.2.2.2 7) :=
  ⟨⟨wN xE5 mR, _, _, rfl, rfl, rfl, .inl ⟨rfl, .inl ⟨rfl, rfl, rfl, rfl⟩⟩⟩,
   ⟨wN x0 mW, _, _, rfl, rfl, rfl, .inl ⟨rfl, .inr ⟨rfl, by decide, rfl⟩⟩⟩,
   ⟨wN xE5 { mR with waiting := true }, _, _, rfl, rfl, .inl ⟨rfl, .inl ⟨rfl, rfl, rfl, rfl⟩⟩⟩,
   ⟨wN x0 { mR with withdraw := true }, _, _, _, rfl, rfl, rfl, (fun _ e => nomatch e), rfl, rfl⟩,
   ⟨{ wx { xP ⟨.remote 7 false 0 0, 0, 0, false, 0⟩ with remote := some ⟨7, none⟩ } with answers := [⟨7, 1, 1, true, false⟩] }, _, _, _, rfl, rfl, .inl ⟨rfl, _, rfl, rfl, rfl⟩⟩⟩
theorem met_RemoteWriteEvents_full : (∃ n, (wN x0 mR).net? 7 = some n ∧ n.kind = .rput ∧ n.waiting = false ∧ (wN x0 mR).occupied n) ∧
    (∃ n, ({ wN x0 mW with lsEmpty := [] } : State).net? 7 = some n ∧ n.kind = .sputfe ∧ n.waiting = false ∧ ({ wN x0 mW with lsEmpty := [] } : State).occupied n) :=
  ⟨⟨_, rfl, rfl, rfl, .inl ⟨rfl, rfl, rfl⟩⟩, ⟨_, rfl, rfl, rfl, .inr ⟨rfl, rfl⟩⟩⟩
def mA : Net := ⟨7, .amsg, srcOfSlot 17, 0, 15, 1, 10, 4, 5, 0, true, false, false, false, false, 0⟩
def mO : Net := ⟨7, .out, srcOfSlot 17, 0, 1, 1, 0, 99, 1, 0, true, false, false, false, false, 0⟩
def wAm : State := world x0 { c0 with amq := [⟨10, 4, 5, 0⟩] } k0
theorem met_MessageEvents (h : Obligations.MessageEvents) :
    MetH (h.1 7) ∧ MetH (h.2.1 0) ∧ MetH (h.2.2.2.1 7) ∧ (mO.val2 = 1 ∧ (∃ j, (wN x0 mO).strandAt (16 * mO.core + mO.slot) mO.gen false = .slot j) ∧
    ((wN x0 mO).core mO.core).inbox.length + ((wN x0 mO).core mO.core).amq.length < 64) ∧ MetH (h.2.2.2.2.2.1 7) ∧ MetH (h.2.2.2.2.2.2 7) :=
  ⟨⟨wN x0 mA, _, _, rfl, rfl, .inr (.inr ⟨rfl, by decide, rfl⟩)⟩,
   ⟨{ wAm with gangs := [{ g0 with lrec := [0x70120101] }] }, _, _, _, _, rfl, rfl, rfl, rfl, by decide, rfl⟩,
   ⟨wN x0 mO, _, _, rfl, rfl, rfl, rfl, .inl ⟨_, rfl, rfl⟩⟩,
   ⟨rfl, ⟨_, rfl⟩, by decide⟩,
   ⟨wN x0 { mA with kind := .cntdec }, _, _, rfl, rfl, rfl⟩, ⟨wN x0 { mA with kind := .taskdec, at_ := 64 }, _, _, rfl, rfl, rfl⟩⟩

def wK (x : Slot) (c : Core) : State := { world x c k0 with gtc := 2 ^ 30 }
def fr0 : FaultRec := ⟨1, 1, 3, 0, 0x40, 0, 5⟩
def wFr (z : Die) : State := { w0 with dies := [(0, { z with cfg := [(0, 1), (8, 0xFFFFFF), (0x28, 0x1000800)] })] }
theorem met_KernelEvents_slots (h : Obligations.KernelEvents) :
    MetH (h.1 1) ∧ MetH (h.2.1 1) ∧ MetH (h.2.2.1 1) ∧ MetH (h.2.2.2.1 1) ∧ MetH (h.2.2.2.2.1 1) ∧ MetH h.2.2.2.2.2.1 ∧ MetH h.2.2.2.2.2.2.1 :=
  ⟨⟨wx { x0 with kern := some .preempt, job := .task 0 64 0 }, _, _, _, _, rfl, rfl, rfl⟩, ⟨w0, _, by decide, rfl⟩, ⟨wx { x0 with phase := .halted }, _, rfl, rfl⟩,
   ⟨w0, _, by decide, rfl⟩,
   ⟨{ world (xP ⟨.counter 5 9, 0, 262144, false, 0⟩) { c0 with rq := [[0x400000], [], [], []] } k0 with
      slots := (1, xP ⟨.counter 5 9, 0, 262144, false, 0⟩) :: (List.range 14).map (fun j => (j + 2, x0)) }, _, rfl, rfl, rfl, by decide, rfl⟩,
   ⟨w0, _, rfl, rfl⟩, ⟨wK x0 c0, _, by decide, rfl⟩⟩
theorem met_KernelEvents_cores (h : Obligations.KernelEvents) :
    MetH (h.2.2.2.2.2.2.2.1 0 0) ∧ MetH (h.2.2.2.2.2.2.2.2.1 0 0) ∧ MetH (h.2.2.2.2.2.2.2.2.2.1 0 0 3) ∧ MetH (h.2.2.2.2.2.2.2.2.2.2.1 0 0 3) ∧
    MetH (h.2.2.2.2.2.2.2.2.2.2.2.1 0) ∧ MetH (h.2.2.2.2.2.2.2.2.2.2.2.2.1 0) ∧ MetH (h.2.2.2.2.2.2.2.2.2.2.2.2.2.1 0) ∧ MetH (h.2.2.2.2.2.2.2.2.2.2.2.2.2.2 0) :=
  ⟨⟨{ wFr { d0 with faultq := [(0, [fr0])] } with slots := [(1, xP ⟨.faultRing, 0, 0, false, 0⟩)] }, _, _, rfl, by decide, by decide, .inl ⟨by decide, rfl⟩⟩,
   ⟨w0, _, .inr rfl, rfl⟩,
   ⟨{ wFr { d0 with faults := [(0, [fr0])] } with slots := [(1, xP ⟨.fault 3, 0, 0, false, 0⟩)] }, _, fr0, rfl, by decide, .inl ⟨1, rfl, rfl⟩⟩,
   ⟨w0, _, .inl rfl, rfl⟩,
   ⟨wK x0 { c0 with deleg := some ⟨pMem, 0⟩ }, _, rfl, rfl, rfl, by decide, rfl⟩, ⟨w0, _, .inl rfl, rfl⟩,
   ⟨wK x0 { c0 with quarantined := true }, _, rfl, by decide, rfl⟩, ⟨w0, _, .inl rfl, rfl⟩⟩

/-! ### Events of queues, launches and engines -/

/-- A computation that succeeds has a result. -/
theorem okX {ε α : Type} {r : Except ε α} (h : (match r with
    | .ok _ => true
    | .error _ => false) = true) : ∃ a, r = .ok a := by
  match r, h with
  | .ok a, _ => exact ⟨a, rfl⟩
theorem errX {ε α : Type} {r : Except ε α} (h : (match r with
    | .ok _ => false
    | .error _ => true) = true) : ∃ e, r = .error e := by
  match r, h with
  | .error e, _ => exact ⟨e, rfl⟩
/-- The head of a queue that holds a packet of a kind. -/
theorem headX {r : Head × State} (kd : Nat) (h : (match r.1 with
    | .pkt ws => decide (wf (lrw ws 0) 0 8 = kd)
    | _ => false) = true) : ∃ ws t, r = (.pkt ws, t) ∧ wf (lrw ws 0) 0 8 = kd := by
  obtain ⟨a, t⟩ := r
  match a, h with
  | .pkt ws, h => exact ⟨ws, t, rfl, of_decide_eq_true h⟩
def qE : Queue := ⟨0, 5, true, 0, 0, [], none, none, false, false, false, [], [], false⟩
/-- Queue 5 of partition 0 holds one packet at 0x600000; its descriptor stands at 0x1000140, its kick value at 0x2000000. -/
def wQE (e : Queue) (pk rec : List Host.Cell) : State := { wM k0 with
  cur := .slot 1
  dies := [(0, { d0 with queues := [e], cfg := [(0, 1), (8, 0xFFFFFF), (0x10, 0x1000000), (0x18, 0x100000), (0x20, 0x2000001), (0x50, 0x10000), (0x68, 0x1000000000000)] })],
  mem := rec ++ [(0x100000, 1), (0x100002, 0x20), (0x200000, 1), (0x200002, 0x30), (0x300000, 1), (0x300002, 0x40), (0x400000, 1), (0x400002, 0x50), (0x500000, 0xFB), (0x500001, 3), (0x500008, 0xFF), (0x500009, 3), (0x50000A, 1)] ++
    pk ++ [(0x1000142, 0x60), (0x1000148, 9), (0x2000000, 1)] }
def pWait (v : Byte) : List Host.Cell := if v = 0 then [(0x600000, 2)] else [(0x600000, 2), (0x600010, v)]
theorem met_QueueEvents_map (h : Obligations.QueueEvents) :
    MetH (h.1 0 5 9) ∧ MetH (h.2.1 0 5 0x600000 9) ∧ MetH (h.2.2.1 0 5) ∧ MetH (h.2.2.2.1 0 5) ∧ MetH (h.2.2.2.2.1 0 5) :=
  ⟨⟨w0, _, 0, [], rfl, by decide, by decide, rfl⟩, ⟨w0, _, 0, [], rfl, rfl⟩,
   ⟨{ wQE qE [] [] with mem := [(0x1000148, 9)] }, _, 0, [], rfl, by decide, .inr ⟨by decide, by decide⟩, rfl⟩,
   ⟨wQE { qE with mapped := false, asked := 1 } [] [], _, 0, _, _, rfl, rfl, rfl, rfl, by decide, by decide, rfl⟩,
   ⟨{ wM k0 with dies := [(0, { d0 with queues := [{ qE with mapped := false }] })] }, _, 0, rfl, rfl, rfl⟩⟩
theorem met_QueueEvents_wait (h : Obligations.QueueEvents) :
    MetH (h.2.2.2.2.2.1 0 5 (.wait 0 5) (.inl rfl)) ∧ MetH (h.2.2.2.2.2.2.1 0 5) ∧
    (∃ e ws u, (wQE qE (pWait 5) []).HeadIs 0 5 2 0 e ws u ∧ u.signalBad 0 (wf (lrw ws 1) 0 12) = false ∧ e.met = false ∧
      condHolds (wf (lrw ws 0) 8 2) (u.signal 0 (wf (lrw ws 1) 0 12)) (lrw ws 2) = false) :=
  ⟨⟨wQE qE [(0x600000, 7)] [], _, 0, _, _, _, rfl, rfl, rfl, rfl⟩,
   ⟨wQE qE (pWait 0) [], _, 0, _, _, _, ⟨rfl, rfl, rfl, rfl⟩, .inr (.inl ⟨rfl, .inr rfl, rfl⟩)⟩,
   ⟨_, _, _, ⟨rfl, rfl, rfl, rfl⟩, rfl, rfl, rfl⟩⟩
def wPk (pk : List Host.Cell) : State := wQE qE pk []
def pSig : List Host.Cell := [(0x600000, 3), (0x600010, 7)]
def pMark : List Host.Cell := [(0x600000, 5), (0x600008, 8)]
def pEdge : List Host.Cell := [(0x600000, 4), (0x600008, 64), (0x600010, 128)]
theorem headIs {e : Queue} {pk rec : List Host.Cell} (kd : Nat) (hq : (wQE e pk rec).queueDie 0 5 = some 0) (he : (wQE e pk rec).queue? 0 0 5 = some e)
    (h : (match ((wQE e pk rec).headOf 0 0 5).1 with
    | .pkt ws => decide (wf (lrw ws 0) 0 8 = kd)
    | _ => false) = true) : ∃ ws t, (wQE e pk rec).HeadIs 0 5 kd 0 e ws t :=
  let ⟨ws, t, h1, h2⟩ := headX kd h
  ⟨ws, t, hq, he, h1, h2⟩
/-- The words and the state that reading the head of a queue gives. -/
def hw (s : State) : List W64 := match (s.headOf 0 0 5).1 with
  | .pkt ws => ws
  | _ => []
def hs (s : State) : State := (s.headOf 0 0 5).2
theorem hw_eq {s : State} (h : (match (s.headOf 0 0 5).1 with
    | .pkt _ => true
    | _ => false) = true) : s.headOf 0 0 5 = (.pkt (hw s), hs s) := by
  unfold hw hs
  generalize s.headOf 0 0 5 = r at h ⊢
  obtain ⟨a, t⟩ := r
  match a, h with
  | .pkt ws, _ => rfl
def sM : State := hs (wPk pMark)
def sE : State := hs (wPk pEdge)
theorem met_QueueEvents_signal (h : Obligations.QueueEvents) :
    MetH (h.2.2.2.2.2.2.2.1 0 5) ∧ MetH (h.2.2.2.2.2.2.2.2.1 0 5 (.signal 0 5) 3 (.inl ⟨rfl, rfl⟩)) ∧ MetH (h.2.2.2.2.2.2.2.2.1 0 5 (.mark 0 5) 5 (.inr ⟨rfl, rfl⟩)) :=
  ⟨⟨wPk pSig, _, 0, qE, _, _, ⟨rfl, rfl, hw_eq (by decide +kernel), by decide +kernel⟩, by decide +kernel, .inr rfl, rfl⟩,
   ⟨wQE { qE with gangs := [1] } [(0x600000, 3), (0x600001, 1), (0x600010, 7)] [], _, 0, _, _, ⟨rfl, rfl, hw_eq (by decide +kernel), by decide +kernel⟩, (fun _ => by decide +kernel), by decide +kernel, (fun e => nomatch e)⟩,
   ⟨wQE { qE with gangs := [1] } [(0x600000, 5), (0x600001, 1), (0x600008, 8)] [], _, 0, _, _, ⟨rfl, rfl, hw_eq (by decide +kernel), by decide +kernel⟩, (fun e => nomatch e), by decide +kernel, (fun e => nomatch e)⟩⟩
theorem met_QueueEvents_mark (h : Obligations.QueueEvents) :
    MetH (h.2.2.2.2.2.2.2.2.2.1 0 5) ∧ MetH (h.2.2.2.2.2.2.2.2.2.2.1 0 5) :=
  ⟨(let ⟨⟨a, b, x, v⟩, e⟩ := okX (r := sM.walk 0 0 (sM.qAsid 0 0 5) (lrw (hw (wPk pMark)) 1).toNat (accW 1)) (by decide +kernel)
    ⟨wPk pMark, _, 0, qE, hw (wPk pMark), sM, a, b, x, v, ⟨rfl, rfl, hw_eq (by decide +kernel), by decide +kernel⟩, .inr rfl, e, rfl⟩),
   (let ⟨⟨rs, v⟩, e⟩ := okX (r := sE.rangesPas 0 0 (sE.qAsid 0 0 5) accValid (edgeRanges (hw (wPk pEdge)))) (by decide +kernel)
    ⟨wPk pEdge, _, 0, qE, hw (wPk pEdge), sE, rs, v, ⟨rfl, rfl, hw_eq (by decide +kernel), by decide +kernel⟩, rfl, e, true, iff_of_true rfl (fun _ e => nomatch e), rfl⟩)⟩
def wFE (pr : Option Nat) : State := wQE { qE with edge := true, flushing := true, edgeR := [(64, 128)], producer := pr } pEdge []
/-- The context of partition 1, swapped out, of no cluster. -/
def sw0 : Swap := ⟨1, [], [], [], [], [], [], [], [], [], [], [], []⟩
theorem met_QueueEvents_flush (h : Obligations.QueueEvents) :
    MetH (h.2.2.2.2.2.2.2.2.2.2.2.1 0 5) ∧ MetH (h.2.2.2.2.2.2.2.2.2.2.2.2.1 0 5) ∧
    MetH (h.2.2.2.2.2.2.2.2.2.2.2.2.2.1 0 9 3) ∧ MetH (h.2.2.2.2.2.2.2.2.2.2.2.2.2.2.1 0 9 3) ∧
    MetH (h.2.2.2.2.2.2.2.2.2.2.2.2.2.2.2.1 0) ∧ MetH (h.2.2.2.2.2.2.2.2.2.2.2.2.2.2.2.2.1 1) ∧ MetH (h.2.2.2.2.2.2.2.2.2.2.2.2.2.2.2.2.2 0) :=
  ⟨(let ⟨⟨rs, u⟩, e⟩ := okX (r := (wFE none).rangesPas 0 0 ((wFE none).qAsid 0 0 5) accValid [(64, 128)]) (by decide +kernel)
    ⟨wFE none, _, 0, _, rs, u, rfl, rfl, rfl, rfl, e, rfl⟩),
   (let ⟨⟨rs, u⟩, e⟩ := okX (r := (wFE (some 1)).rangesPas 0 0 ((wFE (some 1)).qAsid 0 0 5) accValid [(64, 128)]) (by decide +kernel)
    ⟨wFE (some 1), _, 0, _, 1, _, rs, u, rfl, rfl, rfl, rfl, rfl, e, rfl⟩),
   ⟨w0, _, rfl, rfl⟩, ⟨w0, _, rfl, rfl⟩,
   ⟨w0, _, 0, (w0.clustersOf 0).tail, by decide +kernel, by decide +kernel, rfl⟩,
   ⟨{ w0 with dies := [(0, { d0 with cfg := [(0, 1), (8, 0xFFFFFF), (0x1000, 1), (0x1090, 16)], swaps := [sw0] })] }, _, 0, sw0, by decide, by decide, by decide, rfl⟩,
   ⟨{ w0 with dies := [(0, { d0 with cfg := d0.cfg ++ [(0x88, 2)] })] }, _, ⟨0, by decide, by decide⟩, rfl⟩⟩
def cells (a n v : Nat) : List Host.Cell := (List.range n).filterMap (fun i => if v / 256 ^ i % 256 = 0 then none else some (a + i, BitVec.ofNat 8 (v / 256 ^ i)))
/-- A launch record of one core and one strand at 0x400 (with a budget of `b` slices), and its module block of pointers at 0x10000. -/
def rec0 (b : Nat) : List W64 := [natW (0x10101 + b * 0x100000), 1, 0, 0, 0, 0, 0, 0x10000, 2, 2, 2, 2, 2, 2, 2, 2]
def recMem (b : Nat) : List Host.Cell := ((List.range 16).map (fun i => cells (0x400 + 8 * i) 8 (lrw (rec0 b) i).toNat)).flatten ++
  cells 0x10000 16 pMem.toNat ++ cells 0x10010 16 pMem.toNat ++ cells 0x10020 16 pMem.toNat
def wG (b : Nat) : State := { wQE qE [(0x600000, 1), (0x600009, 4)] (recMem b) with cores := [(0, { c0 with gang := none })], gangs := [], slots := [] }
def getX {ε α : Type} (r : Except ε α) (d : α) : α := match r with
  | .ok a => a
  | .error _ => d
def isOkX {ε α : Type} (r : Except ε α) : Bool := match r with
  | .ok _ => true
  | .error _ => false
theorem getX_eq {ε α β : Type} {r : Except ε (α × β)} {d : α × β} (h : isOkX r = true) : r = .ok ((getX r d).1, (getX r d).2) := by
  match r, h with
  | .ok a, _ => rfl
def uG (b : Nat) : State := hs (wG b)
def pkG (b : Nat) : Cand × SMap Nat := ((uG b).arbPick 0).getD (⟨0, 0, 0, 0⟩, [])
def rdG (b : Nat) : Nat × State := getX ((uG b).vread 0 0 ((uG b).qAsid 0 0 5) (accR 1) 0x100 (lrw (hw (wG b)) 1).toNat 256) (0, wG b)
def gvG (b : Nat) : Nat × State := getX ((rdG b).2.vread 0 0 (wf (lrw (wordsOfNat (rdG b).1 32) 0) 36 12) (accR 1) 0x88 (wf (lrw (wordsOfNat (rdG b).1 32) 17) 0 56) (8 * wf (lrw (wordsOfNat (rdG b).1 32) 17) 56 8)) (0, wG b)
def adG (b : Nat) : Gang × State := getX ((gvG b).2.admitGang 0 0 (wordsOfNat (rdG b).1 32) (wordsOfNat (gvG b).1 (wf (lrw (wordsOfNat (rdG b).1 32) 17) 56 8)) (fun y => y.modulePtrs 0 0 (wordsOfNat (rdG b).1 32))) (g0, wG b)
theorem pick_eq {α β : Type} {o : Option (α × β)} {d : α × β} (h : o.isSome = true) : o = some ((o.getD d).1, (o.getD d).2) := by
  match o, h with
  | some _, _ => rfl
theorem pkG_eq (b : Nat) (h : ((uG b).arbPick 0).isSome = true) : (uG b).arbPick 0 = some ((pkG b).1, (pkG b).2) := by unfold pkG; exact pick_eq h
theorem rdG_eq (b : Nat) (h : isOkX ((uG b).vread 0 0 ((uG b).qAsid 0 0 5) (accR 1) 0x100 (lrw (hw (wG b)) 1).toNat 256) = true) :
    (uG b).vread 0 0 ((uG b).qAsid 0 0 5) (accR 1) 0x100 (lrw (hw (wG b)) 1).toNat 256 = .ok ((rdG b).1, (rdG b).2) := by unfold rdG; exact getX_eq h
theorem gvG_eq (b : Nat) (h : isOkX ((rdG b).2.vread 0 0 (wf (lrw (wordsOfNat (rdG b).1 32) 0) 36 12) (accR 1) 0x88 (wf (lrw (wordsOfNat (rdG b).1 32) 17) 0 56) (8 * wf (lrw (wordsOfNat (rdG b).1 32) 17) 56 8)) = true) :
    (rdG b).2.vread 0 0 (wf (lrw (wordsOfNat (rdG b).1 32) 0) 36 12) (accR 1) 0x88 (wf (lrw (wordsOfNat (rdG b).1 32) 17) 0 56) (8 * wf (lrw (wordsOfNat (rdG b).1 32) 17) 56 8) = .ok ((gvG b).1, (gvG b).2) := by unfold gvG; exact getX_eq h
theorem adG_eq (b : Nat) (h : isOkX ((gvG b).2.admitGang 0 0 (wordsOfNat (rdG b).1 32) (wordsOfNat (gvG b).1 (wf (lrw (wordsOfNat (rdG b).1 32) 17) 56 8)) (fun y => y.modulePtrs 0 0 (wordsOfNat (rdG b).1 32))) = true) :
    (gvG b).2.admitGang 0 0 (wordsOfNat (rdG b).1 32) (wordsOfNat (gvG b).1 (wf (lrw (wordsOfNat (rdG b).1 32) 17) 56 8)) (fun y => y.modulePtrs 0 0 (wordsOfNat (rdG b).1 32)) = .ok ((adG b).1, (adG b).2) := by unfold adG; exact getX_eq h
theorem headG (b : Nat) (h : (match ((wG b).headOf 0 0 5).1 with
    | .pkt _ => true
    | _ => false) = true) (hk : wf (lrw (hw (wG b)) 0) 0 8 = 1) : (wG b).HeadIs 0 5 1 0 qE (hw (wG b)) (uG b) :=
  ⟨rfl, rfl, hw_eq h, hk⟩
/-- A launch of a record that is in order is placed; one whose budget is zero is rejected. -/
theorem met_LaunchEvents_gang (h : Obligations.LaunchEvents) : MetH (h.1 0 5) :=
  ⟨wG 1, _, 0, qE, hw (wG 1), uG 1, (pkG 1).1, (pkG 1).2, (rdG 1).1, (rdG 1).2, headG 1 (by decide +kernel) (by decide +kernel), pkG_eq 1 (by decide +kernel),
    by decide +kernel, by decide +kernel, rdG_eq 1 (by decide +kernel), .inr ⟨by decide +kernel, (gvG 1).1, (gvG 1).2, (adG 1).1, (adG 1).2, gvG_eq 1 (by decide +kernel),
      adG_eq 1 (by decide +kernel), .inr ⟨by decide +kernel, rfl⟩⟩⟩
theorem met_LaunchEvents_reject : (wG 0).HeadIs 0 5 1 0 qE (hw (wG 0)) (uG 0) ∧ (uG 0).arbPick 0 = some ((pkG 0).1, (pkG 0).2) ∧ (pkG 0).1.key = 5 ∧ (pkG 0).1.part = 0 ∧
    (uG 0).vread 0 0 ((uG 0).qAsid 0 0 5) (accR 1) 0x100 (lrw (hw (wG 0)) 1).toNat 256 = .ok ((rdG 0).1, (rdG 0).2) ∧ recordBad (wordsOfNat (rdG 0).1 32) false = some (2, 0) :=
  ⟨headG 0 (by decide +kernel) (by decide +kernel), pkG_eq 0 (by decide +kernel), by decide +kernel, by decide +kernel, rdG_eq 0 (by decide +kernel), by decide +kernel⟩
def tr0 : Tray := ⟨[], [], 1, 64, 0, 0, 0, false, false⟩
def wT : State := { wM k0 with cur := .slot 1, cores := [(0, { c0 with tray := [tr0] })] }
def pkT : Cand × SMap Nat := (wT.arbPick 0).getD (⟨0, 0, 0, 0⟩, [])
def errG {ε α : Type} (r : Except ε α) (d : ε) : ε := match r with
  | .ok _ => d
  | .error e => e
theorem errG_eq {α : Type} {r : AR α} {d : Nat × Nat × State} (h : isOkX r = false) : r = .error ((errG r d).1, (errG r d).2.1, (errG r d).2.2) := by
  match r, h with
  | .error a, _ => rfl
def adT : Nat × Nat × State := errG (wT.admitGang (dieOfCore 0) pkT.1.part tr0.lrec tr0.gtab (fun y => y.trayPtrs (dieOfCore 0) pkT.1.part tr0)) (0, 0, wT)
theorem pkT_eq (h : (wT.arbPick (dieOfCore 0)).isSome = true) : wT.arbPick (dieOfCore 0) = some (pkT.1, pkT.2) := by unfold pkT; exact pick_eq h
theorem adT_eq (h : isOkX (wT.admitGang (dieOfCore 0) pkT.1.part tr0.lrec tr0.gtab (fun y => y.trayPtrs (dieOfCore 0) pkT.1.part tr0)) = false) :
    wT.admitGang (dieOfCore 0) pkT.1.part tr0.lrec tr0.gtab (fun y => y.trayPtrs (dieOfCore 0) pkT.1.part tr0) = .error (adT.1, adT.2.1, adT.2.2) := by unfold adT; exact errG_eq h
/-- A gang of a tray that waits for its release; core 0 has `n` flits that will fail their check. -/
def wR1 (n : Nat) : State := { w0 with slots := [], cores := [(0, { c0 with tray := [tr0], flitBad := n })], gangs := [{ g0 with released := false, tray := some 0 }] }
/-- The tray's entry no longer passes its check. -/
def wTB : State := { wT with cores := [(0, { c0 with tray := [{ tr0 with bad := true }] })] }
def pkB : Cand × SMap Nat := (wTB.arbPick 0).getD (⟨0, 0, 0, 0⟩, [])
theorem pkB_eq (h : (wTB.arbPick (dieOfCore 0)).isSome = true) : wTB.arbPick (dieOfCore 0) = some (pkB.1, pkB.2) := by unfold pkB; exact pick_eq h
theorem met_LaunchEvents_tray (h : Obligations.LaunchEvents) : MetH (h.2.1 0) ∧ MetH (h.2.2.1 0) ∧ ((wG 1).placeFor 0 0 (rec0 1)).isSome = true ∧ MetH (h.2.2.2.2.1 1) ∧
    MetH (h.2.2.2.2.2.1 1) ∧ MetH (h.2.2.2.2.2.2 1) :=
  ⟨⟨wT, _, tr0, [], pkT.1, pkT.2, rfl, pkT_eq (by decide +kernel), by decide +kernel, rfl, .inl ⟨adT.1, adT.2.1, adT.2.2, adT_eq (by decide +kernel), rfl⟩⟩,
   ⟨wTB, _, _, [], pkB.1, pkB.2, rfl, pkB_eq (by decide +kernel), by decide +kernel, rfl, rfl⟩,
   by decide +kernel, ⟨wR1 0, _, _, 0, rfl, rfl, rfl, by decide +kernel, by decide, rfl, rfl, rfl⟩,
   ⟨wR1 2, _, _, [], 0, rfl, rfl, rfl, by decide +kernel, by decide, rfl⟩, ⟨w0, _, _, rfl, .inl rfl, rfl⟩⟩

/-- A command of slot 1 that copies 64 bytes into the local store at 0x100. -/
def cmd0E : Cmd := ⟨0, 7, 5, .ml, 1, 1, .gang 1, 0, 0, true, 0, 64, 1, 64, 0, none, some (.ls 0 256), none, false, 0, 0, 0, none, true, false, none, false, [], none⟩
def wCmd (y : Cluster) : State := wx { x0 with phase := .parked, park := some ⟨.accept 0, 100, 0, false, 0⟩ } |> fun s => { s with clusters := [(0, y)] }
theorem met_EngineEvents (h : Obligations.EngineEvents) :
    MetH (h.1 0) ∧ MetH (h.2.1 0) ∧ MetH (h.2.2.1 0 7) ∧ MetH (h.2.2.2.1 0 7) ∧ MetH (h.2.2.2.2.1 0 7) ∧ MetH (h.2.2.2.2.2.1 0) ∧ MetH (h.2.2.2.2.2.2 0) :=
  ⟨⟨wCmd { k0 with pend := [cmd0E] }, _, cmd0E, [], _, _, rfl, rfl, rfl, rfl, rfl⟩, ⟨w0, _, .inl rfl, rfl⟩,
   ⟨wCmd { k0 with cmds := [cmd0E] }, _, cmd0E, rfl, rfl, rfl, rfl, rfl, rfl⟩,
   ⟨wCmd { k0 with cmds := [{ cmd0E with started := true }] }, _, _, rfl, rfl, rfl, rfl⟩,
   ⟨wCmd { k0 with cmds := [{ cmd0E with started := true }] }, _, _, rfl, .inl ⟨rfl, rfl, rfl⟩⟩,
   ⟨wCmd { k0 with wins := [⟨7, [7, 8], 0⟩] }, _, _, _, rfl, rfl⟩,
   ⟨{ wCmd k0 with gangs := [] }, _, (fun _ e => nomatch e), (fun _ e => nomatch e), rfl⟩⟩

/-! ### Events of the memory system -/

/-- A core that waits for block 8 (to read, or to write), with the request that it has made. -/
def xW (w : Bool) : Slot := { x0 with phase := .parked, park := some ⟨.cdc 8 w, 0, 0, false, 0⟩ }
def rq (q : TReq) : State := { wx (xW q.write) with dies := [(0, { d0 with treqs := [q] })], cycle := 100000 }
def rq0 : TReq := ⟨0, 8, false, 1, 0, false, false, false, false, false⟩
def coh (m : Coh) (n : Nat) : State := { world x0 { c0 with cdc := [(8, ⟨n, true, false⟩)] } k0 with coh := [m] }
def cm (kd : CohKind) (src req n : Nat) : Coh := ⟨7, kd, 0, src, 8, req, n, false, false, 0, 0⟩
theorem met_TokenEvents_requests (h : Obligations.TokenEvents) :
    MetH (h.1 0 0 0 64 true true false) ∧ MetH (h.2.1 0 0) ∧ MetH (h.2.2.1 0 8) ∧ MetH (h.2.2.2.1 0 8 (.treq 0 8) false (.inl ⟨rfl, rfl⟩)) ∧
    MetH (h.2.2.2.1 0 8 (.treqx 0 8) true (.inr ⟨rfl, rfl⟩)) ∧ MetH (h.2.2.2.2.1 0 8 (.treq 0 8) false (.inl ⟨rfl, rfl⟩)) ∧ MetH (h.2.2.2.2.1 0 8 (.treqx 0 8) true (.inr ⟨rfl, rfl⟩)) ∧
    (rq0.write = false ∧ (((rq rq0).die 0).treqs.any (fun q => q.blk == rq0.blk && q.active)) = false ∧ (rq rq0).permRead 0 8 = true ∧ (rq rq0).hostHolds 8 ≠ 2 ∧ 1 ≤ ((rq rq0).sliceTok 0 8).n) :=
  ⟨(let ⟨⟨x, t⟩, e⟩ := okX (r := (wM k0).xlate 0 0 0 (accW 0) 64) (by decide +kernel)
    ⟨wM k0, t, .inl ⟨x, e⟩⟩),
   ⟨w0, _, rfl⟩, ⟨w0, _, by decide, rfl⟩, ⟨wx (xW false), _, by decide, by decide, rfl, rfl⟩, ⟨wx (xW true), _, by decide, by decide, rfl, rfl⟩,
   ⟨rq rq0, _, rq0, rfl, rfl, rfl, rfl, rfl⟩, ⟨rq { rq0 with write := true }, _, _, rfl, rfl, rfl, rfl, rfl⟩,
   ⟨rfl, rfl, by decide, by decide, by decide⟩⟩
theorem met_TokenEvents_tokens (h : Obligations.TokenEvents) : MetH (h.2.2.2.2.2.2.1 7) ∧ MetH (h.2.2.2.2.2.2.2.1 7) ∧ MetH (h.2.2.2.2.2.2.2.2.1 7) ∧ MetH (h.2.2.2.2.2.2.2.2.2.1 7) :=
  ⟨⟨coh (cm .tcoll 0 3 1) 2, _, _, _, ⟨rfl, rfl⟩, rfl, rfl, by decide, rfl⟩, ⟨coh (cm .tcoll 0 3 512) 2, _, _, _, ⟨rfl, rfl⟩, by decide, rfl⟩,
   ⟨coh (cm .tokdata 0 3 1) 2, _, _, _, ⟨rfl, rfl⟩, rfl, .inr ⟨(fun _ e => nomatch e), rfl⟩⟩,
   ⟨{ rq { rq0 with active := true } with coh := [cm .tokdata 0 3 1] }, _, _, _, _, ⟨rfl, rfl⟩, rfl, rfl⟩⟩
theorem met_TokenEvents_persistent (h : Obligations.TokenEvents) :
    MetH (h.2.2.2.2.2.2.2.2.2.2.1 0 8) ∧ MetH (h.2.2.2.2.2.2.2.2.2.2.2.1 0 8) ∧ MetH (h.2.2.2.2.2.2.2.2.2.2.2.2.1 0 8) ∧ MetH (h.2.2.2.2.2.2.2.2.2.2.2.2.2.1 0 8) ∧ MetH (h.2.2.2.2.2.2.2.2.2.2.2.2.2.2.1 0 8) ∧ MetH (h.2.2.2.2.2.2.2.2.2.2.2.2.2.2.2.1 0 8) ∧ MetH (h.2.2.2.2.2.2.2.2.2.2.2.2.2.2.2.2.1 0 8) ∧ MetH (h.2.2.2.2.2.2.2.2.2.2.2.2.2.2.2.2.2 0 8) :=
  ⟨⟨rq rq0, _, _, rfl, by decide, rfl, by decide, by decide, rfl⟩, ⟨rq { rq0 with issues := 4 }, _, _, rfl, by decide, .inl (by decide), rfl⟩,
   ⟨rq { rq0 with issues := 4 }, _, _, rfl, rfl, by decide, by decide, rfl⟩, ⟨rq { rq0 with persistent := true, table := true, batch := true }, _, _, by decide, rfl, rfl, rfl⟩,
   ⟨w0, _, by decide, rfl⟩, ⟨rq { rq0 with active := true }, _, _, rfl, .inr ⟨.inr (by decide), rfl⟩⟩, ⟨w0, _, by decide, rfl⟩,
   ⟨rq { rq0 with active := true }, _, by decide, false, iff_of_false (by decide) (by decide), rfl⟩⟩

/-- Dies 0 (the home of block 8) and 1, which is in state `st` for it; a transaction at the home; a message. -/
def wD (st : Nat) (xs : List Txn) (ms : List Coh) : State := { w0 with
  dies := [(0, { d0 with dir := if st = 0 then [] else [(8, ⟨[0, st, 0, 0], false, 0⟩)], txns := xs.map (fun x => (8, x)) }), (1, { d0 with cfg := [(0, 1), (8, 0xFFFFFF)] })]
  cycle := 5000000, coh := ms }
/-- Core 0 of die 1 has asked for block 8. -/
def wA (st : Nat) (w : Bool) : State := { wD st [] [] with
  dies := [(0, { d0 with dir := if st = 0 then [] else [(8, ⟨[0, st, 0, 0], false, 0⟩)] }), (1, { d0 with cfg := [(0, 1), (8, 0xFFFFFF)], treqs := [{ rq0 with core := 384, write := w }] })],
  cores := [(0, c0), (384, { c0 with cdc := [] })], slots := [(1, x0), (16 * 384 + 1, xW w)] }
def tx0 : Txn := ⟨.rdx, 0, [1], false, 0, false, [], false, false, false⟩
/-- A message to die `die` from `src`. -/
def cd (kd : CohKind) (die src req n : Nat) : Coh := ⟨7, kd, die, src, 8, req, n, false, false, 0, 0⟩
theorem met_DirectoryEvents_requests (h : Obligations.DirectoryEvents) :
    MetH (h.1 1 8) ∧ MetH (h.2.1 1 8) ∧ MetH (h.2.2.1 1 8) ∧
    (MetH (h.2.2.2.1 1 8 (.rds 1 8) .rds .rds (.inl ⟨rfl, rfl, rfl⟩)) ∧ MetH (h.2.2.2.1 1 8 (.rdx 1 8) .rdx .rdx (.inr (.inl ⟨rfl, rfl, rfl⟩))) ∧
     MetH (h.2.2.2.1 1 8 (.upg 1 8) .upg .upg (.inr (.inr ⟨rfl, rfl, rfl⟩)))) ∧ mhas ((wD 0 [tx0] []).die 0).txns 8 = true :=
  ⟨⟨wA 0 false, _, rfl, by decide, rfl⟩, ⟨wA 0 true, _, rfl, by decide, by decide, rfl⟩, ⟨wA 1 true, _, rfl, by decide, by decide, rfl⟩,
   ⟨⟨wD 0 [] [cd .rds 0 1 1 0], _, _, _, rfl, ⟨rfl, rfl⟩, rfl⟩, ⟨wD 0 [] [cd .rdx 0 1 1 0], _, _, _, rfl, ⟨rfl, rfl⟩, rfl⟩,
    ⟨wD 1 [] [cd .upg 0 1 1 0], _, _, _, rfl, ⟨rfl, rfl⟩, rfl⟩⟩, by decide⟩
theorem met_DirectoryEvents_holders (h : Obligations.DirectoryEvents) :
    (MetH (h.2.2.2.2.2.1 7 (.fwds 7) .fwds (.inl ⟨rfl, rfl⟩)) ∧ MetH (h.2.2.2.2.2.1 7 (.fwdx 7) .fwdx (.inr (.inl ⟨rfl, rfl⟩))) ∧ MetH (h.2.2.2.2.2.1 7 (.inv 7) .inv (.inr (.inr (.inl ⟨rfl, rfl⟩)))) ∧ MetH (h.2.2.2.2.2.1 7 (.binv 7) .binv (.inr (.inr (.inr ⟨rfl, rfl⟩))))) ∧
    MetH (h.2.2.2.2.2.2.1 7) ∧ MetH (h.2.2.2.2.2.2.2.1 7) ∧ MetH (h.2.2.2.2.2.2.2.2.1 7) ∧ MetH (h.2.2.2.2.2.2.2.2.2.1 7) :=
  ⟨⟨⟨wD 0 [] [cd .fwds 1 0 0 0], _, _, _, ⟨rfl, rfl⟩, by decide, rfl⟩, ⟨wD 0 [] [cd .fwdx 1 0 0 0], _, _, _, ⟨rfl, rfl⟩, by decide, rfl⟩,
    ⟨wD 0 [] [cd .inv 1 0 0 0], _, _, _, ⟨rfl, rfl⟩, by decide, rfl⟩, ⟨wD 0 [] [cd .binv 1 0 0 0], _, _, _, ⟨rfl, rfl⟩, by decide, rfl⟩⟩,
   ⟨wD 2 [] [cd .fwds 1 0 0 0], _, _, _, ⟨rfl, rfl⟩, by decide, rfl⟩, ⟨wD 2 [] [cd .fwdx 1 0 0 0], _, _, _, ⟨rfl, rfl⟩, by decide, rfl⟩,
   ⟨wD 1 [] [cd .inv 1 0 0 0], _, _, _, ⟨rfl, rfl⟩, by decide, rfl⟩, ⟨wD 2 [] [cd .binv 1 0 0 0], _, _, _, ⟨rfl, rfl⟩, by decide, rfl⟩⟩
theorem met_DirectoryEvents_answers (h : Obligations.DirectoryEvents) :
    (MetH (h.2.2.2.2.2.2.2.2.2.2.1 7).1 ∧ MetH (h.2.2.2.2.2.2.2.2.2.2.1 7).2) ∧
    (MetH (h.2.2.2.2.2.2.2.2.2.2.2.1 7).1 ∧ MetH (h.2.2.2.2.2.2.2.2.2.2.2.1 7).2) ∧
    (MetH (h.2.2.2.2.2.2.2.2.2.2.2.2.1 7).1 ∧ MetH (h.2.2.2.2.2.2.2.2.2.2.2.2.1 7).2) ∧
    (MetH (h.2.2.2.2.2.2.2.2.2.2.2.2.2.1 7).1 ∧ MetH (h.2.2.2.2.2.2.2.2.2.2.2.2.2.1 7).2) ∧ MetH (h.2.2.2.2.2.2.2.2.2.2.2.2.2.2.1 7) :=
  ⟨⟨⟨wD 1 [tx0] [cd .invAck 0 1 0 0], _, _, _, tx0, ⟨rfl, rfl⟩, rfl, by decide, rfl⟩, ⟨wD 1 [] [cd .invAck 0 1 0 0], _, _, _, ⟨rfl, rfl⟩, (fun _ e => nomatch e), rfl⟩⟩,
   ⟨⟨wD 1 [tx0] [cd .fwdAck 0 1 0 0], _, _, _, tx0, ⟨rfl, rfl⟩, rfl, by decide, rfl⟩, ⟨wD 1 [] [cd .fwdAck 0 1 0 0], _, _, _, ⟨rfl, rfl⟩, (fun _ e => nomatch e), rfl⟩⟩,
   ⟨⟨wD 1 [tx0] [cd .binvack 0 1 0 0], _, _, _, tx0, ⟨rfl, rfl⟩, rfl, by decide, rfl⟩, ⟨wD 1 [] [cd .binvack 0 1 0 0], _, _, _, ⟨rfl, rfl⟩, (fun _ e => nomatch e), rfl⟩⟩,
   ⟨⟨wD 1 [tx0] [cd .binvdata 0 1 0 0], _, _, _, tx0, ⟨rfl, rfl⟩, rfl, by decide, rfl⟩, ⟨wD 1 [] [cd .binvdata 0 1 0 0], _, _, _, ⟨rfl, rfl⟩, (fun _ e => nomatch e), rfl⟩⟩,
   ⟨wD 1 [tx0] [cd .gone 0 1 0 0], _, _, _, tx0, ⟨rfl, rfl⟩, rfl, by decide, rfl⟩⟩
theorem met_DirectoryEvents_grants (h : Obligations.DirectoryEvents) :
    MetH (h.2.2.2.2.2.2.2.2.2.2.2.2.2.2.2.1 7) ∧ MetH (h.2.2.2.2.2.2.2.2.2.2.2.2.2.2.2.2.1 7) ∧ MetH (h.2.2.2.2.2.2.2.2.2.2.2.2.2.2.2.2.2.1 7) ∧ MetH (h.2.2.2.2.2.2.2.2.2.2.2.2.2.2.2.2.2.2.1 7) ∧ MetH (h.2.2.2.2.2.2.2.2.2.2.2.2.2.2.2.2.2.2.2 7) :=
  ⟨⟨wD 1 [] [cd .datas 1 0 1 1], _, _, _, ⟨rfl, rfl⟩, rfl⟩, ⟨wD 1 [] [cd .datax 1 0 1 4], _, _, _, ⟨rfl, rfl⟩, rfl⟩, ⟨wD 1 [] [cd .upgack 1 0 1 4], _, _, _, ⟨rfl, rfl⟩, rfl⟩,
   ⟨wD 1 [{ tx0 with req := 1 }] [cd .cmp 0 1 1 0], _, _, _, _, ⟨rfl, rfl⟩, rfl, rfl, by decide, rfl⟩, ⟨wD 1 [] [cd .cmp 0 1 1 0], _, _, _, ⟨rfl, rfl⟩, rfl, rfl⟩⟩

theorem met_NoticeEvents_notices (h : Obligations.NoticeEvents) :
    (MetH (h.1 7 (.notei 7) .notei false (.inl ⟨rfl, rfl, rfl⟩)) ∧ MetH (h.1 7 (.notedat 7) .notedat true (.inr ⟨rfl, rfl, rfl⟩))) ∧
    (MetH (h.2.1 7 (.notei 7) .notei (.inl ⟨rfl, rfl⟩)) ∧ MetH (h.2.1 7 (.notedat 7) .notedat (.inr ⟨rfl, rfl⟩))) ∧ MetH (h.2.2.1 7) ∧ MetH (h.2.2.2.1 7) ∧ MetH (h.2.2.2.2.1 7) :=
  ⟨⟨⟨wD 2 [] [cd .notei 0 1 1 0], _, _, rfl, by decide, (fun e => nomatch e), by decide, by decide, rfl⟩,
    ⟨wD 2 [] [cd .notedat 0 1 1 0], _, _, rfl, by decide, (fun _ => by decide), by decide, by decide, rfl⟩⟩,
   ⟨⟨wD 0 [] [cd .notei 0 1 1 0], _, _, rfl, by decide, by decide, rfl⟩, ⟨wD 0 [] [cd .notedat 0 1 1 0], _, _, rfl, by decide, by decide, rfl⟩⟩,
   ⟨wD 0 [] [cd .noteack 1 0 1 0], _, _, _, ⟨rfl, rfl⟩, rfl⟩, ⟨wD 0 [] [{ cd .wrhh 0 1 1 0 with mask := 1, data := 5 }], _, _, _, ⟨rfl, rfl⟩, rfl⟩,
   ⟨wD 0 [] [cd .wrack 0 1 1 0], _, _, rfl, rfl⟩⟩
theorem met_NoticeEvents_late (h : Obligations.NoticeEvents) :
    MetH (h.2.2.2.2.2.1 8) ∧ MetH (h.2.2.2.2.2.2.1 8) ∧ MetH (h.2.2.2.2.2.2.2.1 8) ∧ MetH (h.2.2.2.2.2.2.2.2.1 8) ∧ MetH (h.2.2.2.2.2.2.2.2.2 8) :=
  ⟨⟨w0, _, rfl, rfl⟩, ⟨wD 2 [{ tx0 with waiting := [], gone := [(1, 0)] }] [], _, 1, _, by decide, rfl, rfl⟩, ⟨w0, _, .inl rfl, rfl⟩,
   ⟨wD 2 [{ tx0 with resent := true }] [], _, _, _, _, rfl, by decide, rfl, rfl, rfl⟩,
   ⟨wD 2 [{ tx0 with kind := .upg }] [], _, _, _, rfl, by decide, rfl, rfl, rfl, rfl, rfl⟩⟩

/-! ### Events of the host, of pages and of dies -/

/-- The host's line 16 of device memory: its state in the snoop filter, the snoops of it that are under way, a transaction at the home. -/
def wH (f : Nat) (bi : List (Nat × Bool × Nat × Bool)) (xs : List (Nat × Txn)) : State := { w0 with
  dies := [(0, { d0 with filter := [(16, f)], bisnp := bi, txns := xs, treqs := [{ rq0 with write := true }] })], gtc := 10 ^ 7 }
/-- The first block of the host's window. -/
def hb : Nat := 0x100000000000
theorem met_HostEvents_snoops (h : Obligations.HostEvents) :
    (MetH (h.1 16 (.bisnpdata 16) false (.inl ⟨rfl, rfl⟩)) ∧ MetH (h.1 16 (.bisnpinv 16) true (.inr ⟨rfl, rfl⟩))) ∧ MetH (h.2.1 16 true) ∧ MetH (h.2.2.1 16 true) ∧
    MetH (h.2.2.2.1 16) ∧ MetH (h.2.2.2.2.1 16) :=
  ⟨⟨⟨{ wH 2 [] [] with dies := [(0, { d0 with filter := [(16, 2)], treqs := [rq0] })] }, _, by decide, .inl ⟨by decide, rfl⟩⟩, ⟨wH 1 [] [], _, by decide, .inl ⟨by decide, rfl⟩⟩⟩,
   ⟨wH 2 [(16, true, 0, false)] [], _, by decide, rfl⟩, ⟨w0, _, by decide, rfl⟩, ⟨w0, _, rfl⟩, ⟨wH 2 [(16, true, 0, false)] [], _, .inl ⟨by decide, rfl⟩⟩⟩
theorem met_HostEvents_accesses (h : Obligations.HostEvents) :
    MetH (h.2.2.2.2.2.1 0 16 1) ∧ MetH (h.2.2.2.2.2.2.1 0 16 1) ∧ MetH (h.2.2.2.2.2.2.2.1 0 16 1 0xFFFFFFFFFFFFFFFF 5 false) ∧ (w0.mayArrive (.peerWrite 0 1 1024 8 5 false) ∧ MetH (h.2.2.2.2.2.2.2.2.1 0 1 1024 8 5 false)) ∧
    MetH (h.2.2.2.2.2.2.2.2.2.1 0 1 1024 8) :=
  ⟨⟨{ w0 with dies := [(0, { d0 with isolated := true })] }, _, ⟨by decide, by decide⟩, .inr rfl, rfl⟩,
   ⟨w0, _, ⟨by decide, by decide⟩, by decide, rfl, by decide, rfl⟩,
   ⟨w0, _, ⟨by decide, by decide⟩, by decide, rfl, .inr (by decide), rfl⟩,
   ⟨⟨by decide, by decide⟩, w0, _, by decide, ⟨by decide, by decide⟩, by decide, rfl, by decide, by decide, rfl⟩,
   ⟨w0, _, by decide, ⟨by decide, by decide⟩, .inr ⟨by decide, rfl, by decide, by decide, rfl⟩⟩⟩
theorem met_HostEvents_owned : let s := wH 2 [] [(8, { tx0 with waiting := [] })]
    s.mayArrive (.write 0 0 16 1 0xFFFFFFFFFFFFFFFF 5 false) ∧ s.portViral 0 0 = false ∧ (s.die (s.homeOf (64 * 16))).isolated = false ∧ (mget 0 (s.die (s.homeOf (64 * 16))).filter 16 % 4 == 2) = true :=
  ⟨⟨by decide, by decide⟩, by decide, rfl, by decide⟩
theorem met_HostEvents_waits (h : Obligations.HostEvents) :
    MetH (h.2.2.2.2.2.2.2.2.2.2.1 0 (.read 0 0 16 1) (.hostMemRead 0 0 16 1) (.inl ⟨16, 1, rfl, rfl⟩)) ∧
    MetH (h.2.2.2.2.2.2.2.2.2.2.1 0 (.peerRead 0 1 1024 8) (.peerUioRead 0 1 1024 8) (.inr ⟨1, 1024, 8, rfl, by decide, rfl⟩)) ∧
    MetH (h.2.2.2.2.2.2.2.2.2.2.2.1 (.hostMemRead 0 1 16 1) (.inl ⟨0, 1, 16, 1, by decide, rfl⟩)) ∧ MetH (h.2.2.2.2.2.2.2.2.2.2.2.1 (.peerUioRead 0 0 1024 8) (.inr (.inr (.inr ⟨0, 1024, 8, rfl⟩)))) ∧ MetH (h.2.2.2.2.2.2.2.2.2.2.2.2.1 1) :=
  ⟨⟨wH 0 [] [(8, { tx0 with waiting := [] })], _, ⟨by decide, by decide⟩, by decide, by decide, by decide, rfl⟩,
   ⟨wH 0 [] [(8, { tx0 with waiting := [] })], _, ⟨by decide, by decide⟩, by decide, by decide, by decide, rfl⟩, ⟨w0, _, rfl⟩, ⟨w0, _, rfl⟩,
   ⟨w0, _, .inr ⟨.inr (.inl (by decide)), rfl⟩⟩⟩
theorem met_HostEvents_host (h : Obligations.HostEvents) : MetH (h.2.2.2.2.2.2.2.2.2.2.2.2.2.1 hb true) ∧ MetH (h.2.2.2.2.2.2.2.2.2.2.2.2.2.2 (2 * hb) true) :=
  ⟨⟨wH 0 [] [(hb, { tx0 with waiting := [] })], _, { tx0 with waiting := [] }, by decide, by decide, rfl, rfl, by decide, rfl⟩, ⟨w0, _, by decide, by decide, rfl⟩⟩

/-- A migration of the page at 0 (level 0), whose entry stands at 0x500000, as software asks for it. -/
def wMig : State := { wM k0 with dies := [(0, { d0 with cfg := [(0, 1), (8, 0xFFFFFF), (0x10, 0x1000000), (0x18, 0x100000), (0x20, 0x2000001), (0x50, 0x10000)], mgmt := [(0x40, 0x500000), (0x48, 0x600000)] })] }
def mig0 : Migr := ⟨0x500000, 0x600000, 0, 0x600000, 2, 0⟩
def wD0 (x : Die) : State := { w0 with dies := [(0, x)] }
def rdM : Nat × W64 × State := wMig.cread64 none 0 (wf (wMig.mg 0 0x40) 3 49 * 8)
def chM : Nat × Nat × Nat := (rdM.2.2.chain 4 (wf (wMig.mg 0 0x40) 3 49 * 8)).getD (0, 0, 0)
theorem rdM_eq (h : rdM.1 = 0) : wMig.cread64 none 0 (wf (wMig.mg 0 0x40) 3 49 * 8) = (0, rdM.2.1, rdM.2.2) := by
  show rdM = _; rw [← h]
theorem chM_eq (h : (rdM.2.2.chain 4 (wf (wMig.mg 0 0x40) 3 49 * 8)).isSome = true) : rdM.2.2.chain 4 (wf (wMig.mg 0 0x40) 3 49 * 8) = some (chM.1, chM.2.1, chM.2.2) := by
  unfold chM
  generalize rdM.2.2.chain 4 (wf (wMig.mg 0 0x40) 3 49 * 8) = o at h ⊢
  match o, h with
  | some _, _ => rfl
theorem noMig (x : Nat) (hx : x < 4) (m : Migr) : (rdM.2.2.die x).migr = some m → m.pte ≠ wf (wMig.mg 0 0x40) 3 49 * 8 := by
  have h : ∀ x, x < 4 → (rdM.2.2.die x).migr = none := by decide +kernel
  simp [h x hx]
theorem met_PageEvents_migration (h : Obligations.PageEvents) :
    MetH (h.1 0 0) ∧ MetH (h.2.1 0 1) ∧ MetH (h.2.2.1 0) ∧ MetH (h.2.2.2.1 0) ∧ MetH (h.2.2.2.2.1 0 64) ∧ MetH (h.2.2.2.2.2.1 0 0) :=
  ⟨⟨w0, _, .inl (by decide), rfl⟩,
   ⟨wMig, _, rdM.2.1, rdM.2.2, chM.1, chM.2.1, chM.2.2, by decide, by decide, rdM_eq (by decide +kernel), by decide +kernel, by decide +kernel, by decide, by decide, by decide +kernel, noMig, chM_eq (by decide +kernel), by decide +kernel, by decide +kernel, by decide +kernel, rfl⟩,
   ⟨wD0 { d0 with migr := some mig0 }, _, mig0, rfl, by decide, by decide, rfl⟩, ⟨w0, _, .inl rfl, rfl⟩,
   ⟨wD0 { d0 with redir := [⟨0, 0x600000, 65536⟩] }, _, _, rfl, rfl⟩, ⟨wD0 { d0 with redir := [⟨0, 0x600000, 65536⟩] }, _, _, rfl, (fun _ e => nomatch e), rfl⟩⟩
theorem met_PageEvents_hothouse (h : Obligations.PageEvents) :
    MetH (h.2.2.2.2.2.2.1 0 1 0x20000) ∧ MetH (h.2.2.2.2.2.2.2.1 0 0 0) ∧ MetH (h.2.2.2.2.2.2.2.2.1 0 5) ∧ MetH (h.2.2.2.2.2.2.2.2.2.1 0 5) ∧ MetH (h.2.2.2.2.2.2.2.2.2.2.1 0) ∧
    MetH (h.2.2.2.2.2.2.2.2.2.2.2.1 0) ∧ MetH (h.2.2.2.2.2.2.2.2.2.2.2.2 0) :=
  ⟨⟨w0, _, by decide, rfl⟩, ⟨w0, _, .inl (by decide), rfl⟩, ⟨wD0 { d0 with captured := [5] }, _, .inr (by decide), rfl⟩, ⟨w0, _, by decide, by decide, rfl, by decide, rfl⟩,
   ⟨w0, _, .inr ⟨by decide, rfl⟩⟩, ⟨w0, _, (fun _ e => nomatch e), rfl⟩, ⟨{ w0 with bad := [3] }, _, 3, rfl, by decide, by decide, rfl⟩⟩
/-! ### Events of checkpoints, partitions, links and the boot -/

/-- The primary die with management registers. -/
def wMg (m : SMap W64) : State := wD0 { d0 with mgmt := m }
def ck0 : Ckpt := ⟨0, 1, [], [], true⟩
/-- Four images in the fabric window, as CKIMG0 to CKIMG3 describe them, which every die's decoder claims; port 1 of die 0 is up and its host port usable. -/
def wImg : State := { w0 with dies := [(0, { d0 with mgmt := [(0x70, 0x4000000000000000), (0x100, 0xC000000000001), (0x180, 0x7000), (0x188, 0xC000000000000), (0x190, 0xC000000000000), (0x198, 0xC000000000000), (0x1A0, 0xC000000000000)] }),
  (1, { Die.reset with mgmt := [(0x100, 0xC000000000001)] }), (2, { Die.reset with mgmt := [(0x100, 0xC000000000001)] }), (3, { Die.reset with mgmt := [(0x100, 0xC000000000001)] })] }
theorem met_CheckpointEvents_begin (h : Obligations.CheckpointEvents) : MetH (h.2.1 1) ∧ wImg.ckReach 0 = true :=
  ⟨⟨wImg, _, by decide, by decide, by decide +kernel, rfl⟩, by decide⟩
theorem met_CheckpointEvents_engine (h : Obligations.CheckpointEvents) :
    MetH (h.1 0) ∧ MetH (h.2.2.1 0) ∧ MetH (h.2.2.2.1 0) ∧ MetH (h.2.2.2.2.1 0 5) ∧ MetH h.2.2.2.2.2.2.1 :=
  ⟨⟨w0, _, .inl (by decide), rfl⟩, ⟨w0, _, by decide, rfl⟩, ⟨{ w0 with ckpt := some ck0, cores := [] }, _, ck0, by decide, rfl, rfl, by decide, rfl⟩,
   ⟨{ w0 with ckpt := some ck0 }, _, ck0, rfl, .inl ⟨rfl, by decide, by decide, by decide, rfl⟩⟩, ⟨w0, _, .inl ⟨rfl, rfl⟩⟩⟩
theorem met_CheckpointEvents_snapshots (h : Obligations.CheckpointEvents) :
    MetH (h.2.2.2.2.2.2.2.1 1) ∧ MetH (h.2.2.2.2.2.2.2.2.1 1) ∧ MetH (h.2.2.2.2.2.2.2.2.2.1 1) ∧ MetH (h.2.2.2.2.2.2.2.2.2.2.1 0) ∧ MetH (h.2.2.2.2.2.2.2.2.2.2.2 0) :=
  ⟨⟨w0, _, by decide, rfl⟩, ⟨w0, _, by decide, rfl⟩, ⟨w0, _, by decide, rfl⟩, ⟨wMg [(0x30, 5)], _, .inr (.inl ⟨by decide, by decide, rfl⟩)⟩, ⟨w0, _, rfl⟩⟩

/-- Partition 1 on die 0 without clusters, with configuration words. -/
def wP (c : SMap W64) : State := wD0 { d0 with cfg := [(0, 1), (8, 0xFFFFFF)] ++ c }
theorem met_PartitionEvents_live (h : Obligations.PartitionEvents) :
    MetH (h.1 0 1) ∧ MetH (h.2.1 0 0) ∧ MetH (h.2.2.1 0 1) ∧ MetH (h.2.2.2.1 0 1) ∧ MetH (h.2.2.2.2.1 0 1) ∧ MetH (h.2.2.2.2.2.1 0 1) ∧ MetH (h.2.2.2.2.2.2.1 0 1) ∧
    MetH (h.2.2.2.2.2.2.2.1 1) ∧ MetH (h.2.2.2.2.2.2.2.2.1 1) :=
  ⟨⟨wP [(0x10C0, 1)], _, by decide, by decide, by decide, by decide, rfl⟩, ⟨w0, _, .inl (by decide), rfl⟩, ⟨wP [(0x1000, 1), (0x1088, 4)], _, by decide, by decide, by decide, by decide, rfl⟩,
   ⟨w0, _, .inl (by decide), rfl⟩, ⟨w0, _, .inl (by decide), rfl⟩, ⟨wP [(0x1000, 1)], _, by decide, by decide, rfl, (fun e => by
      simp only [State.die, wP, wD0, w0, world, mget]; split <;> rfl), rfl⟩,
   ⟨w0, _, rfl⟩, ⟨wP [(0x1000, 1)], _, by decide, rfl⟩, ⟨wP [(0x1000, 1), (0x1088, 2)], _, 0, by decide, by decide, rfl⟩⟩
theorem met_PartitionEvents_swap (h : Obligations.PartitionEvents) :
    MetH (h.2.2.2.2.2.2.2.2.2.1 0 1 1) ∧ MetH (h.2.2.2.2.2.2.2.2.2.2.1 0 1 1) ∧ MetH (h.2.2.2.2.2.2.2.2.2.2.2.1 0 1 3) ∧ MetH (h.2.2.2.2.2.2.2.2.2.2.2.2.1 0 1 3) ∧
    MetH (h.2.2.2.2.2.2.2.2.2.2.2.2.2.1 1) ∧ MetH (h.2.2.2.2.2.2.2.2.2.2.2.2.2.2.1 0 9 5) ∧ MetH (h.2.2.2.2.2.2.2.2.2.2.2.2.2.2.2.1 0 0x08 5) ∧
    MetH (h.2.2.2.2.2.2.2.2.2.2.2.2.2.2.2.2 0 5) :=
  ⟨⟨w0, _, by decide, by decide, by decide, .inl (by decide), rfl⟩,
   ⟨{ wP [(0x1000, 1)] with gangs := [] }, _, by decide, by decide, by decide, by decide, by decide, by decide, by decide, (fun _ e => nomatch e), by decide, rfl⟩,
   ⟨w0, _, by decide, by decide, by decide, .inl (by decide), rfl⟩,
   ⟨wD0 { d0 with cfg := [(0, 1), (8, 0xFFFFFF), (0x1000, 1), (0x1090, 16)], swaps := [sw0] }, _, sw0, by decide, by decide, by decide, by decide, by decide, by decide, rfl, by decide, by decide, rfl⟩,
   ⟨wP [(0x1000, 1), (0x1090, 8)], _, 0, by decide, by decide, rfl⟩, ⟨w0, _, .inr (.inr (by decide)), rfl⟩, ⟨w0, _, rfl, rfl, by decide, rfl⟩, ⟨w0, _, rfl, rfl, rfl⟩⟩

theorem met_LinkEvents_dieLinks (h : Obligations.LinkEvents) :
    MetH (h.1 0 0 5) ∧ MetH (h.2.1 0 0 5) ∧ MetH (h.2.2.1 0 0 5) ∧ MetH (h.2.2.2.1 0 0) ∧ MetH (h.2.2.2.2.1 0 0) ∧ MetH (h.2.2.2.2.2.1 0 0) ∧ MetH (h.2.2.2.2.2.2.1 0) ∧
    MetH (h.2.2.2.2.2.2.2.1 0) ∧ MetH (h.2.2.2.2.2.2.2.2.1 1) :=
  ⟨⟨w0, _, rfl⟩, ⟨w0, _, by decide, rfl⟩, ⟨wD0 { d0 with training := [0] }, _, by decide, by decide, rfl⟩, ⟨w0, _, rfl⟩, ⟨wMg [(dlReg 0, 0x8000000000000000)], _, by decide, rfl⟩,
   ⟨w0, _, by decide, rfl⟩, ⟨w0, _, .inl rfl, rfl⟩, ⟨wD0 { d0 with isoReq := true }, _, rfl, rfl, rfl, rfl⟩,
   ⟨{ w0 with dies := [(0, d0), (1, { Die.reset with isoReq := true })] }, _, rfl, rfl, by decide, rfl⟩⟩
theorem met_LinkEvents_ports (h : Obligations.LinkEvents) :
    MetH (h.2.2.2.2.2.2.2.2.2.1 0 1) ∧ MetH (h.2.2.2.2.2.2.2.2.2.2.1 0 1) ∧ MetH (h.2.2.2.2.2.2.2.2.2.2.2.1 0 1 3 16) ∧ MetH (h.2.2.2.2.2.2.2.2.2.2.2.2.1 0 1) ∧
    MetH (h.2.2.2.2.2.2.2.2.2.2.2.2.2.1 0 1) ∧ MetH (h.2.2.2.2.2.2.2.2.2.2.2.2.2.2.2.1 0 1) ∧ MetH (h.2.2.2.2.2.2.2.2.2.2.2.2.2.2.2.2.1 0 1) ∧ MetH (h.2.2.2.2.2.2.2.2.2.2.2.2.2.2.2.2.2.1 0 1) :=
  ⟨⟨w0, _, by decide, rfl⟩, ⟨wMg [(portReg 1, 0x4000000000000000)], _, by decide, rfl⟩, ⟨w0, _, rfl⟩, ⟨w0, _, rfl⟩, ⟨w0, _, rfl⟩,
   ⟨wMg [(portReg 1, 0xC000000000000000)], _, by decide, by decide, by decide, rfl, rfl⟩, ⟨w0, _, .inl (by decide), rfl⟩,
   ⟨w0, _, by decide, .inl ⟨by decide, rfl⟩⟩⟩
theorem met_LinkEvents_thermal (h : Obligations.LinkEvents) :
    MetH (h.2.2.2.2.2.2.2.2.2.2.2.2.2.2.2.2.2.2.1 0) ∧ MetH (h.2.2.2.2.2.2.2.2.2.2.2.2.2.2.2.2.2.2.2.1 0) ∧ w0.level 0 ≠ 2 ∧
    MetH (h.2.2.2.2.2.2.2.2.2.2.2.2.2.2.2.2.2.2.2.2.2.1 0) ∧ MetH (h.2.2.2.2.2.2.2.2.2.2.2.2.2.2.2.2.2.2.2.2.2.2.1 false) ∧
    MetH (h.2.2.2.2.2.2.2.2.2.2.2.2.2.2.2.2.2.2.2.2.2.2.2.1 true) ∧ MetH (h.2.2.2.2.2.2.2.2.2.2.2.2.2.2.2.2.2.2.2.2.2.2.2.2 0) :=
  ⟨⟨w0, _, by decide, rfl⟩, ⟨{ w0 with gtc := 10000 }, _, by decide, by decide, rfl⟩, by decide, ⟨w0, _, .inr ⟨by decide, rfl⟩⟩, ⟨w0, _, rfl, rfl⟩, ⟨w0, _, by decide, rfl⟩,
   ⟨w0, _, .inl ⟨by decide, rfl⟩⟩⟩
def dOff : Die := { d0 with booted := false }
theorem met_BootEvents_boot (h : Obligations.BootEvents) :
    MetH (h.1 0) ∧ MetH (h.2.1 0) ∧ MetH (h.2.2.1 0) ∧ MetH h.2.2.2.1 ∧ w0.gtcOn = true ∧ MetH h.2.2.2.2.2.1 :=
  ⟨⟨w0, _, .inl rfl, rfl⟩, ⟨wD0 dOff, _, rfl, rfl, .inl rfl, rfl, rfl⟩, ⟨wD0 { dOff with imgA := 1, imgB := 1 }, _, rfl, rfl, by decide, by decide, rfl⟩,
   ⟨w0, _, .inr ⟨.inl rfl, rfl⟩⟩, rfl, ⟨{ w0 with gtcOn := false }, _, rfl, rfl⟩⟩
theorem met_BootEvents_release (h : Obligations.BootEvents) :
    MetH h.2.2.2.2.2.2.1 ∧ MetH h.2.2.2.2.2.2.2.1 ∧ MetH (h.2.2.2.2.2.2.2.2.1 0 5) ∧ MetH (h.2.2.2.2.2.2.2.2.2.1 0 5) :=
  ⟨⟨{ w0 with gtcOn := false }, _, by decide, rfl⟩, ⟨w0, _, rfl, by decide, by decide, rfl⟩, ⟨w0, _, by decide, rfl⟩, ⟨wMg [(0, 0x20000000000)], _, by decide, rfl⟩⟩

/-! ### Steps, encodings, invariants -/

/-- A strand with the clause of `c0` fetched, whose turn is forced. -/
def xC (w : W64) : Slot := { x0 with clause := some ⟨0, 0xFF30000000000000, [w, w]⟩ }
theorem met_StepRunsDecoded_forced : (({ wx (xC 0x3E00000000000000) with turn := forced } : State).fetched (.slot 1) = some 0x3E00000000000000 ∧
    ∃ i, decode ((0x3E00000000000000 : W64).toNat) = .ok i) ∧ (({ wx (xC 0) with turn := forced } : State).fetched (.slot 1) = some 0 ∧ ∃ e, decode ((0 : W64).toNat) = .error e) ∧
    ((xC 0).hdrWait = false ∧ (xC 0).resuming = false ∧ ∃ c, (xC 0).clause = some c) :=
  ⟨⟨rfl, _, rfl⟩, ⟨rfl, _, rfl⟩, rfl, rfl, _, rfl⟩
def wStep : State := { wx (xC 0x3E00000000000000) with dies := [(0, d0), (1, { d0 with stopped := true, booted := false }), (2, { d0 with stopped := true, booted := false }), (3, { d0 with stopped := true, booted := false })], turn := 0, gtcOn := false, cycle := 1, inputs := [(5, .nop)] }
theorem met_StepRunsDecoded_schedule : wStep.turn ≠ forced ∧ wStep.liveSlots.find? wStep.reissues = none ∧ wStep.nobody.internal = none ∧ (∀ e ∈ wStep.inputs, wStep.gtc < e.1) ∧
    wStep.nobody.event = none ∧ wStep.gtcOn = false ∧ wStep.nextAgent = some 1 ∧ (wStep.slot 1).seqRep = none ∧ (wStep.atBoundary 1 = false ∨ wStep.irqOf 1 = none) ∧
    wStep.fetched (.slot 1) = some 0x3E00000000000000 := by decide +kernel
theorem met_StepRunsDecoded_input : ({ wStep with gtc := 5 } : State).inputs.find? (fun x => decide (x.1 ≤ ({ wStep with gtc := 5 } : State).gtc)) = some (5, .nop) := rfl
/-- The primary host port is up, and the snoop filter holds the lines `f`: the host has lost line 16, and the strand's instruction waits for its answer. -/
def wHost (f : SMap Nat) : State := wD0 { d0 with filter := f, mgmt := [(portReg 0, 0x4000000000000000)] }
theorem met_StepRunsDecoded_host : freesLines .nop = false ∧ (wHost [(16, 2)]).cur = .slot 1 ∧ (wHost [(16, 2)]).hostOwes (wHost []) = some (16, true) ∧
    State.reset.hostOwes State.reset = none ∧ (∀ d, d < 4 → (State.reset.die d).filter = []) ∧ freesLines (.birsp 16 true) = true := by decide +kernel
theorem met_ReservedOpcodes : wf (0 : W64) 56 8 = 0 ∧ (wx (xC 0)).fetched (.slot 1) = some 0 ∧ wf (0xFD00000000000000 : W64) 56 8 = 0xFD ∧
    ({ wM { kM with seqClause := some ⟨0, 0, [0xFD00000000000000]⟩ } with cur := .seq 0 } : State).fetched (.seq 0) = some 0xFD00000000000000 :=
  ⟨by decide, rfl, by decide, rfl⟩
theorem met_EncodingRoundTrip : WellFormed (.addi ⟨3, 3, 0xFFFFFF4, .s64, false⟩) = true ∧ encode (.addi ⟨3, 3, 0xFFFFFF4, .s64, false⟩) = some 0x1900303FFFF0FF40 := by decide
theorem met_MemoryFormKept : Memory.wf (wM kM).mem = true ∧ ∃ t, step { wx (xC 0x3E00000000000000) with turn := forced } = .next t := ⟨by decide, _, rfl⟩

end Sys2Proof.Tests
end

/-! # Events of the engine, of the links and of the boot

What the model's function behind each event does, case by case, and from that the obligations O45, O53 and O54. -/

namespace Sys2Proof.Machine

/-- An event that always answers the next state `f s` happens as `eff` says when `eff` only relates `s` to `f s`. -/
theorem happens_next {i : Instr} {eff : State → State → Prop} {f : State → State} (hexec : ∀ s, exec i s = .next (f s))
    (heff : ∀ s t, eff s t → f s = t) : Happens i eff :=
  fun s t h => (hexec s).trans (congrArg _ (heff s t h))

/-! ### Commands of an engine (R288, R289, R292) -/

theorem Cluster.group_of_grp_none {c : Cmd} (x : Cluster) (h : c.grp = none) : x.group c = [c] := by simp [Cluster.group, h]

theorem State.sidesReady_of_no_furrow {c : Cmd} (s : State) (cl : Nat) (hsrc : c.src.bind Side.furrow? = none) (hdst : c.dst.bind Side.furrow? = none) :
    s.sidesReady cl c = true := by simp [State.sidesReady, hsrc, hdst]

section
variable {s : State} {cl n : Nat} {c : Cmd} (hfind : (s.cluster cl).cmds.find? (fun c => c.seq == n) = some c)
include hfind

theorem State.tryStart_of_ready (hgrp : c.grp = none) (hready : (s.cluster cl).ready c = true) (hsrc : c.src.bind Side.furrow? = none)
    (hdst : c.dst.bind Side.furrow? = none) : s.tryStart cl n = s.startCmd cl c := by
  simp [State.tryStart, hfind, Cluster.group_of_grp_none _ hgrp, hready, hsrc, hdst, s.sidesReady_of_no_furrow cl hsrc hdst]

theorem State.tryStart_of_not_ready (hgrp : c.grp = none) (hready : (s.cluster cl).ready c = false) : s.tryStart cl n = s := by
  simp [State.tryStart, hfind, Cluster.group_of_grp_none _ hgrp, hready]

theorem State.completeCmd_of_filled (hstart : c.started = true) (hfill : s.fillReady c = true) : s.completeCmd cl n = (s.moveData cl c).finishCmd cl c := by
  simp [State.completeCmd, hfind, hstart, hfill]

theorem State.completeCmd_of_not_filled (h : c.started = false ∨ s.fillReady c = false) : s.completeCmd cl n = s := by
  rcases h with h | h <;> simp [State.completeCmd, hfind, h]
end

theorem State.modPlace_slot_park {s : State} {j : Nat} {p : Park} {f : Park → Park} (h : (s.slot j).park = some p) :
    s.modPlace (.slot j) (fun z => { z with park := z.park.map f }) = s.modSlot j (fun z => { z with park := some (f p) }) := by
  simp [State.modPlace, State.modSlot, h]

/-- R288: nothing is taken while no command waits or the engine is full. -/
theorem execCommandAcceptance_of_none {s : State} {cl : Nat} (h : (s.cluster cl).pend = [] ∨ (s.cluster cl).room = false) :
    execCommandAcceptance cl s = .next s := by
  cases hp : (s.cluster cl).pend with
  | nil => simp [execCommandAcceptance, hp]
  | cons c rest => simp [execCommandAcceptance, hp, h.resolve_left (by simp [hp])]

/-- R288: the oldest waiting command is taken, and its strand, in slot `j`, holds the number. -/
theorem execCommandAcceptance_of_room {s s1 : State} {cl j : Nat} {c : Cmd} {rest : List Cmd} {p : Park} {n : W32}
    (hpend : (s.cluster cl).pend = c :: rest) (hroom : (s.cluster cl).room = true)
    (hacc : (s.modCluster cl (fun x => { x with pend := rest })).acceptCmd cl c = (n, s1)) (hplace : s1.cmdPlace c = .slot j)
    (hpark : (s1.slot j).park = some p) :
    execCommandAcceptance cl s = .next (s1.modSlot j (fun z => { z with park := some { p with on := .accepted c.numReg n.toNat } })) := by
  have hacc' : (s.setCluster cl { s.cluster cl with pend := rest }).acceptCmd cl c = (n, s1) := hacc
  simp only [execCommandAcceptance, hpend, hroom, hacc', hplace, Bool.not_true, Bool.false_eq_true, if_false]
  exact congrArg _ (State.modPlace_slot_park hpark)

/-! ### An error of the engine's state (R472) -/

/-- No started command: none is completed before the engine is reinitialised. -/
theorem started_cmds_nil {x : Cluster} (h : ∀ c ∈ x.cmds, c.started = false) : (x.cmds.filter (·.started)).map (·.seq) = [] := by
  simpa [List.filter_eq_nil_iff] using h
/-- No live gang on the cluster: none is aborted. -/
theorem live_gangs_nil {s : State} {cl : Nat} (h : ∀ g ∈ s.gangs, g.retired = true ∨ cl ∉ g.clusters) :
    (s.gangs.filter (fun g => !g.retired && g.clusters.contains cl)).map (·.id) = [] := by
  rw [List.map_eq_nil_iff, List.filter_eq_nil_iff]
  intro g hg
  rcases h g hg with hr | hc
  · simp [hr]
  · simp [hc]

/-- Settles O45: each event's function, in the case that the clause names. -/
theorem engineEvents : Obligations.EngineEvents := by
  unfold Obligations.EngineEvents
  refine ⟨?_, ?_, ?_, ?_, ?_, ?_, ?_⟩
  · rintro cl s t ⟨c, rest, j, p, hpend, hroom, hplace, hpark, rfl⟩
    exact (exec_commandAcceptance _).trans (execCommandAcceptance_of_room hpend hroom rfl hplace hpark)
  · rintro cl s t ⟨h, rfl⟩
    exact (exec_commandAcceptance _).trans (execCommandAcceptance_of_none h)
  · refine fun cl n => happens_next exec_commandStart ?_
    rintro s t ⟨c, hfind, hgrp, hready, hsrc, hdst, rfl⟩
    exact State.tryStart_of_ready hfind hgrp hready hsrc hdst
  · refine fun cl n => happens_next exec_commandStart ?_
    rintro s t ⟨c, hfind, hgrp, hready, rfl⟩
    exact State.tryStart_of_not_ready hfind hgrp hready
  · refine fun cl n => happens_next exec_commandCompletion ?_
    rintro s t ⟨c, hfind, ⟨hstart, hfill, rfl⟩ | ⟨h, rfl⟩⟩
    · exact State.completeCmd_of_filled hfind hstart hfill
    · exact State.completeCmd_of_not_filled hfind h
  · refine fun cl => happens_next exec_combiningWindowClose ?_
    rintro s t ⟨w, rest, hw, rfl⟩
    simp only [State.modCluster, hw]
  · rintro cl s t ⟨hcmds, hgangs, rfl⟩
    rw [exec_engineStateError]
    simp only [execEngineStateError, started_cmds_nil hcmds, List.foldl_nil, live_gangs_nil hgangs]

/-! ### Die links (R459 to R461) -/

theorem State.failLink_of_failed {s : State} {d n : Nat} (h : bitAt (s.dl d (n % 2)) 63 = true) : s.failLink d n = s := if_pos h
theorem State.retireMod_of_not_due {s : State} {d n m : Nat} (h : s.retireDue d n m = false) : s.retireMod d n m = s := by simp [State.retireMod, h]
theorem State.isolate_of_none {s : State} {d : Nat} (h : (s.die d).isoReq = false ∨ (s.die d).isolated = true) : s.isolate d = s :=
  if_pos (by simpa using h)
/-- The guard of an isolation that goes on. -/
theorem isolate_guard {x : Die} (hreq : x.isoReq = true) (hiso : x.isolated = false) : ¬ (!x.isoReq || x.isolated) = true := by simp [hreq, hiso]
theorem State.isolate_of_primary {s : State} {d : Nat} (hreq : (s.die d).isoReq = true) (hiso : (s.die d).isolated = false) (hd : d = s.primary) :
    s.isolate d = (s.modDie d (fun x => { x with isoReq := false })).faultDevice :=
  (if_neg (isolate_guard hreq hiso)).trans (if_pos hd)

/-! ### CXL ports (R463 to R465) -/

theorem State.enterViral_of_not_host {s : State} {d p : Nat} (c : Nat) (h : ¬ (d = s.primary ∧ p = 0)) :
    s.enterViral d p c = (s.modPort d p (fun r => setBit r 63 true)).logDie d (evEntry (srcOfUnit d 25 p) 0x5C 3 0 (portNo d p) (natW c)) := if_neg h
theorem State.clearViral_of_down_or_fault {s : State} {d p : Nat} (h : bitAt (s.mg d (portReg p)) 62 = false ∨ s.deviceFault = true) :
    s.clearViral d p = s := by
  rcases h with h | h <;> simp [State.clearViral, h]
theorem State.clearViral_of_up {s : State} {d p : Nat} (hp : p ≠ 0) (hviral : bitAt (s.mg d (portReg p)) 63 = true)
    (hup : bitAt (s.mg d (portReg p)) 62 = true) (hfault : s.deviceFault = false) :
    s.clearViral d p = s.setMg d (portReg p) (setBit (s.mg d (portReg p)) 63 false) := by
  simp [State.clearViral, hp, hviral, hup, hfault]

/-! ### Thermal and power limits (R484 to R486) -/

theorem State.thermStep_of_early {s : State} {d : Nat} (h : s.gtcOf d < (s.die d).clkTick + 10000) : s.thermStep d = s := by
  simp [State.thermStep, State.stepDue, h]
theorem State.thermStep_of_due {s : State} {d : Nat} (hdue : (s.die d).clkTick + 10000 ≤ s.gtcOf d) (hl : s.level d ≠ 2) :
    s.thermStep d = (s.setClock d (s.nextClk d) (if s.nextClk d < 2400 then 1 else 0) (decide (s.nextClk d < s.clk d))).modDie d
      (fun x => { x with clkTick := s.gtcOf d }) := by
  simp [State.thermStep, State.stepDue, hdue, hl]

theorem State.not_tooHot_of_coolAgain {s : State} {d : Nat} (h : s.coolAgain d = true) : s.tooHot d = false := by
  simp only [State.coolAgain, Bool.and_eq_true, Bool.not_eq_true'] at h
  obtain ⟨⟨hot, -⟩, -⟩ := h
  exact hot

section
variable {s : State} {d : Nat} (hl : s.level d ≠ 2)
include hl

theorem State.nextClk_of_tooHot (hot : s.tooHot d = true) (hclk : 1300 ≤ s.clk d) : s.nextClk d = s.clk d - 100 := by
  have hmax : Nat.max 1200 (s.clk d - 100) = s.clk d - 100 := Nat.max_eq_right (by omega)
  simp [State.nextClk, hl, hot, hmax, show ¬ s.clk d ≤ 1200 by omega]

theorem State.nextClk_of_coolAgain (cool : s.coolAgain d = true) (hclk : s.clk d ≤ 2300) : s.nextClk d = s.clk d + 100 := by
  have hmin : Nat.min 2400 (s.clk d + 100) = s.clk d + 100 := Nat.min_eq_right (by omega)
  simp [State.nextClk, hl, State.not_tooHot_of_coolAgain cool, cool, hmin]

theorem State.nextClk_of_neither (hot : s.tooHot d = false) (cool : s.coolAgain d = false) : s.nextClk d = s.clk d := by
  simp [State.nextClk, hl, hot, cool]
end

/-- Settles O53: each event's function, in the case that the clause names. The open words of events 0x58 and 0x5B (log entry 17), LEVEL 1 below 2,400 MHz
(log entry 34) and what an isolated die vacates (log entry 70) are the model's choices. -/
theorem linkEvents : Obligations.LinkEvents := by
  unfold Obligations.LinkEvents
  refine ⟨?crc, ?retireNot, ?retire, ?retrained, ?failedAlready, ?fails, ?isoNot, ?isoPrimary, ?iso, ?downAlready, ?down, ?up, ?viral, ?viralErr, ?viralEq,
    ?clear, ?clearNot, ?retry, ?clockEarly, ?clock, ?nextClk, ?critical, ?powerSame, ?power, ?trip⟩
  case crc => exact fun d n m => happens_next exec_dieLinkCrcError (fun s t h => h.symm)
  case retireNot =>
    refine fun d n m => happens_next exec_dieLinkModuleRetire ?_
    rintro s t ⟨hdue, rfl⟩
    exact State.retireMod_of_not_due hdue
  case retire =>
    refine fun d n m => happens_next exec_dieLinkModuleRetire ?_
    rintro s t ⟨hdue, hleft, rfl⟩
    exact (if_neg (by simp [hdue])).trans (if_neg (Nat.not_lt.2 hleft))
  case retrained => exact fun d n => happens_next exec_dieLinkRetrainDone (fun s t h => h.symm)
  case failedAlready =>
    refine fun d n => happens_next exec_dieLinkFailure ?_
    rintro s t ⟨hfail, rfl⟩
    exact State.failLink_of_failed hfail
  case fails =>
    refine fun d n => happens_next exec_dieLinkFailure ?_
    rintro s t ⟨hfail, rfl⟩
    exact if_neg (by simp [hfail])
  case isoNot =>
    refine fun d => happens_next exec_dieIsolation ?_
    rintro s t ⟨h, rfl⟩
    exact State.isolate_of_none h
  case isoPrimary =>
    refine fun d => happens_next exec_dieIsolation ?_
    rintro s t ⟨hreq, hiso, hd, rfl⟩
    exact State.isolate_of_primary hreq hiso hd
  case iso =>
    refine fun d => happens_next exec_dieIsolation ?_
    rintro s t ⟨hreq, hiso, hd, rfl⟩
    exact (if_neg (isolate_guard hreq hiso)).trans (if_neg hd)
  case downAlready =>
    refine fun d p => happens_next exec_cxlLinkDown ?_
    rintro s t ⟨hup, rfl⟩
    exact if_pos (by simp [hup])
  case down =>
    refine fun d p => happens_next exec_cxlLinkDown ?_
    rintro s t ⟨hup, rfl⟩
    exact if_neg (by simp [hup])
  case up => exact fun d p sp w => happens_next exec_cxlLinkUp (fun s t h => h.symm)
  case viral => exact fun d p => happens_next exec_cxlViralEntry (fun s t h => h.symm)
  case viralErr => exact fun d p => happens_next exec_cxlViralEntry (fun s t h => h.symm)
  case viralEq => exact fun s d p c h => State.enterViral_of_not_host c h
  case clear =>
    refine fun d p => happens_next exec_cxlpsViralClear ?_
    rintro s t ⟨hp, hviral, hup, hfault, rfl⟩
    exact State.clearViral_of_up hp hviral hup hfault
  case clearNot =>
    refine fun d p => happens_next exec_cxlpsViralClear ?_
    rintro s t ⟨h, rfl⟩
    exact State.clearViral_of_down_or_fault h
  case retry =>
    refine fun d p => happens_next exec_linkLayerRetry ?_
    rintro s t ⟨hn, ⟨hmod, rfl⟩ | ⟨hmod, rfl⟩⟩
    · exact (if_neg (Nat.not_le.2 hn)).trans (if_neg hmod)
    · exact (if_neg (Nat.not_le.2 hn)).trans (if_pos hmod)
  case clockEarly =>
    refine fun d => happens_next exec_thermalClockStep ?_
    rintro s t ⟨h, rfl⟩
    exact State.thermStep_of_early h
  case clock =>
    refine fun d => happens_next exec_thermalClockStep ?_
    rintro s t ⟨hdue, hl, rfl⟩
    exact State.thermStep_of_due hdue hl
  case nextClk => exact fun s d hl => ⟨State.nextClk_of_tooHot hl, State.nextClk_of_coolAgain hl, State.nextClk_of_neither hl⟩
  case critical =>
    refine fun d => happens_next exec_thermalCritical ?_
    rintro s t (⟨hdue, rfl⟩ | ⟨hdue, rfl⟩)
    · exact if_pos hdue
    · exact if_neg (by simp [hdue])
  case powerSame =>
    refine fun b => happens_next exec_powerLimitInput ?_
    rintro s t ⟨h, rfl⟩
    exact if_pos h
  case power =>
    refine fun b => happens_next exec_powerLimitInput ?_
    rintro s t ⟨h, rfl⟩
    exact if_neg h
  case trip =>
    refine fun d => happens_next exec_thermalTrip ?_
    rintro s t (⟨hdue, rfl⟩ | ⟨hdue, rfl⟩)
    · exact if_pos (by simp [hdue])
    · exact if_neg (by simp [hdue])

/-! ### Boot (R352, R482) -/

/-- The guard of a boot that goes on. -/
theorem boot_guard {x : Die} (hb : x.booted = false) (hs : x.stopped = false) : ¬ (x.booted || x.stopped) = true := by simp [hb, hs]

/-! ### The GTC (R13) and device reset (R387) -/

/-- A map whose values a function changes that keeps the default. -/
theorem mget_map {α : Type} {d : α} {f : α → α} (hd : f d = d) (m : SMap α) (k : Nat) : mget d (m.map (fun e => (e.1, f e.2))) k = f (mget d m k) := by
  induction m with
  | nil => exact hd.symm
  | cons e rest ih =>
    simp only [List.map_cons, mget]
    split
    · rfl
    · exact ih

/-- The slot after a tick: the wait count of a parked strand advances (R338). -/
def Slot.ticked (x : Slot) : Slot := if x.counts then x.ticks 1 else x

theorem Slot.counts_iff (x : Slot) : x.counts = true ↔ x.phase = .parked ∧ x.park ≠ none := by
  simp [Slot.counts, Option.isSome_iff_ne_none]
theorem State.tick_of_off {s : State} (h : s.gtcOn = false) : s.tick = s := by simp [State.tick, State.ticks, h]
theorem State.tick_of_on {s : State} (h : s.gtcOn = true) :
    s.tick = { s with gtc := (s.gtc + 1) % 2 ^ 64, acc := s.acc - Nat.max 1 (s.clk s.primary), slots := s.slots.map (fun e => (e.1, e.2.ticked)) } := by
  have hslots : s.slots.map (fun e => if e.2.counts then (e.1, e.2.ticks 1) else e) = s.slots.map (fun e => (e.1, e.2.ticked)) :=
    List.map_congr_left fun e _ => by unfold Slot.ticked; split <;> rfl
  simp [State.tick, State.ticks, h, hslots]
theorem State.tick_slot {s : State} (h : s.gtcOn = true) (k : Nat) : s.tick.slot k = (s.slot k).ticked := by
  rw [State.tick_of_on h]
  exact mget_map rfl s.slots k

theorem Die.reset_rebooted : Die.reset.rebooted = Die.reset := rfl

/-- Settles O54: each event's function, in the case that the clause names; a tick and a device reset by what they do to each slot and die.
The verdicts on the image slots are inputs (log entry 14), and the release delay is free (log entry 35). -/
theorem bootEvents : Obligations.BootEvents := by
  unfold Obligations.BootEvents
  refine ⟨?bootNot, ?boot, ?bootFails, ?gtcStart, ?tick, ?tickOff, ?enableNot, ?enable, ?spdmError, ?spdm, ?reset⟩
  case bootNot =>
    refine fun d => happens_next exec_bootRom ?_
    rintro s t ⟨h, rfl⟩
    exact if_pos (by simpa using h)
  case boot =>
    refine fun d => happens_next exec_bootRom ?_
    rintro s t ⟨hb, hs, himg, hfw, rfl⟩
    by_cases hA : (s.die d).imgA = 0
    · simp [State.boot, hb, hs, hA, hfw]
    · simp [State.boot, hb, hs, hA, himg.resolve_left hA, hfw]
  case bootFails =>
    refine fun d => happens_next exec_bootRom ?_
    rintro s t ⟨hb, hs, hA, hB, rfl⟩
    exact (if_neg (boot_guard hb hs)).trans ((if_neg hA).trans (if_neg hB))
  case gtcStart =>
    refine happens_next exec_gtcStart ?_
    rintro s t (⟨hoff, hready, rfl⟩ | ⟨h, rfl⟩)
    · exact if_neg (by simp [hoff, hready])
    · exact if_pos (by simpa using h)
  case tick =>
    intro s hon
    refine ⟨s.tick, exec_gtcTick s, ?_, ?_, ?_, ?_, fun k => ?_⟩
    · rw [State.tick_of_on hon]
    · rw [State.tick_of_on hon]
    · rw [State.tick_of_on hon]
    · rw [State.tick_of_on hon]
    · simp only [State.tick_slot hon, Slot.ticked, Slot.counts_iff]
  case tickOff =>
    refine happens_next exec_gtcTick ?_
    rintro s t ⟨hoff, rfl⟩
    exact State.tick_of_off hoff
  case enableNot =>
    refine happens_next exec_clusterEnableStep ?_
    rintro s t ⟨hdue, rfl⟩
    exact if_pos (by simp [hdue])
  case enable =>
    refine happens_next exec_clusterEnableStep ?_
    rintro s t ⟨hon, hstep, htick, rfl⟩
    exact if_neg (by simp [State.enableDue, hon, hstep, htick])
  case spdmError =>
    refine fun d nonce => happens_next exec_spdmMeasurementRequest ?_
    rintro s t ⟨hidk, rfl⟩
    exact if_neg (by simp [hidk])
  case spdm =>
    refine fun d nonce => happens_next exec_spdmMeasurementRequest ?_
    rintro s t ⟨hidk, rfl⟩
    exact if_pos hidk
  case reset =>
    intro s
    refine ⟨_, exec_deviceReset s, rfl, rfl, rfl, rfl, rfl, rfl, rfl, rfl, rfl, rfl, fun d => ?_⟩
    have hdie : mget Die.reset (s.dies.map (fun e => (e.1, e.2.rebooted))) d = (s.die d).rebooted := mget_map Die.reset_rebooted s.dies d
    exact ⟨congrArg Die.booted hdie, congrArg Die.cfg hdie⟩

end Sys2Proof.Machine

/-! # Integer arithmetic of the types (R83, R84, R202)

A source's value by type is the one number of the type's range that is congruent to its bits; from that, and from the identity of truncated division, O4. -/

namespace Sys2Proof.Machine

theorem width_pos (ty : Ty) : 0 < ty.width := by cases ty <;> decide

theorem two_pow_width (ty : Ty) : 2 ^ ty.width = 2 * 2 ^ (ty.width - 1) :=
  (Nat.two_pow_pred_mul_two (width_pos ty)).symm.trans (Nat.mul_comm ..)

theorem wrap_cast (w : Nat) (x : Int) : (wrap w x : Int) = x % (2 ^ w : Nat) :=
  Int.toNat_of_nonneg (Int.emod_nonneg _ (Int.natCast_ne_zero.2 (Nat.ne_of_gt (Nat.two_pow_pos w))))

theorem wrap_lt (w : Nat) (x : Int) : wrap w x < 2 ^ w := by
  have h := Int.emod_lt_of_pos x (Int.natCast_pos.2 (Nat.two_pow_pos w))
  rw [← wrap_cast] at h
  exact Int.ofNat_lt.1 h

theorem wrap_emod (w : Nat) (x : Int) : (wrap w x : Int) % (2 ^ w : Nat) = x % (2 ^ w : Nat) := by
  rw [wrap_cast, Int.emod_emod]

/-! ### The value of a source -/

theorem toSigned_emod (w n : Nat) : toSigned w n % (2 ^ w : Nat) = (n : Int) % (2 ^ w : Nat) := by
  have hn : ((n % 2 ^ w : Nat) : Int) % (2 ^ w : Nat) = (n : Int) % (2 ^ w : Nat) := by
    rw [Int.natCast_emod, Int.emod_emod]
  have hpow : (2 : Int) ^ w = (2 ^ w : Nat) := (Int.natCast_pow 2 w).symm
  unfold toSigned
  split
  · exact hn
  · rw [hpow, Int.sub_emod_right, hn]

theorem tyVal_emod (ty : Ty) (n : Nat) : tyVal ty n % (2 ^ ty.width : Nat) = (n : Int) % (2 ^ ty.width : Nat) := by
  unfold tyVal
  split
  · exact toSigned_emod _ _
  · rw [Int.natCast_emod, Int.emod_emod]

theorem tyVal_range (ty : Ty) (n : Nat) : tyMin ty ≤ tyVal ty n ∧ tyVal ty n ≤ tyMax ty := by
  have hlt := Nat.mod_lt n (Nat.two_pow_pos ty.width)
  have hpow : (2 : Int) ^ ty.width = (2 ^ ty.width : Nat) := (Int.natCast_pow 2 ty.width).symm
  have := two_pow_width ty
  unfold tyVal tyMin tyMax toSigned
  split
  · split <;> omega
  · omega

theorem tyMin_nonpos (ty : Ty) : tyMin ty ≤ 0 := by
  have := Nat.two_pow_pos (ty.width - 1)
  unfold tyMin
  split <;> omega

theorem tyMax_nonneg (ty : Ty) : 0 ≤ tyMax ty := by
  have := Nat.two_pow_pos (ty.width - 1)
  have := Nat.two_pow_pos ty.width
  unfold tyMax
  split <;> omega

/-- The range of a type holds 2^w numbers. -/
theorem tyMax_sub_tyMin (ty : Ty) : tyMax ty - tyMin ty = (2 ^ ty.width : Nat) - 1 := by
  have := two_pow_width ty
  unfold tyMax tyMin
  split <;> omega

/-- Two numbers of a type's range that agree modulo 2^w are equal. -/
theorem eq_of_emod_of_range {ty : Ty} {x y : Int} (hx : tyMin ty ≤ x ∧ x ≤ tyMax ty) (hy : tyMin ty ≤ y ∧ y ≤ tyMax ty)
    (h : x % (2 ^ ty.width : Nat) = y % (2 ^ ty.width : Nat)) : x = y := by
  have hw := tyMax_sub_tyMin ty
  have hdvd := Int.dvd_of_emod_eq_zero (Int.emod_eq_emod_iff_emod_sub_eq_zero.1 h)
  have hd : x - y = 0 := Int.eq_zero_of_dvd_of_natAbs_lt_natAbs hdvd (by omega)
  omega

theorem tyVal_wrap {ty : Ty} {x : Int} (hlo : tyMin ty ≤ x) (hhi : x ≤ tyMax ty) : tyVal ty (wrap ty.width x) = x :=
  eq_of_emod_of_range (tyVal_range ty _) ⟨hlo, hhi⟩ ((tyVal_emod ty _).trans (wrap_emod _ x))

theorem tyVal_ne_zero {ty : Ty} {n : Nat} (h : n % 2 ^ ty.width ≠ 0) : tyVal ty n ≠ 0 := by
  intro h0
  have hmod := tyVal_emod ty n
  rw [h0, Int.zero_emod, ← Int.natCast_emod] at hmod
  exact h (Int.ofNat.inj hmod.symm)

/-- A saturated result is the exact one clamped to the type's range. -/
theorem tyVal_tyBits_sat (ty : Ty) (x : Int) : tyVal ty (tyBits ty true x) = max (tyMin ty) (min (tyMax ty) x) := by
  have := tyMin_nonpos ty
  have := tyMax_nonneg ty
  have hbits : tyBits ty true x = wrap ty.width (max (tyMin ty) (min (tyMax ty) x)) := rfl
  rw [hbits]
  exact tyVal_wrap (by omega) (by omega)

/-! ### Quotient and remainder -/

theorem tmod_natAbs_le (a b : Int) : (a.tmod b).natAbs ≤ a.natAbs := by
  rw [Int.natAbs_tmod]
  exact Nat.mod_le ..

theorem tmod_natAbs_lt (a : Int) {b : Int} (hb : b ≠ 0) : (a.tmod b).natAbs < b.natAbs := by
  rw [Int.natAbs_tmod]
  exact Nat.mod_lt _ (Int.natAbs_pos.2 hb)

theorem tmod_nonpos {a : Int} (b : Int) (h : a ≤ 0) : a.tmod b ≤ 0 := by
  have := Int.tmod_nonneg b (Int.neg_nonneg.2 h)
  rw [Int.neg_tmod] at this
  omega

/-- The remainder lies between 0 and the dividend, so it is a number of the type. -/
theorem tyVal_wrap_tmod (ty : Ty) (a : Nat) (d : Int) : tyVal ty (wrap ty.width ((tyVal ty a).tmod d)) = (tyVal ty a).tmod d := by
  have hrange := tyVal_range ty a
  have hmin := tyMin_nonpos ty
  have hmax := tyMax_nonneg ty
  have hle := tmod_natAbs_le (tyVal ty a) d
  have hpos : 0 ≤ tyVal ty a → 0 ≤ (tyVal ty a).tmod d := Int.tmod_nonneg d
  have hneg : tyVal ty a ≤ 0 → (tyVal ty a).tmod d ≤ 0 := tmod_nonpos d
  exact tyVal_wrap (by omega) (by omega)

theorem divTy_of_zero {ty : Ty} {a b : Nat} (h : b % 2 ^ ty.width = 0) : divTy ty a b = (2 ^ ty.width - 1, a % 2 ^ ty.width, fIDZ) := if_pos h

theorem divTy_of_ne_zero {ty : Ty} {a b : Nat} (h : b % 2 ^ ty.width ≠ 0) :
    divTy ty a b = (wrap ty.width ((tyVal ty a).tdiv (tyVal ty b)), wrap ty.width ((tyVal ty a).tmod (tyVal ty b)), 0) := if_neg h

/-- Quotient times divisor plus remainder is the dividend, modulo 2^w. -/
theorem wrap_tdiv_mul_add_wrap_tmod (ty : Ty) (a b : Nat) :
    (wrap ty.width ((tyVal ty a).tdiv (tyVal ty b)) * b + wrap ty.width ((tyVal ty a).tmod (tyVal ty b))) % 2 ^ ty.width = a % 2 ^ ty.width := by
  have h : ((wrap ty.width ((tyVal ty a).tdiv (tyVal ty b)) : Int) * b + (wrap ty.width ((tyVal ty a).tmod (tyVal ty b)) : Int)) % (2 ^ ty.width : Nat) =
      (a : Int) % (2 ^ ty.width : Nat) := by
    rw [Int.add_emod, Int.mul_emod, wrap_emod, wrap_emod, ← tyVal_emod ty b, ← Int.mul_emod, ← Int.add_emod, Int.tdiv_mul_add_tmod, tyVal_emod]
  rw [← Int.natCast_mul, ← Int.natCast_add, ← Int.natCast_emod, ← Int.natCast_emod] at h
  exact Int.ofNat.inj h

/-- Settles O4: a wrapped result is congruent to the exact one, and truncated division's own identity and signs carry over to the bits. -/
theorem integerArithmetic : Obligations.IntegerArithmetic := by
  unfold Obligations.IntegerArithmetic
  refine ⟨fun ty x _ => ⟨wrap_emod _ x, wrap_lt _ x, tyVal_tyBits_sat ty x⟩, fun ty a b _ => ⟨divTy_of_zero, fun hb => ?_⟩⟩
  rw [divTy_of_ne_zero hb, tyVal_wrap_tmod]
  exact ⟨rfl, wrap_emod _ _, wrap_tdiv_mul_add_wrap_tmod ty a b, tmod_natAbs_lt _ (tyVal_ne_zero hb), Int.tmod_nonneg _, tmod_nonpos _⟩

end Sys2Proof.Machine

/-! # Products, folds and the residue number system (R99 to R106, R313, R314)

The dot product of two bit-sliced rows is the sum of the products of their elements, the residues of R102 give back every number of their range, and an
operation on a tile changes its cells alone; from these, O35. -/

namespace Sys2Proof.Machine

/-! ### Dot products of bit planes (R99, R102) -/

/-- The sum of `f` over the numbers below `n`. -/
def sumTo (n : Nat) (f : Nat → Int) : Int := ((List.range n).map f).sum

theorem sumTo_zero (f : Nat → Int) : sumTo 0 f = 0 := rfl
theorem sumTo_succ (n : Nat) (f : Nat → Int) : sumTo (n + 1) f = sumTo n f + f n := by
  simp only [sumTo, List.range_succ, List.map_append, List.sum_append_int, List.map_cons, List.map_nil, List.sum_cons, List.sum_nil, Int.add_zero]
theorem sumTo_succ_left (n : Nat) (f : Nat → Int) : sumTo (n + 1) f = f 0 + sumTo n (fun e => f (e + 1)) := by
  simp only [sumTo, List.range_succ_eq_map, List.map_cons, List.map_map, List.sum_cons]
  rfl
theorem sumTo_add (n : Nat) (f g : Nat → Int) : sumTo n (fun e => f e + g e) = sumTo n f + sumTo n g := by
  induction n with
  | zero => rfl
  | succ n ih =>
    rw [sumTo_succ, sumTo_succ, sumTo_succ, ih]
    omega
theorem sumTo_mul_left (n : Nat) (c : Int) (f : Nat → Int) : sumTo n (fun e => c * f e) = c * sumTo n f := by
  induction n with
  | zero => exact (Int.mul_zero c).symm
  | succ n ih => rw [sumTo_succ, sumTo_succ, ih, Int.mul_add]
theorem sumTo_mul_right (n : Nat) (c : Int) (f : Nat → Int) : sumTo n (fun e => f e * c) = sumTo n f * c := by
  rw [Int.mul_comm, ← sumTo_mul_left]
  exact congrArg (sumTo n) (funext fun e => Int.mul_comm ..)
theorem sumTo_comm (n m : Nat) (f : Nat → Nat → Int) : sumTo n (fun i => sumTo m (fun j => f i j)) = sumTo m (fun j => sumTo n (fun i => f i j)) := by
  induction n with
  | zero =>
    induction m with
    | zero => rfl
    | succ m ih => rw [sumTo_succ, ← ih]; rfl
  | succ n ih => simp only [sumTo_succ, ih, sumTo_add]
theorem sumTo_mul_sumTo (n m : Nat) (f g : Nat → Int) : sumTo n f * sumTo m g = sumTo n (fun i => sumTo m (fun j => f i * g j)) := by
  simp only [sumTo_mul_left, sumTo_mul_right]

theorem foldl_add_eq_sum (n : Nat) (f : Nat → Int) (t : Int) : (List.range n).foldl (fun u i => u + f i) t = t + sumTo n f := by
  induction n with
  | zero => exact (Int.add_zero t).symm
  | succ n ih => rw [List.range_succ, List.foldl_append, ih, sumTo_succ, ← Int.add_assoc]; rfl

theorem ones_eq_sum (n x : Nat) : (ones n x : Int) = sumTo n (fun e => ((x / 2 ^ e % 2 : Nat) : Int)) := by
  induction n generalizing x with
  | zero => rfl
  | succ n ih =>
    rw [ones, Int.natCast_add, ih, sumTo_succ_left, Nat.pow_zero, Nat.div_one]
    simp only [Nat.div_div_eq_div_mul, Nat.pow_succ']

theorem and_bit (x y e : Nat) : (x &&& y) / 2 ^ e % 2 = (x / 2 ^ e % 2) * (y / 2 ^ e % 2) := by
  simp only [← Nat.toNat_testBit, Nat.testBit_and]
  cases x.testBit e <;> cases y.testBit e <;> rfl

/-- Plane `b` of row `r` of a half, at element `e`, with its weight. -/
def Half.planeTerm (h : Half) (r e b : Nat) : Int := weight h.planes.length b * ((nth 0 (nth [] h.planes b) r / 2 ^ e % 2 : Nat) : Int)

theorem elem_eq_sum (h : Half) (r e : Nat) : h.elem r e = sumTo h.planes.length (h.planeTerm r e) :=
  (foldl_add_eq_sum _ (h.planeTerm r e) 0).trans (Int.zero_add _)

theorem mul_mul_mul_swap (a b c d : Int) : a * b * (c * d) = a * c * (b * d) := by
  rw [Int.mul_assoc, Int.mul_left_comm b c d, ← Int.mul_assoc]

/-- One plane of A against one plane of B, over the elements of a chunk. -/
theorem planePair_eq_sum (a b : Half) (r c i j : Nat) :
    weight a.planes.length i * weight b.planes.length j * (ones 128 (nth 0 (nth [] a.planes i) r &&& nth 0 (nth [] b.planes j) c) : Nat) =
      sumTo 128 (fun e => a.planeTerm r e i * b.planeTerm c e j) := by
  rw [ones_eq_sum, ← sumTo_mul_left]
  refine congrArg (sumTo 128) (funext fun e => ?_)
  rw [and_bit, Int.natCast_mul, Half.planeTerm, Half.planeTerm, mul_mul_mul_swap]

theorem dot_eq_sum_planes (a b : Half) (r c : Nat) : dot a b r c =
    sumTo a.planes.length (fun i => sumTo b.planes.length (fun j => sumTo 128 (fun e => a.planeTerm r e i * b.planeTerm c e j))) := by
  simp only [dot, planePair_eq_sum, foldl_add_eq_sum, Int.zero_add]

theorem dot_eq_sum_elem (a b : Half) (r c : Nat) : dot a b r c = sumTo 128 (fun e => a.elem r e * b.elem c e) := by
  simp only [dot_eq_sum_planes, elem_eq_sum, sumTo_mul_sumTo]
  rw [sumTo_comm 128]
  exact congrArg (sumTo _) (funext fun i => sumTo_comm ..)

/-! ### Residues (R103) -/

/-- The three weights of CrtSigned sum to 1 modulo M, and each times its own modulus is 0 modulo M. -/
theorem crtWeights_sum (x k1 k2 k3 : Int) : (x - 2047 * k1) * 1024 * 4196352 + (x - 2048 * k2) * 2047 * 4194303 + (x - 2049 * k3) * 1025 * 4192256 =
    x + 8589932544 * (2 * x - 1024 * k1 - 2047 * k2 - 1025 * k3) := by omega

theorem crtSum_residues (x : Int) : (((x % 2047).toNat * 1024 * 4196352 + (x % 2048).toNat * 2047 * 4194303 + (x % 2049).toNat * 1025 * 4192256 : Nat) : Int) % 8589932544 =
    x % 8589932544 := by
  have h1 : ((x % 2047).toNat : Int) = x - 2047 * (x / 2047) := by omega
  have h2 : ((x % 2048).toNat : Int) = x - 2048 * (x / 2048) := by omega
  have h3 : ((x % 2049).toNat : Int) = x - 2049 * (x / 2049) := by omega
  simp only [Int.natCast_add, Int.natCast_mul, h1, h2, h3]
  exact (congrArg (· % 8589932544) (crtWeights_sum ..)).trans (Int.add_mul_emod_self_left ..)

theorem crtSigned_residues {x : Int} (hlo : -4294966272 ≤ x) (hhi : x ≤ 4294966271) :
    crtSigned (x % 2047).toNat (x % 2048).toNat (x % 2049).toNat = x := by
  have ht := crtSum_residues x
  unfold crtSigned
  generalize (x % 2047).toNat * 1024 * 4196352 + (x % 2048).toNat * 2047 * 4194303 + (x % 2049).toNat * 1025 * 4192256 = t at ht ⊢
  dsimp only
  split <;> omega

/-! ### Cells of a tile (R105, R106, R313) -/

theorem mget_filter_key {α : Type} (d : α) (m : SMap α) (p : Nat → Bool) (k : Nat) : mget d (m.filter (fun e => p e.1)) k = if p k then mget d m k else d := by
  induction m with
  | nil => exact (ite_self d).symm
  | cons e m ih =>
    rw [List.filter_cons, mget]
    by_cases hk : k = e.1
    · subst hk
      by_cases hp : p e.1 = true
      · rw [if_pos hp, mget, if_pos rfl, if_pos rfl, if_pos hp]
      · rw [if_neg hp, ih, if_neg hp, if_neg hp]
    · rw [if_neg hk, ← ih]
      by_cases hp : p e.1 = true
      · rw [if_pos hp, mget, if_neg hk]
      · rw [if_neg hp]

theorem mget_filter_of_key {α : Type} {d : α} {m : SMap α} (p : Nat → Bool) {k : Nat} (h : p k = true) : mget d (m.filter (fun e => p e.1)) k = mget d m k :=
  (mget_filter_key d m p k).trans (if_pos h)

/-- No entry that a filter by key keeps has a key that the filter drops. -/
theorem ne_of_mem_filter_key {α : Type} {m : SMap α} (p : Nat → Bool) {k : Nat} (h : p k = false) : ∀ e ∈ m.filter (fun e => p e.1), e.1 ≠ k := by
  rintro e he rfl
  exact Bool.false_ne_true (h.symm.trans (List.mem_filter.1 he).2)

theorem mget_append_of_not_left {α : Type} {d : α} {m m' : SMap α} {k : Nat} (h : ∀ e ∈ m, e.1 ≠ k) : mget d (m ++ m') k = mget d m' k := by
  induction m with
  | nil => rfl
  | cons e m ih =>
    obtain ⟨he, hm⟩ := List.forall_mem_cons.1 h
    exact (if_neg he.symm).trans (ih hm)

theorem mget_of_not_mem {α : Type} {d : α} {m : SMap α} {k : Nat} (h : ∀ e ∈ m, e.1 ≠ k) : mget d m k = d := by
  rw [← List.append_nil m, mget_append_of_not_left h, mget]

theorem mget_append_of_not_right {α : Type} {d : α} {m m' : SMap α} {k : Nat} (h : ∀ e ∈ m', e.1 ≠ k) : mget d (m ++ m') k = mget d m k := by
  induction m with
  | nil => exact mget_of_not_mem h
  | cons e m ih => simp only [List.cons_append, mget, ih]

/-- The keys of the tiles before and after tile `t`. -/
def belowTile (t k : Nat) : Bool := decide (k < t * 16384)
def aboveTile (t k : Nat) : Bool := decide (t * 16384 + 16384 ≤ k)
/-- The entries of the cells of a tile that differ from the reset value, where cell `i` of the tile is `f i`. -/
def tileEntries (t : Nat) (f : Nat → Cell) (l : List Nat) : SMap Cell := l.filterMap (fun i => if f i = Cell.reset then none else some (t * 16384 + i, f i))

theorem mget_tileEntries (t : Nat) (f : Nat → Cell) (l : List Nat) (i : Nat) :
    mget Cell.reset (tileEntries t f l) (t * 16384 + i) = if i ∈ l then f i else Cell.reset := by
  induction l with
  | nil => rfl
  | cons j l ih =>
    unfold tileEntries at ih ⊢
    by_cases hij : i = j
    · subst hij
      by_cases hf : f i = Cell.reset <;> simp [hf, ih, mget]
    · by_cases hf : f j = Cell.reset <;> simp [hf, ih, mget, hij]

theorem mem_tileEntries {t : Nat} {f : Nat → Cell} {n : Nat} {e : Nat × Cell} (h : e ∈ tileEntries t f (List.range n)) :
    t * 16384 ≤ e.1 ∧ e.1 < t * 16384 + n := by
  obtain ⟨i, hi, hsome⟩ := List.mem_filterMap.1 h
  have hin := List.mem_range.1 hi
  split at hsome
  · cases hsome
  · cases hsome
    exact ⟨Nat.le_add_right .., Nat.add_lt_add_left hin _⟩

section
variable (x : Cluster) (t : Nat) (f : Nat → Nat → Cell → Cell)

theorem Cluster.mapTile_acc : (x.mapTile t f).acc = x.acc.filter (fun e => belowTile t e.1) ++
    tileEntries t (fun i => f (i / 128) (i % 128) (mget Cell.reset x.acc (t * 16384 + i))) (List.range 16384) ++
    x.acc.filter (fun e => aboveTile t e.1) := rfl

theorem Cluster.mget_mapTile {r c : Nat} (hr : r < 128) (hc : c < 128) :
    mget Cell.reset (x.mapTile t f).acc (t * 16384 + r * 128 + c) = f r c (mget Cell.reset x.acc (t * 16384 + r * 128 + c)) := by
  have hmem : r * 128 + c ∈ List.range 16384 := List.mem_range.2 (by omega)
  have hbelow : belowTile t (t * 16384 + r * 128 + c) = false := decide_eq_false (by omega)
  have habove : aboveTile t (t * 16384 + r * 128 + c) = false := decide_eq_false (by omega)
  have hrow : (r * 128 + c) / 128 = r := by omega
  have hcol : (r * 128 + c) % 128 = c := by omega
  rw [mapTile_acc, mget_append_of_not_right (ne_of_mem_filter_key _ habove), mget_append_of_not_left (ne_of_mem_filter_key _ hbelow), Nat.add_assoc,
    mget_tileEntries, if_pos hmem, hrow, hcol]

theorem Cluster.mget_mapTile_of_ne {i : Nat} (h : i / 16384 ≠ t) : mget Cell.reset (x.mapTile t f).acc i = mget Cell.reset x.acc i := by
  have hmid : ∀ e ∈ tileEntries t (fun i => f (i / 128) (i % 128) (mget Cell.reset x.acc (t * 16384 + i))) (List.range 16384), e.1 ≠ i := by
    intro e he
    have := mem_tileEntries he
    omega
  rw [mapTile_acc]
  by_cases hi : i < t * 16384
  · have habove : aboveTile t i = false := decide_eq_false (by omega)
    rw [mget_append_of_not_right (ne_of_mem_filter_key _ habove), mget_append_of_not_right hmid, mget_filter_of_key _ (decide_eq_true hi)]
  · have hbelow : belowTile t i = false := decide_eq_false hi
    have habove : aboveTile t i = true := decide_eq_true (by omega)
    rw [List.append_assoc, mget_append_of_not_left (ne_of_mem_filter_key _ hbelow), mget_append_of_not_left hmid, mget_filter_of_key _ habove]
end

/-! ### Products and folds (R313, R314) -/

theorem Cluster.find_of_half {x : Cluster} {key : Nat} {h : Half} (hh : x.half? key = some h) : ∃ k, x.halves.find? (fun e => e.1 == key) = some (k, h) := by
  obtain ⟨⟨k, h'⟩, hfind, rfl⟩ := Option.map_eq_some_iff.1 hh
  exact ⟨k, hfind⟩

/-- Settles O35: the instructions' bodies on loaded halves, the exchange of the sums over planes and elements, the Chinese remainder, and the cells of a tile. -/
theorem productsAndFolds : Obligations.ProductsAndFolds := by
  unfold Obligations.ProductsAndFolds
  refine ⟨⟨?mul, ?fold⟩, fun a b r c => dot_eq_sum_elem a b r c, fun x => crtSigned_residues,
    fun x t f => ⟨fun r c => x.mget_mapTile t f, fun i => x.mget_mapTile_of_ne t f, rfl⟩⟩
  case mul =>
    rintro o s cl t hcur ⟨a, b, ha, hb, haslot, hbslot, hakind, hbkind, hpanel, hpair, rfl⟩
    obtain ⟨ka, hka⟩ := Cluster.find_of_half ha
    obtain ⟨kb, hkb⟩ := Cluster.find_of_half hb
    refine (exec_xmul s).trans (matrixI_ok hcur ?_)
    have hchecks : (a.slot == o.aslot && b.slot == o.bslot && wf ((s.streamGang cl).fmtAt o.aslot) 0 4 == 0 && wf ((s.streamGang cl).fmtAt o.bslot) 0 4 == 1 &&
        wf ((s.streamGang cl).fmtAt o.aslot) 9 2 == wf ((s.streamGang cl).fmtAt o.bslot) 9 2 &&
        !pairBad ((s.streamGang cl).fmtAt o.aslot) ((s.streamGang cl).fmtAt o.bslot)) = true := by
      simp [haslot, hbslot, hakind, hbkind, hpanel, hpair]
    simp only [matMul, hka, hkb, sEnsure, if_pos hchecks]
    rfl
  case fold =>
    rintro o s cl t hcur ⟨a, b, ha, hb, hkind, rfl⟩
    obtain ⟨ka, hka⟩ := Cluster.find_of_half ha
    obtain ⟨kb, hkb⟩ := Cluster.find_of_half hb
    refine (exec_xfold s).trans (matrixI_ok hcur ?_)
    simp only [matFold, hka, hkb]
    exact if_neg (fun h => h hkind)

end Sys2Proof.Machine

/-! # Output conversion (R109, R315, R435)

What a write at the LS port does to each byte, what logging an event leaves alone, that a conversion fits its cell, and from these the bytes that `xcvt` stores: O36. -/

namespace Sys2Proof.Machine

/-- A part of the state that no step of a fold changes is as before it. -/
theorem foldl_keeps {σ α β : Type} (get : σ → β) {f : σ → α → σ} (h : ∀ s a, get (f s a) = get s) (l : List α) (s : σ) : get (l.foldl f s) = get s := by
  induction l generalizing s with
  | nil => rfl
  | cons a l ih => exact (ih _).trans (h s a)

/-! ### Writes at the LS port (R245, R268) -/

/-- Only local stores, their words' attributes, and what strands and save areas hold on them may differ. -/
def LsOnly (s t : State) : Prop := ∃ l e p x v, t = { s with ls := l, lsEmpty := e, lsPois := p, slots := x, saves := v }

namespace LsOnly
variable {s t u : State}

theorem refl (s : State) : LsOnly s s := ⟨_, _, _, _, _, rfl⟩
theorem trans (h : LsOnly s t) (g : LsOnly t u) : LsOnly s u := by
  obtain ⟨_, _, _, _, _, rfl⟩ := h
  obtain ⟨_, _, _, _, _, rfl⟩ := g
  exact ⟨_, _, _, _, _, rfl⟩
theorem foldl {α : Type} {f : State → α → State} (h : ∀ s a, LsOnly s (f s a)) (l : List α) (s : State) : LsOnly s (l.foldl f s) := by
  induction l generalizing s with
  | nil => exact .refl s
  | cons a l ih => exact (h s a).trans (ih _)
theorem ite {c : Prop} [Decidable c] (h : LsOnly s t) (g : LsOnly s u) : LsOnly s (if c then t else u) := by split <;> assumption
theorem mem (h : LsOnly s t) : t.mem = s.mem := by obtain ⟨_, _, _, _, _, rfl⟩ := h; rfl
theorem cluster (h : LsOnly s t) (i : Nat) : t.cluster i = s.cluster i := by obtain ⟨_, _, _, _, _, rfl⟩ := h; rfl
end LsOnly

theorem setEmpty_lsOnly (s : State) (core w : Nat) (b : Bool) : LsOnly s (s.setEmpty core w b) := ⟨_, _, _, _, _, rfl⟩
theorem setPoisW_lsOnly (s : State) (core w : Nat) (b : Bool) : LsOnly s (s.setPoisW core w b) := ⟨_, _, _, _, _, rfl⟩
theorem modSlot_lsOnly (s : State) (k : Nat) (f : Slot → Slot) : LsOnly s (s.modSlot k f) := ⟨_, _, _, _, _, rfl⟩
theorem endLs_lsOnly (s : State) (core w : Nat) : LsOnly s (s.endLs core w) :=
  (LsOnly.foldl (fun _ _ => modSlot_lsOnly ..) _ s).trans ⟨_, _, _, _, _, rfl⟩
theorem lsPut_lsOnly (s : State) (core off v n : Nat) : LsOnly s (s.lsPut core off v n) := by
  induction n generalizing s off v with
  | zero => exact .refl s
  | succ n ih => exact LsOnly.trans ⟨_, _, _, _, _, rfl⟩ (ih ..)
theorem lsWrite_lsOnly (s : State) (core off n v : Nat) : LsOnly s (s.lsWrite core off n v) :=
  (lsPut_lsOnly ..).trans (.foldl (fun _ _ => ((setEmpty_lsOnly ..).trans (endLs_lsOnly ..)).trans (.ite (setPoisW_lsOnly ..) (.refl _))) _ _)

@[simp] theorem State.setPoisW_lsByte (s : State) (core w : Nat) (b : Bool) (c a : Nat) : (s.setPoisW core w b).lsByte c a = s.lsByte c a := rfl
@[simp] theorem State.setEmpty_ls (s : State) (core w : Nat) (b : Bool) : (s.setEmpty core w b).ls = s.ls := rfl
@[simp] theorem State.setPoisW_ls (s : State) (core w : Nat) (b : Bool) : (s.setPoisW core w b).ls = s.ls := rfl
@[simp] theorem State.endLs_ls (s : State) (core w : Nat) : (s.endLs core w).ls = s.ls :=
  foldl_keeps State.ls (fun _ _ => State.modSlot_ls ..) _ s
/-- The bytes that a write leaves are those of the plain store of its value. -/
theorem State.lsWrite_ls (s : State) (core off n v : Nat) : (s.lsWrite core off n v).ls = (s.lsPut core off v n).ls := by
  refine foldl_keeps State.ls (fun t w => ?_) _ _
  dsimp only
  split <;> simp

theorem lsKey_inj {c a c' a' : Nat} (ha : a < 262144) (ha' : a' < 262144) : lsKey c a = lsKey c' a' ↔ c = c' ∧ a = a' := by
  unfold lsKey
  omega

theorem lsPut_lsByte (s : State) (core off v n : Nat) (hroom : off + n ≤ 262144) (c : Nat) {a : Nat} (ha : a < 262144) :
    (s.lsPut core off v n).lsByte c a = if c = core ∧ off ≤ a ∧ a < off + n then BitVec.ofNat 8 (v / 256 ^ (a - off)) else s.lsByte c a := by
  induction n generalizing s off v with
  | zero => exact (if_neg (by omega)).symm
  | succ n ih =>
    rw [State.lsPut, ih _ _ _ (by omega)]
    by_cases hfirst : c = core ∧ a = off
    · obtain ⟨rfl, rfl⟩ := hfirst
      rw [if_neg (by omega), lsByte_set, if_pos (by omega), Nat.sub_self, Nat.pow_zero, Nat.div_one]
    · rw [lsByte_set_ne _ _ (by rw [Ne, lsKey_inj ha (by omega)]; exact hfirst)]
      by_cases hin : c = core ∧ off + 1 ≤ a ∧ a < off + 1 + n
      · rw [if_pos hin, if_pos (by omega), Nat.div_div_eq_div_mul, ← Nat.pow_succ', show (a - (off + 1)).succ = a - off by omega]
      · rw [if_neg hin, if_neg (by omega)]

theorem lsWrite_lsByte (s : State) (core off n v : Nat) (hroom : off + n ≤ 262144) (c : Nat) {a : Nat} (ha : a < 262144) :
    (s.lsWrite core off n v).lsByte c a = if c = core ∧ off ≤ a ∧ a < off + n then BitVec.ofNat 8 (v / 256 ^ (a - off)) else s.lsByte c a := by
  rw [← lsPut_lsByte s core off v n hroom c ha, State.lsByte, State.lsWrite_ls, ← State.lsByte]

theorem lsRead_of_bytes {s : State} {core off n v : Nat} (h : ∀ i, i < n → s.lsByte core (off + i) = BitVec.ofNat 8 (v / 256 ^ i)) :
    s.lsRead core off n = v % 256 ^ n := by
  induction n generalizing off v with
  | zero => exact (Nat.mod_one v).symm
  | succ n ih =>
    have htail : s.lsRead core (off + 1) n = v / 256 % 256 ^ n := ih fun i hi => by
      rw [Nat.add_assoc, Nat.add_comm 1 i, h (i + 1) (by omega), Nat.pow_succ', Nat.div_div_eq_div_mul]
    have hhead : s.lsByte core off = BitVec.ofNat 8 v := by
      rw [← Nat.div_one v]
      exact h 0 (by omega)
    rw [State.lsRead, htail, hhead, Nat.pow_succ', Nat.mod_mul, BitVec.toNat_ofNat]

theorem lsRead_congr {s t : State} (h : t.ls = s.ls) (core off n : Nat) : t.lsRead core off n = s.lsRead core off n := by
  induction n generalizing off with
  | zero => rfl
  | succ n ih => rw [State.lsRead, State.lsRead, ih, State.lsByte, State.lsByte, h]

/-! ### An event's entry in a log leaves the clusters (R433 to R435) -/

@[simp] theorem wb_clusters (s : State) (a : Nat) (b : Byte) : (s.wb a b).clusters = s.clusters := by
  unfold State.wb
  split <;> rfl
@[simp] theorem wrN_clusters (s : State) (pa v n : Nat) : (s.wrN pa v n).clusters = s.clusters := by
  induction n generalizing s pa v with
  | zero => rfl
  | succ n ih => rw [State.wrN, ih, wb_clusters]
@[simp] theorem wr64_clusters (s : State) (pa : Nat) (v : W64) : (s.wr64 pa v).clusters = s.clusters := wrN_clusters ..
@[simp] theorem cleanSector_clusters (s : State) (x : Nat) : (s.cleanSector x).clusters = s.clusters := rfl
@[simp] theorem setMg_clusters (s : State) (d off : Nat) (v : W64) : (s.setMg d off v).clusters = s.clusters := rfl
@[simp] theorem setCfg_clusters (s : State) (d p off : Nat) (v : W64) : (s.setCfg d p off v).clusters = s.clusters := rfl
@[simp] theorem emit_clusters (s : State) (o : Output) : (s.emit o).clusters = s.clusters := by
  unfold State.emit
  split
  · split <;> rfl
  · rfl
@[simp] theorem ringWrite_clusters (s : State) (d : Nat) (ctl idx : W64) (e : LogEntry) : (ringWrite s d ctl idx e).1.clusters = s.clusters := by
  unfold ringWrite
  dsimp only
  split <;> simp
@[simp] theorem rawLog_clusters (s : State) (d : Nat) (e : LogEntry) : (s.rawLog d e).clusters = s.clusters := by
  simp [State.rawLog]
@[simp] theorem copyRange_clusters (s : State) (src dst n : Nat) : (s.copyRange src dst n).clusters = s.clusters := by
  unfold State.copyRange
  dsimp only
  refine (foldl_keeps State.clusters (fun _ _ => by rfl) _ _).trans ((foldl_keeps State.clusters (fun _ _ => wb_clusters ..) _ _).trans ?_)
  split <;> rfl
@[simp] theorem putHeader_clusters (s : State) (d off : Nat) (v : W64) : (s.putHeader d off v).clusters = s.clusters := by
  unfold State.putHeader
  dsimp only
  split <;> simp
@[simp] theorem ckptFail_clusters (s : State) (d off : Nat) : (s.ckptFail d off).clusters = s.clusters := by
  simp only [State.ckptFail, rawLog_clusters, setMg_clusters]
  exact foldl_keeps State.clusters (fun _ _ => putHeader_clusters ..) _ _
@[simp] theorem copyUnit_clusters (s : State) (d u : Nat) : (s.copyUnit d u).clusters = s.clusters := by
  unfold State.copyUnit
  dsimp only
  split <;> simp
@[simp] theorem ckptHold_clusters (s : State) (pa : Nat) : (s.ckptHold pa).clusters = s.clusters := by
  unfold State.ckptHold
  split
  · simp only [apply_ite State.clusters, copyUnit_clusters, ite_self]
  · rfl
@[simp] theorem logPart_clusters (s : State) (d p : Nat) (e : LogEntry) : (s.logPart d p e).clusters = s.clusters := by
  simp only [State.logPart]
  split <;> simp
@[simp] theorem logDie_clusters (s : State) (d : Nat) (e : LogEntry) : (s.logDie d e).clusters = s.clusters := by
  simp [State.logDie]
@[simp] theorem memEvent_clusters (s : State) (part : Option Nat) (d src code dom : Nat) (tval detail : W64) :
    (s.memEvent part d src code dom tval detail).clusters = s.clusters := by
  unfold State.memEvent State.logTo
  split <;> simp
@[simp] theorem findErr_clusters (s : State) (k : Nat) (us : List HwUnit) : (s.findErr k us).2.clusters = s.clusters := by
  unfold State.findErr
  dsimp only
  split
  · rfl
  · exact foldl_keeps State.clusters (fun _ _ => memEvent_clusters ..) _ _
theorem findErr_of_undet_nil {s : State} (h : s.undet = []) (k : Nat) (us : List HwUnit) : s.findErr k us = (0x11, s) := by
  simp [State.findErr, h]

/-! ### A conversion fits its format (R85, R88, R109) -/

section
variable {f : Fmt} (hinf : f.infs = true) (hmb : 0 < f.mb)

theorem Fmt.sg_le (f : Fmt) (neg : Bool) : f.sg neg ≤ 2 ^ (f.eb + f.mb) := by
  unfold Fmt.sg
  split
  · exact Nat.le_refl _
  · exact Nat.zero_le _

/-- The exponent field of all ones, in place, with a fraction above it still below the sign. -/
theorem Fmt.ones_add_lt (f : Fmt) {x : Nat} (hx : x < 2 ^ f.mb) : (2 ^ f.eb - 1) * 2 ^ f.mb + x < 2 ^ (f.eb + f.mb) := by
  have h : 2 ^ f.mb ≤ 2 ^ f.eb * 2 ^ f.mb := Nat.le_mul_of_pos_left _ (Nat.two_pow_pos _)
  rw [Nat.sub_one_mul, Nat.pow_add]
  omega

include hinf
theorem Fmt.maxBits_eq (neg : Bool) : f.maxBits neg = f.sg neg + ((2 ^ f.eb - 1) * 2 ^ f.mb - 1) := by
  simp [Fmt.maxBits, hinf]
theorem Fmt.maxBits_lt (neg : Bool) : f.maxBits neg < 2 ^ (f.eb + f.mb + 1) := by
  have := f.sg_le neg
  have := f.ones_add_lt (Nat.two_pow_pos f.mb)
  rw [Fmt.maxBits_eq hinf, Nat.pow_succ]
  omega
theorem Fmt.infBits_lt (neg : Bool) : f.infBits neg < 2 ^ (f.eb + f.mb + 1) := by
  have := f.sg_le neg
  have := f.ones_add_lt (Nat.two_pow_pos f.mb)
  rw [Fmt.infBits, if_pos hinf, Nat.pow_succ]
  omega
theorem Fmt.overflow_lt (md : Rnd) (sat neg : Bool) : f.overflow md sat neg < 2 ^ (f.eb + f.mb + 1) := by
  have hmax := Fmt.maxBits_lt hinf neg
  have hinfty := Fmt.infBits_lt hinf neg
  unfold Fmt.overflow
  split
  · exact hmax
  · split
    · exact hinfty
    · split
      · exact hinfty
      · exact hinfty
      · exact hmax
      · split <;> assumption
      · split <;> assumption
/-- A rounded magnitude is at most the largest finite one, or the overflow result stands for it. -/
theorem roundF_lt (md : Rnd) (u : Nat) (sat neg : Bool) (m : Nat) (e : Int) (st : Bool) : (roundF f md u sat neg m e st).1 < 2 ^ (f.eb + f.mb + 1) := by
  have hsg := f.sg_le neg
  have hpow := Nat.pow_succ 2 (f.eb + f.mb)
  have hpos := Nat.two_pow_pos (f.eb + f.mb)
  simp only [roundF]
  split
  · dsimp only
    omega
  · split
    · exact Fmt.overflow_lt hinf md sat neg
    · rename_i hovf
      have hmax := Fmt.maxBits_lt hinf true
      have hsgmax := Fmt.maxBits_eq hinf true
      have hsgf := Fmt.maxBits_eq hinf false
      simp only [Bool.or_eq_true, decide_eq_true_eq, not_or, Nat.not_lt] at hovf
      have hcode := hovf.1
      have hsgt : f.sg true = 2 ^ (f.eb + f.mb) := rfl
      have hsg0 : f.sg false = 0 := rfl
      dsimp only
      omega

include hmb
theorem Fmt.nan_lt : f.nan < 2 ^ (f.eb + f.mb + 1) := by
  have h := f.ones_add_lt (x := 2 ^ (f.mb - 1)) (Nat.pow_lt_pow_right (by decide) (by omega))
  rw [Fmt.nan, if_pos hinf, Nat.pow_succ]
  omega

theorem cvtOut_lt (md : Rnd) (u : Nat) (sat : Bool) (vs : List Nat) : cvtOut f md u sat vs < 2 ^ (f.eb + f.mb + 1) := by
  unfold cvtOut
  split
  · exact Fmt.nan_lt hinf hmb
  · split
    · exact Fmt.maxBits_lt hinf _
    · exact Fmt.infBits_lt hinf _
  · exact roundF_lt hinf ..
end

/-- The size of an element of an output slot's type, in bytes. -/
def outSize (f : W64) : Nat := if wf f 13 2 = 0 then 4 else 2

theorem outSize_cases (f : W64) : outSize f = 4 ∨ outSize f = 2 := by
  unfold outSize
  split
  · exact .inl rfl
  · exact .inr rfl

theorem cvtOut_lt_outSize (f : W64) (md : Rnd) (u : Nat) (sat : Bool) (vs : List Nat) : cvtOut (outFmt f) md u sat vs < 256 ^ outSize f := by
  unfold outFmt outSize
  split
  · rename_i h
    rw [if_pos h]
    exact cvtOut_lt (f := f32) rfl (by decide) md u sat vs
  · rename_i h
    rw [if_neg (by omega)]
    exact cvtOut_lt (f := bf16) rfl (by decide) md u sat vs
  · rename_i h _
    rw [if_neg h]
    exact cvtOut_lt (f := f16) rfl (by decide) md u sat vs

/-! ### The cells of a tile in the local store (R109, R315) -/

/-- What a conversion of a tile writes: the core, the first byte, the size of an element, and of each row and column whether it is written, the bits of its
element, and whether a poisoned scale was read for it. -/
structure CvtPlan where
  core : Nat
  base : Nat
  n : Nat
  on : Nat → Nat → Bool
  val : Nat → Nat → Nat
  bad : Nat → Nat → Bool

namespace CvtPlan
variable (p : CvtPlan)

/-- Elements in a word of the local store. -/
def per : Nat := 8 / p.n
/-- Row of the elements of word `w`. -/
def row (w : Nat) : Nat := w * p.per / 128
/-- The written columns of word `w`. -/
def cols (w : Nat) : List Nat := ((List.range p.per).map (· + w * p.per % 128)).filter (p.on (p.row w))
/-- A word all of whose elements are written. -/
def whole (r : Nat) (cs : List Nat) : Nat := cs.foldr (fun c a => p.val r c + 256 ^ p.n * a) 0
/-- The elements of columns `cs` of row `r`, one by one. -/
def cells (t : State) (r : Nat) (cs : List Nat) : State := cs.foldl (fun u c => u.lsWrite p.core (p.base + (r * 128 + c) * p.n) p.n (p.val r c)) t
/-- The write of word `w`. -/
def word (t : State) (w : Nat) : State :=
  let u := if (p.cols w).length = p.per then t.lsWrite p.core (p.base + 8 * w) 8 (p.whole (p.row w) (p.cols w)) else p.cells t (p.row w) (p.cols w)
  if (p.cols w).any (p.bad (p.row w)) then u.setPoisW p.core ((p.base + 8 * w) / 8) true else u
/-- The write of the tile. -/
def run (t : State) : State := (List.range (16384 / p.per)).foldl p.word t

/-- The row, the column and the byte of an element that stand at offset `a`. -/
def rowAt (a : Nat) : Nat := (a - p.base) / (128 * p.n)
def colAt (a : Nat) : Nat := (a - p.base) / p.n % 128
def byteAt (a : Nat) : Byte := BitVec.ofNat 8 (p.val (p.rowAt a) (p.colAt a) / 256 ^ ((a - p.base) % p.n))

theorem word_lsOnly (t : State) (w : Nat) : LsOnly t (p.word t w) := by
  have hcells : LsOnly t (p.cells t (p.row w) (p.cols w)) := LsOnly.foldl (fun _ _ => lsWrite_lsOnly ..) _ t
  have hput := LsOnly.ite (c := (p.cols w).length = p.per) (lsWrite_lsOnly t p.core (p.base + 8 * w) 8 (p.whole (p.row w) (p.cols w))) hcells
  exact .ite (hput.trans (setPoisW_lsOnly ..)) hput
theorem run_lsOnly (t : State) : LsOnly t (p.run t) := .foldl p.word_lsOnly _ t

/-! ### The bytes of elements and words -/

/-- Byte `i` of a word of whole elements is a byte of the element that it falls in. -/
theorem whole_byte {p : CvtPlan} (hval : ∀ r c, p.val r c < 256 ^ p.n) (r : Nat) (cs : List Nat) {i : Nat} (hi : i < p.n * cs.length) :
    BitVec.ofNat 8 (p.whole r cs / 256 ^ i) = BitVec.ofNat 8 (p.val r (cs.getD (i / p.n) 0) / 256 ^ (i % p.n)) := by
  induction cs generalizing i with
  | nil => simp at hi
  | cons c cs ih =>
    have hwhole : p.whole r (c :: cs) = p.val r c + 256 ^ p.n * p.whole r cs := rfl
    by_cases hfirst : i < p.n
    · obtain ⟨k, hk⟩ : ∃ k, 256 ^ p.n = 256 ^ i * (256 * k) := ⟨256 ^ (p.n - i - 1), by
        rw [← Nat.pow_succ', ← Nat.pow_add, show i + (p.n - i - 1).succ = p.n by omega]⟩
      rw [Nat.div_eq_of_lt hfirst, Nat.mod_eq_of_lt hfirst, hwhole, hk, Nat.mul_assoc, Nat.add_mul_div_left _ _ (Nat.pow_pos (by decide)), Nat.mul_assoc]
      apply BitVec.eq_of_toNat_eq
      rw [BitVec.toNat_ofNat, BitVec.toNat_ofNat, Nat.add_mul_mod_self_left]
      rfl
    · obtain ⟨j, rfl⟩ := Nat.exists_eq_add_of_le (Nat.le_of_not_lt hfirst)
      have hn : 0 < p.n := by
        rcases Nat.eq_zero_or_pos p.n with h | h
        · simp [h] at hi
        · exact h
      have hj : j < p.n * cs.length := by
        rw [List.length_cons, Nat.mul_succ] at hi
        omega
      rw [hwhole, Nat.pow_add, ← Nat.div_div_eq_div_mul, Nat.add_mul_div_left _ _ (Nat.pow_pos (by decide)), Nat.div_eq_of_lt (hval r c), Nat.zero_add,
        Nat.add_div_left _ hn, Nat.add_mod_left, List.getD_cons_succ, ih hj]

theorem mem_cols (p : CvtPlan) (w c : Nat) : c ∈ p.cols w ↔ (w * p.per % 128 ≤ c ∧ c < w * p.per % 128 + p.per) ∧ p.on (p.row w) c = true := by
  simp only [cols, List.mem_filter, List.mem_map, List.mem_range]
  refine and_congr_left fun _ => ⟨?_, fun h => ⟨c - w * p.per % 128, by omega, by omega⟩⟩
  rintro ⟨k, hk, rfl⟩
  omega

section
variable {p : CvtPlan} (hn : p.n = 4 ∨ p.n = 2)
include hn

theorem n_mul_per : p.n * p.per = 8 := by
  rcases hn with h | h <;> simp only [per, h]

/-- The offsets of an element. -/
theorem element_iff {r c : Nat} (hc : c < 128) (a : Nat) :
    p.base + (r * 128 + c) * p.n ≤ a ∧ a < p.base + (r * 128 + c) * p.n + p.n ↔ p.base ≤ a ∧ p.rowAt a = r ∧ p.colAt a = c := by
  rcases hn with h | h <;> simp only [rowAt, colAt, h] <;> omega

theorem element_offset {r c a : Nat} (hlo : p.base + (r * 128 + c) * p.n ≤ a) : (a - (p.base + (r * 128 + c) * p.n)) % p.n = (a - p.base) % p.n := by
  rcases hn with h | h <;> simp only [h] at hlo ⊢ <;> omega

/-- The offsets of a word. -/
theorem word_iff (w a : Nat) : p.base + 8 * w ≤ a ∧ a < p.base + 8 * w + 8 ↔
    p.base ≤ a ∧ p.rowAt a = p.row w ∧ w * p.per % 128 ≤ p.colAt a ∧ p.colAt a < w * p.per % 128 + p.per := by
  rcases hn with h | h <;> simp only [rowAt, colAt, row, per, h] <;> omega

theorem colAt_of_word {w a : Nat} (hlo : p.base + 8 * w ≤ a) (hhi : a < p.base + 8 * w + 8) : p.colAt a = (a - (p.base + 8 * w)) / p.n + w * p.per % 128 := by
  rcases hn with h | h <;> simp only [colAt, per, h] <;> omega

theorem word_offset {w a : Nat} (hlo : p.base + 8 * w ≤ a) : (a - (p.base + 8 * w)) % p.n = (a - p.base) % p.n := by
  rcases hn with h | h <;> simp only [h] <;> omega

theorem cols_lt {w c : Nat} (h : c ∈ p.cols w) : c < 128 := by
  have hc := ((p.mem_cols w c).1 h).1
  rcases hn with h | h <;> simp only [per, h] at hc <;> omega

variable (hval : ∀ r c, p.val r c < 256 ^ p.n) (hroom : p.base + 16384 * p.n ≤ 262144) (c : Nat) {a : Nat} (ha : a < 262144)
include hroom ha

theorem cells_lsByte (t : State) {r : Nat} (hr : r < 128) (cs : List Nat) (hcs : ∀ c ∈ cs, c < 128) : (p.cells t r cs).lsByte c a =
    if c = p.core ∧ p.base ≤ a ∧ p.rowAt a = r ∧ p.colAt a ∈ cs then p.byteAt a else t.lsByte c a := by
  induction cs generalizing t with
  | nil => simp [cells]
  | cons d cs ih =>
    obtain ⟨hd, hcs⟩ := List.forall_mem_cons.1 hcs
    have hfit : p.base + (r * 128 + d) * p.n + p.n ≤ 262144 := by
      rcases hn with h | h <;> simp only [h] at hroom ⊢ <;> omega
    have hcell := element_iff hn (r := r) hd a
    refine (ih _ hcs).trans ?_
    by_cases htail : c = p.core ∧ p.base ≤ a ∧ p.rowAt a = r ∧ p.colAt a ∈ cs
    · obtain ⟨hc, hb, hrow, hcol⟩ := htail
      rw [if_pos ⟨hc, hb, hrow, hcol⟩, if_pos ⟨hc, hb, hrow, List.mem_cons_of_mem _ hcol⟩]
    · rw [if_neg htail, lsWrite_lsByte t p.core _ _ _ hfit c ha]
      by_cases hhead : c = p.core ∧ p.base + (r * 128 + d) * p.n ≤ a ∧ a < p.base + (r * 128 + d) * p.n + p.n
      · obtain ⟨hc, hlo, hhi⟩ := hhead
        obtain ⟨hb, hrow, hcol⟩ := hcell.1 ⟨hlo, hhi⟩
        rw [if_pos ⟨hc, hlo, hhi⟩, if_pos ⟨hc, hb, hrow, hcol ▸ List.mem_cons_self⟩, byteAt, hrow, hcol, ← element_offset hn hlo, Nat.mod_eq_of_lt (by omega)]
      · rw [if_neg hhead, if_neg]
        rintro ⟨hc, hb, hrow, hmem⟩
        rcases List.mem_cons.1 hmem with hcol | hcol
        · exact hhead ⟨hc, hcell.2 ⟨hb, hrow, hcol⟩⟩
        · exact htail ⟨hc, hb, hrow, hcol⟩

include hval
/-- A word changes in the bytes of its written elements. -/
theorem word_lsByte (t : State) {w : Nat} (hw : w < 16384 / p.per) : (p.word t w).lsByte c a =
    if c = p.core ∧ (p.base + 8 * w ≤ a ∧ a < p.base + 8 * w + 8) ∧ p.on (p.rowAt a) (p.colAt a) = true then p.byteAt a else t.lsByte c a := by
  have hrow : p.row w < 128 := by
    rcases hn with h | h <;> simp only [row, per, h] at hw ⊢ <;> omega
  have hfit : p.base + 8 * w + 8 ≤ 262144 := by
    rcases hn with h | h <;> simp only [per, h] at hw hroom <;> omega
  have hput : (p.word t w).lsByte c a = (if (p.cols w).length = p.per then t.lsWrite p.core (p.base + 8 * w) 8 (p.whole (p.row w) (p.cols w))
      else p.cells t (p.row w) (p.cols w)).lsByte c a := by
    unfold word
    dsimp only
    split
    · exact State.setPoisW_lsByte ..
    · rfl
  rw [hput]
  split
  · rename_i hfull
    have hall : ∀ d ∈ (List.range p.per).map (· + w * p.per % 128), p.on (p.row w) d = true :=
      List.length_filter_eq_length_iff.1 (by rw [List.length_map, List.length_range]; exact hfull)
    have hcols : p.cols w = (List.range p.per).map (· + w * p.per % 128) := List.filter_eq_self.2 hall
    rw [lsWrite_lsByte t _ _ _ _ hfit c ha]
    by_cases hin : c = p.core ∧ p.base + 8 * w ≤ a ∧ a < p.base + 8 * w + 8
    · obtain ⟨hc, hlo, hhi⟩ := hin
      obtain ⟨-, hr, hcol⟩ := (word_iff hn w a).1 ⟨hlo, hhi⟩
      have hon : p.colAt a ∈ p.cols w := hcols ▸ List.mem_map.2 ⟨p.colAt a - w * p.per % 128, List.mem_range.2 (by omega), by omega⟩
      have helem : (p.cols w).getD ((a - (p.base + 8 * w)) / p.n) 0 = p.colAt a := by
        have := colAt_of_word hn hlo hhi
        rw [hcols, List.getD_eq_getElem?_getD, List.getElem?_map, List.getElem?_range (show (a - (p.base + 8 * w)) / p.n < p.per by omega)]
        exact this.symm
      rw [if_pos ⟨hc, hlo, hhi⟩, if_pos ⟨hc, ⟨hlo, hhi⟩, hr ▸ ((p.mem_cols w _).1 hon).2⟩,
        whole_byte hval _ _ (by rw [hfull, n_mul_per hn]; omega), helem, word_offset hn hlo, byteAt, hr]
    · rw [if_neg hin, if_neg fun h => hin ⟨h.1, h.2.1⟩]
  · rw [cells_lsByte hn hroom c ha t hrow _ (fun _ => cols_lt hn)]
    refine ite_congr (propext (and_congr_right fun _ => ?_)) (fun _ => rfl) (fun _ => rfl)
    rw [word_iff hn, mem_cols]
    constructor
    · rintro ⟨hb, hr, hcol, hon⟩
      exact ⟨⟨hb, hr, hcol⟩, hr ▸ hon⟩
    · rintro ⟨⟨hb, hr, hcol⟩, hon⟩
      exact ⟨hb, hr, hcol, hr ▸ hon⟩

theorem words_lsByte (t : State) {m : Nat} (hm : m ≤ 16384 / p.per) : ((List.range m).foldl p.word t).lsByte c a =
    if c = p.core ∧ (p.base ≤ a ∧ a < p.base + 8 * m) ∧ p.on (p.rowAt a) (p.colAt a) = true then p.byteAt a else t.lsByte c a := by
  induction m with
  | zero => exact (if_neg (by omega)).symm
  | succ m ih =>
    rw [List.range_succ, List.foldl_append, List.foldl_cons, List.foldl_nil, word_lsByte hn hval hroom c ha _ (by omega), ih (by omega)]
    by_cases hlast : c = p.core ∧ (p.base + 8 * m ≤ a ∧ a < p.base + 8 * m + 8) ∧ p.on (p.rowAt a) (p.colAt a) = true
    · rw [if_pos hlast, if_pos ⟨hlast.1, ⟨by omega, by omega⟩, hlast.2.2⟩]
    · rw [if_neg hlast]
      refine ite_congr (propext (and_congr_right fun hc => and_congr_left fun hon => ?_)) (fun _ => rfl) (fun _ => rfl)
      have hnot : ¬ (p.base + 8 * m ≤ a ∧ a < p.base + 8 * m + 8) := fun h => hlast ⟨hc, h, hon⟩
      omega

/-- The tile changes the bytes of its written elements, and no other. -/
theorem run_lsByte (t : State) : (p.run t).lsByte c a =
    if c = p.core ∧ (p.base ≤ a ∧ a < p.base + 16384 * p.n) ∧ p.on (p.rowAt a) (p.colAt a) = true then p.byteAt a else t.lsByte c a := by
  have hsize : 8 * (16384 / p.per) = 16384 * p.n := by
    rcases hn with h | h <;> simp only [per, h]
  rw [← hsize]
  exact words_lsByte hn hval hroom c ha t (Nat.le_refl _)

omit ha in
/-- A written element reads as its value. -/
theorem run_lsRead (t : State) {r d : Nat} (hr : r < 128) (hd : d < 128) (hon : p.on r d = true) :
    (p.run t).lsRead p.core (p.base + (r * 128 + d) * p.n) p.n = p.val r d := by
  refine (lsRead_of_bytes (v := p.val r d) fun i hi => ?_).trans (Nat.mod_eq_of_lt (hval r d))
  have hfit : p.base + (r * 128 + d) * p.n + p.n ≤ p.base + 16384 * p.n := by
    rcases hn with h | h <;> simp only [h] <;> omega
  obtain ⟨hb, hrow, hcol⟩ := (element_iff hn (r := r) hd (p.base + (r * 128 + d) * p.n + i)).1 ⟨by omega, by omega⟩
  have hoff := element_offset hn (r := r) (c := d) (Nat.le_add_right (p.base + (r * 128 + d) * p.n) i)
  rw [Nat.add_sub_cancel_left, Nat.mod_eq_of_lt hi] at hoff
  rw [run_lsByte hn hval hroom p.core (by omega), if_pos ⟨rfl, ⟨hb, by omega⟩, by rw [hrow, hcol]; exact hon⟩, byteAt, hrow, hcol, ← hoff]
end

end CvtPlan

/-! ### The instruction (R315) -/

/-- What `xcvt` writes under an output slot `f`, from the state `s` in which it reads the scales. -/
def State.cvtPlan (s : State) (o : XCvt) (cl : Nat) (g : Gang) : CvtPlan :=
  let x := s.cluster cl
  let f := g.fmtAt o.slot
  let score := 16 * cl + o.score
  { core := 16 * cl + o.core
    base := 16 * o.off16
    n := outSize f
    on := fun r c => x.rowp.getLsbD r && x.colp.getLsbD c
    val := fun r c => cvtOut (outFmt f) (if bitAt f 15 then .rsto else .rne) (cellRand g cl o.tile r c 1 (mget 0 x.folds o.tile)) (bitAt f 16)
      ((mget Cell.reset x.acc (o.tile * 16384 + r * 128 + c)).fold.toNat :: (if bitAt f 11 then [s.lsRead score (1024 * o.soff + 4 * r) 4] else []) ++
        (if bitAt f 12 then [s.lsRead score (1024 * o.soff + 512 + 4 * c) 4] else []))
    bad := fun r c => bitAt f 11 && s.wordPois score ((1024 * o.soff + 4 * r) / 8) || bitAt f 12 && s.wordPois score ((1024 * o.soff + 512 + 4 * c) / 8) }

/-- The state after the scales that a slot names are read: their errors are found (R435). -/
def State.scalesRead (s : State) (o : XCvt) (cl : Nat) (f : W64) : State :=
  if bitAt f 11 || bitAt f 12 then
    (s.findErr (16 * (16 * cl + o.score)) ((wordsOf (1024 * o.soff) (if bitAt f 12 then 1024 else 512)).map (.lsw (16 * cl + o.score)))).2
  else s

theorem State.scalesRead_calm (s : State) (o : XCvt) (cl : Nat) (f : W64) : Calm s (s.scalesRead o cl f) := calm_ite (findErr_calm ..) (.refl s)
theorem State.scalesRead_cluster (s : State) (o : XCvt) (cl : Nat) (f : W64) (i : Nat) : (s.scalesRead o cl f).cluster i = s.cluster i := by
  unfold State.scalesRead State.cluster
  split
  · rw [findErr_clusters]
  · rfl
theorem State.scalesRead_of_undet_nil {s : State} (h : s.undet = []) (o : XCvt) (cl : Nat) (f : W64) : s.scalesRead o cl f = s := by
  simp [State.scalesRead, findErr_of_undet_nil h]

theorem State.matrixHaz_clear {s : State} {cl : Nat} {r w : List (Nat × Nat × Nat)} (hhaz : (s.cluster cl).matHaz = none) (hroom : (s.cluster cl).room = true)
    (hclear : (s.cluster cl).cmds.any (conflict r w) = false) : s.matrixHaz cl r w = .ok s := by
  simp [State.matrixHaz, hhaz, hroom, hclear]

theorem sEnsure_ok {b : Bool} {code : Nat} (h : b = true) : sEnsure b code = .ok () := if_pos h

/-- A tile without poison whose ranges pass their checks is converted. -/
theorem matCvt_ok {o : XCvt} {cl : Nat} {g : Gang} {s : State} (hkind : wf (g.fmtAt o.slot) 0 4 = 2) (hcore : blockCore g cl o.core = true)
    (hrange : 16 * o.off16 + 16384 * outSize (g.fmtAt o.slot) ≤ 262144)
    (hscale : bitAt (g.fmtAt o.slot) 11 = true ∨ bitAt (g.fmtAt o.slot) 12 = true →
      blockCore g cl o.score = true ∧ 1024 * o.soff + (if bitAt (g.fmtAt o.slot) 12 then 1024 else 512) ≤ 262144)
    (hpois : ∀ i, i < 16384 → (mget Cell.reset (s.cluster cl).acc (o.tile * 16384 + i)).pois = false)
    (hhaz : s.matrixHaz cl [] [(16 * cl + o.core + 1, 16 * o.off16, 16384 * outSize (g.fmtAt o.slot))] = .ok s) :
    matCvt o cl g s = .ok ((s.cvtPlan o cl g).run (s.scalesRead o cl (g.fmtAt o.slot))) := by
  have hcells : (List.range 16384).any (fun i => (mget Cell.reset (s.cluster cl).acc (o.tile * 16384 + i / 128 * 128 + i % 128)).pois) = false := by
    refine List.any_eq_false.2 fun i hi => ?_
    rw [Nat.add_assoc, Nat.div_add_mod' i 128, hpois i (List.mem_range.1 hi)]
    decide
  have h14 : (!(bitAt (g.fmtAt o.slot) 11 || bitAt (g.fmtAt o.slot) 12) ||
      (blockCore g cl o.score && decide (1024 * o.soff + (if bitAt (g.fmtAt o.slot) 12 then 1024 else 512) ≤ 262144))) = true := by
    by_cases h : bitAt (g.fmtAt o.slot) 11 = true ∨ bitAt (g.fmtAt o.slot) 12 = true
    · rw [(hscale h).1, decide_eq_true (hscale h).2, Bool.and_self, Bool.or_true]
    · rw [not_or] at h
      simp [h]
  have hfit : (blockCore g cl o.core && decide (16 * o.off16 + 16384 * outSize (g.fmtAt o.slot) ≤ 262144)) = true := by
    rw [hcore, decide_eq_true hrange, Bool.and_self]
  unfold outSize at hfit hhaz
  simp only [matCvt, sEnsure_ok (beq_iff_eq.2 hkind), sEnsure_ok hfit, sEnsure_ok h14, hcells, hhaz]
  rfl

theorem execXcvt_ok {o : XCvt} {cl : Nat} {s t : State} (hcur : s.cur = .seq cl) (h : matCvt o cl (s.streamGang cl) s = .ok t) :
    exec (.xcvt o) s = .next (t.modCluster cl (fun x => { x with seqPc := x.seqPc + 2 })) :=
  (exec_xcvt s).trans (matrixI_ok hcur h)

/-- Settles O36: the plan of the tile's writes is what the statement names, the read of the scales only logs, and the writes change their elements alone. -/
theorem outputConversion : Obligations.OutputConversion := by
  unfold Obligations.OutputConversion
  intro o s cl hcur g x f n base score hkind hcore hrange hscale hpois hhaz hroom hclear
  have hn : (s.cvtPlan o cl g).n = 4 ∨ (s.cvtPlan o cl g).n = 2 := outSize_cases f
  have hval (r c : Nat) : (s.cvtPlan o cl g).val r c < 256 ^ (s.cvtPlan o cl g).n := cvtOut_lt_outSize ..
  have hok := matCvt_ok hkind hcore hrange hscale hpois (State.matrixHaz_clear hhaz hroom hclear)
  have hrun := (s.cvtPlan o cl g).run_lsOnly (s.scalesRead o cl f)
  have hcluster := (hrun.cluster cl).trans (s.scalesRead_cluster o cl f cl)
  refine ⟨_, execXcvt_ok hcur hok, by rw [State.modCluster_cluster, hcluster], by rw [State.modCluster_cluster, hcluster], fun hundet => ?mem,
    fun c a ha houtside => ?frame, fun r c hr hc hrow hcol => ?stored⟩
  case mem => exact hrun.mem.trans (congrArg State.mem (State.scalesRead_of_undet_nil hundet o cl f))
  case frame =>
    refine (CvtPlan.run_lsByte hn hval hrange c ha _).trans ((if_neg ?_).trans ((s.scalesRead_calm o cl f).lsByte c a))
    rintro ⟨hc, ⟨hlo, hhi⟩, hon⟩
    rcases houtside with h | h | h | h
    · exact h hc
    · exact absurd hlo (Nat.not_le_of_lt h)
    · exact absurd hhi (Nat.not_lt_of_le h)
    · exact Bool.false_ne_true (h.symm.trans hon)
  case stored =>
    exact (lsRead_congr (State.modCluster_ls ..) ..).trans (CvtPlan.run_lsRead hn hval hrange _ hr hc (Bool.and_eq_true_iff.2 ⟨hrow, hcol⟩))

end Sys2Proof.Machine

/-! # The checks of an access, lane loads and stores (R117, R126, R134, R135, R243 to R246)

From the bounds check to the outcome of one access; each lane load and store as the checks of its form followed by its accesses. O12 and O13. -/

namespace Sys2Proof.Machine

/-! ### The checks of an access (R117, R134, R135) -/

section
variable {p : BitVec 128} {off : Int} {n perm : Nat}

theorem checkAccess_eq_none (h : pTag p = false ∨ pHas p perm = false ∨ pCur p + off < pBase p ∨ (pLim p : Int) < pCur p + off + n) :
    checkAccess p off n perm = none := by
  rcases h with h | h | hrange
  · simp [checkAccess, h]
  · simp [checkAccess, h]
  · simp [checkAccess, hrange]

/-- An access that ends within a local store keeps its address: 18 bits are fewer than the 56 of a cursor. -/
theorem checkAccess_within_ls (htag : pTag p = true) (hperm : pHas p perm = true) (hlo : (pBase p : Int) ≤ pCur p + off)
    (hhi : pCur p + off + n ≤ (pLim p : Int)) (hls : pCur p + off + n ≤ 262144) : checkAccess p off n perm = some (pCur p + off).toNat := by
  have hrange : ¬ (pCur p + off < (pBase p : Int) ∨ (pLim p : Int) < pCur p + off + n) := by omega
  have hroom : ¬ (262144 < pCur p + off + n) := by omega
  have hsmall : (pCur p : Int) + off < 72057594037927936 := by omega
  simp [checkAccess, htag, hperm, hrange, hroom, hsmall]

theorem State.refOf_of_unchecked {s : State} (h : checkAccess p off n perm = none) (k : Nat) (acc : Acc) (lane : Nat) :
    s.refOf k p off n perm acc lane = .error (0x04, s) := by simp [State.refOf, h]
theorem State.refOf_of_misaligned {s : State} {va : Nat} (h : checkAccess p off n perm = some va) (hva : va % n ≠ 0) (k : Nat) (acc : Acc) (lane : Nat) :
    s.refOf k p off n perm acc lane = .error (0x05, s) := by simp [State.refOf, h, hva]
theorem State.refOf_of_local {s : State} {va : Nat} (h : checkAccess p off n perm = some va) (hva : va % n = 0) (hsp : pSP p = true) (k : Nat) (acc : Acc)
    (lane : Nat) : s.refOf k p off n perm acc lane = .ok (⟨lane, true, va, va, false⟩, s) := by simp [State.refOf, h, hva, hsp]
end

/-- An address that is not negative is aligned when its natural number is. -/
theorem toNat_emod_eq_zero {a : Int} (ha : 0 ≤ a) (n : Nat) : a.toNat % n = 0 ↔ a % n = 0 := by
  rw [← Int.ofNat_inj, Int.natCast_emod, Int.toNat_of_nonneg ha, Int.ofNat_zero]

/-- Settles O12: what the bounds check answers decides the outcome, and within a local store it answers the address itself. -/
theorem accessChecks : Obligations.AccessChecks := by
  unfold Obligations.AccessChecks
  intro s k p off n perm acc lane _
  refine ⟨fun h => State.refOf_of_unchecked (checkAccess_eq_none h) k acc lane, ?_⟩
  rintro ⟨htag, hperm, hlo, hhi, hsp, hls⟩
  have haddr := checkAccess_within_ls htag hperm hlo hhi hls
  have halign := toNat_emod_eq_zero (Int.le_trans (Int.natCast_nonneg _) hlo) n
  exact ⟨fun h => State.refOf_of_misaligned haddr (mt halign.1 h) k acc lane, fun h => State.refOf_of_local haddr (halign.2 h) hsp k acc lane⟩

/-! ### Lane loads and stores (R126, R243 to R246) -/

/-- A read may take a message, an item of work or free choices (R66, R67, R73), none of which is of a slot. -/
theorem rdSc_slots {k : Nat} {fm : W64} {n : Nat} {s t : State} {v : W64} (h : rdSc k fm n s = .ok (v, t)) : t.slots = s.slots := by
  simp only [rdSc, parkOn, State.poisStop] at h
  split at h
  · -- s0
    cases h; rfl
  split at h
  · -- s1 to s59
    split at h
    · cases h
    split at h
    · cases h
    · cases h; rfl
  split at h
  · -- `in`
    split at h <;> cases h; rfl
  split at h
  · -- `work`
    split at h
    · split at h <;> (cases h; rfl)
    · cases h; rfl
  split at h
  · -- the tick
    cases h; rfl
  -- the k-registers
  split at h
  · cases h
  · split at h <;> (cases h; rfl)

theorem State.ReadsFor.slot {s t : State} {k : Nat} {e : W64} {sc : Option Nat} {v : Option W64} (h : s.ReadsFor k e sc v t) (j : Nat) : t.slot j = s.slot j := by
  cases sc with
  | none => obtain ⟨-, rfl⟩ := h; rfl
  | some n =>
    obtain ⟨w, hread, -⟩ := h
    rw [State.slot, State.slot, rdSc_slots (rdScs_one.1 hread)]

theorem State.ReadsFor.rdSc_eq {s t : State} {k n : Nat} {e : W64} {v : Option W64} (h : s.ReadsFor k e (some n) v t) : rdSc k e n s = .ok (v.getD 0, t) := by
  obtain ⟨w, hread, rfl⟩ := h
  exact rdScs_one.1 hread

/-- What a form's checks leave goes to `perform`, and that is all `run` does. `perform` is given the slot, the executing lanes and the strand as they were
before the instruction. -/
def MemForm.RunsAs (f : MemForm) (perform : Nat → W64 → Slot → List Ref → State → Res (State × List Bad × Bool)) (run : W64 → Nat → State → Res (Bool × State)) :
    Prop :=
  ∀ k s refs s1 t dem, f.Checked k s refs s1 → perform k ((s.slot k).exec f.p) (s.slot k) refs s1 = .ok (t, [], dem) →
    run ((s.slot k).exec f.p) k s = .ok (dem, t)

theorem MemForm.RunsAs.ends {i : Instr} {f : MemForm} {perform : Nat → W64 → Slot → List Ref → State → Res (State × List Bad × Bool)}
    {run : W64 → Nat → State → Res (Bool × State)} (hrun : f.RunsAs perform run) (hexec : ∀ s, exec i s = memGo i f.p f.vecs run s) :
    Ends i 0 [] f.vecs (fun k s t => ∃ refs s1 u dem, f.Checked k s refs s1 ∧ perform k ((s.slot k).exec f.p) (s.slot k) refs s1 = .ok (u, [], dem) ∧
      t = u.finish k dem) := by
  rintro s k t hturn hmay ⟨refs, s1, u, dem, hchecked, hperform, rfl⟩
  exact (hexec s).trans (memGo_ok hturn hmay hchecked.1 (hrun _ _ _ _ _ _ hchecked hperform))

theorem memVld_runsAs (o : VLoad) : (throughPtr o.pr (vregsV (szN o.sz == 8) o.d o.x) o.x.toList o.p (szN o.sz) 1 accR o.x o.off).RunsAs
    (fun k _ _ => doLoads k (szN o.sz) o.poll (putLane o)) (memVld o) := by
  rintro k s refs s1 t dem ⟨-, v, s0, ⟨-, rfl⟩, hready, hcheck⟩ hperform
  exact accessLanes_ok hready (fun _ h => h) hcheck hperform

theorem memVst_runsAs (o : VStore) :
    (throughPtr o.pr (vregsV (szN o.sz == 8) o.d o.x) (o.x.toList ++ regsOf (szN o.sz == 8) o.d) o.p (szN o.sz) 2 accW o.x o.off).RunsAs
    (fun k _ x => storeAll k (szN o.sz) (x.lane (szN o.sz == 8) o.d)) (memVst o) := by
  rintro k s refs s1 t dem ⟨-, v, s0, ⟨-, rfl⟩, hready, hcheck⟩ hperform
  exact accessLanes_ok hready (fun _ => List.mem_append_left _) hcheck hperform

theorem memLld_runsAs (o : VLoad) : (throughLs o.pr (vregsV (szN o.sz == 8) o.d o.x) o.x.toList o.p (szN o.sz) o.x o.off).RunsAs
    (fun k _ _ => doLoads k (szN o.sz) o.poll (putLane o)) (memLld o) := by
  rintro k s refs s1 t dem ⟨-, v, s0, hread, hready, hcheck⟩ hperform
  exact (congrArg (· >>= _) hread.rdSc_eq).trans (accessLanes_ok hready (fun _ h => h) hcheck hperform)

theorem memLst_runsAs (o : VStore) :
    (throughLs o.pr (vregsV (szN o.sz == 8) o.d o.x) (o.x.toList ++ regsOf (szN o.sz == 8) o.d) o.p (szN o.sz) o.x o.off).RunsAs
    (fun k _ x => storeAll k (szN o.sz) (x.lane (szN o.sz == 8) o.d)) (memLst o) := by
  rintro k s refs s1 t dem ⟨-, v, s0, hread, hready, hcheck⟩ hperform
  exact (congrArg (· >>= _) hread.rdSc_eq).trans (accessLanes_ok hready (fun _ => List.mem_append_left _) hcheck hperform)

/-- `vldu` in the words of a lane memory instruction: one access, for every executing lane (R244). -/
def vlduForm (o : VLoad) : MemForm :=
  ⟨o.pr, regsOf (szN o.sz == 8) o.d, o.x, [], fun y k t d l => t.refOf k (y.preg o.p) d (szN o.sz) 1 (accR (t.slot k).priv) l,
    fun y e b => [((lowest e).getD 0, b.toInt + o.off.toInt, intW (pCur (y.preg o.p) + (b.toInt + o.off.toInt)))], szN o.sz⟩

theorem memVldu_runsAs (o : VLoad) : (vlduForm o).RunsAs
    (fun k e _ => doLoads k (szN o.sz) o.poll (fun _ v x => (lanesOf e).foldl (fun y l => putLane o l v y) x)) (memVldu o) := by
  rintro k s refs s1 t dem ⟨-, v, s0, hread, hready, hcheck⟩ hperform
  rw [hread.slot k] at hcheck
  have hbase : s.ReadsFor k ((s.slot k).exec (vlduForm o).p) o.x v s0 := hread
  have haccess := accessLanes_ok (acc := 0) (all := some ((s.slot k).exec (vlduForm o).p))
    (offs := fun _ _ => (vlduForm o).offs (s.slot k) ((s.slot k).exec (vlduForm o).p) (v.getD 0)) hready (fun _ h => h) hcheck hperform
  unfold memVldu
  split
  case h_1 r hx =>
    rw [hx] at hbase
    exact (congrArg (· >>= _) hbase.rdSc_eq).trans haccess
  case h_2 hx =>
    rw [hx] at hbase
    obtain ⟨rfl, rfl⟩ := hbase
    exact haccess

theorem loadForm_runsAs {i : Instr} {f : MemForm} {poll : Bool} {put : W64 → Nat → Nat → Slot → Slot} (h : loadForm i = some (f, poll, put)) :
    ∃ run, (∀ s, exec i s = memGo i f.p f.vecs run s) ∧ f.RunsAs (fun k e _ => doLoads k f.n poll (put e)) run := by
  unfold loadForm at h
  split at h
  · cases h
    exact ⟨_, exec_vld, memVld_runsAs _⟩
  · cases h
    exact ⟨_, exec_vldu, memVldu_runsAs _⟩
  · cases h
    exact ⟨_, exec_lld, memLld_runsAs _⟩
  · cases h

theorem storeForm_runsAs {i : Instr} {f : MemForm} {d : Nat} (h : storeForm i = some (f, d)) :
    ∃ run, (∀ s, exec i s = memGo i f.p f.vecs run s) ∧ f.RunsAs (fun k _ x => storeAll k f.n (x.lane (f.n == 8) d)) run := by
  unfold storeForm at h
  split at h
  · cases h
    exact ⟨_, exec_vst, memVst_runsAs _⟩
  · cases h
    exact ⟨_, exec_lst, memLst_runsAs _⟩
  · cases h

theorem doLoads_ok {k n : Nat} {poll : Bool} {put : Nat → Nat → Slot → Slot} {refs : List Ref} {s : State} (hfull : s.emptyRef k refs = none)
    (hsound : (loadAll k n poll put (byLine refs) s []).2 = []) :
    doLoads k n poll put refs s = .ok ((loadAll k n poll put (byLine refs) s []).1, [], poll) := by
  simp only [doLoads, hfull, hsound]

/-- Settles O13: every lane load and store is its form's checks followed by `doLoads` or `storeAll`. -/
theorem laneLoadsAndStores : Obligations.LaneLoadsAndStores := by
  unfold Obligations.LaneLoadsAndStores
  refine ⟨fun i f poll put hform => ?load, fun i f d hform => ?store⟩
  case load =>
    obtain ⟨run, hexec, hrun⟩ := loadForm_runsAs hform
    rintro s k t hturn hmay ⟨refs, s1, hchecked, hfull, hsound, rfl⟩
    exact hrun.ends hexec s k _ hturn hmay ⟨refs, s1, _, _, hchecked, doLoads_ok hfull hsound, rfl⟩
  case store =>
    obtain ⟨run, hexec, hrun⟩ := storeForm_runsAs hform
    rintro s k t hturn hmay ⟨refs, s1, hchecked, rfl⟩
    exact hrun.ends hexec s k _ hturn hmay ⟨refs, s1, _, _, hchecked, rfl, rfl⟩

end Sys2Proof.Machine

/-! # TLB invalidation and the hothouse instructions (R116, R132, R278, R279)

What an instruction does once its operands are read, and what an invalidation leaves in every TLB. O31. -/

namespace Sys2Proof.Machine

/-! ### TLB invalidation (R116, R278) -/

/-- A fold that updates the parts of a list leaves `P` true of each part, when every update establishes `P` and `P` holds already of the parts not listed. -/
theorem forall_of_foldl_update {σ β : Type} {get : σ → Nat → β} {upd : σ → Nat → σ} {P : β → Prop} (hself : ∀ s a, P (get (upd s a) a))
    (hother : ∀ s {a j}, j ≠ a → get (upd s a) j = get s j) (l : List Nat) (s : σ) (h : ∀ j, j ∉ l → P (get s j)) (j : Nat) : P (get (l.foldl upd s) j) := by
  induction l generalizing s with
  | nil => exact h j (List.not_mem_nil)
  | cons a l ih =>
    refine ih (upd s a) fun i hi => ?_
    by_cases hia : i = a
    · exact hia ▸ hself s a
    · exact hother s hia ▸ h i (by simp [hia, hi])

theorem State.core_of_not_mem_keys {s : State} {c : Nat} (h : c ∉ mkeys s.cores) : s.core c = Core.reset :=
  mget_of_not_mem fun e he hc => h (List.mem_map.2 ⟨e, he, hc⟩)
theorem State.cluster_of_not_mem_keys {s : State} {c : Nat} (h : c ∉ mkeys s.clusters) : s.cluster c = Cluster.reset :=
  mget_of_not_mem fun e he hc => h (List.mem_map.2 ⟨e, he, hc⟩)

/-- No entry of a TLB is one of a partition that an invalidation hits. -/
def Invalidated (p : Nat) (hit : Tlb → Bool) (l : List Tlb) : Prop := ∀ e ∈ l, ¬ (e.part = p ∧ hit e = true)

theorem invalidated_nil (p : Nat) (hit : Tlb → Bool) : Invalidated p hit [] := fun _ he => absurd he List.not_mem_nil
theorem invalidated_filter (p : Nat) (hit : Tlb → Bool) (l : List Tlb) : Invalidated p hit (l.filter (fun t => !(t.part == p && hit t))) :=
  fun e he ⟨hpart, hhit⟩ => by simpa [hpart, hhit] using (List.mem_filter.1 he).2

theorem State.tlbDrop_core (s : State) (p : Nat) (hit : Tlb → Bool) (c : Nat) :
    Invalidated p hit ((s.tlbDrop p hit).core c).itlb ∧ Invalidated p hit ((s.tlbDrop p hit).core c).dtlb := by
  simp only [State.tlbDrop]
  rw [foldl_keeps (fun u : State => u.core c) (h := ?clusters)]
  case clusters => exact fun _ _ => State.modCluster_core ..
  refine forall_of_foldl_update (P := fun x => Invalidated p hit x.itlb ∧ Invalidated p hit x.dtlb) (fun u a => ?_) (fun u a j h => State.modCore_core_ne u _ h)
    _ s (fun j hj => ?_) c
  · rw [State.modCore_core]
    exact ⟨invalidated_filter _ _ _, invalidated_filter _ _ _⟩
  · rw [State.core_of_not_mem_keys hj]
    exact ⟨invalidated_nil _ _, invalidated_nil _ _⟩

theorem State.tlbDrop_cluster (s : State) (p : Nat) (hit : Tlb → Bool) (c : Nat) : Invalidated p hit ((s.tlbDrop p hit).cluster c).l2tlb := by
  unfold State.tlbDrop
  refine forall_of_foldl_update (P := fun x => Invalidated p hit x.l2tlb) (fun u a => ?_) (fun u a j h => State.modCluster_cluster_ne u _ h) _ _ (fun j hj => ?_) c
  · rw [State.modCluster_cluster]
    exact invalidated_filter _ _ _
  · rw [State.cluster_of_not_mem_keys hj]
    exact invalidated_nil _ _

theorem tlbI_ok {i : Instr} {a b : Nat} {bad : W64 → W64 → Bool} {hit : W64 → W64 → Tlb → Bool} {s s1 : State} {k : Nat} {x y : W64} (hturn : s.Turn k)
    (hmay : (s.slot k).May 1 [] []) (hread : s.Reads k 1 [a, b] [x, y] s1) (hbad : bad x y = false) :
    tlbI i a b bad hit s = .next ((s1.tlbDrop (s.partOfSlot k) (hit x y)).advance k) := by
  refine sysI_ok hturn hmay ?_
  rw [State.Reads] at hread
  simp only [hread, bind_ok, lrw, nth, hbad, Bool.not_false, ensure_ok]
  rfl

/-! ### Hothouse lines (R132, R279) -/

theorem hotI_ok {i : Instr} {a b : Nat} {present : Bool} {s s1 s2 : State} {k va : Nat} {n : W64} {rs : List (Nat × Nat × Xl)} (hturn : s.Turn k)
    (hmay : (s.slot k).May 0 [] []) (hread : s.Reads k 1 [b] [n] s1) (hmem : pSP ((s.slot k).preg a) = false)
    (hcheck : checkAccess ((s.slot k).preg a) 0 n.toNat 2 = some va) (hva : va % 128 = 0) (hn : n.toNat % 128 = 0)
    (hpages : s1.rangePages k (accW (s.slot k).priv) 1 (fun q => q.ty == 2) va n.toNat (n.toNat / 65536 + 2) = .ok (rs, s2)) :
    hotI i a b present s = .next ((rs.foldl (fun u r => u.zeroLines k r.1 r.2.1 present)
      ((s2.l1In (coreOf k) rs).foldl (fun u y => u.invSector (coreOf k) y) s2)).advance k) := by
  refine scalarI_ok hturn hmay ?_
  have haligned : ensure (va % 128 == 0 && n.toNat % 128 == 0) 0x05 = .ok () := ensure_ok (by simp [hva, hn])
  simp only [rdScs_one.1 hread, bind_ok, hmem, hcheck, haligned, hpages]
  rfl

/-- Settles O31: each instruction once its operands are read, and what a fold of updates does to every TLB. -/
theorem tlbAndHothouse : Obligations.TlbAndHothouse := by
  unfold Obligations.TlbAndHothouse
  refine ⟨fun a b => ?page, fun a b => ?space, fun a b => ?all, fun s p hit e => ?dropped, fun i a b present => ?hothouse⟩
  case page =>
    rintro s k t hturn hmay ⟨x, y, s1, hread, hx, hy, rfl⟩
    exact (exec_tlbInvPage s).trans (tlbI_ok hturn hmay hread (by simp [hx, hy]))
  case space =>
    rintro s k t hturn hmay ⟨x, y, s1, hread, hx, hy, rfl⟩
    exact (exec_tlbInvSpace s).trans (tlbI_ok hturn hmay hread (by simp [hx, hy]))
  case all =>
    rintro s k t hturn hmay ⟨x, y, s1, hread, hx, hy, rfl⟩
    exact (exec_tlbInvAll s).trans (tlbI_ok hturn hmay hread (by simp [hx, hy]))
  case dropped =>
    rintro (⟨c, he | he⟩ | ⟨c, he⟩)
    · exact (s.tlbDrop_core p hit c).1 e he
    · exact (s.tlbDrop_core p hit c).2 e he
    · exact s.tlbDrop_cluster p hit c e he
  case hothouse =>
    rintro (⟨rfl, rfl⟩ | ⟨rfl, rfl⟩) s k t hturn hmay ⟨n, s1, va, rs, s2, hread, hmem, hcheck, hva, hn, hpages, rfl⟩
    · exact (exec_hhDsc s).trans (hotI_ok hturn hmay hread hmem hcheck hva hn hpages)
    · exact (exec_hhZero s).trans (hotI_ok hturn hmay hread hmem hcheck hva hn hpages)

end Sys2Proof.Machine

/-! # Walks, replacement and tokens (R114, R148, R156 to R161, R455)

What the function behind each event of tokens does, case by case. O46. -/

namespace Sys2Proof.Machine

/-! ### Requests (R158, R159) -/

theorem State.miss_first {s : State} {c b : Nat} {w : Bool} (hneeds : s.needs c b = some w) (hcdc : s.cdcOk c b w = false) (hnone : s.treq? c b = none) :
    s.miss c b w = s.modDie (dieOfCore c) (fun x => { x with treqs := x.treqs ++ [TReq.first c b w s.cycle] }) := by
  simp [State.miss, hnone, hneeds, hcdc, TReq.first]

theorem State.miss_waiting {s : State} {c b : Nat} {w : Bool} {r : TReq} (hreq : s.treq? c b = some r) (hwrite : r.write = w) (hsent : r.sent = false)
    (hpers : r.persistent = false) : s.miss c b w = s.serveReq r := by
  simp [State.miss, hreq, hwrite, hsent, hpers]

/-- The events of a read miss and of a write miss are one function of the kind. -/
theorem exec_miss {c b : Nat} {w : Bool} {i : Instr} (h : i = .treq c b ∧ w = false ∨ i = .treqx c b ∧ w = true) (s : State) :
    exec i s = .next (s.miss c b w) := by
  rcases h with ⟨rfl, rfl⟩ | ⟨rfl, rfl⟩
  · exact exec_treq s
  · exact exec_treqx s

theorem State.serveReq_read {s : State} {r : TReq} (hwrite : r.write = false)
    (hidle : ((s.die (dieOfCore r.core)).treqs.any (fun q => q.blk == r.blk && q.active)) = false) (hperm : s.permRead (dieOfCore r.core) r.blk = true)
    (hhost : s.hostHolds r.blk ≠ 2) (htok : 1 ≤ (s.sliceTok (dieOfCore r.core) r.blk).n) :
    s.serveReq r = (s.sliceSend (dieOfCore r.core) r.blk r.core 1).modTreq r.core r.blk (fun q => { q with sent := true }) := by
  have hmay : (s.permRead (dieOfCore r.core) r.blk && s.hostHolds r.blk != 2) = true := by simp [hperm, hhost]
  simp only [State.serveReq, hidle, hwrite, hmay, htok, Bool.false_eq_true, if_false, if_true]

/-! ### Collections and tokens (R159, R160) -/

theorem State.onCoh_of_arrives {s u : State} {id : Nat} {kd : CohKind} {m : Coh} (h : s.Arrives id kd m u) (f : Coh → State → State) :
    s.onCoh id kd f = f m u := by
  obtain ⟨hcoh, rfl⟩ := h
  simp [State.onCoh, hcoh]

theorem State.takeTcoll_one {u : State} {m : Coh} (hn : m.n = 1) (howner : (u.cdcTok m.src m.blk).owner = true) (hmore : 1 < (u.cdcTok m.src m.blk).n) :
    u.takeTcoll m = ((u.setCdcTok m.src m.blk { u.cdcTok m.src m.blk with n := (u.cdcTok m.src m.blk).n - 1 }).addHint m.die m.blk m.req).sendCoh
      (cohMsg .tokdata m.die m.src m.blk m.req 1 false false) := by
  simp [State.takeTcoll, hn, howner, Nat.ne_of_gt hmore]

/-- The CDC of a core once the tokens of a message have come in: room is made for the block, and what the core held is added to. -/
def State.tokIn (u : State) (m : Coh) : State :=
  (u.cdcRoom m.req m.blk).setCdcTok m.req m.blk ⟨((u.cdcRoom m.req m.blk).cdcTok m.req m.blk).n + m.n,
    ((u.cdcRoom m.req m.blk).cdcTok m.req m.blk).owner || m.owner, ((u.cdcRoom m.req m.blk).cdcTok m.req m.blk).dirty || m.dirty⟩

section
variable {u : State} {m : Coh}

theorem State.takeTok_passedOn {r : TReq} (hactive : (u.die m.die).treqs.find? (fun r => r.blk == m.blk && r.active && r.core != m.req) = some r) :
    u.takeTok m = (u.addHint m.die m.blk r.core).sendCoh { m with src := m.req, req := r.core } := by
  simp only [State.takeTok, hactive]

variable (hnone : (u.die m.die).treqs.find? (fun r => r.blk == m.blk && r.active && r.core != m.req) = none)
include hnone

theorem State.takeTok_ends {r : TReq} (hreq : (u.tokIn m).treq? m.req m.blk = some r) (hpers : r.persistent = false)
    (hok : (u.tokIn m).cdcOk m.req m.blk r.write = true) : u.takeTok m = (u.tokIn m).dropTreq m.req m.blk := by
  unfold State.tokIn at hreq hok ⊢
  simp only [State.takeTok, hnone, hreq, hpers, hok, Bool.not_false, Bool.and_self, if_true]

theorem State.takeTok_kept (h : ∀ r, (u.tokIn m).treq? m.req m.blk = some r → r.persistent = true ∨ (u.tokIn m).cdcOk m.req m.blk r.write = false) :
    u.takeTok m = u.tokIn m := by
  cases hreq : (u.tokIn m).treq? m.req m.blk with
  | none =>
    unfold State.tokIn at hreq ⊢
    simp only [State.takeTok, hnone, hreq]
  | some r =>
    have hstays : (!r.persistent && (u.tokIn m).cdcOk m.req m.blk r.write) = false := by
      rcases h r hreq with hp | hc
      · simp [hp]
      · simp [hc]
    unfold State.tokIn at hreq hstays ⊢
    simp only [State.takeTok, hnone, hreq, hstays, Bool.false_eq_true, if_false]
end

/-! ### Reissue and persistent requests (R160) -/

theorem State.reissueDue_iff {s : State} {r : TReq} : s.reissueDue r = true ↔ r.persistent = false ∧ r.issues < 4 ∧ r.since + 2048 ≤ s.cycle := by
  simp [State.reissueDue, and_assoc]

section
variable {s : State} {c b : Nat} {r : TReq} (hreq : s.treq? c b = some r)
include hreq

theorem execTransientRequestReissue_due (hcdc : s.cdcOk c b r.write = false) (hdue : s.reissueDue r = true) :
    execTransientRequestReissue c b s = .next ((s.modTreq c b (fun _ => { r with issues := r.issues + 1, since := s.cycle, sent := false })).serveReq
      { r with issues := r.issues + 1, since := s.cycle, sent := false }) := by
  simp [execTransientRequestReissue, hreq, hcdc, hdue]

theorem execTransientRequestReissue_not_due (hcdc : s.cdcOk c b r.write = false) (hdue : s.reissueDue r = false) :
    execTransientRequestReissue c b s = .next s := by
  simp [execTransientRequestReissue, hreq, hcdc, hdue]

theorem execPersistentRequest_due (hdue : s.persistDue r = true) : execPersistentRequest c b s = .next (s.modTreq c b (fun q =>
    { q with persistent := true, table := decide (s.tableUsed (dieOfCore c) b < 16), sent := false })) := by
  simp [execPersistentRequest, hreq, hdue]

theorem execDeactivation_due (hactive : r.active = true) (hneeds : s.needs r.core r.blk = none) : execDeactivation c b s = .next (s.dropTreq c b) := by
  simp [execDeactivation, hreq, State.deactDue, hactive, hneeds]

theorem execDeactivation_not_due (h : r.active = false ∨ (s.needs r.core r.blk).isSome = true) : execDeactivation c b s = .next s := by
  have hdue : s.deactDue r = false := by
    rcases h with ha | hn
    · simp [State.deactDue, ha]
    · simp [State.deactDue, Option.isNone_eq_false_iff.2 hn]
  simp [execDeactivation, hreq, hdue]
end

theorem State.activate_not_due {s : State} {d b : Nat} (h : s.actDue d b = false) : s.activate d b = s.serveBlk d b := by simp [State.activate, h]

/-- The one request of a batch is activated. -/
theorem State.activate_single {s : State} {d b : Nat} {r : TReq} (hdue : s.actDue d b = true)
    (htable : (s.die d).treqs.filter (fun q => q.blk == b && q.table) = [r]) (hbatch : r.batch = true) :
    s.activate d b = (s.modTreq r.core b (fun _ => { r with active := true, since := s.cycle, sent := false })).serveActive
      { r with active := true, since := s.cycle, sent := false } := by
  have hfilter : (s.die d).treqs.filter (fun q => q.blk == b && q.table && q.batch) = [r] := by
    calc (s.die d).treqs.filter (fun q => q.blk == b && q.table && q.batch)
        = ((s.die d).treqs.filter (fun q => q.blk == b && q.table)).filter (·.batch) := by simp only [List.filter_filter, Bool.and_comm]
      _ = [r] := by simp [htable, hbatch]
  have hmem : r ∈ (s.die d).treqs.filter (fun q => q.blk == b && q.table && q.batch) := hfilter ▸ List.mem_singleton_self r
  have hany : (s.die d).treqs.any (fun q => q.blk == b && q.table && q.batch) = true := List.any_eq_true.2 ⟨r, List.mem_filter.1 hmem⟩
  simp [State.activate, hdue, hany, hfilter]

/-! ### Recount (R455) -/

theorem State.recount_not_due {s : State} {d b : Nat} (h : s.recountDue d b = false) : s.recount d b = s := by simp [State.recount, h]

/-- Is a block poisoned by a recount: its owner token is lost or doubled, and the die is no mere sharer. -/
theorem recount_poison_iff {n own st : Nat} {homed p : Bool} (h : p = true ↔ own ≠ 1 ∧ (homed = true ∨ st ≠ 1)) :
    (!(n == 512 && own == 1) && own != 1 && !(!homed && st == 1)) = p := by
  rw [Bool.eq_iff_iff, h]
  by_cases hown : own = 1
  · simp [hown]
  · simp [hown]

theorem State.recount_due {s : State} {d b : Nat} (hdue : s.recountDue d b = true) {p : Bool}
    (hp : p = true ↔ ((s.tokens d b).filter (·.owner)).length ≠ 1 ∧ (s.homed d b = true ∨ s.ownSt d b ≠ 1)) :
    s.recount d b =
      let own := ((s.tokens d b).filter (·.owner)).length
      let s1 := s.fullSlice d b ((s.tokens d b).any (·.dirty))
      let s2 := (if p then s1.poisonBlock b else s1).logTo d (s.askerPart d b) (evEntry (srcOfSlice d (sliceOf (128 * b))) 0x50 3 0
        (natW (Nat.min (((s.tokens d b).map (·.n)).foldl (· + ·) 0) 1023 + b2n (own != 0) * 1024 + b2n p * 2048)) (natW (128 * b)))
      ((s2.die d).treqs.filter (fun r => r.blk == b && r.active)).foldl (fun u r =>
        (u.modTreq r.core b (fun _ => { r with since := u.cycle, sent := false })).serveActive { r with since := u.cycle, sent := false }) s2 := by
  unfold State.recount
  rw [hdue]
  simp only [recount_poison_iff hp]
  rfl

/-! ### Walks (R114) -/

/-- The access for which a walk is made. -/
def walkAcc (w u f : Bool) : Acc := (if f then accX else if w then accW else accR) (if u then 0 else 1)

theorem execPageTableWalk_acc (c p asid va : Nat) (w u f : Bool) (s : State) : execPageTableWalk c p asid va w u f s =
    .next (match s.xlate c p asid (walkAcc w u f) va with
      | .ok (_, t) => t
      | .error (_, t) => t) := by
  cases f
  · cases w <;> rfl
  · rfl

theorem execPageTableWalk_ok {s t : State} {c p asid va : Nat} {w u f : Bool} {x : Xl} (h : s.xlate c p asid (walkAcc w u f) va = .ok (x, t)) :
    execPageTableWalk c p asid va w u f s = .next t := by rw [execPageTableWalk_acc, h]
theorem execPageTableWalk_error {s t : State} {c p asid va e : Nat} {w u f : Bool} (h : s.xlate c p asid (walkAcc w u f) va = .error (e, t)) :
    execPageTableWalk c p asid va w u f s = .next t := by rw [execPageTableWalk_acc, h]

/-- Settles O46: each event's function, in the case that the clause names. That a request waits while a persistent one is active, and what waits for a place
in the table, is the model's choice (log entry 84). -/
theorem tokenEvents : Obligations.TokenEvents := by
  unfold Obligations.TokenEvents
  refine ⟨?walk, ?replace, ?peek, ?first, ?waiting, ?served, ?collectOne, ?collectAll, ?arrive, ?passOn, ?reissue, ?reissueNot, ?persistent, ?activate,
    ?activateNot, ?deactivate, ?recountNot, ?recount⟩
  case walk =>
    rintro c p asid va w u f s t (⟨x, h⟩ | ⟨e, h⟩)
    · exact (exec_pageTableWalk s).trans (execPageTableWalk_ok h)
    · exact (exec_pageTableWalk s).trans (execPageTableWalk_error h)
  case replace => exact fun c x => happens_next exec_l1ReplacementWriteback (fun s t h => h.symm)
  case peek =>
    refine fun c b => happens_next exec_peek ?_
    rintro s t ⟨hcoh, rfl⟩
    exact if_pos hcoh
  case first =>
    refine fun c b i w hi => happens_next (exec_miss hi) ?_
    rintro s t ⟨hneeds, hcdc, hnone, rfl⟩
    exact State.miss_first hneeds hcdc hnone
  case waiting =>
    refine fun c b i w hi => happens_next (exec_miss hi) ?_
    rintro s t ⟨r, hreq, hwrite, hsent, hpers, rfl⟩
    exact State.miss_waiting hreq hwrite hsent hpers
  case served => exact fun s r => State.serveReq_read
  case collectOne =>
    refine fun id => happens_next exec_tcoll ?_
    rintro s t ⟨m, u, harr, hn, howner, hmore, rfl⟩
    exact (State.onCoh_of_arrives harr _).trans (State.takeTcoll_one hn howner hmore)
  case collectAll =>
    refine fun id => happens_next exec_tcoll ?_
    rintro s t ⟨m, u, harr, hn, rfl⟩
    exact (State.onCoh_of_arrives harr _).trans (if_neg hn)
  case arrive =>
    refine fun id => happens_next exec_tokdata ?_
    rintro s t ⟨m, u, harr, hnone, ⟨r, hreq, hpers, hok, rfl⟩ | ⟨hstays, rfl⟩⟩
    · exact (State.onCoh_of_arrives harr _).trans (State.takeTok_ends hnone hreq hpers hok)
    · exact (State.onCoh_of_arrives harr _).trans (State.takeTok_kept hnone hstays)
  case passOn =>
    refine fun id => happens_next exec_tokdata ?_
    rintro s t ⟨m, u, r, harr, hactive, rfl⟩
    exact (State.onCoh_of_arrives harr _).trans (State.takeTok_passedOn hactive)
  case reissue =>
    rintro c b s t ⟨r, hreq, hcdc, hpers, hfew, hlate, rfl⟩
    exact (exec_transientRequestReissue s).trans (execTransientRequestReissue_due hreq hcdc (State.reissueDue_iff.2 ⟨hpers, hfew, hlate⟩))
  case reissueNot =>
    rintro c b s t ⟨r, hreq, hcdc, hwait, rfl⟩
    refine (exec_transientRequestReissue _).trans (execTransientRequestReissue_not_due hreq hcdc (Bool.eq_false_iff.2 (mt State.reissueDue_iff.1 ?_)))
    omega
  case persistent =>
    rintro c b s t ⟨r, hreq, hpers, hmany, hlate, rfl⟩
    exact (exec_persistentRequest s).trans (execPersistentRequest_due hreq (by simp [State.persistDue, hpers, hmany, hlate]))
  case activate =>
    refine fun d b => happens_next exec_persistentActivation ?_
    rintro s t ⟨r, hdue, htable, hbatch, rfl⟩
    exact State.activate_single hdue htable hbatch
  case activateNot =>
    refine fun d b => happens_next exec_persistentActivation ?_
    rintro s t ⟨hdue, rfl⟩
    exact State.activate_not_due hdue
  case deactivate =>
    rintro c b s t ⟨r, hreq, ⟨hactive, hneeds, rfl⟩ | ⟨h, rfl⟩⟩
    · exact (exec_deactivation s).trans (execDeactivation_due hreq hactive hneeds)
    · exact (exec_deactivation _).trans (execDeactivation_not_due hreq h)
  case recountNot =>
    refine fun d b => happens_next exec_tokenRecount ?_
    rintro s t ⟨hdue, rfl⟩
    exact State.recount_not_due hdue
  case recount =>
    refine fun d b => happens_next exec_tokenRecount ?_
    rintro s t ⟨hdue, p, hp, rfl⟩
    exact State.recount_due hdue hp

end Sys2Proof.Machine

/-! # Migration, redirects, the hothouse and hot rows (R120, R121, R130 to R133, R431, R441 to R443, R446 to R451)

What the function behind each event of pages does, case by case. O50. -/

namespace Sys2Proof.Machine

/-! ### Migration and redirects (R120, R121, R446, R447) -/

theorem State.migrate_of_ignored {s : State} {d : Nat} {v : W64} (h : bitAt v 0 = false ∨ migBusy (s.mg d 0x50) = true) : s.migrate d v = s := by
  rcases h with h | h <;> simp [State.migrate, h]

/-- The address of the entry that MIGSRC names. -/
def State.migSrc (s : State) (d : Nat) : Nat := wf (s.mg d 0x40) 3 49 * 8
/-- The frame that MIGDST names for a page of TYPE 1. -/
def State.migDst (s : State) (d : Nat) : Nat := wf (s.mg d 0x48) 13 39 * 8192

/-- A GO that finds no command in progress, with MIGSRC naming a leaf of TYPE 1 whose frame is the die's and which no command moves (R446, R447): `e` is the
leaf and `u` the state that its read leaves. -/
structure State.MayMigrate (s : State) (d : Nat) (v e : W64) (u : State) : Prop where
  go : bitAt v 0 = true
  idle : migBusy (s.mg d 0x50) = false
  read : s.cread64 none d (s.migSrc d) = (0, e, u)
  valid : pteV e = true
  ty : pteTy e = 1
  low : wf (s.mg d 0x40) 0 3 = 0
  high : wf (s.mg d 0x40) 52 12 = 0
  home : u.homeOf (leafBase e) = d
  other : ∀ x, x < 4 → ∀ m, (u.die x).migr = some m → m.pte ≠ s.migSrc d

/-- A page that a table in use holds migrates to a frame of its size within HBM. -/
theorem State.migrate_begins {s u : State} {d lv va p : Nat} {v e : W64} (h : s.MayMigrate d v e u) (hchain : u.chain 4 (s.migSrc d) = some (lv, va, p))
    (hleaf : lv ≠ 3) (halign : s.migDst d % 2 ^ pageBits lv = 0) (hfits : s.migDst d + 2 ^ pageBits lv ≤ 0x9000000000) :
    s.migrate d v =
      (u.modDie d (fun x => { x with migr := some ⟨s.migSrc d, s.migDst d, leafBase e, s.migDst d, 2 ^ (10 * lv), 0⟩ })).migStatus d 0 true := by
  obtain ⟨hgo, hidle, hread, hvalid, hty, hlow, hhigh, hhome, hother⟩ := h
  have hgoes : ¬ (!bitAt v 0 || migBusy (s.mg d 0x50)) = true := by simp [hgo, hidle]
  have hentry : ¬ (0 ≠ 0 ∨ (!pteV e) = true ∨ pteTy e ≠ 1 ∧ pteTy e ≠ 2 ∨ wf (s.mg d 0x40) 0 3 ≠ 0 ∨ wf (s.mg d 0x40) 52 12 ≠ 0 ∨ u.homeOf (leafBase e) ≠ d) := by
    simp [hvalid, hty, hlow, hhigh, hhome]
  have hfree : (List.range 4).any (fun x => (u.die x).migr.any (fun m => m.pte == s.migSrc d)) = false := by
    simpa [Option.any_eq_false] using hother
  have hframe : ¬ (lv = 3 ∨ s.migDst d % 2 ^ pageBits lv ≠ 0 ∨ 0x9000000000 < s.migDst d + 2 ^ pageBits lv) := by
    simp only [hleaf, halign, false_or, not_or]
    exact ⟨not_not_intro rfl, Nat.not_lt.2 hfits⟩
  unfold State.migSrc at hread hfree hchain ⊢
  simp only [State.migrate, if_neg hgoes, hread]
  rw [if_neg hentry, if_neg (Bool.eq_false_iff.1 hfree), hchain]
  exact (if_pos hty).trans (if_neg hframe)

theorem State.migPart_of_not_ready {s : State} {d : Nat} (h : (s.die d).migr = none ∨ s.migReady d = false) : s.migPart d = s := by
  cases hm : (s.die d).migr with
  | none => simp only [State.migPart, hm]
  | some m =>
    have hready := h.resolve_left (by simp [hm])
    simp [State.migPart, hm, hready]

theorem State.migPart_of_not_last {s : State} {d : Nat} {m : Migr} (hm : (s.die d).migr = some m) (hready : s.migReady d = true)
    (hmore : m.moved + 1 < m.parts) :
    s.migPart d = (s.movePart (m.old + 65536 * m.moved) (m.new + 65536 * m.moved)).modDie d (fun x => { x with
      redir := if m.moved = 0 then x.redir ++ [⟨m.old, m.new, 65536⟩] else x.redir.map (fun r => if r.old = m.old then { r with len := r.len + 65536 } else r)
      migr := some { m with moved := m.moved + 1 } }) := by
  simp only [State.migPart, hm, hready, hmore, Bool.not_true, Bool.false_eq_true, if_false, if_true]

theorem execRedirectForward_of_found {s : State} {c pa : Nat} {r : Redir}
    (h : (List.range 4).findSome? (fun d => (s.die d).redir.find? (fun r => decide (r.old ≤ pa) && decide (pa < r.old + r.len))) = some r) :
    let keep (x : Tlb) : Bool := !(decide (leafBase x.pte ≤ r.old) && decide (r.old < leafBase x.pte + 2 ^ pageBits x.level))
    execRedirectForward c pa s = .next ((s.modCore c (fun x => { x with itlb := x.itlb.filter keep, dtlb := x.dtlb.filter keep })).modCluster (clOfCore c)
      (fun x => { x with l2tlb := x.l2tlb.filter keep })) := by
  simp only [execRedirectForward, h]

theorem execRedirectEntryFree_of_done {s : State} {d j : Nat} {r : Redir} (hentry : (s.die d).redir[j]? = some r)
    (hdone : ∀ m, (s.die d).migr = some m → m.old ≠ r.old) :
    execRedirectEntryFree d j s = .next ((s.dropFrame r.old r.len).modDie d (fun x => { x with redir := x.redir.filter (fun q => q != r) })) := by
  have hidle : (s.die d).migr.any (fun m => m.old == r.old) = false := by simpa [Option.any_eq_false] using hdone
  simp only [execRedirectEntryFree, hentry, hidle, Bool.false_eq_true, if_false]

/-! ### The hothouse (R130, R133, R448 to R451) -/

/-- A first reservation forces no page out. -/
theorem State.writeHhres_of_empty_run {s : State} {d p : Nat} {v : W64} (h : runOf (s.cfg d p 0x050) = []) :
    s.writeHhres d p v = (s.setCfg d p 0x050 (v &&& 0x3FF01FF)).modDie d (fun x => { x with
      stranded := x.stranded.filter (fun e => !(e / 512 == p && (runOf (v &&& 0x3FF01FF)).contains (e % 512))) }) := by
  simp only [State.writeHhres, h, List.filter_nil, List.foldl_nil]

@[simp] theorem State.setCfg_stranded (s : State) (d p off : Nat) (v : W64) : ((s.setCfg d p off v).die d).stranded = (s.die d).stranded := by
  simp [State.setCfg]

/-- A list without frames, or one of a partition without stranded pages, forces no page out. -/
theorem State.writeHhfb_of_nothing_to_move {s : State} {d p : Nat} {v : W64} (h : wf v 0 10 = 0 ∨ ∀ e ∈ (s.die d).stranded, e / 512 ≠ p) :
    s.writeHhfb d p v = (s.setCfg d p 0x058 (v &&& 0xFFFFFFFFFF3FF)).modDie d (fun x => { x with fbHead := mput x.fbHead p 0 }) := by
  by_cases hframes : wf v 0 10 = 0
  · exact if_pos hframes
  · have hnone : (s.die d).stranded.filter (fun e => e / 512 == p) = [] := List.filter_eq_nil_iff.2 (by simpa using h.resolve_left hframes)
    simp [State.writeHhfb, hframes, hnone]

/-! ### Hot rows and the scrub (R430, R434, R441 to R443) -/

theorem execRowCapture_of_ignored {s : State} {d row : Nat} (h : bitAt (s.mg d 0x18) 63 = false ∨ (s.die d).captured.contains row = true) :
    execRowCapture d row s = .next s := by
  refine congrArg _ (if_pos ?_)
  rcases h with h | h <;> simp only [h, Bool.not_false, Bool.true_or, Bool.or_true]

theorem execRowCapture_first {s : State} {d row : Nat} (hon : bitAt (s.mg d 0x18) 63 = true) (hnew : (s.die d).captured.contains row = false)
    (hcount : mget 0 (s.die d).rows row = 0) (hways : ((s.die d).captured.filter (fun r => r % 16 == row % 16)).length < s.capWays d) :
    execRowCapture d row s = .next ((s.modDie d (fun y => { y with rows := mput y.rows row (s.rowThr d) })).modDie d
      (fun y => { y with captured := y.captured ++ [row] })) := by
  simp only [execRowCapture, hon, hnew, hcount, hways, Nat.zero_add, Bool.not_true, Bool.or_self, Bool.false_eq_true, if_false, and_self, if_true]

theorem State.checkRange_of_none {s : State} {pa n : Nat} (h : ∀ x ∈ s.bad, ¬ (pa ≤ 64 * x ∧ 64 * x < pa + n)) : s.checkRange pa n = s := by
  have hnone : s.bad.filter (fun x => decide (pa ≤ 64 * x) && decide (64 * x < pa + n)) = [] := List.filter_eq_nil_iff.2 (by simpa using h)
  simp only [State.checkRange, hnone, List.foldl_nil]

theorem State.checkRange_of_one {s : State} {pa n x : Nat} (h : s.bad = [x]) (hlo : pa ≤ 64 * x) (hhi : 64 * x < pa + n) :
    s.checkRange pa n = (s.poisonSector x).memEvent none (s.homeOf (64 * x)) (s.unitOf (64 * x)) 0x41 0 0 (natW (64 * x / 128 * 128)) := by
  have hone : s.bad.filter (fun x => decide (pa ≤ 64 * x) && decide (64 * x < pa + n)) = [x] := by simp [h, hlo, hhi]
  rw [State.checkRange, hone]
  rfl

/-- Settles O50: each event's function, in the case that the clause names. How an entry's place in the tables is found and how large a part is (log entry 61)
and that a write of HHFB sets the list's head to 0 (log entry 62) are the model's choices. -/
theorem pageEvents : Obligations.PageEvents := by
  unfold Obligations.PageEvents
  refine ⟨?goNot, ?go, ?part, ?partNot, ?forward, ?free, ?reserve, ?fallback, ?captureNot, ?capture, ?window, ?scrubNone, ?scrub⟩
  case goNot =>
    refine fun d v => happens_next exec_migctlGo ?_
    rintro s t ⟨h, rfl⟩
    exact State.migrate_of_ignored h
  case go =>
    refine fun d v => happens_next exec_migctlGo ?_
    rintro s t ⟨e, u, lv, va, p, hgo, hbusy, hread, hvalid, hty, hlow, hhigh, hhome, hother, hchain, hleaf, halign, hfits, rfl⟩
    exact State.migrate_begins ⟨hgo, hbusy, hread, hvalid, hty, hlow, hhigh, hhome, hother⟩ hchain hleaf halign hfits
  case part =>
    refine fun d => happens_next exec_migrationPart ?_
    rintro s t ⟨m, hm, hready, hmore, rfl⟩
    exact State.migPart_of_not_last hm hready hmore
  case partNot =>
    refine fun d => happens_next exec_migrationPart ?_
    rintro s t ⟨h, rfl⟩
    exact State.migPart_of_not_ready h
  case forward =>
    rintro c pa s t ⟨r, hfound, rfl⟩
    exact (exec_redirectForward s).trans (execRedirectForward_of_found hfound)
  case free =>
    rintro d j s t ⟨r, hentry, hdone, rfl⟩
    exact (exec_redirectEntryFree s).trans (execRedirectEntryFree_of_done hentry hdone)
  case reserve =>
    refine fun d p v => happens_next exec_hhresWrite ?_
    rintro s t ⟨h, rfl⟩
    exact State.writeHhres_of_empty_run h
  case fallback =>
    refine fun d p v => happens_next exec_hhfbWrite ?_
    rintro s t ⟨h, rfl⟩
    exact State.writeHhfb_of_nothing_to_move h
  case captureNot =>
    rintro d row s t ⟨h, rfl⟩
    exact (exec_rowCapture _).trans (execRowCapture_of_ignored h)
  case capture =>
    rintro d row s t ⟨hon, hnew, hcount, hways, rfl⟩
    exact (exec_rowCapture s).trans (execRowCapture_first hon hnew hcount hways)
  case window =>
    refine fun d => happens_next exec_hotRowWindowEnd ?_
    rintro s t (⟨hdue, rfl⟩ | ⟨hdue, rfl⟩)
    · exact if_pos hdue
    · exact if_neg (by simp [hdue])
  case scrubNone =>
    refine fun d => happens_next exec_hbmScrub ?_
    rintro s t ⟨h, rfl⟩
    exact State.checkRange_of_none h
  case scrub =>
    refine fun d => happens_next exec_hbmScrub ?_
    rintro s t ⟨x, hone, hlo, hhi, rfl⟩
    exact State.checkRange_of_one hone hlo hhi

end Sys2Proof.Machine

/-! # Checkpoints, snapshots and the race log (R125, R355 to R358, R452)

What the function behind each event does, case by case. O51. -/

namespace Sys2Proof.Machine

/-! ### Checkpoints (R355, R356, R452) -/

/-- CKCTL with GEN and PORTS as a written value has them. -/
def State.ckctlWritten (s : State) (v : W64) : W64 := setF (setF s.ckctl 48 16 (wf v 48 16)) 12 3 (wf v 12 3)
/-- A checkpoint has begun: BUSY is set and INC cleared, and the cut lies 1,024 ticks ahead. -/
def State.ckptBegun (s : State) (v : W64) : State :=
  { (s.setMg s.primary 0x180 (s.ckctlWritten v)).setMg s.primary 0x180 (setBit (setBit (s.ckctlWritten v) 1 true) 2 false) with
    ckpt := some { cut := s.gtc + 1024, gen := wf (s.ckctlWritten v) 48 16, cutDone := [], copied := [], active := false } }

theorem State.startCkpt_of_ignored {s : State} {v : W64} (h : bitAt v 0 = false ∨ s.ckBusy = true) :
    s.startCkpt v = s.setMg s.primary 0x180 (s.ckctlWritten v) := by
  refine if_pos ?_
  rcases h with h | h <;> simp only [h, Bool.not_false, Bool.true_or, Bool.or_true]

theorem State.startCkpt_of_images {s : State} {v : W64} (hgo : bitAt v 0 = true) (hbusy : s.ckBusy = false)
    (himg : ∀ d, d < 4 → (s.ckptBegun v).imageOk d = true) : s.startCkpt v = s.ckptBegun v := by
  have hgoes : ¬ (!bitAt v 0 || s.ckBusy) = true := by simp [hgo, hbusy]
  have hall : (List.range 4).find? (fun d => !(s.ckptBegun v).imageOk d) = none :=
    List.find?_eq_none.2 fun d hd => by simp [himg d (List.mem_range.1 hd)]
  unfold State.ckptBegun State.ckctlWritten at hall ⊢
  exact (if_neg hgoes).trans (by rw [hall])

theorem State.cutDie_of_not_due {s : State} {d : Nat} (h : s.cutDue d = false) : s.cutDie d = s := if_pos (by simp [h])

/-- Every core of a die has written its lane L1 back. -/
def State.dieWritten (s : State) (d : Nat) : State := ((mkeys s.cores).filter (fun k => dieOfCore k == d)).foldl (fun v k => v.wbAllL1 k) s
/-- A checkpoint with a die's cut made. -/
def Ckpt.withCut (c : Ckpt) (d : Nat) : Ckpt := { c with cutDone := c.cutDone ++ [d] }

/-- With another die's cut still to come, the copy does not begin. -/
theorem State.cutDie_of_more {s : State} {d : Nat} {c : Ckpt} (hdue : s.cutDue d = true) (hckpt : (s.dieWritten d).ckpt = some c)
    (hmore : ({ s.dieWritten d with ckpt := some (c.withCut d) } : State).cutOver (c.withCut d) = false) :
    s.cutDie d = { s.dieWritten d with ckpt := some (c.withCut d) } := by
  unfold State.dieWritten at hckpt hmore
  unfold Ckpt.withCut at hmore
  simp only [State.cutDie, hdue, hckpt, hmore, Option.map_some, Bool.not_true, Bool.false_eq_true, if_false]
  rfl

section
variable {s : State} {d j : Nat} {c : Ckpt} (hckpt : s.ckpt = some c)
include hckpt

theorem State.copyPart_of_due (hactive : c.active = true) (hnew : c.copied.contains (d, j) = false) (hin : s.unitIn d j = true) (hd : d < 4) :
    s.copyPart d j = s.copyUnit d j := by
  simp only [State.copyPart, hckpt, hactive, hnew, hin, decide_eq_true hd, Bool.not_false, Bool.and_self, if_true]

theorem State.copyPart_of_not_due (h : c.active = false ∨ c.copied.contains (d, j) = true) : s.copyPart d j = s := by
  have hguard : (c.active && !c.copied.contains (d, j)) = false := by rcases h with h | h <;> simp only [h, Bool.false_and, Bool.not_true, Bool.and_false]
  simp only [State.copyPart, hckpt, hguard, Bool.false_and, Bool.false_eq_true, if_false]
end

theorem State.copyUnit_of_reach {s : State} {d : Nat} (u : Nat) (h : s.ckReach d = true) : s.copyUnit d u =
    let src := if u < hbmUnits then d * 0x2400000000 + 65536 * u else hotAddr d (u - hbmUnits) 0
    let v := s.copyRange src (s.imageAddr d u) 65536
    { v with ckpt := v.ckpt.map (fun c => { c with copied := c.copied ++ [(d, u)] }) } := if_neg (by simp [h])

/-! ### Snapshots (R358) -/

/-- A write to a die's SNAPCTL reaches that die alone, unless it is the master. -/
theorem State.snapDies_of_not_primary {s : State} {d : Nat} (h : d ≠ s.primary) : s.snapDies d = [d] := if_neg h

theorem State.latchSnap_of_not_due {s : State} {d : Nat} (h : s.latchDue d = false) : s.latchSnap d = s := if_pos (by simp [h])
theorem State.latchSnap_of_due {s : State} {d : Nat} (h : s.latchDue d = true) : s.latchSnap d =
    if bitAt (s.mg d 0x30) 2 then s.setMg d 0x30 (setF (setBit (s.mg d 0x30) 0 false) 8 8 (Nat.min 255 (wf (s.mg d 0x30) 8 8 + 1)))
    else (s.setMg d 0x30 (setBit (setBit (s.mg d 0x30) 0 false) 2 true)).modDie d (fun x => { x with
      snap := some ⟨s.gtcOf d, x.mgmt, x.dir.map (fun e => (e.1, s.dirWord d e.1 e.2)), s.clusters.filter (fun e => dieOfCl e.1 == d),
        s.cores.filter (fun e => dieOfCore e.1 == d), s.slots.filter (fun e => dieOfSlot e.1 == d)⟩ }) := if_neg (by simp [h])

/-- Settles O51: each event's function, in the case that the clause names. That acknowledging WRAP counts as having read the ring (log entry 22) and that
SNAPTICK is a register of its own die (log entry 65) are the model's choices. -/
theorem checkpointEvents : Obligations.CheckpointEvents := by
  unfold Obligations.CheckpointEvents
  refine ⟨?goNot, ?go, ?cutNot, ?cut, ?part, ?unit, ?finish, ?arm, ?now, ?clear, ?latch, ?wrap⟩
  case goNot =>
    refine fun v => happens_next exec_ckctlGo ?_
    rintro s t ⟨h, rfl⟩
    exact State.startCkpt_of_ignored h
  case go =>
    refine fun v => happens_next exec_ckctlGo ?_
    rintro s t ⟨hgo, hbusy, himg, rfl⟩
    exact State.startCkpt_of_images hgo hbusy himg
  case cutNot =>
    refine fun d => happens_next exec_checkpointCut ?_
    rintro s t ⟨hdue, rfl⟩
    exact State.cutDie_of_not_due hdue
  case cut =>
    refine fun d => happens_next exec_checkpointCut ?_
    rintro s t ⟨c, hdue, -, hckpt, hmore, rfl⟩
    exact State.cutDie_of_more hdue hckpt hmore
  case part =>
    refine fun d j => happens_next exec_checkpointPartCopy ?_
    rintro s t ⟨c, hckpt, ⟨hactive, hnew, hin, hd, rfl⟩ | ⟨h, rfl⟩⟩
    · exact State.copyPart_of_due hckpt hactive hnew hin hd
    · exact State.copyPart_of_not_due hckpt h
  case unit => exact fun s d u h => State.copyUnit_of_reach u h
  case finish =>
    refine happens_next exec_checkpointEnd ?_
    rintro s t (⟨hdone, rfl⟩ | ⟨hdone, rfl⟩)
    · exact if_pos (by simp [hdone])
    · exact if_neg (by simp [hdone])
  case arm =>
    refine fun d => happens_next exec_snapctlArm ?_
    rintro s t ⟨hd, rfl⟩
    rw [State.arm, State.snapDies_of_not_primary hd]
    rfl
  case now =>
    refine fun d => happens_next exec_snapctlNow ?_
    rintro s t ⟨hd, rfl⟩
    rw [State.armNow, State.snapDies_of_not_primary hd]
    rfl
  case clear =>
    refine fun d => happens_next exec_snapctlDoneClear ?_
    rintro s t ⟨hd, rfl⟩
    rw [State.releaseSnap, State.snapDies_of_not_primary hd]
    rfl
  case latch =>
    refine fun d => happens_next exec_snapshotLatch ?_
    rintro s t (⟨hdue, rfl⟩ | ⟨hdue, hheld, rfl⟩ | ⟨hdue, hfree, rfl⟩)
    · exact State.latchSnap_of_not_due hdue
    · exact (State.latchSnap_of_due hdue).trans (if_pos hheld)
    · exact (State.latchSnap_of_due hdue).trans (if_neg (by simp [hfree]))
  case wrap => exact fun c => happens_next exec_rlogctlWrapClear (fun s t h => h.symm)

end Sys2Proof.Machine

/-! # Atomics, fences and full/empty words (R140, R144, R145, R150, R248 to R250, R254, R255, R259 to R262)

What each instruction's body answers once its operands are read and its place is checked. O14, O18, O20 and O21. -/

namespace Sys2Proof.Machine

/-! ### Stops that park the strand -/

theorem stop_parkWith (s u : State) (k : Nat) (a : Await) (w l : W64) : s.stop k w l (.parkWith u a) = u.doPark k a false := rfl

theorem scalarI_park {i : Instr} {dsts : List Nat} {body : Nat → State → Res State} {s : State} {k : Nat} {a : Await} (hturn : s.Turn k)
    (hmay : (s.slot k).May 0 dsts []) (hbody : body k s = parkOn a) : scalarI i dsts body s = .next (s.doPark k a false) :=
  (scalarI_stop hturn hmay hbody).trans (congrArg _ (stop_park ..))

theorem scalarI_parkWith {i : Instr} {dsts : List Nat} {body : Nat → State → Res State} {s u : State} {k : Nat} {a : Await} (hturn : s.Turn k)
    (hmay : (s.slot k).May 0 dsts []) (hbody : body k s = .error (.parkWith u a)) : scalarI i dsts body s = .next (u.doPark k a false) :=
  (scalarI_stop hturn hmay hbody).trans (congrArg _ (stop_parkWith ..))

theorem memGo_parkWith {i : Instr} {p : Pred} {vecs : List Nat} {run : W64 → Nat → State → Res (Bool × State)} {s u : State} {k : Nat} {a : Await}
    (hturn : s.Turn k) (hmay : (s.slot k).May 0 [] vecs) (he : (s.slot k).exec p ≠ 0)
    (hrun : run ((s.slot k).exec p) k s = .error (.parkWith u a)) : memGo i p vecs run s = .next (u.doPark k a false) := by
  rw [memGo, strandWith_stop hturn hmay (e := .parkWith u a)]
  · rfl
  · simp only [if_neg he, hrun, error_bind]

/-! ### Lane atomics (R248 to R250) -/

/-- The operation of a lane, on the strand as it was before the instruction. -/
def laneOp (op : AKind) (o : VAtom) (x : Slot) (l old : Nat) : Option Nat × Nat :=
  atomNew op o.ty old (x.lane o.ty.is64 o.d l) (x.lane o.ty.is64 o.c l)
/-- A lane's register takes the old value. -/
def lanePut (o : VAtom) (l old : Nat) (y : Slot) : Slot := y.setLane o.ty.is64 o.d l old

/-- Every access passes its checks, and the instruction stops all the same. -/
theorem accessLanes_stop {k : Nat} {e : W64} {regs : List Nat} {acc : Nat} {all : Option W64} {f : State → Int → Nat → XR (Ref × State)}
    {offs : Slot → W64 → List (Nat × Int × W64)} {perform : List Ref → State → Res (State × List Bad × Bool)} {xr : List Nat} {s s1 : State} {refs : List Ref}
    {stop : Stop} (hready : (s.slot k).LanesReady e regs) (hxr : ∀ r ∈ xr, r ∈ regs) (hcheck : checkAll f (offs (s.slot k) e) s [] [] = (s1, refs, []))
    (hperform : perform refs s1 = .error stop) : accessLanes k e regs xr acc all f offs perform s = .error stop := by
  have hall : refs.filter (fun r => !bitAt 0 r.lane) = refs := List.filter_eq_self.2 (fun a _ => by rw [bitAt_zero]; rfl)
  simp only [accessLanes, emptyReg_none hready, poisLanes_zero hready, poisLanes_zero (LanesReady.sub hready hxr), and_compl_zero, hcheck, checkRes_nil, bind_ok,
    hall, hperform, error_bind]

section
variable {k n : Nat} {o : Ord} {sc : Scope} {g : Nat → Nat → Option Nat × Nat} {put : Nat → Nat → Slot → Slot} {refs : List Ref} {s : State}
  (hfull : s.emptyRef k refs = none)
include hfull

theorem doAtomic_performs {now : Bool} (hnow : o ≠ .sc ∨ now = true) (hsound : (atomAll k n g put refs (s.releasePart k o sc) [] false).2.1 = []) :
    doAtomic k n o sc now g put refs s = .ok ((atomAll k n g put refs (s.releasePart k o sc) [] false).1.acquirePart k o sc, [],
      (atomAll k n g put refs (s.releasePart k o sc) [] false).2.2) := by
  have hgo : ¬ (o = .sc ∧ !now ∧ !refs.isEmpty) := by
    rintro ⟨hsc, hlater, -⟩
    rcases hnow with h | h
    · exact h hsc
    · simp [h] at hlater
  simp only [doAtomic, hfull, if_neg hgo, hsound]

theorem doAtomic_leaves (ho : o = .sc) (hrefs : refs ≠ []) : doAtomic k n o sc false g put refs s =
    .error (.parkWith ((s.releasePart k o sc).modSlot k (fun x => { x with sc := some ⟨s.scDone k, refs, []⟩ })) (.tick (s.scDone k))) := by
  have hleave : o = .sc ∧ !false ∧ !refs.isEmpty := ⟨ho, rfl, by simpa using hrefs⟩
  simp only [doAtomic, hfull, if_pos hleave]
end

/-- The index register is one of the sources. -/
theorem atomForm_index (op : AKind) (o : VAtom) : ∀ r ∈ o.x.toList, r ∈ (atomForm op o).regs :=
  fun _ h => List.mem_append_left _ (List.mem_append_right _ h)

section
variable {op : AKind} {o : VAtom} {k : Nat} {s : State}

/-- An atomic without an operation in progress is its checks followed by `doAtomic`. -/
theorem memVatom_at_issue {e : W64} {refs : List Ref} {s1 : State} (hsc : (s.slot k).sc = none) (hready : (s.slot k).LanesReady e (atomForm op o).regs)
    (hcheck : checkAll ((atomForm op o).check (s.slot k) k) ((atomForm op o).offs (s.slot k) e 0) s [] [] = (s1, refs, [])) :
    memVatom op o e k s = accessLanes k e (atomForm op o).regs o.x.toList 2 none ((atomForm op o).check (s.slot k) k) (ptrOffs o.x 0 ((s.slot k).preg o.p))
      (doAtomic k (o.ty.width / 8) o.ord o.scope false (laneOp op o (s.slot k)) (lanePut o)) s := by
  have hindex : (s.slot k).LanesReady e o.x.toList := LanesReady.sub hready (atomForm_index op o)
  have hpass : (!(checkAll ((atomForm op o).check (s.slot k) k)
      (ptrOffs o.x 0 ((s.slot k).preg o.p) (s.slot k) (e &&& ~~~((s.slot k).poisLanes e o.x.toList))) s [] []).2.2.isEmpty) = false := by
    rw [poisLanes_zero hindex, and_compl_zero]
    exact congrArg (fun r => !r.2.2.isEmpty) hcheck
  unfold atomForm throughPtr at hpass
  simp only [memVatom, hsc, hpass]
  rfl

section
variable {refs : List Ref} {s1 : State} (hsc : (s.slot k).sc = none) (hchecked : (atomForm op o).Checked k s refs s1)
include hsc hchecked

theorem memVatom_performs {t : State} {dem : Bool}
    (hperform : doAtomic k (o.ty.width / 8) o.ord o.scope false (laneOp op o (s.slot k)) (lanePut o) refs s1 = .ok (t, [], dem)) :
    memVatom op o ((s.slot k).exec o.pr) k s = .ok (dem, t) := by
  obtain ⟨-, v, s0, ⟨-, rfl⟩, hready, hcheck⟩ := hchecked
  exact (memVatom_at_issue hsc hready hcheck).trans (accessLanes_ok hready (atomForm_index op o) hcheck hperform)

theorem memVatom_stops {stop : Stop}
    (hperform : doAtomic k (o.ty.width / 8) o.ord o.scope false (laneOp op o (s.slot k)) (lanePut o) refs s1 = .error stop) :
    memVatom op o ((s.slot k).exec o.pr) k s = .error stop := by
  obtain ⟨-, v, s0, ⟨-, rfl⟩, hready, hcheck⟩ := hchecked
  exact (memVatom_at_issue hsc hready hcheck).trans (accessLanes_stop hready (atomForm_index op o) hcheck hperform)
end

/-- An operation in progress whose tick has come is performed on the accesses checked at its issue. -/
theorem memVatom_resumes {e : W64} {c : ScOp} {t : State} {dem : Bool} (hsc : (s.slot k).sc = some c) (htick : c.tick ≤ s.gtcAt k)
    (hready : (s.slot k).LanesReady e (atomForm op o).regs)
    (hperform : doAtomic k (o.ty.width / 8) o.ord o.scope true (laneOp op o (s.slot k)) (lanePut o) c.refs (s.modSlot k (fun x => { x with sc := none })) =
      .ok (t, [], dem)) :
    memVatom op o e k s = .ok (dem, t) := by
  have hresume : scResume k (o.ty.width / 8) o.ord o.scope (laneOp op o (s.slot k)) (lanePut o) c s = .ok (t, [], dem) :=
    (if_neg (Nat.not_lt.2 htick)).trans hperform
  have hregs := poisLanes_zero hready
  unfold laneOp lanePut at hresume
  unfold atomForm throughPtr at hregs
  simp only [memVatom, hsc, hresume, bind_ok, hregs, vUnits_zero, regBad_zero, findErr_nil, List.isEmpty_nil, BEq.rfl, Bool.and_self, if_true, memDone_nil]
  rfl

theorem laneAtom_exec {i : Instr} (h : laneAtom i = some (op, o)) : exec i s = memGo i o.pr (atomForm op o).vecs (memVatom op o) s := by
  unfold laneAtom at h
  split at h <;> cases h
  · exact exec_vaadd s
  · exact exec_vamin s
  · exact exec_vamax s
  · exact exec_vaand s
  · exact exec_vaor s
  · exact exec_vaxor s
  · exact exec_vaxch s
  · exact exec_vacas s
end

/-- Settles O14: an atomic is its checks followed by `doAtomic`, at once or, when it has left its slot, on the accesses that it was checked with. -/
theorem laneAtomics : Obligations.LaneAtomics := by
  unfold Obligations.LaneAtomics
  refine ⟨fun i op o hatom => ?performs, fun i op o hatom => ?leaves, fun i op o hatom => ?resumes⟩
  case performs =>
    rintro s k t hturn hmay ⟨hsc, hord, refs, s1, hchecked, hfull, hsound, rfl⟩
    exact (laneAtom_exec hatom).trans (memGo_ok hturn hmay hchecked.1 (memVatom_performs hsc hchecked (doAtomic_performs hfull (.inl hord) hsound)))
  case leaves =>
    rintro s k t hturn hmay ⟨hsc, hord, refs, s1, hchecked, hrefs, hfull, rfl⟩
    exact (laneAtom_exec hatom).trans (memGo_parkWith hturn hmay hchecked.1 (memVatom_stops hsc hchecked (doAtomic_leaves hfull hord hrefs)))
  case resumes =>
    rintro s k t hturn hmay ⟨c, hsc, he, htick, hready, hfull, hsound, rfl⟩
    exact (laneAtom_exec hatom).trans (memGo_ok hturn hmay he (memVatom_resumes hsc htick hready (doAtomic_performs hfull (.inr rfl) hsound)))

/-! ### Full/empty words and registers (R51, R254, R255) -/

section
variable {s s1 t : State} {k a : Nat} {i : Instr} {o : FE}

theorem State.awaitMet_lsTake {w : Nat} (hfull : s.wordEmpty (coreOf k) w = false)
    (hfirst : s.lsOlder (coreOf k) (s.waitPlace k (.lsTake w)) w (.lsTake w) = false) : s.awaitMet k (.lsTake w) = true := by
  simp only [State.awaitMet, hfull, hfirst, Bool.not_false, Bool.and_self]

theorem State.awaitMet_lsEmpty {w : Nat} (hempty : s.wordEmpty (coreOf k) w = true)
    (hfirst : s.lsOlder (coreOf k) (s.waitPlace k (.lsEmpty w)) w (.lsEmpty w) = false) : s.awaitMet k (.lsEmpty w) = true := by
  simp only [State.awaitMet, hempty, hfirst, Bool.not_false, Bool.and_self]

theorem mem_wordsOf (a : Nat) : a / 8 ∈ wordsOf a 8 :=
  List.mem_map.2 ⟨0, List.mem_range.2 (Nat.succ_pos _), Nat.zero_add _⟩

theorem feLoad_takes (hturn : s.Turn k) (hmay : (s.slot k).May 0 [o.d] []) (hplace : fePlace o 3 k s = .ok (a, s1)) (hready : s1.LsReady (coreOf k) a 8)
    (hfirst : s1.lsOlder (coreOf k) (s1.waitPlace k (.lsTake (a / 8))) (a / 8) (.lsTake (a / 8)) = false)
    (hwrite : (s1.setEmpty (coreOf k) (a / 8) true).Writes k o.d (natW (s1.lsRead (coreOf k) a 8)) t) : feLoad i o true s = .next (t.advance k) := by
  refine scalarI_ok hturn hmay ?_
  have hmet := State.awaitMet_lsTake (hready _ (mem_wordsOf a)).1 hfirst
  simp only [if_true, hplace, bind_ok, hmet, lsLoad_ok hready]
  exact hwrite

theorem feLoad_reads (hturn : s.Turn k) (hmay : (s.slot k).May 0 [o.d] []) (hplace : fePlace o 1 k s = .ok (a, s1)) (hready : s1.LsReady (coreOf k) a 8)
    (hwrite : s1.Writes k o.d (natW (s1.lsRead (coreOf k) a 8)) t) : feLoad i o false s = .next (t.advance k) := by
  refine scalarI_ok hturn hmay ?_
  simp only [Bool.false_eq_true, if_false, Bool.false_and, hplace, bind_ok, lsLoad_ok hready]
  exact hwrite

theorem execStf_ok {v : W64} {s2 : State} (hturn : s.Turn k) (hmay : (s.slot k).May 0 [] []) (hplace : fePlace o 2 k s = .ok (a, s1))
    (hread : s1.Reads k 1 [o.d] [v] s2) (hmet : s2.awaitMet k (.lsEmpty (a / 8)) = true) :
    execStf o s = .next ((s2.lsWrite (coreOf k) a 8 v.toNat).advance k) := by
  refine scalarI_ok hturn hmay ?_
  simp only [hplace, bind_ok, rdScs_one.1 hread, hmet, if_true]
  rfl

theorem execSte_ok (hturn : s.Turn k) (hmay : (s.slot k).May 0 [] []) (hplace : fePlace o 2 k s = .ok (a, s1)) :
    execSte o s = .next ((s1.setEmpty (coreOf k) (a / 8) true).advance k) := by
  refine scalarI_ok hturn hmay ?_
  simp only [hplace, bind_ok]
  rfl
end

/-- Settles O18: each instruction once its place is found, with no access waiting at the word before it. -/
theorem fullEmpty : Obligations.FullEmpty := by
  unfold Obligations.FullEmpty
  refine ⟨fun o => ?ldf, fun o => ?ldff, fun o => ?stf, fun o => ?ste, fun d => ?scalar, fun d => ?vector⟩
  case ldf =>
    rintro s k t hturn hmay ⟨a, s1, hplace, hready, hfirst, hwrite⟩
    exact (exec_ldf s).trans (feLoad_takes hturn hmay hplace hready hfirst hwrite)
  case ldff =>
    rintro s k t hturn hmay ⟨a, s1, hplace, hready, hwrite⟩
    exact (exec_ldff s).trans (feLoad_reads hturn hmay hplace hready hwrite)
  case stf =>
    rintro s k t hturn hmay ⟨a, s1, v, s2, hplace, hread, hempty, hfirst, rfl⟩
    exact (exec_stf s).trans (execStf_ok hturn hmay hplace hread (State.awaitMet_lsEmpty hempty hfirst))
  case ste =>
    rintro s k t hturn hmay ⟨a, s1, hplace, rfl⟩
    exact (exec_ste s).trans (execSte_ok hturn hmay hplace)
  case scalar =>
    rintro s k t hturn hmay rfl
    exact (exec_steScalar s).trans (scalarI_ok hturn hmay rfl)
  case vector =>
    rintro s k t hturn hmay rfl
    exact (exec_steVector s).trans (strandWith_ok hturn hmay rfl)

/-! ### Scalar atomics (R144, R150, R259) -/

section
variable {s : State} {k : Nat} {i : Instr} {op : AKind} {o : Atom}

theorem State.atomOne_ok {g : Nat → Option Nat × Nat} {r : Ref} {t : State} (h : AtomPerforms o k g r s t) : s.atomOne k o g r = .ok t := by
  obtain ⟨hsound, u, hwrite, rfl⟩ := h
  rw [State.Writes] at hwrite
  simp only [State.atomOne, hsound, ne_eq, not_true_eq_false, if_false, hwrite, bind_ok]
  rfl

section
variable {vs : List W64} {r : Ref} {s1 s2 t : State} (hturn : s.Turn k) (hmay : (s.slot k).May 0 [o.d] [])
include hturn hmay

section
variable (hsc : (s.slot k).sc = none) (hread : s.Reads k 1 ([o.d, xreg o.x] ++ if op = .cas then [o.c] else []) vs s1)
  (hplace : s1.ptrRef k ((s.slot k).preg o.p) (lrw vs 1).toInt (o.ty.width / 8) 11 (accA (s.slot k).priv) 2 = .ok (r, s2)) (hfull : s2.emptyRef k [r] = none)
include hsc hread hplace hfull

theorem atomI_performs (hord : o.ord ≠ .sc) (hperform : AtomPerforms o k (atomApply o op vs) r (s2.releasePart k o.ord o.scope) t) :
    atomI i op o s = .next t := by
  rw [State.Reads] at hread
  refine strandWith_ok (adv := false) hturn hmay ?_
  simp only [hsc, hread, bind_ok, hplace, hfull, if_neg hord]
  exact State.atomOne_ok hperform

theorem atomI_leaves (hord : o.ord = .sc) : atomI i op o s =
    .next (((s2.releasePart k o.ord o.scope).modSlot k (fun y => { y with sc := some ⟨s.scDone k, [r], vs⟩ })).doPark k (.tick (s.scDone k)) false) := by
  rw [State.Reads] at hread
  refine (strandWith_stop hturn hmay ?_).trans (congrArg _ (stop_parkWith ..))
  simp only [hsc, hread, bind_ok, hplace, hfull, if_pos hord]
end

theorem atomI_resumes {c : ScOp} (hsc : (s.slot k).sc = some c) (htick : c.tick ≤ s.gtcAt k) (hrefs : c.refs = [r])
    (hperform : AtomPerforms o k (atomApply o op c.ops) r (s.modSlot k (fun y => { y with sc := none })) t) : atomI i op o s = .next t := by
  refine strandWith_ok (adv := false) hturn hmay ?_
  simp only [hsc, if_neg (Nat.not_lt.2 htick), hrefs]
  exact State.atomOne_ok hperform
end

theorem scalarAtom_exec (h : scalarAtom i = some (op, o)) : exec i s = atomI i op o s := by
  unfold scalarAtom at h
  split at h <;> cases h
  · exact exec_aadd s
  · exact exec_amin s
  · exact exec_amax s
  · exact exec_aand s
  · exact exec_aor s
  · exact exec_axor s
  · exact exec_axch s
  · exact exec_acas s
end

/-- Settles O20: an atomic is performed at once, leaves its slot, or comes back when its tick has come. -/
theorem scalarAtomics : Obligations.ScalarAtomics := by
  unfold Obligations.ScalarAtomics
  intro i op o hatom
  refine ⟨?performs, ?leaves, ?resumes⟩
  case performs =>
    rintro s k t hturn hmay ⟨hsc, hord, vs, s1, r, s2, hread, hplace, hfull, hperform⟩
    exact (scalarAtom_exec hatom).trans (atomI_performs hturn hmay hsc hread hplace hfull hord hperform)
  case leaves =>
    rintro s k t hturn hmay ⟨hsc, hord, vs, s1, r, s2, hread, hplace, hfull, rfl⟩
    exact (scalarAtom_exec hatom).trans (atomI_leaves hturn hmay hsc hread hplace hfull hord)
  case resumes =>
    rintro s k t hturn hmay ⟨c, r, hsc, htick, hrefs, hperform⟩
    exact (scalarAtom_exec hatom).trans (atomI_resumes hturn hmay hsc htick hrefs hperform)

/-! ### Fences (R140, R145, R150, R260, R262) -/

section
variable {s : State} {k : Nat} {o : FenceOp}

/-- The group number of a fence that the strand's launch record defines passes the check (R61). -/
theorem fence_group_ok (h : o.scope = .grp → s.groupBad k o.grp = false) : ensure (!(o.scope == .grp && s.groupBad k o.grp)) 0x01 = .ok () := by
  refine ensure_ok ?_
  by_cases hscope : o.scope = .grp
  · simp [h hscope]
  · simp [hscope]

section
variable (hturn : s.Turn k) (hmay : (s.slot k).May 0 [] []) (hgroup : o.scope = .grp → s.groupBad k o.grp = false)
include hturn hmay hgroup

theorem execFence_ordered (hsc : (s.slot k).sc = none) (hord : o.ord ≠ .sc) :
    execFence o s = .next (((s.releasePart k o.ord (s.fenceScope k o)).acquirePart k o.ord (s.fenceScope k o)).advance k) := by
  refine scalarI_ok hturn hmay ?_
  simp only [fence_group_ok hgroup, bind_ok, hsc, if_neg hord]
  rfl

theorem execFence_leaves (hsc : (s.slot k).sc = none) (hord : o.ord = .sc) : execFence o s =
    .next (((s.releasePart k o.ord (s.fenceScope k o)).modSlot k (fun x => { x with sc := some ⟨s.scDone k, [], []⟩ })).doPark k (.tick (s.scDone k)) false) := by
  refine scalarI_parkWith hturn hmay ?_
  simp only [fence_group_ok hgroup, bind_ok, hsc, if_pos hord]

theorem execFence_resumes {c : ScOp} (hsc : (s.slot k).sc = some c) (htick : c.tick ≤ s.gtcAt k) :
    execFence o s = .next (((s.acquirePart k o.ord (s.fenceScope k o)).modSlot k (fun x => { x with sc := none })).advance k) := by
  refine scalarI_ok hturn hmay ?_
  simp only [fence_group_ok hgroup, bind_ok, hsc, if_neg (Nat.not_lt.2 htick)]
  rfl
end
end

/-! ### Cache instructions over a range (R261) -/

theorem ensure_aligned {a n al : Nat} (ha : a % al = 0) (hn : n % al = 0) : ensure (a % al == 0 && n % al == 0) 0x05 = .ok () := ensure_ok (by simp [ha, hn])

section
variable {s s1 : State} {k perm al : Nat} {i : Instr} {o : R2} {w : Bool} {go : List (Nat × Nat × Xl) → Nat → State → State} {n : W64}
  (hturn : s.Turn k) (hmay : (s.slot k).May 0 [] []) (hread : s.Reads k 1 [o.a] [n] s1)
include hturn hmay hread

theorem rangeI_of_zero (hn : n = 0) : rangeI i o perm w al go s = .next (s1.advance k) := by
  refine scalarI_ok hturn hmay ?_
  simp only [rdScs_one.1 hread, bind_ok, if_pos hn]
  rfl

section
variable {va : Nat} (hn : n ≠ 0) (hcheck : checkAccess ((s.slot k).preg o.d) 0 n.toNat perm = some va) (hva : va % al = 0) (hal : n.toNat % al = 0)
include hn hcheck hva hal

/-- Log entry 46: on a local-store pointer nothing is done after the checks. -/
theorem rangeI_of_local (hsp : pSP ((s.slot k).preg o.d) = true) : rangeI i o perm w al go s = .next (s1.advance k) := by
  refine scalarI_ok hturn hmay ?_
  simp only [rdScs_one.1 hread, bind_ok, if_neg hn, hcheck, ensure_aligned hva hal, if_pos hsp]
  rfl

theorem rangeI_of_pages {rs : List (Nat × Nat × Xl)} {s2 : State} (hsp : pSP ((s.slot k).preg o.d) = false)
    (hpages : s1.rangePages k (if w then accW (s.slot k).priv else accR (s.slot k).priv) (b2n w) (fun _ => true) va n.toNat (n.toNat / 65536 + 2) = .ok (rs, s2)) :
    rangeI i o perm w al go s = .next ((go rs (coreOf k) s2).advance k) := by
  refine scalarI_ok hturn hmay ?_
  simp only [rdScs_one.1 hread, bind_ok, if_neg hn, hcheck, ensure_aligned hva hal, hsp, Bool.false_eq_true, if_false, hpages]
  rfl
end
end

theorem rangeForm_exec {i : Instr} {o : R2} {perm al : Nat} {w : Bool} {go : List (Nat × Nat × Xl) → Nat → State → State}
    (h : rangeForm i = some (o, perm, w, al, go)) (s : State) : exec i s = rangeI i o perm w al go s := by
  unfold rangeForm at h
  split at h <;> cases h
  · exact exec_l1wb s
  · exact exec_l1inv s
  · exact exec_l1wbi s
  · exact exec_cdcf s

/-- Settles O21: a fence by its order, a cache instruction by its length and its pointer. That one on a local-store pointer does nothing after its checks is
the model's choice (log entry 46). -/
theorem fencesAndCaches : Obligations.FencesAndCaches := by
  unfold Obligations.FencesAndCaches
  refine ⟨fun o => ?ordered, fun o => ?leaves, fun o => ?resumes, ?fenceI, fun i o perm w al go hform => ?range, ?wbAll, ?invAll, ?wbiAll, ?cdcfAll⟩
  case ordered =>
    rintro s k t hturn hmay ⟨hgroup, hsc, hord, rfl⟩
    exact (exec_fence s).trans (execFence_ordered hturn hmay hgroup hsc hord)
  case leaves =>
    rintro s k t hturn hmay ⟨hgroup, hsc, hord, rfl⟩
    exact (exec_fence s).trans (execFence_leaves hturn hmay hgroup hsc hord)
  case resumes =>
    rintro s k t hturn hmay ⟨hgroup, c, hsc, htick, rfl⟩
    exact (exec_fence s).trans (execFence_resumes hturn hmay hgroup hsc htick)
  case fenceI =>
    rintro s k t hturn hmay rfl
    exact (exec_fenceI s).trans (strandWith_ok hturn hmay rfl)
  case range =>
    rintro s k t hturn hmay ⟨n, s1, hread, ⟨hn, rfl⟩ | ⟨hn, va, hcheck, hva, hal, ⟨hsp, rfl⟩ | ⟨hsp, rs, s2, hpages, rfl⟩⟩⟩
    · exact (rangeForm_exec hform s).trans (rangeI_of_zero hturn hmay hread hn)
    · exact (rangeForm_exec hform s).trans (rangeI_of_local hturn hmay hread hn hcheck hva hal hsp)
    · exact (rangeForm_exec hform s).trans (rangeI_of_pages hturn hmay hread hn hcheck hva hal hsp hpages)
  case wbAll =>
    rintro s k t hturn hmay rfl
    exact (exec_l1wbAll s).trans (scalarI_ok hturn hmay rfl)
  case invAll =>
    rintro s k t hturn hmay rfl
    exact (exec_l1invAll s).trans (sysI_ok hturn hmay rfl)
  case wbiAll =>
    rintro s k t hturn hmay rfl
    exact (exec_l1wbiAll s).trans (scalarI_ok hturn hmay rfl)
  case cdcfAll =>
    rintro s k t hturn hmay rfl
    exact (exec_cdcfAll s).trans (sysI_ok hturn hmay rfl)

end Sys2Proof.Machine

/-! # Copies (R151, R283 to R288, R292, R293)

The checks of a copy that its descriptors and rows pass, its acceptance by the engine or the wait for it, and what SEQ0 covers. O32. -/

namespace Sys2Proof.Machine

/-! ### Scalar operands (R66, R67) -/

theorem rdSc_of_ready {s : State} {k n : Nat} (h : (s.slot k).Ready n) (fm : W64) : rdSc k fm n s = .ok ((s.slot k).val n, s) := by
  by_cases h0 : n = 0
  · simp only [rdSc, Slot.val, if_pos h0]
  · obtain ⟨hlt, hfull, hpois⟩ := h.resolve_left h0
    simp only [rdSc, Slot.val, if_neg h0, if_pos hlt, hfull, hpois, Bool.not_true, Bool.false_eq_true, if_false]

theorem reads_of_ready {s : State} {k n : Nat} (h : (s.slot k).Ready n) (fm : W64) : s.Reads k fm [n] [(s.slot k).val n] s :=
  rdScs_one.2 (rdSc_of_ready h fm)

/-- Every scalar destination but `out` takes a value at once. -/
theorem exists_writes {n : Nat} (h : n ≠ 61) (s : State) (k : Nat) (v : W64) : ∃ t, s.Writes k n v t := by
  simp only [State.Writes, wrSc, if_neg h]
  split
  · exact ⟨_, rfl⟩
  · split <;> exact ⟨_, rfl⟩

/-! ### The checks of a copy (R284 to R287) -/

theorem descBad_of_sideOk {s : State} {k n : Nat} {v : W64} (h : s.SideOk k v n) : descBad v false = false := by
  obtain ⟨hhigh, hfurrow, hmid, -⟩ := h
  have h25 : wf v 25 2 = 0 := by unfold wf at hmid ⊢; omega
  have h22 : wf v 22 3 = 0 := by unfold wf at hmid ⊢; omega
  have h27 : wf v 27 4 = 0 := by unfold wf at hmid ⊢; omega
  simp [descBad, hhigh, hfurrow, h25, h22, h27]

theorem State.checkSide_of_sideOk {s : State} {k n : Nat} {v : W64} (h : s.SideOk k v n) : s.checkSide k n v = .ok () := by
  obtain ⟨-, hls, -, -, hblock, hroom⟩ := h
  simp [State.checkSide, hls, hblock, hroom, ensureV]

theorem meet_of_apart {a b c d m n : Nat} (h : a ≠ b ∨ c + m ≤ d ∨ d + n ≤ c) : meet [(a, c, m)] [(b, d, n)] = false := by
  have happart : ¬ (a = b ∧ c < d + n ∧ d < c + m) := by omega
  simpa [meet, and_assoc] using happart

theorem rows_pass {p : BitVec 128} {rows len stride perm : Nat} (h : RowsOk p rows len stride perm) :
    (List.range rows).find? (fun j : Nat => pSP p || (checkAccess p ((j * stride : Nat) : Int) len perm).isNone) = none := by
  obtain ⟨-, hmem, hrows⟩ := h
  refine List.find?_eq_none.2 fun j hj => ?_
  simpa [hmem, Option.isNone_iff_eq_none] using hrows j (List.mem_range.1 hj)

section
variable {s : State} {k : Nat} {o : Cpy} {dir : Dir} {va vb vc : W64} (h : s.CopyOk k o dir va vb vc)
include h

theorem State.CopyOk.dstOk (hdir : dir ≠ .mr) : s.SideOk k vb ((wf vc 20 8 + 1) * wf vc 0 19) := by
  obtain ⟨-, -, -, -, -, -, -, hform⟩ := h
  cases dir with
  | ml => exact hform.1
  | lm => exact hform.1
  | ll => exact hform.2.2.1
  | mr => exact absurd rfl hdir

theorem State.CopyOk.rowsOk (hdir : dir ≠ .ll) :
    RowsOk ((s.slot k).preg o.a) (wf vc 20 8 + 1) (wf vc 0 19) (wf vc 32 32) (if dir = .lm then 2 else 1) := by
  obtain ⟨-, -, -, -, -, -, -, hform⟩ := h
  cases dir with
  | ml => exact hform.2
  | lm => exact hform.2.2
  | ll => exact absurd rfl hdir
  | mr =>
    obtain ⟨hone, hzero, -, -, -, hrows⟩ := hform
    rw [hone, hzero]
    exact hrows
end

/-- The command of a copy without `.bp` and `.on`. -/
def State.plainCmd (s : State) (k : Nat) (o : Cpy) (dir : Dir) (va vb vc : W64) (pages : List CPage) : Cmd :=
  let x := s.slot k
  { ticket := 0, seq := 0, numReg := o.d, dir := dir, slot := k, gen := x.gen, owner := s.ownerOf k, part := s.partOfSlot k, asid := x.asid,
    user := x.priv == 0, base := pCur (x.preg o.a), mstr := wf vc 32 32, rows := wf vc 20 8 + 1, len := wf vc 0 19, tag := wf vc 28 4
    src := if dir = .ll then some (sideOf k va) else if dir = .lm then some (sideOf k vb) else none
    dst := if dir = .ml ∨ dir = .ll then some (sideOf k vb) else none
    reg := if dir = .mr then some (bitAt vb 8, bitAt vb 7, wf vb 0 7) else none
    mc := o.mc, es := 0, prec := wf (lrw x.fmt (wf vb 22 3)) 4 5, fslot := 0, term := none
    startable := false, started := false, grp := none, moved := false, pages := pages, err := none }

/-! A check that passes goes on to the next. -/

section
variable {α : Type} {r : Res α} {f : Unit → Res α}

theorem ensureV_then {b : Bool} {c : Nat} {v : W64} (hb : b = true) (hf : f () = r) : (ensureV b c v >>= f) = r := by
  rw [ensureV_ok hb]
  exact hf
theorem ensure_then {b : Bool} {c : Nat} (hb : b = true) (hf : f () = r) : (ensure b c >>= f) = r := by
  rw [ensure_ok hb]
  exact hf
theorem check_then {b : Bool} {m : Res Unit} (hm : b = true → m = .ok ()) (hf : f () = r) : (if b = true then m >>= f else f ()) = r := by
  split
  · rw [hm ‹_›]
    exact hf
  · exact hf
theorem either_then {b : Bool} {m n : Res Unit} (hm : b = true → m = .ok ()) (hn : b = false → n = .ok ()) (hf : f () = r) :
    (if b = true then m >>= f else n >>= f) = r := by
  cases b with
  | true => exact (congrArg (· >>= f) (hm rfl)).trans hf
  | false => exact (congrArg (· >>= f) (hn rfl)).trans hf
end

/-- The checks of R287 in their order. -/
theorem State.cpyCmd_ok {s s1 : State} {k : Nat} {o : Cpy} {dir : Dir} {va vb vc : W64} {pages : List CPage} (h : s.CopyOk k o dir va vb vc)
    (hpages : s.xlatePages k (if dir = .lm then accW (s.slot k).priv else accR (s.slot k).priv) (if dir = .lm then 1 else 0)
      (copyPages ((s.slot k).preg o.a) dir vc) [] = .ok (pages, s1)) :
    s.cpyCmd k o dir va vb vc = .ok (s.plainCmd k o dir va vb vc pages, s1) := by
  obtain ⟨hbp, hon, hreserved, hmin, hmax, hlen, hstride, hform⟩ := id h
  have hplain : (o.bp.isSome && dir != .lm) = false := by simp [hbp]
  unfold State.cpyCmd
  refine either_then ?register ?descriptor (ensureV_then ?length (ensureV_then ?registerLength (ensureV_then ?source (ensureV_then ?budget (ensureV_then ?base
    (ensureV_then ?stride (ensureV_then ?sourceAligned (ensureV_then ?aligned (ensureV_then ?lengthAligned (ensure_then ?format
    (check_then ?sourceSide (check_then ?side (ensureV_then ?apart (ensureV_then ?rowsApart (ensureV_then ?term ?rows)))))))))))))))
  case register =>
    intro hdir
    cases of_decide_eq_true hdir
    obtain ⟨-, -, hhigh, hhalf, htarget, -⟩ := hform
    refine ensureV_ok ?_
    rcases htarget with ⟨-, hlo, hhi, hne, -⟩ | ⟨hvector, -⟩
    · simpa [hhigh, hlo, hhi, hne, Decidable.imp_iff_not_or] using hhalf
    · simpa [hhigh, hvector, Decidable.imp_iff_not_or] using hhalf
  case descriptor =>
    intro hdir
    rw [hplain, descBad_of_sideOk (h.dstOk (of_decide_eq_false hdir))]
    rfl
  case length =>
    have hzero : dir = .ll → wf vc 32 32 = 0 := by
      rintro rfl
      exact hform.1
    simpa [hreserved, hmin, hmax, Decidable.imp_iff_not_or] using hzero
  case registerLength =>
    by_cases hdir : dir = .mr
    · cases hdir
      obtain ⟨hone, hzero, -, -, ⟨hscalar, -, -, -, hbytes⟩ | ⟨hvector, -, hbytes⟩, -⟩ := hform
      · simp [hone, hzero, hscalar, hbytes]
      · simp [hone, hzero, hvector, hbytes]
    · simp [hdir]
  case source =>
    by_cases hdir : dir = .ll
    · cases hdir
      simp [descBad_of_sideOk hform.2.1]
    · simp [hdir]
  case budget =>
    by_cases hdir : dir = .mr
    · cases hdir
      obtain ⟨-, -, -, -, ⟨hscalar, -⟩ | ⟨-, hbudget, -⟩, -⟩ := hform
      · simp [hscalar]
      · simp [hbudget]
    · simp [hdir]
  case base =>
    by_cases hdir : dir = .ll
    · simp [hdir]
    · simp [(h.rowsOk hdir).1]
  case stride => exact beq_iff_eq.2 hstride
  case sourceAligned =>
    by_cases hdir : dir = .ll
    · cases hdir
      obtain ⟨-, ⟨-, -, -, halign, -⟩, -⟩ := hform
      simp [halign]
    · simp [hdir]
  case aligned =>
    by_cases hdir : dir = .mr
    · simp [hdir]
    · obtain ⟨-, -, -, halign, -⟩ := h.dstOk hdir
      simp [halign]
  case lengthAligned => exact beq_iff_eq.2 hlen
  case format => simp [hplain]
  case sourceSide =>
    intro hdir
    cases of_decide_eq_true hdir
    exact State.checkSide_of_sideOk hform.2.1
  case side =>
    intro hdir
    simp only [hplain, Bool.false_eq_true, if_false, ite_self]
    exact State.checkSide_of_sideOk (h.dstOk (by simpa using hdir))
  case apart =>
    by_cases hdir : dir = .ll
    · cases hdir
      obtain ⟨-, -, -, hapart⟩ := hform
      simp [hbp, meet_of_apart hapart]
    · simp [hdir]
  case rowsApart =>
    by_cases hdir : dir = .lm
    · cases hdir
      rcases hform.2.1 with hone | happart
      · simp [hone]
      · simp [happart]
    · simp [hdir]
  case term => rw [hon]; rfl
  case rows =>
    have hvas : (if decide (dir = .ll) = true then [] else (List.range (wf vc 20 8 + 1)).flatMap (fun j =>
        (pageSplit ((pCur ((s.slot k).preg o.a) + j * wf vc 32 32) % 2 ^ 56) (wf vc 0 19)).map (·.1))) = copyPages ((s.slot k).preg o.a) dir vc := by
      simp only [copyPages, decide_eq_true_eq]
    simp only [hvas, hpages, bind_ok, hplain, hon]
    by_cases hdir : dir = .ll
    · simp [hdir, State.plainCmd, res_pure]
    · rw [if_pos (by simpa using hdir), rows_pass (h.rowsOk hdir)]
      simp [hdir, State.plainCmd, res_pure]

/-! ### Acceptance, or the wait for it (R151, R288) -/

section
variable {s s0 s1 s2 s3 : State} {k : Nat} {i : Instr} {o : Cpy} {dir : Dir} {va vb vc : W64} {c : Cmd}

/-- The source descriptor of `cpy.ll` is read; the other directions read none. -/
theorem cpySource_then {α : Type} {f : W64 × State → Res α} (hsrc : (dir = .ll ∧ s.Reads k 1 [o.a] [va] s0) ∨ (dir ≠ .ll ∧ va = 0 ∧ s0 = s)) :
    (if dir = .ll then rdSc k 1 o.a s >>= f else f (0, s)) = f (va, s0) := by
  rcases hsrc with ⟨hdir, hread⟩ | ⟨hdir, rfl, rfl⟩
  · exact (if_pos hdir).trans (congrArg (· >>= f) (rdScs_one.1 hread))
  · exact if_neg hdir

section
variable (hturn : s.Turn k) (hmay : (s.slot k).May 0 [o.d] []) (hsrc : (dir = .ll ∧ s.Reads k 1 [o.a] [va] s0) ∨ (dir ≠ .ll ∧ va = 0 ∧ s0 = s))
  (hdst : s0.Reads k 1 [o.b] [vb] s1) (hlen : s1.Reads k 1 [o.c] [vc] s2) (hcmd : s2.cpyCmd k o dir va vb vc = .ok (c, s3))
include hturn hmay hsrc hdst hlen hcmd

theorem cpyI_accepts {t : State} (hroom : ((s3.wbAllL1 (coreOf k)).cluster (clOfSlot k)).room = true)
    (hpend : ((s3.wbAllL1 (coreOf k)).cluster (clOfSlot k)).pend = [])
    (hwrite : ((s3.wbAllL1 (coreOf k)).acceptCmd (clOfSlot k) c).2.Writes k o.d (natW ((s3.wbAllL1 (coreOf k)).acceptCmd (clOfSlot k) c).1.toNat) t) :
    cpyI i o dir s = .next (t.advance k) := by
  refine scalarI_ok hturn hmay ((cpySource_then hsrc).trans ?_)
  simp only [rdScs_one.1 hdst, rdScs_one.1 hlen, hcmd, bind_ok, hroom, hpend]
  exact hwrite

theorem cpyI_waits {x : Cluster} (hx : x = (s3.wbAllL1 (coreOf k)).cluster (clOfSlot k)) (hfull : x.room = false ∨ x.pend ≠ []) :
    cpyI i o dir s = .next (((s3.wbAllL1 (coreOf k)).setCluster (clOfSlot k)
      { x with nextTicket := x.nextTicket + 1, pend := x.pend ++ [{ c with ticket := x.nextTicket }] }).doPark k (.accept x.nextTicket) false) := by
  refine scalarI_parkWith hturn hmay ((cpySource_then hsrc).trans ?_)
  have hwait : ¬ (x.room && x.pend.isEmpty) = true := by
    rcases hfull with h | h <;> simp [h]
  subst hx
  simp only [rdScs_one.1 hdst, rdScs_one.1 hlen, hcmd, bind_ok, if_neg hwait]
end

theorem copyForm_exec (h : copyForm i = some (o, dir)) : exec i s = cpyI i o dir s := by
  unfold copyForm at h
  split at h <;> cases h
  · exact exec_cpyMl s
  · exact exec_cpyLm s
  · exact exec_cpyLl s
  · exact exec_cpyMr s

theorem copyForm_of_direction (h : i = .cpyMl o ∧ dir = .ml ∨ i = .cpyLm o ∧ dir = .lm ∨ i = .cpyLl o ∧ dir = .ll ∨ i = .cpyMr o ∧ dir = .mr) :
    copyForm i = some (o, dir) := by
  rcases h with ⟨rfl, rfl⟩ | ⟨rfl, rfl⟩ | ⟨rfl, rfl⟩ | ⟨rfl, rfl⟩ <;> rfl
end

/-! ### `cpy.wait` (R293) -/

section
variable {s s1 : State} {k a : Nat} {v : W64} (hturn : s.Turn k) (hmay : (s.slot k).May 0 [] []) (hread : s.Reads k 1 [a] [v] s1)
include hturn hmay hread

theorem execCpyWait_covered (hcovers : covers (s.cluster (clOfSlot k)).seq0 (BitVec.ofNat 32 v.toNat) = true) :
    execCpyWait a s = .next ((s1.acqL1 (coreOf k)).advance k) := by
  refine scalarI_ok hturn hmay ?_
  simp only [rdScs_one.1 hread, bind_ok, if_pos hcovers]
  rfl

theorem execCpyWait_parks (hcovers : covers (s.cluster (clOfSlot k)).seq0 (BitVec.ofNat 32 v.toNat) = false) :
    execCpyWait a s = .next (s.doPark k (.seq0 (BitVec.ofNat 32 v.toNat)) false) := by
  refine scalarI_park hturn hmay ?_
  simp only [rdScs_one.1 hread, bind_ok, hcovers, Bool.false_eq_true, if_false]
end

/-! ### Numbers (R151, R292) -/

theorem foldl_min_le_init (l : List Nat) (n : Nat) : l.foldl Nat.min n ≤ n := by
  induction l generalizing n with
  | nil => exact Nat.le_refl n
  | cons a l ih => exact Nat.le_trans (ih _) (Nat.min_le_left n a)

theorem foldl_min_le_of_mem {l : List Nat} {a : Nat} (h : a ∈ l) (n : Nat) : l.foldl Nat.min n ≤ a := by
  induction l generalizing n with
  | nil => exact absurd h List.not_mem_nil
  | cons b l ih =>
    rcases List.mem_cons.1 h with rfl | h
    · exact Nat.le_trans (foldl_min_le_init l _) (Nat.min_le_right n a)
    · exact ih h _

theorem lt_foldl_min {l : List Nat} {m n : Nat} (hn : m < n) (hl : ∀ a ∈ l, m < a) : m < l.foldl Nat.min n := by
  induction l generalizing n with
  | nil => exact hn
  | cons a l ih =>
    obtain ⟨ha, hl⟩ := List.forall_mem_cons.1 hl
    exact ih (Nat.lt_min.2 ⟨hn, ha⟩) hl

/-- The lowest incomplete number, or the next one. -/
def Cluster.lowest (x : Cluster) : Nat := (x.cmds.map (·.seq)).foldl Nat.min x.nextSeq

theorem Cluster.settle_seq0 (x : Cluster) : x.settle.seq0 = BitVec.ofNat 32 (x.lowest - 1) := rfl
theorem Cluster.lowest_le {x : Cluster} {d : Cmd} (h : d ∈ x.cmds) : x.lowest ≤ d.seq := foldl_min_le_of_mem (List.mem_map_of_mem h) _
theorem Cluster.lt_lowest {x : Cluster} {m : Nat} (hnext : m < x.nextSeq) (h : ∀ d ∈ x.cmds, m < d.seq) : m < x.lowest :=
  lt_foldl_min hnext (by simpa using h)

@[simp] theorem Cluster.combine_cmds (x : Cluster) (c : Cmd) (cyc : Nat) : (x.combine c cyc).cmds = x.cmds := by
  unfold Cluster.combine
  split
  · rfl
  · split <;> rfl
@[simp] theorem Cluster.combine_nextSeq (x : Cluster) (c : Cmd) (cyc : Nat) : (x.combine c cyc).nextSeq = x.nextSeq := by
  unfold Cluster.combine
  split
  · rfl
  · split <;> rfl
@[simp] theorem Cluster.settle_cmds (x : Cluster) : x.settle.cmds = x.cmds := rfl
@[simp] theorem Cluster.settle_nextSeq (x : Cluster) : x.settle.nextSeq = x.nextSeq := rfl
@[simp] theorem Cluster.latch_nextSeq (x : Cluster) : x.latch.nextSeq = x.nextSeq := rfl
@[simp] theorem Cluster.latch_seqs (x : Cluster) : x.latch.cmds.map (·.seq) = x.cmds.map (·.seq) := by
  simp only [Cluster.latch, List.map_map]
  refine List.map_congr_left fun c _ => ?_
  simp only [Function.comp_apply]
  split <;> rfl

theorem modPlace_lsOnly (s : State) (p : Place) (f : Slot → Slot) : LsOnly s (s.modPlace p f) := by
  cases p with
  | slot j => exact modSlot_lsOnly s j f
  | save j a => exact ⟨_, _, _, _, _, rfl⟩
  | gone => exact .refl s
@[simp] theorem State.modPlace_ls (s : State) (p : Place) (f : Slot → Slot) : (s.modPlace p f).ls = s.ls := by
  cases p <;> rfl

/-- The cluster with a command taken. -/
theorem State.acceptCmd_cluster (s : State) (cl : Nat) (c : Cmd) : ((s.acceptCmd cl c).2).cluster cl =
    ((({ s.cluster cl with nextSeq := (s.cluster cl).nextSeq + 1, cmds := (s.cluster cl).cmds ++ [{ c with seq := (s.cluster cl).nextSeq }] } : Cluster).combine
      { c with seq := (s.cluster cl).nextSeq } s.cycle).settle.latch) :=
  ((modPlace_lsOnly ..).cluster cl).trans (State.setCluster_cluster ..)

theorem State.acceptCmd_nextSeq (s : State) (cl : Nat) (c : Cmd) : ((s.acceptCmd cl c).2.cluster cl).nextSeq = (s.cluster cl).nextSeq + 1 := by
  simp [State.acceptCmd_cluster]
theorem State.acceptCmd_seqs (s : State) (cl : Nat) (c : Cmd) :
    ((s.acceptCmd cl c).2.cluster cl).cmds.map (·.seq) = (s.cluster cl).cmds.map (·.seq) ++ [(s.cluster cl).nextSeq] := by
  simp [State.acceptCmd_cluster]

/-- Settles O32: the instruction by what the engine answers, the checks that a well-formed copy passes, and SEQ0 as the lowest incomplete number less one. -/
theorem copies : Obligations.Copies := by
  unfold Obligations.Copies
  refine ⟨⟨fun i o dir hform => ?accepts, fun i o dir hform => ?waits, fun s k a hturn hready hcovers => ?ready, fun a => ?covered, fun a => ?parks⟩,
    fun i o dir s k pages s1 hi hturn hmay hd ha hb hc => ?completes, fun s cl c => ?numbers, fun x m hnext hcmds => ?below, fun x d hd hpos => ?above⟩
  case accepts =>
    rintro s k t hturn hmay ⟨va, vb, vc, s0, s1, s2, c, s3, hsrc, hdst, hlen, hcmd, hroom, hpend, hwrite⟩
    exact (copyForm_exec hform).trans (cpyI_accepts hturn hmay hsrc hdst hlen hcmd hroom hpend hwrite)
  case waits =>
    rintro s k t hturn hmay ⟨va, vb, vc, s0, s1, s2, c, s3, hsrc, hdst, hlen, hcmd, hfull, rfl⟩
    exact (copyForm_exec hform).trans (cpyI_waits hturn hmay hsrc hdst hlen hcmd rfl hfull)
  case ready =>
    have hmay : (s.slot k).May 0 [] [] := by simp [Slot.May]
    exact (exec_cpyWait s).trans (execCpyWait_covered hturn hmay (reads_of_ready hready 1) hcovers)
  case covered =>
    rintro s k t hturn hmay ⟨v, s1, hread, hcovers, rfl⟩
    exact (exec_cpyWait s).trans (execCpyWait_covered hturn hmay hread hcovers)
  case parks =>
    rintro s k t hturn hmay ⟨v, s1, hread, hcovers, rfl⟩
    exact (exec_cpyWait s).trans (execCpyWait_parks hturn hmay hread hcovers)
  case completes =>
    intro va vb vc p hok hpages u hroom hpend
    have hsrc : (dir = .ll ∧ s.Reads k 1 [o.a] [va] s) ∨ (dir ≠ .ll ∧ va = 0 ∧ s = s) := by
      by_cases hdir : dir = .ll
      · have hva : va = (s.slot k).val o.a := if_pos hdir
        rw [hva]
        exact .inl ⟨hdir, reads_of_ready (ha hdir) 1⟩
      · exact .inr ⟨hdir, if_neg hdir, rfl⟩
    obtain ⟨t, hwrite⟩ := exists_writes hd (u.acceptCmd (clOfSlot k) (s.plainCmd k o dir va vb vc pages)).2 k
      (natW (u.acceptCmd (clOfSlot k) (s.plainCmd k o dir va vb vc pages)).1.toNat)
    refine ⟨_, t, hwrite, ?_, rfl, rfl, rfl, rfl, rfl, rfl, rfl, rfl, rfl, rfl, rfl, rfl, rfl, rfl, rfl⟩
    exact (copyForm_exec (copyForm_of_direction hi)).trans
      (cpyI_accepts hturn hmay hsrc (reads_of_ready hb 1) (reads_of_ready hc 1) (State.cpyCmd_ok hok hpages) hroom hpend hwrite)
  case numbers =>
    exact ⟨rfl, s.acceptCmd_nextSeq cl c, s.acceptCmd_seqs cl c, (modPlace_lsOnly ..).mem, State.modPlace_ls ..⟩
  case below => exact ⟨_, Nat.le_sub_one_of_lt (Cluster.lt_lowest hnext hcmds), x.settle_seq0⟩
  case above =>
    have hle := Cluster.lowest_le hd
    exact ⟨_, by omega, x.settle_seq0⟩

end Sys2Proof.Machine

/-! # Coherence messages between dies (R155, R163 to R168, R173, R456)

What an arriving message does at its die, and what the function behind each event of the directory does, case by case. O47. -/

namespace Sys2Proof.Machine

/-! ### Messages that arrive (R154) -/

/-- An event that is the arrival of a message happens as `eff` says when `eff` names the message that arrives and what it does. -/
theorem happens_arrival {i : Instr} {id : Nat} {kd : CohKind} {f : Coh → State → State} {eff : State → State → Prop}
    (hexec : ∀ s, exec i s = .next (s.onCoh id kd f)) (heff : ∀ s t, eff s t → ∃ m u, s.Arrives id kd m u ∧ f m u = t) : Happens i eff :=
  happens_next hexec (fun s t h => by
    obtain ⟨m, u, harr, ht⟩ := heff s t h
    exact (State.onCoh_of_arrives harr f).trans ht)

/-! ### Requests (R155, R165) -/

/-- A request of a die, as an event, a kind of message and a kind of transaction. -/
def IsRequest (d b : Nat) (i : Instr) (kc : CohKind) (kt : TxKind) : Prop :=
  i = .rds d b ∧ kc = .rds ∧ kt = .rds ∨ i = .rdx d b ∧ kc = .rdx ∧ kt = .rdx ∨ i = .upg d b ∧ kc = .upg ∧ kt = .upg

/-- A request that may leave leaves for the home. -/
theorem State.reqMsg_leaves {s : State} {d b : Nat} {kc : CohKind} {want : Bool} (hno : s.noReq d b kc) (hwant : want = true) :
    s.reqMsg d b kc want = s.sendCoh (cohMsg kc (s.homeOf (128 * b)) d b d 0 false false) := by
  unfold State.noReq at hno
  simp only [State.reqMsg, hno, hwant, if_true]

/-- A request that is on its way arrives, whatever the die wants now. -/
theorem State.reqMsg_arrives {s : State} {d b : Nat} {kc : CohKind} {m : Coh}
    (hm : s.coh.find? (fun n => n.kind == kc && n.blk == b && n.src == d) = some m) (want : Bool) :
    s.reqMsg d b kc want = s.onCoh m.id kc State.takeReq := by
  simp only [State.reqMsg, hm]

theorem IsRequest.exec {d b : Nat} {i : Instr} {kc : CohKind} {kt : TxKind} (h : IsRequest d b i kc kt) (s : State) :
    ∃ want, exec i s = .next (s.reqMsg d b kc want) := by
  rcases h with ⟨rfl, rfl, rfl⟩ | ⟨rfl, rfl, rfl⟩ | ⟨rfl, rfl, rfl⟩
  · exact ⟨_, exec_rds s⟩
  · exact ⟨_, exec_rdx s⟩
  · exact ⟨_, exec_upg s⟩

/-- At the home a request message begins the transaction of its kind. -/
theorem IsRequest.takeReq {d b : Nat} {i : Instr} {kt : TxKind} {m : Coh} (h : IsRequest d b i m.kind kt) (u : State) :
    u.takeReq m = u.request m.die m.src m.blk kt := by
  rcases h with ⟨-, hk, rfl⟩ | ⟨-, hk, rfl⟩ | ⟨-, hk, rfl⟩ <;> simp [State.takeReq, hk]

theorem State.request_waits {s : State} {h d b : Nat} (kd : TxKind) (hbusy : mhas (s.die h).txns b = true) :
    s.request h d b kd = s.modDie h (fun x => { x with waitq := x.waitq ++ [(b, kd, d)] }) := if_pos hbusy

/-! ### Messages at a holder (R165, R167, R168) -/

theorem State.atHolder_of_gone {u : State} {m : Coh} (f : Coh → State → State) (h : u.ownSt m.die m.blk = 0) :
    State.atHolder f m u = u.sendCoh (cohMsg .gone m.src m.die m.blk m.req 0 false false) := if_pos h
theorem State.atHolder_of_held {u : State} {m : Coh} (f : Coh → State → State) (h : u.ownSt m.die m.blk ≠ 0) :
    State.atHolder f m u = f m u := if_neg h

/-- The events whose messages act at a holder of the block. -/
theorem goneHolder {i : Instr} {id : Nat} {kd : CohKind} {f : Coh → State → State} (hexec : ∀ s, exec i s = .next (s.onCoh id kd (State.atHolder f))) :
    GoneHolder i id kd := by
  refine happens_arrival hexec ?_
  rintro s t ⟨m, u, harr, hgone, rfl⟩
  exact ⟨m, u, harr, State.atHolder_of_gone f hgone⟩

/-- At a die that holds the block, such a message does what its kind says. -/
theorem happens_atHolder {i : Instr} {id : Nat} {kd : CohKind} {f : Coh → State → State} (hexec : ∀ s, exec i s = .next (s.onCoh id kd (State.atHolder f))) :
    Happens i (fun s t => ∃ m u, s.Arrives id kd m u ∧ u.ownSt m.die m.blk ≠ 0 ∧ t = f m u) := by
  refine happens_arrival hexec ?_
  rintro s t ⟨m, u, harr, hheld, rfl⟩
  exact ⟨m, u, harr, State.atHolder_of_held f hheld⟩

/-! ### Answers at the home (R165, R167, R168, R456) -/

theorem State.atHome_of_waiting {u : State} {m : Coh} {x : Txn} (f : Coh → Txn → State → State) (htxn : u.txn? m.die m.blk = some x)
    (hwait : m.src ∈ x.waiting) : State.atHome f m u = f m x u := by
  simp [State.atHome, htxn, hwait]

/-- An answer that nothing asked for is the anomaly of code 4. -/
theorem State.atHome_of_unasked {u : State} {m : Coh} (f : Coh → Txn → State → State) (h : ∀ x, u.txn? m.die m.blk = some x → m.src ∉ x.waiting) :
    State.atHome f m u = u.anomaly m.die m.blk 4 := by
  cases htxn : u.txn? m.die m.blk with
  | none => simp only [State.atHome, htxn]
  | some x => simp [State.atHome, htxn, h x htxn]

/-- An answer is counted at the home, and then `f` follows. -/
theorem answer {i : Instr} {id : Nat} {kd : CohKind} {f : Coh → State → State}
    (hexec : ∀ s, exec i s = .next (s.onCoh id kd (State.atHome (fun m x u => f m (u.answered m x))))) : Answer i id kd f := by
  refine ⟨happens_arrival hexec ?_, happens_arrival hexec ?_⟩
  · rintro s t ⟨m, u, x, harr, htxn, hwait, rfl⟩
    exact ⟨m, u, harr, State.atHome_of_waiting _ htxn hwait⟩
  · rintro s t ⟨m, u, harr, hunasked, rfl⟩
    exact ⟨m, u, harr, State.atHome_of_unasked _ hunasked⟩

theorem State.takeCmp_ends {u : State} {m : Coh} {x : Txn} (htxn : u.txn? m.die m.blk = some x) (hreq : x.req = m.src) (hkind : x.kind ≠ .binv) :
    u.takeCmp m =
      let v := u.modDie m.die (fun y => { y with txns := mdel y.txns m.blk })
      ((if (v.dirSts m.blk).all (· == 0) then v.setDirSts m.blk [0, 0, 0, 0] else v).serveBlk m.die m.blk).retryWaiting m.die := by
  simp only [State.takeCmp, htxn]
  exact if_pos ⟨hreq, hkind⟩

theorem State.takeCmp_unasked {u : State} {m : Coh} (htxn : u.txn? m.die m.blk = none) : u.takeCmp m = u.anomaly m.die m.blk 4 := by
  simp only [State.takeCmp, htxn]

/-! ### Grants at the requester (R165, R166) -/

/-- A grant: `f` takes the data or the permission, and then the die takes its state, tells the home, and serves its cores. -/
theorem grant {i : Instr} {id : Nat} {kd : CohKind} {f : Coh → State → State}
    (hexec : ∀ s, exec i s = .next (s.onCoh id kd (fun m u => (f m u).atRequester m))) : Grant i id kd f := by
  refine happens_arrival hexec ?_
  rintro s t ⟨m, u, harr, rfl⟩
  exact ⟨m, u, harr, rfl⟩

/-- Settles O47: each message's function at the die that it reaches, in the case that the clause names. That E is granted to a reader only while the host
holds neither line of the block is the model's choice (log entry 85). -/
theorem directoryEvents : Obligations.DirectoryEvents := by
  unfold Obligations.DirectoryEvents
  refine ⟨?rds, ?rdx, ?upg, ?arrives, fun s h d b kd => State.request_waits kd, ?gone, fun id => happens_atHolder exec_fwds,
    fun id => happens_atHolder exec_fwdx, fun id => happens_atHolder exec_inv, fun id => happens_atHolder exec_binv, fun id => answer exec_invAck,
    fun id => answer exec_fwdAck, fun id => answer exec_binvack, fun id => answer exec_binvdata, ?goneHome, fun id => grant exec_datas,
    fun id => grant exec_datax, fun id => grant exec_upgack, ?ends, ?unasked⟩
  case rds =>
    refine fun d b => happens_next exec_rds ?_
    rintro s t ⟨hno, hwant, rfl⟩
    exact State.reqMsg_leaves hno hwant
  case rdx =>
    refine fun d b => happens_next exec_rdx ?_
    rintro s t ⟨hno, hwant, hupg, rfl⟩
    exact State.reqMsg_leaves hno (by simp [hwant, hupg])
  case upg =>
    refine fun d b => happens_next exec_upg ?_
    rintro s t ⟨hno, hwant, hupg, rfl⟩
    exact State.reqMsg_leaves hno (by simp [hwant, hupg])
  case arrives =>
    rintro d b i kc kt (hi : IsRequest d b i kc kt) s t ⟨m, u, hm, harr, rfl⟩
    obtain ⟨⟨rfl, rfl⟩, rfl⟩ : (m.kind = kc ∧ m.blk = b) ∧ m.src = d := by simpa using List.find?_some hm
    obtain ⟨want, hexec⟩ := hi.exec s
    rw [hexec, State.reqMsg_arrives hm, State.onCoh_of_arrives harr, hi.takeReq]
  case gone =>
    rintro id i kd (⟨rfl, rfl⟩ | ⟨rfl, rfl⟩ | ⟨rfl, rfl⟩ | ⟨rfl, rfl⟩)
    · exact goneHolder exec_fwds
    · exact goneHolder exec_fwdx
    · exact goneHolder exec_inv
    · exact goneHolder exec_binv
  case goneHome =>
    refine fun id => happens_arrival exec_gone ?_
    rintro s t ⟨m, u, x, harr, htxn, hwait, rfl⟩
    exact ⟨m, u, harr, State.atHome_of_waiting _ htxn hwait⟩
  case ends =>
    refine fun id => happens_arrival exec_cmp ?_
    rintro s t ⟨m, u, x, harr, htxn, hreq, hkind, rfl⟩
    exact ⟨m, u, harr, State.takeCmp_ends htxn hreq hkind⟩
  case unasked =>
    refine fun id => happens_arrival exec_cmp ?_
    rintro s t ⟨m, u, harr, htxn, rfl⟩
    exact ⟨m, u, harr, State.takeCmp_unasked htxn⟩

end Sys2Proof.Machine

/-! # Eviction notices and transactions without an answer (R165 to R167, R170, R456, R457)

What a notice does at the home, and what an overdue notice or transaction comes to, case by case. O48. -/

namespace Sys2Proof.Machine

/-! ### Notices at the home (R166, R456) -/

theorem State.coh?_id {s : State} {id : Nat} {kd : CohKind} {m : Coh} (h : s.coh? id kd = some m) : m.id = id := by
  obtain ⟨n, hfind, hn⟩ := Option.bind_eq_some_iff.1 h
  obtain ⟨-, rfl⟩ : _ ∧ n = m := by simpa using hn
  have hkeys := List.find?_some hfind
  simp only [Bool.and_eq_true, beq_iff_eq] at hkeys
  exact hkeys.1

/-- The event of a notice, its kind of message, and whether it carries the data. -/
def IsNote (id : Nat) (i : Instr) (kd : CohKind) (data : Bool) : Prop :=
  i = .notei id ∧ kd = .notei ∧ data = false ∨ i = .notedat id ∧ kd = .notedat ∧ data = true

theorem IsNote.exec {id : Nat} {i : Instr} {kd : CohKind} {data : Bool} (h : IsNote id i kd data) (s : State) :
    exec i s = .next (s.onCoh id kd (State.takeNote data)) := by
  rcases h with ⟨rfl, rfl, rfl⟩ | ⟨rfl, rfl, rfl⟩
  · exact exec_notei s
  · exact exec_notedat s

/-- A notice of a die that the directory records, with no transaction at the home: the die becomes I, and what it held comes back. -/
theorem State.takeNote_recorded {u : State} {m : Coh} {data : Bool} (hst : u.dirSt m.blk m.src ≠ 0) (hdata : data = true → u.dirSt m.blk m.src ≠ 1)
    (htxn : ((u.setSt m.blk m.src 0).regain m.die m.blk data).txn? m.die m.blk = none) :
    u.takeNote data m = ((u.setSt m.blk m.src 0).regain m.die m.blk data).sendCoh (cohMsg .noteack m.src m.die m.blk m.src 0 false false) := by
  have hsound : (data && u.dirSt m.blk m.src == 1) = false := by simpa using hdata
  have hback : (data && u.dirSt m.blk m.src != 1) = data := by simpa using hdata
  simp only [State.takeNote, hst, false_and, if_false, hsound, hback, Bool.false_eq_true, htxn]

/-- A notice of a die in I that no transaction asked is the anomaly of code 1, and is acknowledged all the same. -/
theorem State.takeNote_unrecorded {u : State} {m : Coh} (data : Bool) (hst : u.dirSt m.blk m.src = 0) (htxn : u.txn? m.die m.blk = none) :
    u.takeNote data m = (u.anomaly m.die m.blk 1).sendCoh (cohMsg .noteack m.src m.die m.blk m.src 0 false false) := by
  simp only [State.takeNote, htxn]
  exact if_pos ⟨hst, rfl⟩

/-! ### Writes of hothouse lines (R170) -/

/-- The arrival of a message leaves the owner of a cluster as it is. -/
theorem State.Arrives.partOf {s u : State} {id : Nat} {kd : CohKind} {m : Coh} (h : s.Arrives id kd m u) (cl : Nat) : u.partOf cl = s.partOf cl := by
  obtain ⟨-, rfl⟩ := h
  rfl

/-! ### A notice that does not come (R456) -/

theorem execNoticeAnomalyTimeout_none {s : State} {b : Nat} (h : s.noticeLate b = none) : execNoticeAnomalyTimeout b s = .next s := by
  simp only [execNoticeAnomalyTimeout, h]

theorem execNoticeAnomalyTimeout_late {s : State} {b e : Nat} {x : Txn} (hlate : s.noticeLate b = some e)
    (htxn : ((((s.anomaly (s.homeOf (128 * b)) b 3).setSt b e 0).regain (s.homeOf (128 * b)) b true).poisonBlock b).txn? (s.homeOf (128 * b)) b = some x) :
    execNoticeAnomalyTimeout b s = .next
      (let h := s.homeOf (128 * b)
      let u := (((s.anomaly h b 3).setSt b e 0).regain h b true).poisonBlock b
      ((u.setTxn h b { x with gone := x.gone.filter (fun g => g.1 != e) }).tryGrant h b).goOn h b) := by
  simp only [execNoticeAnomalyTimeout, hlate, htxn]

/-! ### Overdue transactions (R457) -/

theorem State.overdue_of_early {s : State} {b : Nat} (h : ∀ x, s.txn? (s.homeOf (128 * b)) b = some x → s.cycle < x.since + 2 ^ 21) : s.overdue b = s := by
  cases htxn : s.txn? (s.homeOf (128 * b)) b with
  | none => simp only [State.overdue, htxn]
  | some x =>
    simp only [State.overdue, htxn]
    exact if_pos (h x htxn)

theorem State.overdue_of_late {s : State} {b : Nat} {x : Txn} (htxn : s.txn? (s.homeOf (128 * b)) b = some x) (hlate : x.since + 2 ^ 21 ≤ s.cycle) :
    s.overdue b = s.overdueAct b x := by
  simp only [State.overdue, htxn]
  exact if_neg (Nat.not_lt.2 hlate)

/-- The first die that has not answered the messages sent again is to be isolated. -/
theorem State.overdueAct_resent {s : State} {b d : Nat} {ds : List Nat} {x : Txn} (hwait : x.waiting = d :: ds) (hresent : x.resent = true) :
    s.overdueAct b x =
      let h := s.homeOf (128 * b)
      let u := s.setTxn h b { x with since := s.cycle }
      (u.logTo h (u.askerPart h b) (evEntry (srcOfHome h) 0x55 3 0 (natW d) (natW (128 * b)))).modDie d (fun y => { y with isoReq := true }) := by
  simp only [State.overdueAct, hwait, hresent, if_true]

@[simp] theorem State.setTxn_coh (s : State) (h b : Nat) (x : Txn) : (s.setTxn h b x).coh = s.coh := rfl

/-- The one sharer that has not answered an Upg is sent its Inv again, when no message is on its way. -/
theorem State.overdueAct_resends {s : State} {b d : Nat} {x : Txn} (hkind : x.kind = .upg) (hwait : x.waiting = [d]) (hresent : x.resent = false)
    (hcoh : s.coh = []) :
    s.overdueAct b x = (s.setTxn (s.homeOf (128 * b)) b { x with resent := true, since := s.cycle }).sendCoh
      (cohMsg .inv d (s.homeOf (128 * b)) b x.req 0 false false) := by
  simp [State.overdueAct, hwait, hresent, hkind, hcoh]

/-- Settles O48: each notice at its home, and an overdue notice or transaction, in the case that the clause names. -/
theorem noticeEvents : Obligations.NoticeEvents := by
  unfold Obligations.NoticeEvents
  refine ⟨?recorded, ?unrecorded, ?noteack, ?wrhh, ?wrack, ?inTime, ?lost, ?early, ?isolate, ?resend⟩
  case recorded =>
    rintro id i kd data (hi : IsNote id i kd data)
    refine happens_arrival hi.exec ?_
    rintro s t ⟨m, hcoh, hst, hdata, -, htxn, rfl⟩
    refine ⟨m, _, ⟨hcoh, rfl⟩, ?_⟩
    obtain rfl := State.coh?_id hcoh
    exact State.takeNote_recorded hst hdata htxn
  case unrecorded =>
    intro id i kd hi
    obtain ⟨data, hnote⟩ : ∃ data, IsNote id i kd data := by
      rcases hi with ⟨rfl, rfl⟩ | ⟨rfl, rfl⟩
      · exact ⟨false, .inl ⟨rfl, rfl, rfl⟩⟩
      · exact ⟨true, .inr ⟨rfl, rfl, rfl⟩⟩
    refine happens_arrival hnote.exec ?_
    rintro s t ⟨m, hcoh, hst, htxn, rfl⟩
    refine ⟨m, _, ⟨hcoh, rfl⟩, ?_⟩
    obtain rfl := State.coh?_id hcoh
    exact State.takeNote_unrecorded data hst htxn
  case noteack =>
    refine fun id => happens_arrival exec_noteack ?_
    rintro s t ⟨m, u, harr, rfl⟩
    exact ⟨m, u, harr, rfl⟩
  case wrhh =>
    refine fun id => happens_arrival exec_wrhh ?_
    rintro s t ⟨m, u, harr, rfl⟩
    exact ⟨m, u, harr, by rw [State.takeWrhh, harr.partOf]⟩
  case wrack =>
    refine fun id => happens_arrival exec_wrack ?_
    rintro s t ⟨m, harr⟩
    exact ⟨m, t, harr, rfl⟩
  case inTime =>
    rintro b s t ⟨hnone, rfl⟩
    exact (exec_noticeAnomalyTimeout _).trans (execNoticeAnomalyTimeout_none hnone)
  case lost =>
    rintro b s t ⟨e, x, hlate, htxn, rfl⟩
    exact (exec_noticeAnomalyTimeout s).trans (execNoticeAnomalyTimeout_late hlate htxn)
  case early =>
    refine fun b => happens_next exec_transactionOverdue ?_
    rintro s t ⟨hnone | ⟨x, htxn, hearly⟩, rfl⟩
    · exact State.overdue_of_early (by simp [hnone])
    · exact State.overdue_of_early (by simpa [htxn] using hearly)
  case isolate =>
    refine fun b => happens_next exec_transactionOverdue ?_
    rintro s t ⟨x, d, ds, htxn, hlate, hwait, hresent, rfl⟩
    exact (State.overdue_of_late htxn hlate).trans (State.overdueAct_resent hwait hresent)
  case resend =>
    refine fun b => happens_next exec_transactionOverdue ?_
    rintro s t ⟨x, d, htxn, hlate, hkind, hwait, hresent, hcoh, rfl⟩
    exact (State.overdue_of_late htxn hlate).trans (State.overdueAct_resends hkind hwait hresent hcoh)

end Sys2Proof.Machine

/-! # Snoops, host and peer accesses, time-outs of fabric accesses (R171 to R174, R349, R350, R439, R440, R458)

What a request from outside does at the home of its address, and what the function behind each event of the host does, case by case. O49. -/

namespace Sys2Proof.Machine

/-! ### Back-invalidation (R171, R458) -/

theorem State.not_snooped_of_due {s : State} {line : Nat} {w : Bool} (h : s.snoopDue line w = true) : s.snooped line = false := by
  simp only [State.snoopDue, Bool.and_eq_true, Bool.not_eq_true'] at h
  exact h.1.1

/-- A snoop that is due is made, whichever of the two it is. -/
theorem exec_bisnp {line : Nat} {w : Bool} {i : Instr} (hi : i = .bisnpdata line ∧ w = false ∨ i = .bisnpinv line ∧ w = true) {s : State}
    (hdue : s.snoopDue line w = true) : exec i s = .next (s.snoop line w) := by
  rcases hi with ⟨rfl, rfl⟩ | ⟨rfl, rfl⟩
  · rw [exec_bisnpdata, execBisnpdata, if_pos hdue]
  · rw [exec_bisnpinv, execBisnpinv, hdue, Bool.true_or, if_pos rfl]

theorem State.snoop_inside {s : State} {line : Nat} {w : Bool} (hgone : s.hostGone = true) : s.snoop line w = s.freeLine line false := if_pos hgone

theorem State.snoop_leaves {s : State} {line : Nat} {w : Bool} (hgone : s.hostGone = false) (hnew : s.snooped line = false) :
    s.snoop line w = (s.modDie (s.homeOf (64 * line)) (fun x => { x with
      bisnp := x.bisnp ++ [(line, w, s.gtcOf (s.homeOf (64 * line)), false)] })).emit (.backInval line w) := by
  simp only [State.snoop, State.sendSnoop, hgone, hnew, Bool.false_eq_true, if_false]

theorem execBirsp_snooped {s : State} {line : Nat} (sh : Bool) (h : s.snooped line = true) : execBirsp line sh s = .next
    (let h := s.homeOf (64 * line)
    let u := s.modDie h (fun x => { x with
      bisnp := x.bisnp.filter (fun e => e.1 != line)
      filter := if sh then mput x.filter line (1 + mget 0 (s.die h).filter line / 4 * 4) else mdel x.filter line })
    (u.tryGrant h (line / 2)).serveBlk h (line / 2)) := by
  simp only [execBirsp, h, Bool.not_true, Bool.false_eq_true, if_false]

theorem execBirsp_unsnooped {s : State} {line : Nat} (sh : Bool) (h : s.snooped line = false) : execBirsp line sh s = .next s := by
  simp only [execBirsp, h, Bool.not_false, if_true]

/-! ### Requests from outside at a home (R155, R171, R172, R439) -/

/-- A request for HBM at whose home none waits for its block is performed when it can go on. -/
theorem State.arrive_performed {s t : State} {r : HReq} (hmay : s.mayArrive r) (hout : s.outside r = some t) : s.arrive r = t := by
  obtain ⟨hhbm, hfirst⟩ := hmay
  simp only [State.arrive, if_neg (Nat.not_le.2 hhbm), hfirst, hout, Bool.false_eq_true, if_false]

/-- One that cannot go on waits at the home. -/
theorem State.arrive_waits {s : State} {r : HReq} (hmay : s.mayArrive r) (hout : s.outside r = none) :
    s.arrive r = s.modDie (s.homeOf r.addr) (fun x => { x with
      hostq := x.hostq ++ [r], bisnp := x.bisnp.map (fun e => if e.1 = r.addr / 64 then (e.1, e.2.1, e.2.2.1, true) else e) }) := by
  obtain ⟨hhbm, hfirst⟩ := hmay
  simp only [State.arrive, if_neg (Nat.not_le.2 hhbm), hfirst, hout, Bool.false_eq_true, if_false]

section
variable {s : State} {d line mf : Nat}

theorem State.outside_read_gone (h : s.portViral d 0 = true ∨ (s.die (s.homeOf (64 * line))).isolated = true) :
    s.outside (.read d 0 line mf) = some (s.emit (.hostData line 0 true)) := if_pos (Bool.or_eq_true_iff.2 h)

variable (hviral : s.portViral d 0 = false) (hiso : (s.die (s.homeOf (64 * line))).isolated = false)
include hviral hiso

theorem State.outside_read (hfree : s.homeBusy (64 * line) = false) :
    s.outside (.read d 0 line mf) = some
      (let h := s.homeOf (64 * line)
      let r := (if mf = 2 then s.homeTakes (line / 2) else (s.shareDev h (line / 2)).takeOne h (line / 2)).readChk none h (64 * line) 64
      (r.2.hostTakes d line mf).emit (.hostData line (BitVec.ofNat 512 (r.2.rdN (64 * line) 64)) (r.1 != 0))) := by
  simp only [State.outside, HReq.addr, hviral, hiso, hfree, Bool.or_self, Bool.false_eq_true, if_false]

theorem State.outside_write {mask : W64} {data : BitVec 512} {pois : Bool}
    (hgo : (mget 0 (s.die (s.homeOf (64 * line))).filter line % 4 == 2) = true ∨ s.homeBusy (64 * line) = false) :
    s.outside (.write d 0 line mf mask data pois) = some
      ((s.outsideWrite (mget 0 (s.die (s.homeOf (64 * line))).filter line % 4 == 2) d 0 (64 * line) 64 data.toNat mask.toNat pois).hostTakes d line mf) := by
  have hgoes : (!(mget 0 (s.die (s.homeOf (64 * line))).filter line % 4 == 2) && s.homeBusy (64 * line)) = false := by
    rcases hgo with h | h <;> simp only [h, Bool.not_true, Bool.false_and, Bool.and_false]
  simp only [State.outside, HReq.addr, hviral, hiso, hgoes, Bool.or_self, Bool.false_eq_true, if_false]
end

section
variable {s : State} {d p a n : Nat}

theorem State.outside_peerRead_gone (h : s.portViral d p = true ∨ (s.die (s.homeOf a)).isolated = true) :
    s.outside (.peerRead d p a n) = some (s.emit (.peerData a 0 true)) := if_pos (Bool.or_eq_true_iff.2 h)

variable (hviral : s.portViral d p = false) (hiso : (s.die (s.homeOf a)).isolated = false) (hfree : s.homeBusy a = false)
include hviral hiso hfree

theorem State.outside_peerRead (hhost : s.hostHolds (blkOf a) ≠ 2) :
    s.outside (.peerRead d p a n) = some
      (let r := s.cread none (s.homeOf a) a n
      r.2.2.emit (.peerData a (BitVec.ofNat 512 r.2.1) (r.1 != 0))) := by
  simp only [State.outside, HReq.addr, hviral, hiso, hfree, beq_eq_false_iff_ne.2 hhost, Bool.or_self, Bool.false_and, Bool.false_eq_true, if_false]

theorem State.outside_peerWrite {data : BitVec 512} {pois : Bool} (hhost : s.hostHolds (blkOf a) = 0) :
    s.outside (.peerWrite d p a n data pois) = some (s.outsideWrite false d p a n data.toNat (2 ^ n - 1) pois) := by
  have hback : s.backInval (blkOf a) = s := if_pos hhost
  simp only [State.outside, HReq.addr, hviral, hiso, hfree, hhost, hback, bne_self_eq_false, Bool.or_self, Bool.false_and, Bool.false_eq_true, if_false]
end

/-- The events that read for the host or for a peer, with the request that each makes. -/
def IsRead (d : Nat) (i : Instr) (r : HReq) : Prop :=
  (∃ line mf, i = .hostMemRead d 0 line mf ∧ r = .read d 0 line mf) ∨ ∃ p a n, i = .peerUioRead d p a n ∧ p ≠ 0 ∧ r = .peerRead d p a (Nat.min n (64 - a % 64))

theorem exec_hostMemRead_arrives (d line mf : Nat) (s : State) : exec (.hostMemRead d 0 line mf) s = .next (s.arrive (.read d 0 line mf)) :=
  exec_hostMemRead s
theorem exec_hostMemWrite_arrives (d line : Nat) (mask : W64) (data : BitVec 512) (md : MemMeta) (s : State) :
    exec (.hostMemWrite d 0 line mask data md) s = .next (s.arrive (.write d 0 line md.mf mask data md.pois)) := exec_hostMemWrite s
theorem exec_peerUioRead_arrives {p : Nat} (hp : p ≠ 0) (d a n : Nat) (s : State) :
    exec (.peerUioRead d p a n) s = .next (s.arrive (.peerRead d p a (Nat.min n (64 - a % 64)))) := by
  rw [exec_peerUioRead, execPeerUioRead, if_neg hp]
theorem exec_peerUioWrite_arrives {p : Nat} (hp : p ≠ 0) (d a n : Nat) (data : BitVec 512) (pois : Bool) (s : State) :
    exec (.peerUioWrite d p a n data pois) s = .next (s.arrive (.peerWrite d p a (Nat.min n (64 - a % 64)) data pois)) := by
  rw [exec_peerUioWrite, execPeerUioWrite, if_neg hp]

theorem IsRead.exec {d : Nat} {i : Instr} {r : HReq} (h : IsRead d i r) (s : State) : exec i s = .next (s.arrive r) := by
  rcases h with ⟨line, mf, rfl, rfl⟩ | ⟨p, a, n, rfl, hp, rfl⟩
  · exact exec_hostMemRead_arrives d line mf s
  · exact exec_peerUioRead_arrives hp d a n s

/-- A read waits while a back-invalidation of its line or a transaction for its block is in progress. -/
theorem IsRead.outside_busy {d : Nat} {i : Instr} {r : HReq} (h : IsRead d i r) {s : State} (hviral : s.portViral d r.port = false)
    (hiso : (s.die (s.homeOf r.addr)).isolated = false) (hbusy : s.homeBusy r.addr = true) : s.outside r = none := by
  have hthere : ¬ (s.portViral d r.port || (s.die (s.homeOf r.addr)).isolated) = true := by simp [hviral, hiso]
  rcases h with ⟨line, mf, rfl, rfl⟩ | ⟨p, a, n, rfl, hp, rfl⟩
  · exact (if_neg hthere).trans (if_pos hbusy)
  · exact (if_neg hthere).trans (if_pos (Bool.or_eq_true_iff.2 (.inl hbusy)))

/-! ### Fabric accesses without a completion (R440) -/

theorem execUioTimeout_reissued {s : State} {k : Nat} (hfirst : ∀ e ∈ s.uio, e.1 ≠ .slot k) (h1 : s.portUp (dieOfSlot k) 1 = true)
    (h2 : s.portUp (dieOfSlot k) 2 = true) :
    execUioTimeout (.slot k) s = .next { s with uio := s.uio.filter (fun e => e.1 != .slot k) ++ [(.slot k, false)] } := by
  have hnone : s.uio.any (fun e => e.1 == .slot k) = false := by simpa using hfirst
  simp only [execUioTimeout, hnone, h1, h2, Bool.not_false, Bool.and_self, if_true]

theorem execUioTimeout_unreachable {s : State} {k : Nat}
    (h : (∃ e ∈ s.uio, e.1 = .slot k) ∨ s.portUp (dieOfSlot k) 1 = false ∨ s.portUp (dieOfSlot k) 2 = false) :
    execUioTimeout (.slot k) s = .next { s with uio := s.uio.filter (fun e => e.1 != .slot k) ++ [(.slot k, true)] } := by
  have hnot : (!s.uio.any (fun e => e.1 == .slot k) && s.portUp (dieOfSlot k) 1 && s.portUp (dieOfSlot k) 2) = false := by
    rcases h with hagain | h1 | h2
    · have hany : s.uio.any (fun e => e.1 == .slot k) = true := by simpa using hagain
      simp [hany]
    · simp [h1]
    · simp [h2]
  simp only [execUioTimeout, hnot, Bool.false_eq_true, if_false]

/-! ### Host memory (R173, R174) -/

theorem execHostBlockFill_fills {s : State} {b : Nat} {w : Bool} {x : Txn} (htxn : s.txn? (s.homeOf (128 * b)) b = some x)
    (hneeds : s.needsHost (s.homeOf (128 * b)) b x = true) (hwait : x.waiting = []) (hgone : x.gone = []) (hkind : w = true ↔ x.kind ≠ .rds) :
    execHostBlockFill b w false s = .next
      ((((s.setTxn (s.homeOf (128 * b)) b { x with filled := true }).emit (.hostRead (2 * b) w)).emit (.hostRead (2 * b + 1) w)).tryGrant
        (s.homeOf (128 * b)) b) := by
  have hmatch : (w == (x.kind == .rds)) = false := by
    cases w <;> simpa using hkind
  simp only [execHostBlockFill, htxn, hneeds, hwait, hgone, hmatch, List.isEmpty_nil, Bool.not_true, Bool.or_self, Bool.false_eq_true, if_false]

/-- Settles O49: each request, snoop and time-out in the case that the clause names. That a host write of a line that the host owns is performed at once is
the model's choice (log entry 98). -/
theorem hostEvents : Obligations.HostEvents := by
  unfold Obligations.HostEvents
  refine ⟨?snoop, ?answered, ?unasked, fun line => happens_next exec_biconflict (fun s t h => h.symm), ?late, ?readGone, ?read, ?write, ?peerWrite, ?peerRead,
    ?readWaits, ?otherPort, ?uio, ?fill, ?h2d⟩
  case snoop =>
    rintro line i w hi s t ⟨hdue, ⟨hgone, rfl⟩ | ⟨hthere, rfl⟩⟩
    · rw [exec_bisnp hi hdue, State.snoop_inside hgone]
    · rw [exec_bisnp hi hdue, State.snoop_leaves hthere (State.not_snooped_of_due hdue)]
  case answered =>
    rintro line sh s t ⟨hsnooped, rfl⟩
    exact (exec_birsp s).trans (execBirsp_snooped sh hsnooped)
  case unasked =>
    rintro line sh s t ⟨hnot, rfl⟩
    exact (exec_birsp _).trans (execBirsp_unsnooped sh hnot)
  case late =>
    refine fun line => happens_next exec_backInvalidationTimeout ?_
    rintro s t (⟨hlate, rfl⟩ | ⟨hnot, rfl⟩)
    · exact if_pos hlate
    · exact if_neg (Bool.eq_false_iff.1 hnot)
  case readGone =>
    refine fun d line mf => happens_next (exec_hostMemRead_arrives d line mf) ?_
    rintro s t ⟨hmay, hgone, rfl⟩
    exact State.arrive_performed hmay (State.outside_read_gone hgone)
  case read =>
    refine fun d line mf => happens_next (exec_hostMemRead_arrives d line mf) ?_
    rintro s t ⟨hmay, hviral, hiso, hfree, rfl⟩
    exact State.arrive_performed hmay (State.outside_read hviral hiso hfree)
  case write =>
    refine fun d line mf mask data pois => happens_next (exec_hostMemWrite_arrives d line mask data ⟨mf, pois⟩) ?_
    rintro s t ⟨hmay, hviral, hiso, hgo, rfl⟩
    exact State.arrive_performed hmay (State.outside_write hviral hiso hgo)
  case peerWrite =>
    rintro d p a n data pois s t ⟨hp, hmay, hviral, hiso, hfree, hhost, rfl⟩
    rw [exec_peerUioWrite_arrives hp, State.arrive_performed hmay (State.outside_peerWrite hviral hiso hfree hhost)]
    rfl
  case peerRead =>
    rintro d p a n s t ⟨hp, hmay, ⟨hgone, rfl⟩ | ⟨hviral, hiso, hfree, hhost, rfl⟩⟩
    · rw [exec_peerUioRead_arrives hp, State.arrive_performed hmay (State.outside_peerRead_gone hgone)]
    · rw [exec_peerUioRead_arrives hp, State.arrive_performed hmay (State.outside_peerRead hviral hiso hfree hhost)]
  case readWaits =>
    rintro d r i (hi : IsRead d i r) s t ⟨hmay, hviral, hiso, hbusy, rfl⟩
    rw [hi.exec, State.arrive_waits hmay (hi.outside_busy hviral hiso hbusy)]
  case otherPort =>
    rintro i (⟨d, p, line, mf, hp, rfl⟩ | ⟨d, p, line, mask, data, md, hp, rfl⟩ | ⟨d, a, n, data, pois, rfl⟩ | ⟨d, a, n, rfl⟩) s t rfl
    · rw [exec_hostMemRead, execHostMemRead, if_neg hp]
    · rw [exec_hostMemWrite, execHostMemWrite, if_neg hp]
    · exact exec_peerUioWrite _
    · exact exec_peerUioRead _
  case uio =>
    rintro k s t (⟨hfirst, h1, h2, rfl⟩ | ⟨h, rfl⟩)
    · exact (exec_uioTimeout s).trans (execUioTimeout_reissued hfirst h1 h2)
    · exact (exec_uioTimeout s).trans (execUioTimeout_unreachable h)
  case fill =>
    rintro b w s t ⟨x, htxn, hneeds, hwait, hgone, hkind, rfl⟩
    exact (exec_hostBlockFill s).trans (execHostBlockFill_fills htxn hneeds hwait hgone hkind)
  case h2d =>
    refine fun line inval => happens_next exec_h2dSnoop ?_
    rintro s t ⟨hcoh, hhost, rfl⟩
    exact if_pos (by rw [hcoh, hhost]; rfl)

end Sys2Proof.Machine

/-! # The next step (R171, R184, R186, R389, R394)

What the schedule picks, what an agent issues, and what waits for a line that the host holds. O55. -/

namespace Sys2Proof.Machine

/-! ### What an agent issues (R184, R186, R389) -/

theorem State.issue_decoded {s : State} {a : Agent} {w : W64} {i : Instr} (hword : s.fetched a = some w) (hdec : decode w.toNat = .ok i) :
    s.issue a = .run i s := by simp only [State.issue, hword, hdec]

/-- A word that is no instruction is the trap "illegal encoding" of the strand that issues it. -/
theorem State.issue_illegal {s : State} {k : Nat} {w : W64} {e : Illegal} (hword : s.fetched (.slot k) = some w) (hdec : decode w.toNat = .error e) :
    s.issue (.slot k) = .done (.next (s.takeTrap k 0x01 (s.slot k).pc w (s.slot k).trapLanes 0)) := by simp only [State.issue, hword, hdec]

theorem State.strandStep_issues {s : State} {k : Nat} (hrep : (s.slot k).seqRep = none) (hirq : s.atBoundary k = false ∨ s.irqOf k = none) :
    s.strandStep k = s.issue (.slot k) := by
  have hnot : (s.atBoundary k && (s.irqOf k).isSome) = false := by
    rcases hirq with h | h <;> simp [h]
  simp [State.strandStep, hrep, hnot]

theorem State.fetched_slot {s : State} {k : Nat} {x : Slot} {o : Option W64} (hslot : s.slot k = x) (hword : x.word = o) : s.fetched (.slot k) = o := by
  rw [State.fetched, hslot, hword]

theorem State.fetched_seq {s : State} {l : Nat} {x : Cluster} {o : Option W64} (hcl : s.cluster l = x) (hhdr : x.seqHdr = false)
    (hword : x.seqClause.bind (fun c => c.at_ x.seqPc) = o) : s.fetched (.seq l) = o := by
  simp only [State.fetched, hcl, hhdr, hword, Bool.false_eq_true, if_false]

theorem State.fetched_of_clause {s : State} {k : Nat} {c : Clause} (hhdr : (s.slot k).hdrWait = false) (hres : (s.slot k).resuming = false)
    (hclause : (s.slot k).clause = some c) :
    s.fetched (.slot k) = if c.off < (s.slot k).pc then c.words[((s.slot k).pc - c.off) / 2 - 1]? else none :=
  State.fetched_slot rfl (by simp [Slot.word, hhdr, hres, hclause, Clause.at_])

/-! ### What the schedule picks (R394) -/

theorem step_of_run {s t : State} {i : Instr} (h : s.plan = .run i t) : step s = t.hostedRun i (exec i t) := by simp only [step, h]
theorem step_of_done {s : State} {o : Host.Outcome State Fault Refusal} (h : s.plan = .done o) : step s = o := by simp only [step, h]

theorem State.plan_forced {s : State} {a : Agent} (hturn : s.turn = forced) (hcur : s.cur = a) : s.plan = ({ s with turn := 0 } : State).issue a := by
  rw [← hcur]
  exact if_pos hturn

/-- Nothing comes before the inputs that are due: no turn is forced, no access completes, and no internal step is enabled. -/
structure State.Quiet (s : State) : Prop where
  turn : s.turn ≠ forced
  replies : s.liveSlots.find? s.reissues = none
  inside : s.nobody.internal = none

theorem State.Quiet.plan_input {s : State} {e : Nat × Instr} (h : s.Quiet) (hinput : s.inputs.find? (fun x => decide (x.1 ≤ s.gtc)) = some e) :
    s.plan = .run e.2 { s.nobody with inputs := s.inputs.erase e } := by
  obtain ⟨hturn, hreplies, hinside⟩ := h
  simp only [State.plan, if_neg hturn, hreplies, hinside, hinput]

theorem State.Quiet.plan_time {s : State} (h : s.Quiet) (hinputs : ∀ e ∈ s.inputs, s.gtc < e.1) (hevent : s.nobody.event = none) : s.plan = s.timeStep := by
  obtain ⟨hturn, hreplies, hinside⟩ := h
  have hinput : s.inputs.find? (fun x => decide (x.1 ≤ s.gtc)) = none := by simpa using hinputs
  simp only [State.plan, if_neg hturn, hreplies, hinside, hinput, hevent]

/-- Before the clock has earned a tick, the next strand in the cycle takes its turn. -/
theorem State.timeStep_strand {s : State} {k : Nat} (hclk : s.gtcOn = false ∨ s.acc < Nat.max 1 (s.clk s.primary)) (hnext : s.nextAgent = some k)
    (hk : k < 24576) : s.timeStep = (s.takeTurn (.slot k) (k + 1)).strandStep k := by
  have htick : (s.gtcOn && decide (Nat.max 1 (s.clk s.primary) ≤ s.acc)) = false := by
    rcases hclk with h | h
    · simp [h]
    · rw [decide_eq_false (Nat.not_le.2 h), Bool.and_false]
  have hckpt : k ≠ ckptKey := by simp only [ckptKey]; omega
  have hseq : ¬ seqKey 0 ≤ k := by simp only [seqKey]; omega
  simp only [State.timeStep, htick, hnext, State.agentStep, hckpt, hseq, if_false, Bool.false_eq_true]

/-! ### Lines that the host holds (R171) -/

theorem State.hostedRun_of_settled {s t : State} {i : Instr} (h : freesLines i = true ∨ s.hostOwes t = none) : s.hostedRun i (.next t) = .next t := by
  by_cases hfree : freesLines i = true
  · exact if_pos hfree
  · have howes := h.resolve_left hfree
    simp [State.hostedRun, State.hosted, hfree, howes]

/-- A strand whose step takes a line of the host's parks until the host has answered. -/
theorem State.hostedRun_of_owed {s t : State} {k line : Nat} {i : Instr} {inv : Bool} (hfree : freesLines i = false) (hcur : s.cur = .slot k)
    (howes : s.hostOwes t = some (line, inv)) : s.hostedRun i (.next t) = .next ((s.sendSnoop line inv).doPark k (.hostLine line inv) false) := by
  simp [State.hostedRun, State.hosted, hfree, howes, State.awaitHost, hcur]

/-- What is no next state is left as it is. -/
theorem State.hostedRun_of_owes_none {s : State} (i : Instr) (o : Host.Outcome State Fault Refusal) (h : ∀ t, s.hostOwes t = none) : s.hostedRun i o = o := by
  cases o with
  | next t => exact State.hostedRun_of_settled (.inr (h t))
  | fault f => by_cases hfree : freesLines i = true <;> simp [State.hostedRun, State.hosted, hfree]
  | refused r => by_cases hfree : freesLines i = true <;> simp [State.hostedRun, State.hosted, hfree]

/-- The host is owed nothing when it is gone, or when no line leaves the snoop filter of a die. -/
theorem State.hostOwes_none_of_kept {s t : State}
    (h : t.hostGone = true ∨ ∀ d, d < 4 → (s.die d).filter = [] ∨ (s.die d).filter = (t.die d).filter) : s.hostOwes t = none := by
  rcases h with hgone | hkept
  · exact if_pos hgone
  · unfold State.hostOwes
    split
    · rfl
    · refine List.findSome?_eq_none_iff.2 fun d hd => ?_
      rcases hkept d (List.mem_range.1 hd) with h | h
      · simp [h]
      · simp [h]

/-! ### A word placed for the next step (log entry 11) -/

/-- The word stands where its agent takes it, on the turn of slot 0 or of sequencer 0; memory, gangs and snoop filters stay. -/
theorem State.placeWord_spec (s : State) (w : Nat) : ∃ a, (a = .slot 0 ∨ a = .seq 0) ∧ (s.placeWord w).turn = forced ∧ (s.placeWord w).cur = a ∧
    (s.placeWord w).fetched a = some (natW w) ∧ (s.placeWord w).mem = s.mem ∧ (s.placeWord w).gangs = s.gangs ∧ ∀ d, (s.placeWord w).die d = s.die d := by
  unfold State.placeWord
  dsimp only
  split
  · have hcl := s.modCluster_cluster 0 (fun c => { c with
      seqPhase := .running, seqPc := 2, seqHdr := false, seqClause := some ⟨0, oneHdr 1, [natW w]⟩ })
    exact ⟨.seq 0, .inr rfl, rfl, rfl, State.fetched_seq hcl rfl (by simp [Clause.at_]), rfl, rfl, fun d => rfl⟩
  · have hsl := s.modSlot_slot 0 (fun x => { x with
      phase := .running, pc := 2, clause := some ⟨0, oneHdr 0, [natW w]⟩, hdrWait := false, resuming := false })
    exact ⟨.slot 0, .inl rfl, rfl, rfl, State.fetched_slot hsl (by simp [Slot.word, Clause.at_]), rfl, rfl, fun d => rfl⟩

/-- Settles O55: the schedule's cases one by one, and the outcome of what runs. The order of inputs, events and agents is the model's choice (log entry 5),
and so is the forced turn of a word that is placed (log entry 11). -/
theorem stepRunsDecoded : Obligations.StepRunsDecoded := by
  unfold Obligations.StepRunsDecoded
  refine ⟨?decoded, ?illegal, fun s k c => State.fetched_of_clause, ?strand, ?input, fun s t i => State.hostedRun_of_settled,
    fun s t k i line inv => State.hostedRun_of_owed, fun s t => State.hostOwes_none_of_kept, ?placed⟩
  case decoded =>
    intro s a w i hturn hcur hword hdec
    exact step_of_run ((State.plan_forced hturn hcur).trans (State.issue_decoded hword hdec))
  case illegal =>
    intro s k w e hturn hcur hword hdec
    exact step_of_done ((State.plan_forced hturn hcur).trans (State.issue_illegal hword hdec))
  case strand =>
    intro s k w i hturn hreplies hinside hinputs hevent hclk hnext hk hrep hirq hword hdec
    have hquiet : s.Quiet := ⟨hturn, hreplies, hinside⟩
    refine step_of_run (t := s.takeTurn (.slot k) (k + 1)) ?_
    calc s.plan = s.timeStep := hquiet.plan_time hinputs hevent
      _ = (s.takeTurn (.slot k) (k + 1)).strandStep k := State.timeStep_strand hclk hnext hk
      _ = (s.takeTurn (.slot k) (k + 1)).issue (.slot k) := State.strandStep_issues hrep hirq
      _ = .run i (s.takeTurn (.slot k) (k + 1)) := State.issue_decoded hword hdec
  case input =>
    intro s e hturn hreplies hinside hinput
    exact step_of_run (State.Quiet.plan_input ⟨hturn, hreplies, hinside⟩ hinput)
  case placed =>
    intro s nbits w i hdec hfilters
    obtain ⟨a, ha, hturn, hcur, hword, hmem, hgangs, hdie⟩ := s.placeWord_spec w
    refine ⟨{ s.placeWord w with turn := 0 }, ?_, hmem, hgangs, hcur ▸ ha⟩
    refine (step_of_run ((State.plan_forced hturn hcur).trans (State.issue_decoded hword hdec))).trans (State.hostedRun_of_owes_none _ _ fun t => ?_)
    exact State.hostOwes_none_of_kept (.inr fun d hd => .inl ((congrArg Die.filter (hdie d)).trans (hfilters d hd)))

end Sys2Proof.Machine

/-! # Scalar results, divergence and the mask stack (R203 to R207, R215 to R219, R263, R277)

Every scalar instruction that computes a value has one of a few shapes, so that one lemma for each shape gives O1. What a push, a pop and a divergence do when
their checks pass gives O6. -/

namespace Sys2Proof.Machine

/-! ### Scalar instructions that compute a value (R203 to R207, R218, R263, R277) -/

/-- The instruction writes the value of its form, if it has one, raises its flags, and completes. -/
def ComputesAs (i : Instr) (form : Option ScalarForm) : Prop := ∀ f, form = some f →
  Completes i 0 [f.d] [] (fun k s t => ∃ vs s1, s.Reads k 1 f.srcs vs s1 ∧ (s1.flagged k (f.res s k vs).2).Writes k f.d (f.res s k vs).1 t)

section
variable {i : Instr} {d : Nat}

/-- A form whose result depends on the values read alone. -/
theorem computesAs_scOp {srcs : List Nat} {res : State → Nat → List W64 → W64 × Nat} {g : List W64 → W64 × Nat} (hexec : ∀ s, exec i s = scOp i d srcs g s)
    (hres : ∀ s k vs, vs.length = srcs.length → res s k vs = g vs) : ComputesAs i (some ⟨d, srcs, res⟩) := by
  intro f hf s k t hturn hmay
  cases hf
  rintro ⟨vs, s1, hreads, hwrites⟩
  simp only [hres s k vs (reads_len hreads)] at hwrites
  exact (hexec s).trans (scOp_ok hturn hmay hreads hwrites)

/-- A form without sources, whose value is read off the state. -/
theorem computesAs_state {g : State → Nat → W64} (hexec : ∀ s, exec i s = scalarI i [d] (fun k s => wrSc k d (g s k) s) s) :
    ComputesAs i (some ⟨d, [], fun s k _ => (g s k, 0)⟩) := by
  intro f hf s k t hturn hmay
  cases hf
  rintro ⟨vs, s1, hreads, hwrites⟩
  obtain ⟨rfl, rfl⟩ := reads_nil.1 hreads
  exact (hexec s1).trans (scalarI_ok hturn hmay hwrites)

theorem computesAs_arith {o : RTS} {f : Int → Int → Int} (hexec : ∀ s, exec i s = scSat i o f s) : ComputesAs i (arith o f) :=
  computesAs_scOp hexec fun _ _ _ _ => rfl
theorem computesAs_bits2 {o : RT} {f : Nat → Nat → Nat} (hexec : ∀ s, exec i s = scTyped i o f s) : ComputesAs i (bits2 o f) :=
  computesAs_scOp hexec fun _ _ _ _ => rfl
theorem computesAs_bits1 {o : RT1} {f : Nat → Nat} (hexec : ∀ s, exec i s = scOne i o f s) : ComputesAs i (bits1 o f) :=
  computesAs_scOp hexec fun _ _ _ _ => rfl
theorem computesAs_shift1 {o : IT} {f : Nat → Nat → Nat → Nat} (hexec : ∀ s, exec i s = scShi i o f s) : ComputesAs i (shift1 o f) :=
  computesAs_scOp hexec fun _ _ _ _ => rfl
theorem computesAs_word2 {o : R3} {f : W64 → W64 → W64} (hexec : ∀ s, exec i s = sc64 i o.d [o.a, o.b] (fun vs => f (lrw vs 0) (lrw vs 1)) s) :
    ComputesAs i (word2 o f) :=
  computesAs_scOp hexec fun _ _ _ _ => rfl
theorem computesAs_word1 {a : Nat} {f : W64 → W64} (hexec : ∀ s, exec i s = sc64 i d [a] (fun vs => f (lrw vs 0)) s) : ComputesAs i (word1 d a f) :=
  computesAs_scOp hexec fun _ _ _ _ => rfl

/-- The `j`-th source's bits in a format; zero where there is no such source. -/
theorem nth_map_fpIn (ty : Ty) (vs : List W64) : nth 0 (vs.map (fpIn ty)) = fun j => if j < vs.length then (lrw vs j).toNat % 2 ^ ty.width else 0 := by
  induction vs with
  | nil => rfl
  | cons v vs ih =>
    funext j
    cases j with
    | zero => rfl
    | succ j => simpa [nth, lrw] using congrFun ih j

theorem computesAs_fpForm {srcs : List Nat} {ty : Ty} {f : (Nat → Nat) → Nat × Nat} (hexec : ∀ s, exec i s = scFp i d srcs ty (fun l => f (nth 0 l)) s) :
    ComputesAs i (fpForm d srcs ty f) :=
  computesAs_scOp hexec fun _ _ vs hlen => by simp only [nth_map_fpIn, hlen]
end

/-- A pointer is tested against the scalar that is read (R263). -/
theorem computesAs_ptest (o : PTest) : ComputesAs (.ptest o) (scalarForm (.ptest o)) := by
  intro f hf s k t hturn hmay
  cases hf
  rintro ⟨vs, s1, hreads, hwrites⟩
  obtain ⟨v, rfl⟩ := List.length_eq_one_iff.1 (reads_len hreads)
  refine (exec_ptest s).trans (scalarI_ok hturn hmay ?_)
  rw [rdScs_one.1 hreads, bind_ok]
  exact hwrites

/-- The immediate is extended by its sign (R204). -/
theorem computesAs_li (d : Nat) (imm : BitVec 28) : ComputesAs (.li d imm) (scalarForm (.li d imm)) :=
  computesAs_scOp (g := fun _ => (intW (imm28 imm), 0)) exec_li fun _ _ _ _ => rfl

theorem scalarForm_computes (i : Instr) : ComputesAs i (scalarForm i) := by
  unfold scalarForm
  split
  -- integers (R203, R204)
  · exact computesAs_arith exec_add
  · exact computesAs_arith exec_sub
  · exact computesAs_arith exec_mul
  · exact computesAs_bits2 exec_mulh
  · exact computesAs_scOp exec_div fun _ _ _ _ => rfl
  · exact computesAs_scOp exec_rem fun _ _ _ _ => rfl
  · exact computesAs_word2 exec_and
  · exact computesAs_word2 exec_or
  · exact computesAs_word2 exec_xor
  · exact computesAs_bits2 exec_shl
  · exact computesAs_bits2 exec_shr
  · exact computesAs_bits2 exec_sra
  · exact computesAs_bits2 exec_slt
  · exact computesAs_bits2 exec_sltn
  · exact computesAs_bits2 exec_min
  · exact computesAs_bits2 exec_max
  · exact computesAs_bits1 exec_clz
  · exact computesAs_bits1 exec_ctz
  · exact computesAs_bits1 exec_popc
  · exact computesAs_bits2 exec_bext
  · exact computesAs_bits2 exec_bdep
  · exact computesAs_word1 exec_sext
  · exact computesAs_word1 exec_zext
  · exact computesAs_word1 exec_mov
  · exact computesAs_scOp exec_addi fun _ _ _ _ => rfl
  · exact computesAs_word1 exec_andi
  · exact computesAs_word1 exec_ori
  · exact computesAs_word1 exec_xori
  · exact computesAs_shift1 exec_shli
  · exact computesAs_shift1 exec_shri
  · exact computesAs_shift1 exec_srai
  · exact computesAs_li _ _
  · exact computesAs_word1 exec_lih
  -- floating point (R205 to R207)
  · exact computesAs_fpForm exec_fadd
  · exact computesAs_fpForm exec_fsub
  · exact computesAs_fpForm exec_fmul
  · exact computesAs_fpForm exec_ffma
  · exact computesAs_fpForm exec_fdiv
  · exact computesAs_fpForm exec_fsqrt
  · exact computesAs_fpForm exec_fmin
  · exact computesAs_fpForm exec_fmax
  · exact computesAs_fpForm exec_fcmp
  · exact computesAs_scOp exec_fcvt fun _ _ _ _ => rfl
  · exact computesAs_fpForm exec_fclass
  -- masks, pointers and features (R218, R263, R277)
  · exact computesAs_state exec_mpopc
  · exact computesAs_state exec_mpopcBits
  · exact computesAs_state exec_mfirst
  · exact computesAs_state exec_pget
  · exact computesAs_ptest _
  · exact computesAs_state exec_cfq
  -- the rest have no form
  · exact fun _ hf => nomatch hf

/-- Settles O1: each instruction by the shape of its form. -/
theorem scalarResults : Obligations.ScalarResults := scalarForm_computes

/-! ### The mask stack's checks (R47, R214, R435) -/

section
variable {s : State} {k : Nat}

/-- Pushes entries in order, the last on top. -/
def State.msPushAll (s : State) (k : Nat) (es : List MsEntry) : State := es.foldl (fun t e => t.msPush k e) s

theorem State.pushChecked_ok {es : List MsEntry} (hroom : (s.slot k).msRoom (es.length * (s.slot k).unit) = true) :
    s.pushChecked k es = .ok (s.msPushAll k es) := ensureV_then hroom rfl
theorem State.msCheck_ok {d : Nat} (hpois : s.msPois k d = false) : s.msCheck k d = .ok () := if_neg (by simp [hpois])
theorem State.topEntry_ok (hdepth : (s.slot k).depth ≠ 0) (hpois : s.msPois k 0 = false) : s.topEntry k = .ok (s.msEntry k 0) :=
  ensureV_then (bne_iff_ne.2 hdepth) (by rw [State.msCheck_ok hpois]; rfl)
/-- Below width 64 an entry is one hardware entry. -/
theorem State.msRaw_of_narrow (hnarrow : (s.slot k).wide = false) (d : Nat) : s.msRaw k d = s.msWord k d := if_neg (by simp [hnarrow])
end

/-! ### Divergence (R215, R216) -/

section
variable {s s1 : State} {k : Nat}

section
variable {join : Bool} {o : B1}

/-- The join entry that `mdiv` pushes and `melse` does not. -/
def joinEntries (join : Bool) (x : Slot) : List MsEntry := if join then [⟨1, x.pc, x.m0⟩] else []

/-- Lanes on both sides: the lanes without the mask wait at the target. -/
theorem divStep_splits (htaken : (s.slot k).m0 &&& (s.slot k).mreg o.a ≠ 0) (helse : (s.slot k).m0 &&& ~~~(s.slot k).mreg o.a ≠ 0)
    (hlo : 0 ≤ (s.slot k).pc + o.off.toInt) (hhi : (s.slot k).pc + o.off.toInt < 16777216)
    (hroom : (s.slot k).msRoom (((joinEntries join (s.slot k)).length + 1) * (s.slot k).unit) = true) :
    divStep join o k s = .ok (((s.msPushAll k (joinEntries join (s.slot k) ++
      [⟨0, ((s.slot k).pc + o.off.toInt).toNat, (s.slot k).m0 &&& ~~~(s.slot k).mreg o.a⟩])).modSlot k
      (fun y => y.setM 0 ((s.slot k).m0 &&& (s.slot k).mreg o.a))).advance k) := by
  have hfits : ¬ ((s.slot k).pc + o.off.toInt < 0 ∨ 16777216 ≤ (s.slot k).pc + o.off.toInt) := by omega
  simp only [divStep, if_neg htaken, hfits, and_false, if_false, if_neg helse]
  rw [← joinEntries, State.pushChecked_ok (by simpa using hroom)]
  rfl

/-- Every lane in the mask: none waits. -/
theorem divStep_keeps (htaken : (s.slot k).m0 &&& (s.slot k).mreg o.a ≠ 0) (helse : (s.slot k).m0 &&& ~~~(s.slot k).mreg o.a = 0)
    (hroom : (s.slot k).msRoom ((joinEntries join (s.slot k)).length * (s.slot k).unit) = true) :
    divStep join o k s = .ok (((s.msPushAll k (joinEntries join (s.slot k))).modSlot k
      (fun y => y.setM 0 ((s.slot k).m0 &&& (s.slot k).mreg o.a))).advance k) := by
  simp only [divStep, if_neg htaken, helse, ne_eq, not_true, false_and, if_false, if_true, List.append_nil]
  rw [← joinEntries, State.pushChecked_ok hroom]
  rfl

/-- No lane in the mask: the strand goes to the target. -/
theorem divStep_goes (htaken : (s.slot k).m0 &&& (s.slot k).mreg o.a = 0) (hresume : s.resumeAt k ((s.slot k).pc + o.off.toInt) = .ok s1)
    (hroom : (s1.slot k).msRoom ((joinEntries join (s.slot k)).length * (s1.slot k).unit) = true) :
    divStep join o k s = .ok ((s1.msPushAll k (joinEntries join (s.slot k))).modSlot k
      (fun y => y.setM 0 ((s.slot k).m0 &&& ~~~(s.slot k).mreg o.a))) := by
  simp only [divStep, if_pos htaken, hresume, bind_ok]
  rw [← joinEntries, State.pushChecked_ok hroom]
  rfl
end

section
variable {d n : Nat} (hpois : s.msPois k d = false)
include hpois

/-- At a join entry its lanes go on. -/
theorem joinFrom_join (hkind : (s.msEntry k d).kind = 1) : joinFrom k s d (n + 1) =
    .ok (((s.msDrop k (d + 1)).modSlot k (fun y => y.setM 0 ((s.msEntry k d).mask &&& (s.slot k).m7))).advance k) := by
  simp only [joinFrom, State.msCheck_ok hpois, bind_ok, hkind, Nat.one_ne_zero, if_false, if_true]
  rfl

/-- At a pending path with a live lane that path runs. -/
theorem joinFrom_path (hkind : (s.msEntry k d).kind = 0) (hlive : (s.msEntry k d).mask &&& (s.slot k).m7 ≠ 0)
    (hresume : s.resumeAt k (s.msEntry k d).resume = .ok s1) : joinFrom k s d (n + 1) =
    .ok ((s1.msDrop k (d + 1)).modSlot k (fun y => y.setM 0 ((s.msEntry k d).mask &&& (s.slot k).m7))) := by
  simp only [joinFrom, State.msCheck_ok hpois, bind_ok, hkind, if_true, if_neg hlive, hresume]
  rfl
end

/-- Outside a forced reconvergence `mjoin` starts at the top entry. -/
theorem execMjoin_ok {t : State} (hturn : s.Turn k) (hmay : (s.slot k).May 0 [] []) (hout : (s.slot k).inReconv = none)
    (hjoin : joinFrom k s 0 (s.slot k).depth = .ok t) : execMjoin s = .next t :=
  jumpI_ok hturn hmay (by simp only [hout, hjoin])

end

/-! ### Accesses to the mask stack (R217, R219) -/

section
variable {s s1 : State} {k : Nat}

theorem stackI_ok {i : Instr} {dsts : List Nat} {body : Nat → State → Res State} {t : State} (hturn : s.Turn k) (hmay : (s.slot k).May 0 dsts [])
    (hnarrow : (s.slot k).wide = false) (hbody : body k s = .ok t) : stackI i dsts body s = .next (t.advance k) := by
  refine scalarI_ok hturn hmay ?_
  simp only [hnarrow, Bool.false_eq_true, if_false, hbody]

theorem blockAddr_ok {v : W64} (halign : v.toNat % 8 = 0) (hroom : v.toNat + 200 ≤ 262144) : blockAddr v = .ok v.toNat :=
  ensureV_then (beq_iff_eq.2 halign) (ensureV_then (decide_eq_true hroom) rfl)

/-- Words that are all full and clean can be read. -/
theorem State.lsReady_of_all {c off n : Nat} (h : ((wordsOf off n).all (fun w => !s.wordEmpty c w && !s.wordPois c w)) = true) : s.LsReady c off n :=
  fun w hw => by simpa using List.all_eq_true.1 h w hw

/-- `mfill` with a sound block: masks 0 to 6 and the stack are the block's. -/
theorem execMfill_ok {a : Nat} {v : W64} (hturn : s.Turn k) (hmay : (s.slot k).May 0 [] []) (hread : s.Reads k 1 [a] [v] s1) (halign : v.toNat % 8 = 0)
    (hroom : v.toNat + 200 ≤ 262144) (hready : s1.LsReady (coreOf k) v.toNat 200) {word : Nat → W64}
    (hword : word = fun j => s1.lsWord (coreOf k) (v.toNat / 8 + j)) (hcount : (word 8).toNat ≤ 16)
    (heven : (s.slot k).wide = true → (word 8).toNat % 2 = 0) (hentries : ∀ j, j < (word 8).toNat → entryOk (word (9 + j)) = true) :
    execMfill a s = .next ((s1.modSlot k (fun x => { ([1, 2, 3, 4, 5, 6].foldl (fun (u : Slot) j => u.setM j (word j)) x).setM 0 (word 0) with
      stack := ((List.range (word 8).toNat).map (fun j => word (9 + j))).reverse })).advance k) := by
  refine scalarI_ok hturn hmay ?_
  have hheight : (decide ((word 8).toNat ≤ 16) && !((s.slot k).wide && (word 8).toNat % 2 == 1)) = true := by
    cases hwide : (s.slot k).wide with
    | false => simpa using hcount
    | true => simpa [heven hwide] using hcount
  have hsound : ((List.range (word 8).toNat).map (fun j => word (9 + j))).find? (fun w => !entryOk w) = none := by
    simpa [List.find?_eq_none] using hentries
  subst hword
  simp only [rdScs_one.1 hread, bind_ok, blockAddr_ok halign hroom, lsLoad_ok hready, ensureV_ok hheight, hsound]
  rfl
end

/-- Settles O6: a divergence by the lanes that the mask leaves on each side, `mjoin` by the kind of the top entry, and each access to the mask stack once its
checks pass. That `mfill` at width 64 does not test bits [63:32] of an upper hardware entry is the model's choice (log entry 91). -/
theorem divergenceAndMaskStack : Obligations.DivergenceAndMaskStack := by
  unfold Obligations.DivergenceAndMaskStack
  refine ⟨⟨?mdiv, ?melse, ?mjoin⟩, ?mpush, ?mpop, ?mpeek, ?mpeekDepth, ?mpoke, ?mspill, ?mfill⟩
  case mdiv =>
    intro o s k t hturn hmay heff
    refine (exec_mdiv s).trans (jumpI_ok hturn hmay ?_)
    rcases heff with ⟨htaken, helse, hroom, hlo, hhi, rfl⟩ | ⟨htaken, helse, hroom, rfl⟩ | ⟨htaken, s1, hresume, hroom, rfl⟩
    · exact divStep_splits htaken helse hlo hhi hroom
    · exact divStep_keeps htaken helse (by simpa [joinEntries] using hroom)
    · exact divStep_goes htaken hresume (by simpa [joinEntries] using hroom)
  case melse =>
    intro o s k t hturn hmay heff
    refine (exec_melse s).trans (jumpI_ok hturn hmay ?_)
    rcases heff with ⟨htaken, helse, hroom, hlo, hhi, rfl⟩ | ⟨htaken, helse, hroom, rfl⟩ | ⟨htaken, s1, hresume, hroom, rfl⟩
    · exact divStep_splits htaken helse hlo hhi (by simpa [joinEntries] using hroom)
    · exact divStep_keeps htaken helse (by simpa [joinEntries] using hroom)
    · exact divStep_goes htaken hresume (by simpa [joinEntries] using hroom)
  case mjoin =>
    rintro s k t hturn hmay ⟨hout, hdepth, hpois, hkinds⟩
    refine (exec_mjoin s).trans (execMjoin_ok hturn hmay hout ?_)
    obtain ⟨n, hn⟩ := Nat.exists_eq_succ_of_ne_zero hdepth
    rw [hn]
    rcases hkinds with ⟨hkind, rfl⟩ | ⟨hkind, hlive, s1, hresume, rfl⟩
    · exact joinFrom_join hpois hkind
    · exact joinFrom_path hpois hkind hlive hresume
  case mpush =>
    rintro a s k t hturn hmay ⟨v, s1, hnarrow, hread, hentry, hroom, hnarrow1, rfl⟩
    refine (exec_mpush s).trans (stackI_ok hturn hmay hnarrow ?_)
    rw [rdScs_one.1 hread, bind_ok]
    exact ensureV_then hentry (State.pushChecked_ok (by simpa [Slot.unit, hnarrow1] using hroom))
  case mpop =>
    rintro d s k t hturn hmay ⟨hnarrow, hdepth, hpois, hwrites⟩
    refine (exec_mpop s).trans (stackI_ok hturn hmay hnarrow ?_)
    rw [State.topEntry_ok hdepth hpois, bind_ok, State.msRaw_of_narrow hnarrow]
    exact hwrites
  case mpeek =>
    rintro o s k t hturn hmay ⟨v, s1, hnarrow, hread, hcases⟩
    refine (exec_mpeek s).trans (stackI_ok hturn hmay hnarrow ?_)
    rw [rdScs_one.1 hread, bind_ok]
    rcases hcases with ⟨hdeep, hpois, hwrites⟩ | ⟨hshallow, hwrites⟩
    · simp only [if_pos hdeep, State.msCheck_ok hpois, bind_ok]
      exact hwrites
    · simp only [if_neg (Nat.not_lt.2 hshallow)]
      exact hwrites
  case mpeekDepth =>
    rintro d s k t hturn hmay ⟨hnarrow, hwrites⟩
    exact (exec_mpeekDepth s).trans (stackI_ok hturn hmay hnarrow hwrites)
  case mpoke =>
    rintro a b s k t hturn hmay ⟨n, v, s1, hnarrow, hread, hentry, hdepth, rfl⟩
    refine (exec_mpoke s).trans (stackI_ok hturn hmay hnarrow ?_)
    rw [State.Reads] at hread
    rw [hread, bind_ok]
    exact ensureV_then hentry (ensureV_then (decide_eq_true hdepth) rfl)
  case mspill =>
    rintro a s k t hturn hmay ⟨v, s1, hread, halign, hroom, rfl⟩
    refine (exec_mspill s).trans (scalarI_ok hturn hmay ?_)
    simp only [rdScs_one.1 hread, bind_ok, blockAddr_ok halign hroom]
    rfl
  case mfill =>
    rintro a s k t hturn hmay ⟨v, s1, hread, halign, hroom, hready, hcount, heven, hentries, rfl⟩
    exact (exec_mfill s).trans (execMfill_ok hturn hmay hread halign hroom (State.lsReady_of_all hready) rfl hcount heven hentries)

end Sys2Proof.Machine

/-! # Lane instructions (R227 to R242, R247)

What the lanes' results leave in a strand, each lane instruction by the shape of its form, and the instructions that move values between lanes. O9, O10, O11 and
O15. -/

namespace Sys2Proof.Machine

/-! ### A lane's result (R228, R229) -/

/-- A lane of a destination holds `v`, wrapped to the width, full and clean. -/
def Slot.LaneHolds (x : Slot) (wd : Bool) (d l v : Nat) : Prop :=
  x.lane wd d l = v % 2 ^ (if wd then 64 else 32) ∧ ∀ r ∈ regsOf wd d, (x.vreg r l).full = true ∧ (x.vreg r l).pois = false

theorem Slot.setLane_holds (x : Slot) (wd : Bool) (d l v : Nat) : (x.setLane wd d l v).LaneHolds wd d l v := by
  cases wd with
  | false => simp [Slot.LaneHolds, Slot.setLane, Slot.lane, regsOf]
  | true =>
    have hne : d * 64 + l ≠ (d + 1) * 64 + l := by omega
    have hval : v % 2 ^ 32 + 2 ^ 32 * (v / 2 ^ 32 % 2 ^ 32) = v % 2 ^ 64 := by omega
    simpa [Slot.LaneHolds, Slot.setLane, Slot.lane, regsOf, Slot.setV_vreg_ne _ _ hne] using hval

theorem Slot.setLane_vreg_ne (x : Slot) (v : Nat) {wd : Bool} {d l r j : Nat} (hl : l < 64) (hj : j < 64) (h : j ≠ l ∨ r ∉ regsOf wd d) :
    (x.setLane wd d l v).vreg r j = x.vreg r j := by
  cases wd with
  | false =>
    have hne : r * 64 + j ≠ d * 64 + l := by
      simp only [regsOf, Bool.false_eq_true, if_false, List.mem_singleton] at h
      omega
    simp [Slot.setLane, Slot.setV_vreg_ne _ _ hne]
  | true =>
    simp only [regsOf, if_true, List.mem_cons, List.not_mem_nil, or_false, not_or] at h
    have hlow : r * 64 + j ≠ d * 64 + l := by omega
    have hhigh : r * 64 + j ≠ (d + 1) * 64 + l := by omega
    simp [Slot.setLane, Slot.setV_vreg_ne _ _ hlow, Slot.setV_vreg_ne _ _ hhigh]

theorem Slot.setLane_frame (x : Slot) (wd : Bool) (d l v : Nat) : ∃ u, x.setLane wd d l v = { x with v := u } := by
  cases wd <;> exact ⟨_, rfl⟩

/-- The same registers of a lane hold the same. -/
theorem Slot.LaneHolds.of_vreg {x y : Slot} {wd : Bool} {d l v : Nat} (h : x.LaneHolds wd d l v) (hv : ∀ r, y.vreg r l = x.vreg r l) :
    y.LaneHolds wd d l v := by
  simpa only [Slot.LaneHolds, Slot.lane, hv] using h

/-- What one lane's result does to the strand: its registers, the flags, and with `.rsto` the count of the values drawn (R87, R96). -/
def laneStep (wd : Bool) (d : Nat) (md : Rnd) (n : Nat) (g : Nat → Nat × Nat) (y : Slot) (l : Nat) : Slot :=
  let z := (y.setLane wd d l (g l).1).flag (g l).2
  if md = .rsto then z.bump l n else z

theorem mapLanes_eq_foldl (wd : Bool) (d : Nat) (md : Rnd) (n : Nat) (f : Slot → (Nat → Nat) → Nat → Nat × Nat) (e : W64) (x : Slot) :
    mapLanes wd d md n f e x = (lanesOf e).foldl (laneStep wd d md n (fun l => f x (if md = .rsto then x.rand l else fun _ => 0) l)) x := rfl
/-- Without lanes nothing is written. -/
theorem mapLanes_zero (wd : Bool) (d : Nat) (md : Rnd) (n : Nat) (f : Slot → (Nat → Nat) → Nat → Nat × Nat) (x : Slot) : mapLanes wd d md n f 0 x = x := by
  rw [mapLanes_eq_foldl, lanesOf_zero]; rfl

theorem mem_lanesOf {e : W64} {l : Nat} : l ∈ lanesOf e ↔ l < 64 ∧ bitAt e l = true := by simp [lanesOf]
theorem lt_of_bitAt {e : W64} {l : Nat} (h : bitAt e l = true) : l < 64 := by
  rcases Nat.lt_or_ge l 64 with hl | hl
  · exact hl
  · have hsmall : e.toNat < 2 ^ l := Nat.lt_of_lt_of_le e.isLt (Nat.pow_le_pow_right (by decide) hl)
    simp [bitAt, Nat.div_eq_of_lt hsmall] at h

section
variable {wd : Bool} {d : Nat} {md : Rnd} {n : Nat} {g : Nat → Nat × Nat}

theorem laneStep_vreg (y : Slot) (l r j : Nat) : (laneStep wd d md n g y l).vreg r j = (y.setLane wd d l (g l).1).vreg r j := by
  unfold laneStep
  split <;> rfl

theorem laneStep_vreg_ne (y : Slot) {l r j : Nat} (hl : l < 64) (hj : j < 64) (h : j ≠ l ∨ r ∉ regsOf wd d) :
    (laneStep wd d md n g y l).vreg r j = y.vreg r j := (laneStep_vreg ..).trans (Slot.setLane_vreg_ne _ _ hl hj h)

theorem laneStep_holds (y : Slot) (l : Nat) : (laneStep wd d md n g y l).LaneHolds wd d l (g l).1 :=
  (y.setLane_holds wd d l (g l).1).of_vreg fun r => laneStep_vreg y l r l

/-- The lanes' results leave every other lane and register. -/
theorem foldl_laneStep_vreg {ls : List Nat} (hls : ∀ l ∈ ls, l < 64) {r j : Nat} (hj : j < 64) (h : j ∉ ls ∨ r ∉ regsOf wd d) (x : Slot) :
    (ls.foldl (laneStep wd d md n g) x).vreg r j = x.vreg r j := by
  induction ls generalizing x with
  | nil => rfl
  | cons l ls ih =>
    have hhead : j ≠ l ∨ r ∉ regsOf wd d := h.imp_left (fun hmem => List.ne_of_not_mem_cons hmem)
    have htail : j ∉ ls ∨ r ∉ regsOf wd d := h.imp_left (fun hmem => List.not_mem_of_not_mem_cons hmem)
    exact (ih (fun m hm => hls m (List.mem_cons_of_mem _ hm)) htail _).trans (laneStep_vreg_ne x (hls l List.mem_cons_self) hj hhead)

/-- Every lane holds its result: later lanes leave it. -/
theorem foldl_laneStep_holds {ls : List Nat} (hls : ∀ l ∈ ls, l < 64) {j : Nat} (hj : j ∈ ls) (x : Slot) :
    (ls.foldl (laneStep wd d md n g) x).LaneHolds wd d j (g j).1 := by
  induction ls generalizing x with
  | nil => cases hj
  | cons l ls ih =>
    have htail : ∀ m ∈ ls, m < 64 := fun m hm => hls m (List.mem_cons_of_mem _ hm)
    by_cases hlater : j ∈ ls
    · exact ih htail hlater _
    · obtain rfl : j = l := (List.mem_cons.1 hj).resolve_right hlater
      exact (laneStep_holds x j).of_vreg fun r => foldl_laneStep_vreg htail (hls j hj) (.inl hlater) _

/-- Only vector registers, flags and counts of random values change. -/
theorem laneStep_frame (x : Slot) (l : Nat) : ∃ v fl rc, laneStep wd d md n g x l = { x with v := v, fflags := fl, rcnt := rc } := by
  obtain ⟨v, hset⟩ := x.setLane_frame wd d l (g l).1
  unfold laneStep
  rw [hset]
  split <;> exact ⟨_, _, _, rfl⟩

theorem foldl_laneStep_frame (ls : List Nat) (x : Slot) : ∃ v fl rc, ls.foldl (laneStep wd d md n g) x = { x with v := v, fflags := fl, rcnt := rc } := by
  induction ls generalizing x with
  | nil => exact ⟨_, _, _, rfl⟩
  | cons l ls ih =>
    obtain ⟨v, fl, rc, hstep⟩ := laneStep_frame (wd := wd) (d := d) (md := md) (n := n) (g := g) x l
    obtain ⟨v', fl', rc', hrest⟩ := ih (laneStep wd d md n g x l)
    exact ⟨v', fl', rc', by rw [List.foldl_cons, hrest, hstep]⟩
end

section
variable {wd : Bool} {d : Nat} {md : Rnd} {n : Nat} {f : Slot → (Nat → Nat) → Nat → Nat × Nat} {e : W64} {x : Slot}

theorem mapLanes_holds {l : Nat} (hl : bitAt e l = true) :
    (mapLanes wd d md n f e x).LaneHolds wd d l (f x (if md = .rsto then x.rand l else fun _ => 0) l).1 :=
  foldl_laneStep_holds (fun _ hm => (mem_lanesOf.1 hm).1) (mem_lanesOf.2 ⟨lt_of_bitAt hl, hl⟩) x

theorem mapLanes_vreg {r l : Nat} (hl : l < 64) (h : bitAt e l = false ∨ r ∉ regsOf wd d) : (mapLanes wd d md n f e x).vreg r l = x.vreg r l :=
  foldl_laneStep_vreg (fun _ hm => (mem_lanesOf.1 hm).1) hl (h.imp_left (fun hout hm => by simp [(mem_lanesOf.1 hm).2] at hout)) x

theorem mapLanes_frame : ∃ v fl rc, mapLanes wd d md n f e x = { x with v := v, fflags := fl, rcnt := rc } := foldl_laneStep_frame _ x
end

/-! ### One strand alone changes (R227, R440) -/

theorem OnlySlot.sameBytes {k : Nat} {s t : State} (h : OnlySlot k s t) : SameBytes s t := by
  rw [h.1]
  exact ⟨fun _ => rfl, fun _ _ => rfl⟩
theorem OnlySlot.trans {k : Nat} {s t u : State} (hst : OnlySlot k s t) (htu : OnlySlot k t u) : OnlySlot k s u := by
  obtain ⟨hst, hst'⟩ := hst
  obtain ⟨htu, htu'⟩ := htu
  refine ⟨?_, fun j hj => (htu' j hj).trans (hst' j hj)⟩
  rw [htu, hst]
theorem onlySlot_setSlot (s : State) (k : Nat) (x : Slot) : OnlySlot k s (s.setSlot k x) := ⟨rfl, fun _ hj => State.setSlot_slot_ne s x hj⟩
theorem onlySlot_advance (s : State) (k : Nat) : OnlySlot k s (s.advance k) := by
  unfold State.advance
  split
  · exact onlySlot_setSlot ..
  · exact ⟨rfl, fun _ hj => State.modSlot_slot_ne _ _ hj⟩
/-- The strand's next instruction follows; only the cycle from which it may issue depends on what was done (R59, R186, R397). -/
theorem advance_slot (s : State) (k : Nat) : ∃ c, (s.advance k).slot k =
    { s.slot k with pc := (s.slot k).pc + 2, ready := c, replay := none, resumed := false, park := none } := by
  unfold State.advance Slot.rested
  rw [State.modSlot_slot]
  split <;> split <;> exact ⟨_, rfl⟩

/-! ### Lane instructions whose lanes are independent (R228 to R240) -/

/-- The instruction issues as a lane instruction with the predicate and the registers of its form, if it has one, and its body writes the form's values. -/
def LanesAs (i : Instr) (form : Option LaneForm) : Prop := ∀ f, form = some f → ∃ body, (∀ s, exec i s = laneI i f.p f.vecs body s) ∧
  ∀ k e s v s1, s.ReadsFor k e f.sc v s1 → (s1.slot k).LanesReady e f.srcs →
    body e k s = .ok (s1.setSlot k (mapLanes f.wd f.d f.md f.n (fun x u l => f.res x u v l) e (s1.slot k)))

section
variable {i : Instr} {p : Pred} {w wd : Bool} {a b c d n : Nat} {md : Rnd}

/-- A form whose sources are vector registers. -/
theorem lanesAs_vector {vecs srcs : List Nat} {res : Slot → (Nat → Nat) → Option W64 → Nat → Nat × Nat}
    (hexec : ∀ s, exec i s = laneGo i ⟨p, vecs, fun e k s => runLanes k e srcs (mapLanes wd d md n (fun x u l => res x u none l)) s⟩ s) :
    LanesAs i (some ⟨p, vecs, srcs, none, wd, d, md, n, res⟩) := by
  intro f hf
  cases hf
  refine ⟨_, hexec, ?_⟩
  rintro k e s v s1 ⟨rfl, rfl⟩ hready
  exact runLanes_ok hready

theorem lanesAs_lane1 {wa : Bool} {g : Nat → Nat × Nat} (hexec : ∀ s, exec i s = laneGo i (laneOne p wd d wa a g) s) : LanesAs i (lane1 p wd d wa a g) :=
  lanesAs_vector hexec

theorem lanesAs_lane2 {sbs : Bool} {g : (Nat → Nat) → Nat → Nat → Nat × Nat} (hexec : ∀ s, exec i s = laneGo i (laneTwo p w d a b sbs md n g) s) :
    LanesAs i (lane2 p w d a b sbs md n g) := by
  intro f hf
  cases hf
  exact ⟨_, hexec, fun k e s v s1 hread hready => (congrArg (· >>= _) (rdSbs_ok hread)).trans (runLanes_ok hready)⟩

theorem lanesAs_lane3 {sbs : Bool} {g : (Nat → Nat) → Nat → Nat → Nat → Nat × Nat}
    (hexec : ∀ s, exec i s = laneGo i (laneThree p w d a b c sbs md n g) s) : LanesAs i (lane3 p w d a b c sbs md n g) := by
  intro f hf
  cases hf
  exact ⟨_, hexec, fun k e s v s1 hread hready => (congrArg (· >>= _) (rdSbs_ok hread)).trans (runLanes_ok hready)⟩
end

/-- `vbs` takes its value from a scalar register alone (R228, R232). -/
theorem lanesAs_vbs (o : VT1) : LanesAs (.vbs o) (laneForm (.vbs o)) := by
  intro f hf
  cases hf
  refine ⟨_, exec_vbs, fun k e s v s1 hread _ => ?_⟩
  exact congrArg (· >>= _) hread.rdSc_eq

theorem laneForm_lanes (i : Instr) : LanesAs i (laneForm i) := by
  unfold laneForm
  split
  -- integers (R231, R232)
  · exact lanesAs_lane2 exec_vadd
  · exact lanesAs_lane2 exec_vsub
  · exact lanesAs_lane2 exec_vmul
  · exact lanesAs_lane2 exec_vmulh
  · exact lanesAs_lane3 exec_vmad
  · exact lanesAs_lane2 exec_vand
  · exact lanesAs_lane2 exec_vor
  · exact lanesAs_lane2 exec_vxor
  · exact lanesAs_lane1 exec_vnot
  · exact lanesAs_lane2 exec_vshl
  · exact lanesAs_lane2 exec_vshr
  · exact lanesAs_lane2 exec_vsra
  · exact lanesAs_lane2 exec_vmin
  · exact lanesAs_lane2 exec_vmax
  · exact lanesAs_lane1 exec_vabs
  · exact lanesAs_vector exec_vsel
  · exact lanesAs_lane1 exec_vclz
  · exact lanesAs_lane1 exec_vpopc
  · exact lanesAs_lane1 exec_vsext
  · exact lanesAs_lane1 exec_vzext
  · exact lanesAs_vbs _
  -- floating point (R235 to R237)
  · exact lanesAs_lane2 exec_vfadd
  · exact lanesAs_lane2 exec_vfsub
  · exact lanesAs_lane2 exec_vfmul
  · exact lanesAs_lane3 exec_vffma
  · exact lanesAs_lane2 exec_vfdiv
  · exact lanesAs_vector exec_vfsqrt
  · exact lanesAs_vector exec_vfrcp
  · exact lanesAs_vector exec_vfrsq
  · exact lanesAs_vector exec_vfexp2
  · exact lanesAs_vector exec_vflog2
  · exact lanesAs_lane2 exec_vfmin
  · exact lanesAs_lane2 exec_vfmax
  · exact lanesAs_vector exec_vfround
  · exact lanesAs_vector exec_vfcvt
  -- packed halves (R238)
  · exact lanesAs_lane2 exec_vhadd
  · exact lanesAs_lane2 exec_vhmul
  · exact lanesAs_lane3 exec_vhfma
  -- the rest have no form
  · exact fun _ hf => nomatch hf

/-- Settles O9: each instruction by the shape of its form. -/
theorem laneResults : Obligations.LaneResults := by
  unfold Obligations.LaneResults
  rintro i f hform s k t hturn hmay ⟨v, s1, he, hread, hready, rfl⟩
  obtain ⟨body, hexec, hbody⟩ := laneForm_lanes i f hform
  exact (hexec s).trans (laneI_ok hturn hmay he (hbody k _ s v s1 hread hready))

/-- The strand after the lanes `e` have taken the values of a form without a scalar source. -/
def LaneForm.written (f : LaneForm) (x : Slot) (e : W64) : Slot := mapLanes f.wd f.d f.md f.n (fun x u l => f.res x u none l) e x

/-- Settles O10: what O9 writes into the strand, read lane by lane; nothing else of the state is written. -/
theorem laneFrame : Obligations.LaneFrame := by
  unfold Obligations.LaneFrame
  intro i f s k hform hvector hturn hmay he hready
  have hread : s.ReadsFor k ((s.slot k).exec f.p) f.sc none s := by rw [hvector]; exact ⟨rfl, rfl⟩
  have honly := (onlySlot_setSlot s k (f.written (s.slot k) ((s.slot k).exec f.p))).trans (onlySlot_advance _ k)
  refine ⟨(s.setSlot k (f.written (s.slot k) ((s.slot k).exec f.p))).advance k, laneResults i f hform s k _ hturn hmay ⟨none, s, he, hread, hready, rfl⟩,
    honly, honly.sameBytes, ?_⟩
  have hholds : ∀ l, bitAt ((s.slot k).exec f.p) l = true →
      (f.written (s.slot k) ((s.slot k).exec f.p)).LaneHolds f.wd f.d l (f.value (s.slot k) none l).1 := fun l hl => mapLanes_holds hl
  have hkept : ∀ r l, l < 64 → (bitAt ((s.slot k).exec f.p) l = false ∨ r ∉ regsOf f.wd f.d) →
      (f.written (s.slot k) ((s.slot k).exec f.p)).vreg r l = (s.slot k).vreg r l := fun r l => mapLanes_vreg
  obtain ⟨v, fl, rc, hframe⟩ : ∃ v fl rc, f.written (s.slot k) ((s.slot k).exec f.p) = { s.slot k with v := v, fflags := fl, rcnt := rc } := mapLanes_frame
  obtain ⟨c, hslot⟩ := advance_slot (s.setSlot k (f.written (s.slot k) ((s.slot k).exec f.p))) k
  rw [State.setSlot_slot] at hslot
  rw [hslot]
  generalize f.written (s.slot k) ((s.slot k).exec f.p) = y at hholds hkept hframe
  exact ⟨fun l hl => (hholds l hl).1, fun l hl => (hholds l hl).2, hkept, by rw [hframe]⟩

/-! ### Moves between lanes and scalars, quantisation, transposition (R233, R234, R239, R240) -/

/-- Full and clean in one lane is full and clean in the mask of that lane. -/
theorem lanesReady_maskOf_singleton {x : Slot} {regs : List Nat} {j : Nat} (hj : j < 64)
    (h : ∀ r ∈ regs, (x.vreg r j).full = true ∧ (x.vreg r j).pois = false) : x.LanesReady (maskOf [j]) regs := by
  intro l hl
  have hbit : (2 ^ j).testBit l = true := by
    have hmask : (maskOf [j]).toNat = 2 ^ j := by
      simp [maskOf, setBit, Nat.mod_eq_of_lt (Nat.pow_lt_pow_right (by decide : 1 < 2) hj)]
    simpa [bitAt, hmask, Nat.testBit_eq_decide_div_mod_eq] using hl
  have hlj : j = l := by simpa [Nat.testBit_two_pow] using hbit
  exact hlj ▸ h

/-- As `runLanes_ok`, for an instruction whose lanes depend on each other. -/
theorem runCross_ok {k : Nat} {e : W64} {regs : List Nat} {go : Slot → Slot} {s : State} (hready : (s.slot k).LanesReady e regs) :
    runCross k e regs go s = .ok (s.setSlot k (go (s.slot k))) := by
  simp only [runCross, emptyReg_none hready, poisLanes_zero hready, if_true]

section
variable {k : Nat} {s : State}

theorem execVext_ok {o : VExt} {b : W64} {s1 t : State} (hturn : s.Turn k) (hmay : (s.slot k).May 0 [o.d] (regsOf o.ty.is64 o.a))
    (hread : s.Reads k 1 [o.b] [b] s1) (hw : b.toNat < (s.slot k).W) (hlive : bitAt (s.slot k).m7 b.toNat = true)
    (hready : (s.slot k).LanesReady (maskOf [b.toNat]) (regsOf o.ty.is64 o.a))
    (hwrites : s1.Writes k o.d (tyOut o.ty ((s.slot k).lane o.ty.is64 o.a b.toNat)) t) : execVext o s = .next (t.advance k) := by
  have hhere : ¬ ((s.slot k).W ≤ b.toNat ∨ (!bitAt (s.slot k).m7 b.toNat) = true) := by
    rintro (h | h)
    · omega
    · simp [hlive] at h
  refine strandWith_ok hturn hmay ?_
  simp only [rdScs_one.1 hread, bind_ok, if_neg hhere, emptyReg_none hready, poisLanes_zero hready]
  exact hwrites

/-- `vins` writes the lane it names when that lane executes, and otherwise none. -/
theorem laneVins_run {o : VIns} {e v j : W64} {s1 : State} (hread : s.Reads k e [o.a, o.b] [v, j] s1) : (laneVins o).run e k s =
    .ok (if j.toNat < (s.slot k).W ∧ bitAt e j.toNat = true then s1.modSlot k (fun x => x.setLane o.ty.is64 o.d j.toNat v.toNat) else s1) := by
  rw [State.Reads] at hread
  simp only [laneVins, hread, bind_ok]
  rfl

theorem laneVqblkExp_run {o : VQExp} {e : W64} {p : Nat} {md : Rnd} (hslot : (s.slot k).cvtSlot o.slot = some (p, md))
    (hready : (s.slot k).LanesReady e [o.a]) :
    (laneVqblkExp o).run e k s = .ok (s.setSlot k (mapLanes false o.d .rne 0
      (fun x _ l => (wrap 32 (quantExp p (x.lane false o.a l)).1, (quantExp p (x.lane false o.a l)).2)) e (s.slot k))) := by
  simp only [laneVqblkExp, hslot]
  exact runLanes_ok hready

theorem laneVqblkMan_run {o : VQMan} {e : W64} {p : Nat} {md : Rnd} (hslot : (s.slot k).cvtSlot o.slot = some (p, md))
    (hready : (s.slot k).LanesReady e [o.a, o.b]) :
    (laneVqblkMan o).run e k s = .ok (s.setSlot k (mapLanes false o.d md 1 (fun x u l =>
      (wrap 32 (quantMan p md (u 0) (toSigned 8 (x.lane false o.b l)) (x.lane false o.a l)).1,
        (quantMan p md (u 0) (toSigned 8 (x.lane false o.b l)) (x.lane false o.a l)).2)) e (s.slot k))) := by
  simp only [laneVqblkMan, hslot]
  exact runLanes_ok hready
end

/-! ### Cross-lane instructions (R241, R242) -/

/-- The instruction, if it has a form, issues as a cross-lane instruction with the form's predicate, members and registers, and its body gives the lanes
that take part the form's values. -/
def CrossAs (i : Instr) (form : Option CrossForm) : Prop := ∀ f, form = some f →
  ∃ body, (∀ s, exec i s = laneGo i (crossBody f.p f.mm f.live f.vecs body) s) ∧ ∀ c e k s v s1, s.ReadsFor k c f.sc v s1 → (s1.slot k).LanesReady c f.srcs →
    body c e k s = .ok (s1.setSlot k (f.eff c (v.getD 0) (s1.slot k)))

section
variable {i : Instr} {p : Pred} {mm : Nat} {live : Bool} {vecs srcs : List Nat}

/-- A form whose sources are vector registers. -/
theorem crossAs_vector {go : W64 → Slot → Slot}
    (hexec : ∀ s, exec i s = laneGo i (crossBody p mm live vecs (fun c _ k s => runCross k c srcs (go c) s)) s) :
    CrossAs i (some ⟨p, mm, live, vecs, srcs, none, fun c _ x => go c x⟩) := by
  intro f hf
  cases hf
  refine ⟨_, hexec, ?_⟩
  rintro c e k s v s1 ⟨rfl, rfl⟩ hready
  exact runCross_ok hready

/-- A form in which a scalar selects the lane. -/
theorem crossAs_scalar {o : VX3} {j : Nat → Nat → Nat → Nat} (hexec : ∀ s, exec i s = laneGo i (crossScalar o j) s) :
    CrossAs i (some ⟨o.p, o.mm, o.live, regsOf o.ty.is64 o.d ++ regsOf o.ty.is64 o.a, regsOf o.ty.is64 o.a, some o.b,
      fun c v x => takeFrom o.ty.is64 o.d o.a c (fun y l => j y.W v.toNat l) x⟩) := by
  intro f hf
  cases hf
  exact ⟨_, hexec, fun c e k s v s1 hread hready => (congrArg (· >>= _) hread.rdSc_eq).trans (runCross_ok hready)⟩

/-- With every member present, or `.live`, a cross-lane instruction is its body in the lanes that take part. -/
theorem crossBody_run {body : W64 → W64 → Nat → State → Res State} {e : W64} {k : Nat} {s : State}
    (hpresent : live = true ∨ (s.slot k).mreg mm &&& laneMask (s.slot k).W &&& ~~~(s.slot k).m7 = 0) :
    (crossBody p mm live vecs body).run e k s = body (e &&& ((s.slot k).mreg mm &&& laneMask (s.slot k).W) &&& (s.slot k).m7) e k s := by
  have hpass : ¬ ((!live && ((s.slot k).mreg mm &&& laneMask (s.slot k).W &&& ~~~(s.slot k).m7) != 0) = true) := by
    rcases hpresent with h | h <;> simp [h]
  simp only [crossBody, if_neg hpass]
end

theorem crossForm_lanes (i : Instr) : CrossAs i (crossForm i) := by
  unfold crossForm
  split
  · exact crossAs_vector exec_vshuf
  · exact crossAs_scalar (j := fun w b _ => b % w) exec_vbcast
  · exact crossAs_scalar (j := fun w b l => (l + w - b % w) % w) exec_vrot
  · exact crossAs_vector exec_vred
  · exact crossAs_vector exec_vscan
  · exact fun _ hf => nomatch hf

theorem takeFrom_zero (wd : Bool) (d a : Nat) (j : Slot → Nat → Nat) (x : Slot) : takeFrom wd d a 0 j x = x := mapLanes_zero ..

/-- When no lane takes part, no register changes: the shuffles change nothing at all, a reduction or a scan at most the flags. -/
theorem crossForm_eff_zero {i : Instr} {f : CrossForm} (hform : crossForm i = some f) (v : W64) (x : Slot) :
    f.eff 0 v x = { x with fflags := (f.eff 0 v x).fflags } := by
  unfold crossForm at hform
  split at hform <;> cases hform
  case h_1 | h_2 | h_3 => simp only [takeFrom_zero]
  case h_4 | h_5 =>
    simp only [mapLanes_zero]
    rfl

theorem strandIf_ok {i : Instr} {refuse : Slot → Option Nat} {p : Pred} {adv : Bool} {body : Nat → State → Res State} {s t : State} {k : Nat} (hturn : s.Turn k)
    (hpass : refuse (s.slot k) = none) (hbody : body k s = .ok t) : strandIf i refuse p adv body s = .next (if adv then t.advance k else t) := by
  rw [State.Turn] at hturn
  simp only [strandIf, hturn, hpass, hbody]

/-- At width 64 the destination of `vmatch` is an even pair below the budget (R68, R242). -/
theorem Slot.pairBad_vmatch {x : Slot} {o : VX2} (h : x.wide = true → o.d % 2 = 0 ∧ o.d + 1 < x.budget) : x.pairBad (.vmatch o) = none := by
  cases hwide : x.wide with
  | false => simp [Slot.pairBad, hwide]
  | true =>
    obtain ⟨heven, hbudget⟩ := h hwide
    simp [Slot.pairBad, heven, hbudget]

theorem execVmatch_ok {o : VX2} {s t : State} {k : Nat} (hturn : s.Turn k) (hmay : (s.slot k).May 0 [] (o.d :: regsOf o.ty.is64 o.a))
    (hpair : (s.slot k).wide = true → o.d % 2 = 0 ∧ o.d + 1 < (s.slot k).budget) (he : (s.slot k).exec o.p ≠ 0)
    (hrun : (laneVmatch o).run ((s.slot k).exec o.p) k s = .ok t) : execVmatch o s = .next (t.advance k) := by
  refine strandIf_ok hturn ?_ ((if_neg he).trans hrun)
  rw [Slot.pairBad_vmatch hpair]
  exact refuse_none hmay

/-- Settles O11: each move once its sources are available, each cross-lane instruction by the shape of its form. That lane 0 of `vscan.excl` takes the
identity (log entry 37), that reductions and scans run over the declared width (log entry 92) and that the flags of lanes not written count too (log
entry 93) are the model's choices. -/
theorem laneMovesAndShuffles : Obligations.LaneMovesAndShuffles := by
  unfold Obligations.LaneMovesAndShuffles
  refine ⟨⟨?vext, ?vins, ?vqblkExp, ?vqblkMan, ?vbpt⟩, ?crossed, ?noLane, fun i f v x hform => crossForm_eff_zero hform v x, ?vmatch⟩
  case vext =>
    rintro o s k t hturn hmay ⟨b, s1, hread, hw, hlive, hsource, -, hb, hwrites⟩
    exact (exec_vext s).trans (execVext_ok hturn hmay hread hw hlive (lanesReady_maskOf_singleton hb hsource) hwrites)
  case vins =>
    rintro o s k t hturn hmay ⟨v, j, s1, he, hread, hcases⟩
    refine (exec_vins s).trans (laneI_ok hturn hmay he ((laneVins_run hread).trans ?_))
    rcases hcases with ⟨hw, hbit, rfl⟩ | ⟨hnot, rfl⟩
    · exact congrArg _ (if_pos ⟨hw, hbit⟩)
    · exact congrArg _ (if_neg hnot)
  case vqblkExp =>
    rintro o s k t hturn hmay ⟨p, md, hslot, he, hready, rfl⟩
    exact (exec_vqblkExp s).trans (laneI_ok hturn hmay he (laneVqblkExp_run hslot hready))
  case vqblkMan =>
    rintro o s k t hturn hmay ⟨p, md, hslot, he, hready, rfl⟩
    exact (exec_vqblkMan s).trans (laneI_ok hturn hmay he (laneVqblkMan_run hslot hready))
  case vbpt =>
    rintro o s k t hturn hmay ⟨he, hready, rfl⟩
    exact (exec_vbpt s).trans (laneI_ok hturn hmay he (runCross_ok hready))
  case crossed =>
    rintro i f hform s k t hturn hmay ⟨hpresent, he, v, s1, hread, hready, rfl⟩
    obtain ⟨body, hexec, hbody⟩ := crossForm_lanes i f hform
    exact (hexec s).trans (laneI_ok hturn hmay he ((crossBody_run hpresent).trans (hbody _ _ k s v s1 hread hready)))
  case noLane =>
    rintro i f hform s k t hturn hmay ⟨he, rfl⟩
    obtain ⟨body, hexec, -⟩ := crossForm_lanes i f hform
    exact (hexec t).trans (laneI_none hturn hmay he)
  case vmatch =>
    rintro o s k t hturn hmay ⟨hpresent, he, hpair, hready, rfl⟩
    refine (exec_vmatch s).trans (execVmatch_ok hturn hmay hpair he ?_)
    unfold laneVmatch
    exact (crossBody_run hpresent).trans (runCross_ok hready)

/-! ### Without an executing lane; `vldacc` (R227, R247) -/

theorem memGo_none {i : Instr} {p : Pred} {vecs : List Nat} {run : W64 → Nat → State → Res (Bool × State)} {s : State} {k : Nat} (hturn : s.Turn k)
    (hmay : (s.slot k).May 0 [] vecs) (he : (s.slot k).exec p = 0) : memGo i p vecs run s = .next (s.advance k) := by
  rw [memGo, strandWith_ok hturn hmay (t := s.advance k)]
  · rfl
  · simp only [he, if_true]
    rfl

/-- Loads, stores and atomics all issue as memory instructions of their form. -/
theorem memForm_exec {i : Instr} {f : MemForm}
    (hform : (loadForm i).map (·.1) = some f ∨ (storeForm i).map (·.1) = some f ∨ (laneAtom i).map (fun a => atomForm a.1 a.2) = some f) :
    ∃ run, ∀ s, exec i s = memGo i f.p f.vecs run s := by
  rcases hform with h | h | h
  · obtain ⟨⟨f, poll, put⟩, hload, rfl⟩ := Option.map_eq_some_iff.1 h
    exact (loadForm_runsAs hload).imp fun _ hrun => hrun.1
  · obtain ⟨⟨f, d⟩, hstore, rfl⟩ := Option.map_eq_some_iff.1 h
    exact (storeForm_runsAs hstore).imp fun _ hrun => hrun.1
  · obtain ⟨⟨op, o⟩, hatom, rfl⟩ := Option.map_eq_some_iff.1 h
    exact ⟨_, fun s => laneAtom_exec hatom⟩

/-- The accumulator cell that a lane of `vldacc` names, from the base read and the lane's index. -/
def accCell (o : VAcc) (x : Slot) (b : W64) (l : Nat) : Int := b.toNat + xoff o.x x l + o.off.toInt

theorem memVldacc_ok {o : VAcc} {e b : W64} {k : Nat} {s s1 : State} (hlease : s.holdsLease k = true) (hready : (s.slot k).LanesReady e o.x.toList)
    (hread : s.Reads k e [o.p] [b] s1) (hcells : ∀ l ∈ lanesOf e, 0 ≤ accCell o (s.slot k) b l ∧ accCell o (s.slot k) b l ≤ 65535 ∧
      (mget Cell.reset (s.cluster (clOfSlot k)).acc (accCell o (s.slot k) b l).toNat).pois = false) :
    memVldacc o e k s = .ok (false, s1.modSlot k (fun y => (lanesOf e).foldl
      (fun z l => z.setV o.d l (mget Cell.reset (s.cluster (clOfSlot k)).acc (accCell o (s.slot k) b l).toNat).fold) y)) := by
  have hin : (lanesOf e).filter (fun l => decide (accCell o (s.slot k) b l < 0 ∨ 65535 < accCell o (s.slot k) b l)) = [] := by
    refine List.filter_eq_nil_iff.2 fun l hl => ?_
    obtain ⟨hlow, hhigh, -⟩ := hcells l hl
    simp only [decide_eq_true_eq]
    omega
  have hsound : (lanesOf e).filter (fun l => (mget Cell.reset (s.cluster (clOfSlot k)).acc (accCell o (s.slot k) b l).toNat).pois) = [] := by
    refine List.filter_eq_nil_iff.2 fun l hl => ?_
    obtain ⟨-, -, hclean⟩ := hcells l hl
    simp [hclean]
  unfold accCell at hin hsound
  simp only [memVldacc, hlease, rdScs_one.1 hread, bind_ok, emptyReg_none hready, poisLanes_zero hready, and_compl_zero, hin, hsound, vUnits_zero, findErr_nil,
    lanesOf_zero, List.map_nil, memDone_nil, Bool.not_true, Bool.and_false, Bool.false_eq_true, if_false, List.isEmpty_nil]
  rfl

/-- Settles O15: what issues the instruction does nothing without a lane, and each lane of `vldacc` takes its cell's fold. -/
theorem noExecutingLane : Obligations.NoExecutingLane := by
  unfold Obligations.NoExecutingLane
  refine ⟨fun i f s k hform hturn hmay he => ?lane, fun i f hform => ?memory, fun o => ?vldaccNone, fun o => ?vldacc⟩
  case lane =>
    obtain ⟨body, hexec, -⟩ := laneForm_lanes i f hform
    exact (hexec s).trans (laneI_none hturn hmay he)
  case memory =>
    obtain ⟨run, hexec⟩ := memForm_exec hform
    rintro s k t hturn hmay ⟨he, rfl⟩
    exact (hexec s).trans (memGo_none hturn hmay he)
  case vldaccNone =>
    rintro s k t hturn hmay ⟨he, rfl⟩
    exact (exec_vldacc s).trans (memGo_none hturn hmay he)
  case vldacc =>
    rintro s k t hturn hmay ⟨he, hlease, hready, b, s1, hread, hcells, rfl⟩
    exact (exec_vldacc s).trans (memGo_ok hturn hmay he (memVldacc_ok hlease hready hread hcells))

end Sys2Proof.Machine

/-! # The machine after reset (R346, R347, R353, R354, R482)

Nothing is held anywhere, so every part of the machine reads as its value at reset. -/

namespace Sys2Proof.Machine

theorem reset_cfg (d p off : Nat) : State.reset.cfg d p off = cfgReset off := rfl
theorem reset_rb (a : Nat) : State.reset.rb a = 0 := by
  unfold State.rb
  split <;> rfl

/-- Settles O59: every part reads as its value at reset. That device memory reads zero is the model's choice (log entry 2). -/
theorem resetState : Obligations.ResetState := by
  unfold Obligations.ResetState
  refine ⟨fun _ => rfl, fun _ => ⟨rfl, rfl⟩, fun d p => ?live, fun _ => rfl, rfl, reset_rb, fun _ _ => rfl, rfl⟩
  case live =>
    rw [reset_cfg]
    decide

end Sys2Proof.Machine

/-! # Fields of words

What a field reads after a field was written, in numbers, in words and in pointers. -/

namespace Sys2Proof.Machine

section
variable (x lo len v : Nat)

/-- A number with a field replaced: the common core of `setF` and `setPF`. -/
def putField : Nat := x - x / 2 ^ lo % 2 ^ len * 2 ^ lo + v % 2 ^ len * 2 ^ lo

/-- A number, cut at a field. -/
theorem eq_cut_at_field : x = x % 2 ^ lo + 2 ^ lo * (x / 2 ^ lo % 2 ^ len) + 2 ^ lo * 2 ^ len * (x / (2 ^ lo * 2 ^ len)) := by
  have hlow := Nat.mod_add_div x (2 ^ lo)
  have hmid := Nat.mod_add_div (x / 2 ^ lo) (2 ^ len)
  rw [Nat.div_div_eq_div_mul] at hmid
  calc x = x % 2 ^ lo + 2 ^ lo * (x / 2 ^ lo % 2 ^ len + 2 ^ len * (x / (2 ^ lo * 2 ^ len))) := by rw [hmid, hlow]
    _ = _ := by rw [Nat.mul_add, ← Nat.mul_assoc, Nat.add_assoc]

theorem putField_eq : putField x lo len v = x % 2 ^ lo + 2 ^ lo * (v % 2 ^ len) + 2 ^ lo * 2 ^ len * (x / (2 ^ lo * 2 ^ len)) := by
  have hcut := eq_cut_at_field x lo len
  rw [putField, Nat.mul_comm _ (2 ^ lo), Nat.mul_comm _ (2 ^ lo)]
  omega

theorem putField_mod : putField x lo len v % 2 ^ lo = x % 2 ^ lo := by
  rw [putField_eq, Nat.mul_assoc, Nat.add_mul_mod_self_left, Nat.add_mul_mod_self_left, Nat.mod_mod]

theorem putField_div : putField x lo len v / 2 ^ lo = v % 2 ^ len + 2 ^ len * (x / (2 ^ lo * 2 ^ len)) := by
  rw [putField_eq, Nat.mul_assoc (2 ^ lo), Nat.add_assoc, ← Nat.mul_add, Nat.add_mul_div_left _ _ (Nat.two_pow_pos lo),
    Nat.div_eq_of_lt (Nat.mod_lt _ (Nat.two_pow_pos lo)), Nat.zero_add]

theorem putField_div_above : putField x lo len v / (2 ^ lo * 2 ^ len) = x / (2 ^ lo * 2 ^ len) := by
  rw [← Nat.div_div_eq_div_mul, putField_div, Nat.add_mul_div_left _ _ (Nat.two_pow_pos len), Nat.div_eq_of_lt (Nat.mod_lt _ (Nat.two_pow_pos len)),
    Nat.zero_add]

theorem putField_same : putField x lo len v / 2 ^ lo % 2 ^ len = v % 2 ^ len := by
  rw [putField_div, Nat.add_mul_mod_self_left, Nat.mod_mod]

variable {x lo len}

/-- A field apart from the one written reads as before. -/
theorem putField_apart {lo' len' : Nat} (h : lo' + len' ≤ lo ∨ lo + len ≤ lo') : putField x lo len v / 2 ^ lo' % 2 ^ len' = x / 2 ^ lo' % 2 ^ len' := by
  rcases h with hbelow | habove
  · have hdvd : 2 ^ lo' * 2 ^ len' ∣ 2 ^ lo := by rw [← Nat.pow_add]; exact Nat.pow_dvd_pow 2 hbelow
    rw [← Nat.mod_mul_right_div_self, ← Nat.mod_mul_right_div_self, ← Nat.mod_mod_of_dvd _ hdvd, putField_mod, Nat.mod_mod_of_dvd _ hdvd]
  · have hpow : 2 ^ lo' = 2 ^ lo * 2 ^ len * 2 ^ (lo' - (lo + len)) := by rw [← Nat.pow_add, ← Nat.pow_add, Nat.add_sub_cancel' habove]
    rw [hpow, ← Nat.div_div_eq_div_mul, putField_div_above, Nat.div_div_eq_div_mul]

/-- A field within `w` bits keeps a number within `w` bits. -/
theorem putField_lt {w : Nat} (hw : lo + len ≤ w) (hx : x < 2 ^ w) : putField x lo len v < 2 ^ w := by
  have hsplit : 2 ^ w = 2 ^ lo * 2 ^ len * 2 ^ (w - (lo + len)) := by rw [← Nat.pow_add, ← Nat.pow_add, Nat.add_sub_cancel' hw]
  rw [hsplit] at hx ⊢
  rw [Nat.mul_comm]
  refine Nat.lt_mul_of_div_lt ?_ (Nat.mul_pos (Nat.two_pow_pos lo) (Nat.two_pow_pos len))
  rw [putField_div_above]
  exact Nat.div_lt_of_lt_mul hx

/-! ### Words and pointers -/

theorem setF_toNat {w : W64} (hw : lo + len ≤ 64) : (setF w lo len v).toNat = putField w.toNat lo len v := Nat.mod_eq_of_lt (putField_lt v hw w.isLt)
theorem wf_setF_same {w : W64} (hw : lo + len ≤ 64) : wf (setF w lo len v) lo len = v % 2 ^ len := by rw [wf, setF_toNat v hw, putField_same]

theorem setPF_toNat {p : BitVec 128} (hw : lo + len ≤ 128) : (setPF p lo len v).toNat = putField p.toNat lo len v :=
  Nat.mod_eq_of_lt (putField_lt v hw p.isLt)
theorem pfld_setPF_same (p : BitVec 128) (hw : lo + len ≤ 128) : pfld (setPF p lo len v) lo len = v % 2 ^ len := by rw [pfld, setPF_toNat v hw, putField_same]
theorem pfld_setPF_apart (p : BitVec 128) {lo' len' : Nat} (hw : lo + len ≤ 128) (h : lo' + len' ≤ lo ∨ lo + len ≤ lo') :
    pfld (setPF p lo len v) lo' len' = pfld p lo' len' := by rw [pfld, setPF_toNat v hw, putField_apart v h, pfld]
end

end Sys2Proof.Machine

/-! # Pointer instructions (R136, R137, R263, R264)

What the pointer instructions leave in each field, the least exponent that `pnarrow` finds, and from these the obligation O22. -/

namespace Sys2Proof.Machine

theorem pfld_lt (p : BitVec 128) (lo len : Nat) : pfld p lo len < 2 ^ len := Nat.mod_lt _ (Nat.two_pow_pos len)

/-! ### `padd` and `pperm` (R264) -/

section
variable (p : BitVec 128)

theorem pAdd_fields (d : Int) {lo len : Nat} (h : 56 ≤ lo ∧ lo + len ≤ 63 ∨ 64 ≤ lo) : pfld (pAdd p d) lo len = pfld p lo len := by
  have hcur : pfld (setPF p 0 56 (wrap 56 (pCur p + d))) lo len = pfld p lo len := pfld_setPF_apart _ p (by decide) (by omega)
  unfold pAdd
  simp only
  split
  · exact hcur
  · exact (pfld_setPF_apart 0 _ (by decide) (by omega)).trans hcur

theorem pAdd_base (d : Int) : pBase (pAdd p d) = pBase p := by rw [pBase, pBase, pAdd_fields p d (by decide)]
theorem pAdd_lim (d : Int) : pLim (pAdd p d) = pLim p := by
  rw [pLim, pLim, pAdd_base, pLen, pLen, pAdd_fields p d (by decide), pAdd_fields p d (by decide)]
theorem pAdd_perm (d : Int) : pPerm (pAdd p d) = pPerm p := pAdd_fields p d (by decide)

/-- The TAG survives only when the sum is an address. -/
theorem pAdd_tagged {d : Int} (h : pTag (pAdd p d) = true) : pTag p = true ∧ (pCur (pAdd p d) : Int) = pCur p + d := by
  unfold pAdd at h ⊢
  simp only at h ⊢
  split at h
  case isTrue hin =>
    rw [if_pos hin]
    refine ⟨by rwa [pTag, pfld_setPF_apart _ p (by decide) (by decide)] at h, ?_⟩
    rw [pCur, pfld_setPF_same _ p (by decide), Nat.mod_eq_of_lt (wrap_lt _ _), wrap_cast]
    exact Int.emod_eq_of_lt hin.1 hin.2
  case isFalse hout =>
    rw [pTag, pfld_setPF_same _ _ (by decide)] at h
    exact absurd h (by decide)

/-- Masking the permissions changes no other field. -/
theorem setPerm_fields (v : Nat) {lo len : Nat} (h : lo + len ≤ 56 ∨ 61 ≤ lo) : pfld (setPF p 56 5 v) lo len = pfld p lo len :=
  pfld_setPF_apart v p (by decide) h

theorem setPerm_perm (m : Nat) : pPerm (setPF p 56 5 (pPerm p &&& m)) = pPerm p &&& m := by
  rw [pPerm, pfld_setPF_same _ p (by decide)]
  exact Nat.mod_eq_of_lt (Nat.lt_of_le_of_lt Nat.and_le_left (pfld_lt p 56 5))
end

/-! ### `pnarrow` (R264) -/

/-- The units of 2 ^ (e + 6) bytes that `l` bytes need. -/
def narrowUnits (l e : Nat) : Nat := (l + 2 ^ (e + 6) - 1) / 2 ^ (e + 6)

theorem le_narrowUnits (l e : Nat) : l ≤ narrowUnits l e * 2 ^ (e + 6) := by
  have hpos := Nat.two_pow_pos (e + 6)
  have hrem := Nat.mod_lt (l + 2 ^ (e + 6) - 1) hpos
  have hdiv := Nat.div_add_mod (l + 2 ^ (e + 6) - 1) (2 ^ (e + 6))
  rw [narrowUnits, Nat.mul_comm]
  omega

theorem narrowLen_none {l : Nat} : ∀ {fuel le : Nat}, (∀ e, le ≤ e → e < le + fuel → 511 < narrowUnits l e) → narrowLen l fuel le = none
  | 0, _, _ => rfl
  | fuel + 1, le, h => by
    have hnow : ¬ narrowUnits l le ≤ 511 := Nat.not_le.2 (h le (Nat.le_refl _) (by omega))
    rw [narrowLen]
    exact (if_neg hnow).trans (narrowLen_none fun e hlo hhi => h e (by omega) (by omega))

/-- The search from `le` gives the first exponent whose units fit LM. -/
theorem narrowLen_first {l e : Nat} (hfit : narrowUnits l e ≤ 511) : ∀ {fuel le : Nat}, le ≤ e → e < le + fuel → (∀ j, le ≤ j → j < e → 511 < narrowUnits l j) →
    narrowLen l fuel le = some (e, narrowUnits l e)
  | 0, _, hlo, hhi, _ => by omega
  | fuel + 1, le, hlo, hhi, h => by
    rw [narrowLen]
    by_cases heq : le = e
    · subst heq
      exact if_pos hfit
    · have hnow : ¬ narrowUnits l le ≤ 511 := Nat.not_le.2 (h le (Nat.le_refl _) (by omega))
      exact (if_neg hnow).trans (narrowLen_first hfit (by omega) (by omega) fun j hj => h j (by omega))

/-- What the search gives fits both fields. -/
theorem narrowLen_some {l e m : Nat} : ∀ {fuel le : Nat}, narrowLen l fuel le = some (e, m) → e < le + fuel ∧ m = narrowUnits l e ∧ m ≤ 511
  | 0, _, h => nomatch h
  | fuel + 1, le, h => by
    rw [narrowLen] at h
    split at h
    case isTrue hfit =>
      cases h
      exact ⟨by omega, rfl, hfit⟩
    case isFalse =>
      obtain ⟨hlt, hm, hle⟩ := narrowLen_some h
      exact ⟨by omega, hm, hle⟩

section
variable {p q : BitVec 128} {n : Nat}

/-- The base that `pnarrow` gives. -/
def narrowBase (p : BitVec 128) : Nat := pCur p / 64 * 64
/-- A pointer with the base and the length of `pnarrow`. -/
def narrowed (p : BitVec 128) (e m : Nat) : BitVec 128 := setPF (setPF (setPF p 64 50 (narrowBase p / 64)) 123 5 e) 114 9 m

theorem pNarrow_none (h : pTag p = false ∨ pHas p 16 = false ∨ ∀ e, e < 32 → 511 < narrowUnits (pCur p + n - narrowBase p) e) : pNarrow p n = none := by
  rcases h with htag | hperm | hlong
  · simp [pNarrow, htag]
  · simp [pNarrow, hperm]
  · have hnone : narrowLen (pCur p + n - pCur p / 64 * 64) 32 0 = none := narrowLen_none fun e _ hhi => hlong e (by omega)
    simp [pNarrow, hnone]

theorem pNarrow_of_length {e m : Nat} (htag : pTag p = true) (hperm : pHas p 16 = true) (hlen : narrowLen (pCur p + n - narrowBase p) 32 0 = some (e, m)) :
    pNarrow p n = if narrowBase p < pBase p ∨ pLim p < narrowBase p + m * 2 ^ (e + 6) then none else some (narrowed p e m) := by
  unfold narrowBase at hlen
  simp only [pNarrow, htag, hperm, hlen, Bool.not_true, Bool.or_self, Bool.false_eq_true, if_false]
  rfl

/-- A pointer that `pnarrow` gives: its length fits, and its bounds lie within the old ones. -/
theorem pNarrow_some (h : pNarrow p n = some q) : pTag p = true ∧ ∃ e m, e < 32 ∧ m = narrowUnits (pCur p + n - narrowBase p) e ∧ m ≤ 511 ∧
    pBase p ≤ narrowBase p ∧ narrowBase p + m * 2 ^ (e + 6) ≤ pLim p ∧ q = narrowed p e m := by
  cases htag : pTag p
  · rw [pNarrow_none (.inl htag)] at h; cases h
  cases hperm : pHas p 16
  · rw [pNarrow_none (.inr (.inl hperm))] at h; cases h
  cases hlen : narrowLen (pCur p + n - narrowBase p) 32 0 with
  | none =>
    unfold narrowBase at hlen
    simp [pNarrow, htag, hperm, hlen] at h
  | some r =>
    obtain ⟨e, m⟩ := r
    rw [pNarrow_of_length htag hperm hlen] at h
    split at h
    · cases h
    · cases h
      obtain ⟨he, hm, hle⟩ := narrowLen_some hlen
      exact ⟨rfl, e, m, by omega, hm, hle, by omega, by omega, rfl⟩

theorem narrowed_fields (p : BitVec 128) (e m : Nat) {lo len : Nat} (h : lo + len ≤ 64) : pfld (narrowed p e m) lo len = pfld p lo len := by
  rw [narrowed, pfld_setPF_apart _ _ (by decide) (by omega), pfld_setPF_apart _ _ (by decide) (by omega), pfld_setPF_apart _ _ (by decide) (by omega)]

theorem narrowed_base (p : BitVec 128) (e m : Nat) : pBase (narrowed p e m) = narrowBase p := by
  have hcur : pCur p < 2 ^ 56 := pfld_lt p 0 56
  rw [pBase, narrowed, pfld_setPF_apart _ _ (by decide) (by decide), pfld_setPF_apart _ _ (by decide) (by decide), pfld_setPF_same _ _ (by decide)]
  unfold narrowBase
  omega

theorem narrowed_lim (p : BitVec 128) {e m : Nat} (he : e < 32) (hm : m ≤ 511) : pLim (narrowed p e m) = narrowBase p + m * 2 ^ (e + 6) := by
  rw [pLim, narrowed_base, pLen]
  rw [narrowed, pfld_setPF_same _ _ (by decide), pfld_setPF_apart _ _ (by decide) (by decide), pfld_setPF_same _ _ (by decide), Nat.mod_eq_of_lt (show e < 2 ^ 5 from he),
    Nat.mod_eq_of_lt (show m < 2 ^ 9 by omega)]

/-- R136: the narrowed pointer lies within the old one and holds `n` bytes from the cursor. -/
theorem pNarrow_within (h : pNarrow p n = some q) : pBase p ≤ pBase q ∧ pLim q ≤ pLim p ∧ pPerm q = pPerm p ∧ pCur q = pCur p ∧ pTag q = true ∧
    pBase q ≤ pCur q ∧ pCur q + n ≤ pLim q := by
  obtain ⟨htag, e, m, he, hunits, hm, hlo, hhi, rfl⟩ := pNarrow_some h
  have hcur : pCur (narrowed p e m) = pCur p := narrowed_fields p e m (by decide)
  have hroom := le_narrowUnits (pCur p + n - narrowBase p) e
  rw [← hunits] at hroom
  have hbase : narrowBase p ≤ pCur p := Nat.div_mul_le_self _ _
  rw [narrowed_base, narrowed_lim p he hm, hcur]
  refine ⟨hlo, hhi, narrowed_fields p e m (by decide), rfl, ?_, hbase, by omega⟩
  rw [pTag, narrowed_fields p e m (by decide)]
  exact htag
end

/-! ### The instructions (R137, R263, R264) -/

section
variable {i : Instr} {d k : Nat} {srcs : List Nat} {f : Slot → List W64 → Res (BitVec 128)} {s s1 : State} {vs : List W64}
  (hturn : s.Turn k) (hmay : (s.slot k).May 0 [] []) (hread : s.Reads k 1 srcs vs s1)
include hturn hmay hread

theorem ptrI_ok {p : BitVec 128} (hf : f (s.slot k) vs = .ok p) : ptrI i d srcs f s = .next ((s1.modSlot k (fun x => x.setP d p)).advance k) := by
  refine scalarI_ok hturn hmay ?_
  have hread' : rdScs k 1 srcs s = .ok (vs, s1) := hread
  simp only [hread', bind_ok, hf]
  rfl

theorem ptrI_raise {c : Nat} (hf : f (s.slot k) vs = raise c) : ptrI i d srcs f s = .next (s.entered k c (wordOf i)) := by
  refine (scalarI_stop hturn hmay (e := .trap (Trap.mk1 c)) ?_).trans (congrArg _ (stop_mk1 ..))
  have hread' : rdScs k 1 srcs s = .ok (vs, s1) := hread
  simp only [hread', bind_ok, hf]
  rfl
end

/-- Reading scalar sources leaves every slot's pointers. -/
theorem State.Reads.slot {s t : State} {k n : Nat} {fm v : W64} (h : s.Reads k fm [n] [v] t) (j : Nat) : t.slot j = s.slot j := by
  rw [State.slot, State.slot, rdSc_slots (rdScs_one.1 h)]

theorem execPld_ok {d b k : Nat} {n : BitVec 16} {s s1 s2 : State} {v : W64} {p : BitVec 128} (hturn : s.Turn k) (hmay : (s.slot k).May 0 [] [])
    (hread : s.Reads k 1 [b] [v] s1) (hload : s1.loadPtr k ((s.slot k).preg 1) (n.toNat + v.toNat) = .ok (p, s2)) :
    execPld d b n s = .next ((s2.modSlot k (fun x => x.setP d p)).advance k) := by
  refine scalarI_ok hturn hmay ?_
  simp only [rdScs_one.1 hread, bind_ok, hload]
  rfl

/-- Settles O22: each instruction once its sources are read, and what each of the new pointers' fields holds. That the TVAL of a failing `pnarrow` is the
instruction word follows R389 and log entry 75. -/
theorem pointers : Obligations.Pointers := by
  unfold Obligations.Pointers
  refine ⟨⟨fun d b n => ?pld, fun o => ?pmov, fun o => ?padd, fun o => ?pnarrow, fun o => ?pperm⟩,
    fun p q n => ⟨pNarrow_within, fun d => ⟨pAdd_base p d, pAdd_lim p d, pAdd_perm p d, pAdd_tagged p⟩, fun m => ?masked⟩,
    fun o => ?fails, fun p n => ⟨pNarrow_none, fun e he hfirst hfit htag hperm => ?least⟩⟩
  case pld =>
    rintro s k t hturn hmay ⟨v, s1, p, s2, hread, hload, rfl⟩
    exact (exec_pld s).trans (execPld_ok hturn hmay hread hload)
  case pmov =>
    rintro s k t hturn hmay rfl
    exact (exec_pmov s).trans (ptrI_ok hturn hmay (reads_nil.2 ⟨rfl, rfl⟩) rfl)
  case padd =>
    rintro s k t hturn hmay ⟨v, s1, hread, rfl⟩
    rw [hread.slot k]
    exact (exec_padd s).trans (ptrI_ok hturn hmay hread rfl)
  case pnarrow =>
    rintro s k t hturn hmay ⟨v, s1, p, hread, hnarrow, rfl⟩
    refine (exec_pnarrow s).trans (ptrI_ok hturn hmay hread ?_)
    rw [show lrw [v] 0 = v from rfl, hnarrow]
  case pperm =>
    rintro s k t hturn hmay ⟨v, s1, hread, rfl⟩
    exact (exec_pperm s).trans (ptrI_ok hturn hmay hread rfl)
  case masked =>
    have hkept {lo len : Nat} (h : lo + len ≤ 56 ∨ 61 ≤ lo) := setPerm_fields p (pPerm p &&& m) h
    refine ⟨?_, ?_, hkept (by decide), ?_, ?_⟩
    · rw [pBase, hkept (by decide), pBase]
    · rw [pLim, pBase, pLen, hkept (by decide), hkept (by decide), hkept (by decide), pLim, pBase, pLen]
    · rw [pTag, hkept (by decide), pTag]
    · rw [setPerm_perm, Nat.and_comm (pPerm p &&& m), ← Nat.and_assoc, Nat.and_self]
  case fails =>
    rintro s k t hturn hmay ⟨v, s1, tv, hread, hnarrow, rfl, rfl⟩
    refine (exec_pnarrow s).trans (ptrI_raise hturn hmay hread ?_)
    rw [show lrw [v] 0 = v from rfl, hnarrow]
  case least =>
    exact pNarrow_of_length htag hperm (narrowLen_first hfit (Nat.zero_le e) (by omega) fun j _ => hfirst j)

end Sys2Proof.Machine

/-! # Producer binding, counters, tasks and launches (R268 to R272)

Each instruction once its operands are read and have passed their checks, and a decrement of a counter, from which the obligation O25. -/

namespace Sys2Proof.Machine

/-! ### What a write at the LS port leaves of a strand (R268) -/

/-- A strand without its bindings: all that a write at the LS port leaves of it. -/
def Slot.unbound (x : Slot) : Slot := { x with binds := [] }
/-- A save area whose image has no bindings. -/
def Save.unbound (v : Save) : Save := { v with img := v.img.unbound }

@[simp] theorem Slot.unbound_resident (x : Slot) : x.unbound.resident = x.resident := rfl
@[simp] theorem Slot.unbound_held (x : Slot) : x.unbound.held = x.held := rfl

/-- The strands in slots and in save areas differ in their bindings alone. -/
structure SameStrands (s t : State) : Prop where
  slot : ∀ j, (t.slot j).unbound = (s.slot j).unbound
  saves : t.saves.map Save.unbound = s.saves.map Save.unbound

namespace SameStrands
variable {s t u : State}

theorem refl (s : State) : SameStrands s s := ⟨fun _ => rfl, rfl⟩
theorem of_eq (hslots : t.slots = s.slots) (hsaves : t.saves = s.saves) : SameStrands s t := by
  refine ⟨fun j => ?_, by rw [hsaves]⟩
  rw [State.slot, State.slot, hslots]
theorem trans (h : SameStrands s t) (g : SameStrands t u) : SameStrands s u := ⟨fun j => (g.slot j).trans (h.slot j), g.saves.trans h.saves⟩
theorem foldl {α : Type} {f : State → α → State} (h : ∀ s a, SameStrands s (f s a)) (l : List α) (s : State) : SameStrands s (l.foldl f s) := by
  induction l generalizing s with
  | nil => exact .refl s
  | cons a l ih => exact (h s a).trans (ih _)
end SameStrands

theorem modSlot_sameStrands (s : State) (k : Nat) {f : Slot → Slot} (hf : ∀ x, (f x).unbound = x.unbound) : SameStrands s (s.modSlot k f) := by
  refine ⟨fun j => ?_, by rw [State.modSlot_saves]⟩
  by_cases hj : j = k
  · subst hj
    rw [State.modSlot_slot, hf]
  · rw [State.modSlot_slot_ne _ _ hj]

/-- A strand without its bindings on a local-store word. -/
def Slot.cutLs (w : Nat) (x : Slot) : Slot := { x with binds := x.binds.filter (fun b => b.loc != .ls w) }

theorem Slot.cutLs_unbound (w : Nat) (x : Slot) : (x.cutLs w).unbound = x.unbound := rfl

theorem endLs_sameStrands (s : State) (core w : Nat) : SameStrands s (s.endLs core w) := by
  have hslots (l : List Nat) : SameStrands s (l.foldl (fun t j => t.modSlot (16 * core + j) (Slot.cutLs w)) s) :=
    .foldl (fun t j => modSlot_sameStrands t (16 * core + j) (Slot.cutLs_unbound w)) l s
  refine (hslots _).trans ⟨fun _ => rfl, ?_⟩
  simp only [State.endLs, List.map_map]
  refine List.map_congr_left fun v _ => ?_
  simp only [Function.comp]
  split <;> rfl

theorem lsPut_sameStrands (s : State) (core off v n : Nat) : SameStrands s (s.lsPut core off v n) := by
  induction n generalizing s off v with
  | zero => exact .refl s
  | succ n ih =>
    have hfirst : SameStrands s (s.setLsByte core off (BitVec.ofNat 8 v)) := .of_eq rfl rfl
    exact hfirst.trans (ih ..)

theorem lsWrite_sameStrands (s : State) (core off n v : Nat) : SameStrands s (s.lsWrite core off n v) := by
  refine (lsPut_sameStrands ..).trans (.foldl (fun t w => ?_) _ _)
  have hfull : SameStrands t (t.setEmpty core w false) := .of_eq rfl rfl
  refine (hfull.trans (endLs_sameStrands _ core w)).trans ?_
  dsimp only
  split
  · exact .of_eq rfl rfl
  · exact .refl _

section
variable {s t : State} (h : SameStrands s t)
include h

theorem SameStrands.find_save {q : Save → Bool} (hq : ∀ v, q v.unbound = q v) :
    (t.saves.find? q).map Save.unbound = (s.saves.find? q).map Save.unbound := by
  have hcomp : q ∘ Save.unbound = q := funext hq
  have hfind (l : List Save) : (l.map Save.unbound).find? q = (l.find? q).map Save.unbound := by rw [List.find?_map, hcomp]
  rw [← hfind, ← hfind, h.saves]

theorem SameStrands.placeOf {k : Nat} {f : Nat → Slot → Bool} (hf : ∀ j x, f j x.unbound = f j x) : t.placeOf k f = s.placeOf k f := by
  have htest : (fun j => (t.slot j).resident && f j (t.slot j)) = fun j => (s.slot j).resident && f j (s.slot j) := by
    funext j
    have hres : (t.slot j).resident = (s.slot j).resident := by rw [← Slot.unbound_resident, h.slot, Slot.unbound_resident]
    rw [hres, ← hf j (t.slot j), h.slot, hf]
  have hsave := h.find_save (q := fun v => coreOf v.slot == coreOf k && f v.slot v.img) fun v => congrArg _ (hf v.slot v.img)
  simp only [State.placeOf, htest]
  split
  · rfl
  · cases ht : t.saves.find? (fun v => coreOf v.slot == coreOf k && f v.slot v.img) with
    | none =>
      rw [ht] at hsave
      rw [Option.map_eq_none_iff.1 hsave.symm]
    | some v =>
      rw [ht] at hsave
      obtain ⟨w, hw, heq⟩ := Option.map_eq_some_iff.1 hsave.symm
      rw [hw]
      have hslot : w.unbound.slot = v.unbound.slot := by rw [heq]
      have haddr : w.unbound.addr = v.unbound.addr := by rw [heq]
      show Place.save v.unbound.slot v.unbound.addr = Place.save w.unbound.slot w.unbound.addr
      rw [hslot, haddr]

theorem SameStrands.strandAt (k gen : Nat) (low : Bool) : t.strandAt k gen low = s.strandAt k gen low := by
  have hheld : (t.slot k).held = (s.slot k).held := by rw [← Slot.unbound_held, h.slot, Slot.unbound_held]
  have hplace := h.placeOf (k := k) (f := fun j x => named low k gen (x.bornAt j)) fun _ _ => rfl
  simp only [State.strandAt, hheld, hplace]

theorem SameStrands.atPlace (p : Place) {f : Slot → Bool} (hf : ∀ x, f x.unbound = f x) : t.atPlace p f = s.atPlace p f := by
  cases p with
  | slot j =>
    show f (t.slot j) = f (s.slot j)
    rw [← hf, h.slot, hf]
  | save j a =>
    have hsave := congrArg (fun o : Option Save => o.all (fun v => f v.img)) (h.find_save (q := fun v => v.slot == j && v.addr == a) fun _ => rfl)
    simp only [Option.all_map] at hsave
    simpa [State.atPlace, State.saveAt, Option.all_map, Function.comp_def, Save.unbound, hf] using hsave
  | gone => rfl

theorem SameStrands.regFree (k gen r : Nat) (low : Bool) : t.regFree k gen r low = s.regFree k gen r low := by
  rw [State.regFree, State.regFree, h.strandAt]
  exact h.atPlace _ fun _ => rfl
end

/-! ### A decrement of a counter (R269, R270) -/

theorem lsWrite_lsWord (s : State) {c off : Nat} (halign : off % 8 = 0) (hroom : off + 8 ≤ 262144) (v : W64) :
    (s.lsWrite c off 8 v.toNat).lsWord c (off / 8) = v := by
  have hbytes : ∀ i, i < 8 → (s.lsWrite c off 8 v.toNat).lsByte c (off + i) = BitVec.ofNat 8 (v.toNat / 256 ^ i) := fun i hi => by
    rw [lsWrite_lsByte _ _ _ _ _ hroom _ (by omega), if_pos ⟨rfl, by omega, by omega⟩, Nat.add_sub_cancel_left]
  rw [State.lsWord, Nat.mul_div_cancel' (Nat.dvd_of_mod_eq_zero halign), lsRead_of_bytes hbytes, Nat.mod_eq_of_lt (show v.toNat < 256 ^ 8 from v.isLt), BitVec.ofNat_toNat,
    BitVec.setWidth_eq]

section
variable {s : State} {c off n : Nat} {v : W64} (hsound : s.wordPois c (off / 8) = false) (hword : s.lsWord c (off / 8) = v)
include hsound hword

theorem State.countDec_of_zero (hzero : wf v 0 32 = 0) : s.countDec c off n = s := by
  simp [State.countDec, hsound, hword, hzero]

theorem State.countDec_of_above (habove : n < wf v 0 32) : s.countDec c off n = s.lsWrite c off 8 (setF v 0 32 (wf v 0 32 - n)).toNat := by
  have hpos : wf v 0 32 ≠ 0 := by omega
  simp [State.countDec, hsound, hword, hpos, habove]

/-- The write that clears the registration leaves the waiter's register as empty as it was, and the fill lands at once. -/
theorem State.countDec_of_last (hpos : 0 < wf v 0 32) (hlast : wf v 0 32 ≤ n) (hreg : bitAt v 42 = true) (hlo : 0 < wf v 32 6) (hhi : wf v 32 6 < 60)
    (hfree : s.regFree (16 * c + wf v 38 4) (wf v 43 16) (wf v 32 6) true = true) :
    s.countDec c off n = (s.lsWrite c off 8 (setF (setF v 0 32 0) 32 27 0).toNat).fillReg (16 * c + wf v 38 4) (wf v 43 16) (wf v 32 6) true 0 false := by
  have hne : wf v 0 32 ≠ 0 := by omega
  have hnot : ¬ (n < wf v 0 32 ∨ (!bitAt v 42) = true) := by simp only [hreg, Bool.not_true, Bool.false_eq_true, or_false]; omega
  have hin : ¬ (wf v 32 6 = 0 ∨ 60 ≤ wf v 32 6) := by omega
  simp only [State.countDec, hsound, hword, if_neg hne, if_neg hnot, if_neg hin, (lsWrite_sameStrands s c off 8 _).regFree, hfree, Bool.false_eq_true, if_false,
    if_true]
end

/-! ### The instructions (R268 to R272) -/

theorem wordAt_ok {v : W64} (halign : v.toNat % 8 = 0) (hroom : v.toNat ≤ 0x3FFF8) : wordAt v = .ok (v.toNat / 8) := by
  simp only [wordAt, ensureV_ok (show (v.toNat % 8 == 0) = true by simp [halign]), ensureV_ok (show decide (v.toNat ≤ 0x3FFF8) = true by simp [hroom]), bind_ok]
  rfl

theorem lrw_first (v : W64) (l : List W64) : lrw (v :: l) 0 = v := rfl
theorem lrw_second (v w : W64) (l : List W64) : lrw (v :: w :: l) 1 = w := rfl
theorem reads_bind {α : Type} {k : Nat} {fm : W64} {ns : List Nat} {vs : List W64} {s t : State} (h : s.Reads k fm ns vs t) (f : List W64 × State → Res α) :
    (rdScs k fm ns s >>= f) = f (vs, t) := congrArg (· >>= f) h

theorem ensureV_true (c : Nat) (v : W64) : ensureV true c v = .ok () := rfl

/-- A record that `tsend.new` accepts passes its two checks of the first word (R60, R271). -/
theorem recNew_passes {w : W64} (h : recNew w) : ¬ (wf w 37 3 ≠ 0 ∨ wf w 56 8 ≠ 0) ∧ ¬ (wf w 32 5 = 0 ∨ 16 < wf w 32 5 ∨ 2 ≤ wf w 42 2) := by
  obtain ⟨hz1, hz2, hlo, hhi, hkind⟩ := h
  omega

theorem lsReady_nil (s : State) (c off : Nat) : s.LsReady c off 0 := fun _ h => absurd h List.not_mem_nil

/-- What a task inherits from the strand in `x` that makes it, with its code (R271). -/
def Slot.taskCtx (x : Slot) (code : BitVec 128) : TaskCtx :=
  ⟨code, x.preg 1, x.preg 14, x.gseed, x.ranks, x.utvec, x.udeleg, x.fmt, x.asid, true, 0⟩

section
variable {k : Nat} {s s1 t : State} (hturn : s.Turn k)
include hturn

theorem execExpect_ok {o : Expect} {v w : W64} {g : Gang} {loc : ExpLoc} (hmay : (s.slot k).May 0 [] [])
    (hread : s.Reads k 1 [o.a, match o.t with
      | .ls b => b
      | _ => 0] [v, w] s1)
    (hgang : s.myGang k = some g) (hrank : v.toNat < g.nStrands) (hsmall : v.toNat < 65536)
    (hloc : match o.t with
      | .reg d => loc = .reg d
      | .inbox => loc = .inbox
      | .ls _ => w.toNat % 8 = 0 ∧ w.toNat ≤ 0x3FFF8 ∧ loc = .ls (w.toNat / 8)) :
    execExpect o s = .next ((s1.modSlot k (fun x => x.bind ⟨loc, v.toNat, g.halted.contains v.toNat⟩)).advance k) := by
  have hok : ensureV (rankOk v g.nStrands) 0x1B v = .ok () := ensureV_ok (by simp [rankOk, hsmall, hrank])
  refine scalarI_ok hturn hmay ((reads_bind hread _).trans ?_)
  cases htarget : o.t with
  | reg d =>
    rw [htarget] at hloc
    simp only [hgang, res_pure, bind_ok, lrw_first, hok, hloc]
  | inbox =>
    rw [htarget] at hloc
    simp only [hgang, res_pure, bind_ok, lrw_first, hok, hloc]
  | ls b =>
    rw [htarget] at hloc
    obtain ⟨halign, hroom, rfl⟩ := hloc
    simp only [hgang, res_pure, bind_ok, lrw_first, lrw_second, wordAt_ok halign hroom, hok]

theorem execCntDec_ok {a b c : Nat} {v n : W64} (hmay : (s.slot k).May 0 [] []) (hread : s.Reads k 1 [a, b] [v, n] s1) (hhigh : wf v 34 30 = 0)
    (hcore : s.partCore k (wf v 0 16) = some c) (halign : wf v 16 3 = 0) (hcredit : s1.credit c = true) :
    execCntDec a b s = .next (((s1.relTo k c).sendNet ⟨0, .cntdec, srcOfSlot k, c, 0, 0, wf v 16 18, natW (wf n 0 32), 0, 0, false, false, false, false, false, 0⟩).1.advance k) := by
  refine scalarI_ok hturn hmay ((reads_bind hread _).trans ?_)
  simp only [lrw_first, lrw_second, if_pos hhigh, hcore, ensureV_ok (show (wf v 16 3 == 0) = true by simp [halign]), bind_ok, hcredit, Bool.not_true,
    Bool.false_eq_true, if_false]
  rfl

theorem execTsend_ok {a b c : Nat} {h n : W64} (hmay : (s.slot k).May 0 [] []) (hread : s.Reads k 1 [a, b] [h, n] s1) (hhigh : wf h 25 7 = 0)
    (hcore : s.partCore k (wf h 0 16) = some c) (hcredit : s1.credit c = true) :
    execTsend a b s = .next (((s1.relTo k c).sendNet ⟨0, .taskdec, srcOfSlot k, c, 0, wf h 32 32, wf h 16 9, natW (wf n 0 32), 0, 0, false, false, false, false, false, 0⟩).1.advance k) := by
  refine scalarI_ok hturn hmay ((reads_bind hread _).trans ?_)
  simp only [lrw_first, lrw_second, if_pos hhigh, hcore, hcredit, Bool.not_true, Bool.false_eq_true, if_false]
  rfl

/-- The word of a counter that a waiter registers in: its slot, generation and register (R270). -/
def Slot.registered (x : Slot) (k d : Nat) (w : W64) : W64 := setF (setF (setF (setF w 43 16 x.gen) 42 1 1) 38 4 (slotNo k)) 32 6 d

section
variable {o : R2} {v x : W64} (hmay : (s.slot k).May 0 [] []) (hread : s.Reads k 1 [o.a] [v] s1) (halign : v.toNat % 8 = 0) (hroom : v.toNat ≤ 0x3FFF8)
  (hsound : s.wordPois (coreOf k) (v.toNat / 8) = false) (hword : s1.lsWord (coreOf k) (v.toNat / 8) = x) (hfree : bitAt x 42 = false)
include hmay hread halign hroom hsound hword hfree

/-- Log entry 29: a counter that stands at zero registers nothing. -/
theorem execCntWait_of_zero (hzero : wf x 0 32 = 0) (hwrite : s1.Writes k o.d 0 t) : execCntWait o s = .next (t.advance k) := by
  refine scalarI_ok hturn hmay ?_
  simp only [rdScs_one.1 hread, bind_ok, wordAt_ok halign hroom, hsound, hword, ensureV_ok (show (!bitAt x 42) = true by simp [hfree]), if_pos hzero,
    Bool.false_eq_true, if_false]
  exact hwrite

theorem execCntWait_registers (hpos : wf x 0 32 ≠ 0) : execCntWait o s =
    .next (((s1.lsWrite (coreOf k) (8 * (v.toNat / 8)) 8 ((s.slot k).registered k o.d x).toNat).modSlot k
      (fun z => z.setSReg o.d { z.sreg o.d with full := false, pois := false })).advance k) := by
  refine scalarI_ok hturn hmay ?_
  simp only [rdScs_one.1 hread, bind_ok, wordAt_ok halign hroom, hsound, hword, ensureV_ok (show (!bitAt x 42) = true by simp [hfree]), if_neg hpos,
    Bool.false_eq_true, if_false]
  rfl
end

theorem execTsendNew_ok {o : R2} {v : W64} {code : BitVec 128} {s2 s5 : State} (hmay : (s.slot k).May 0 [o.d] []) (hread : s.Reads k 1 [o.a] [v] s1)
    (hlo : 64 ≤ v.toNat) (hhi : v.toNat ≤ 447) (hready : s1.LsReady (coreOf k) (64 * v.toNat) 64) (hrec : recNew (s1.trec (coreOf k) v.toNat 0))
    (hdead : (s1.ctx (coreOf k) v.toNat).live = false) (hcode : s1.loadPtr k ((s.slot k).preg 1) (wf (s1.trec (coreOf k) v.toNat 0) 24 8) = .ok (code, s2))
    (htag : pTag code = true) (hperm : pHas code 5 = true)
    (hwrite : let s3 := s2.modCore (coreOf k) (fun y => { y with tctx := mput y.tctx v.toNat ((s.slot k).taskCtx code) })
      let gen := s1.recGen (coreOf k) v.toNat + 1
      ((s3.setRec (coreOf k) v.toNat 1 (setF (s3.trec (coreOf k) v.toNat 1) 32 32 gen.toNat)).setRecState (coreOf k) v.toNat 0).Writes k o.d
        (handleOf (coreOf k) v.toNat gen) s5) :
    execTsendNew o s = .next ((if wf (s1.trec (coreOf k) v.toNat 1) 0 32 = 0 then s5.rqEnter (coreOf k) v.toNat else s5).advance k) := by
  have hhigh : (wf v 9 55 == 0) = true := by
    rw [wf, Nat.div_eq_of_lt (by omega)]
    rfl
  have hrange : ¬ (v.toNat < 64 ∨ 447 < v.toNat) := by omega
  obtain ⟨hzero, hform⟩ := recNew_passes hrec
  refine scalarI_ok hturn hmay ?_
  simp only [rdScs_one.1 hread, bind_ok, ensureV_ok hhigh, if_neg hrange, lsLoad_ok hready, if_neg hzero, if_neg hform, hdead, Bool.not_false,
    ensureV_true, hcode, htag, hperm, Bool.and_self, Bool.not_true, Bool.false_eq_true, if_false]
  exact congrArg (· >>= _) hwrite

theorem execLaunch_ok {a : Nat} {v : W64} (hmay : (s.slot k).May 0 [] []) (hread : s.Reads k 1 [a] [v] s1) (halign : v.toNat % 64 = 0)
    (hroom : v.toNat + 256 ≤ 262144) (hready : s1.LsReady (coreOf k) v.toNat 256) {l gt : List W64} {gc ga : Nat} (hrec : s1.lrecAt (coreOf k) v.toNat = l)
    (hcount : wf (lrw l 17) 56 8 = gc) (haddr : wf (lrw l 17) 0 56 = ga) (hgroups : (List.range gc).map (fun j => s1.lsWord (coreOf k) (ga / 8 + j)) = gt)
    (hsound : recordBad l true = none) (htable : gc = 0 ∨ ga % 8 = 0 ∧ ga + 8 * gc ≤ 262144 ∧ s1.LsReady (coreOf k) ga (8 * gc))
    (hgood : groupsBad l gt = false) (hplace : (s.core (coreOf k)).tray.length < 4) :
    execLaunch a s = .next (((s1.wbAllL1 (coreOf k)).modCore (coreOf k) (fun y =>
      { y with tray := y.tray ++ [⟨l, gt, k, v.toNat, (s.slot k).preg 1, (s.slot k).asid, s.childPrio k, false, false⟩] })).advance k) := by
  have hfits : ¬ (gc ≠ 0 ∧ (ga % 8 ≠ 0 ∨ 262144 < ga + 8 * gc)) := by omega
  have hload : s1.LsReady (coreOf k) (if gc = 0 then 0 else ga) (8 * gc) := by
    rcases htable with rfl | ⟨-, -, hload⟩
    · exact lsReady_nil s1 (coreOf k) _
    · split
      case isTrue h => subst h; exact lsReady_nil s1 (coreOf k) _
      case isFalse => exact hload
  refine scalarI_ok hturn hmay ?_
  unfold State.lrecAt at hrec
  simp only [rdScs_one.1 hread, bind_ok, ensureV_ok (show (v.toNat % 64 == 0) = true by simp [halign]),
    ensureV_ok (show decide (v.toNat + 256 ≤ 262144) = true by simp [hroom]), lsLoad_ok hready, hrec, hsound, hcount, haddr, if_neg hfits, lsLoad_ok hload, hgroups,
    hgood, if_neg (Nat.not_le.2 hplace), Bool.false_eq_true, if_false]
  rfl
end

/-- Settles O25: each instruction past its checks, and a decrement by what it leaves of the count. That `cnt.wait` registers nothing at a COUNT of zero is
the model's choice (log entry 29). -/
theorem countersTasksLaunch : Obligations.CountersTasksLaunch := by
  unfold Obligations.CountersTasksLaunch
  refine ⟨⟨fun o => ?expect, fun a b => ?cntDec, fun o => ?cntWait, fun o => ?tsendNew, fun a b => ?tsend, fun a => ?launch⟩,
    fun s c off n halign hroom hsound => ⟨State.countDec_of_zero hsound rfl, fun habove => ?above, ?last⟩⟩
  case expect =>
    rintro s k t hturn hmay ⟨v, w, s1, g, loc, hread, hgang, hrank, hsmall, hloc, rfl⟩
    exact (exec_expect s).trans (execExpect_ok hturn hmay hread hgang hrank hsmall hloc)
  case cntDec =>
    rintro s k t hturn hmay ⟨v, n, s1, c, hread, hhigh, hcore, halign, hcredit, rfl⟩
    exact (exec_cntDec s).trans (execCntDec_ok hturn hmay hread hhigh hcore halign hcredit)
  case cntWait =>
    rintro s k t hturn hmay ⟨v, s1, hread, halign, hroom, hsound, hfree, ⟨hzero, hwrite⟩ | ⟨hpos, rfl⟩⟩
    · exact (exec_cntWait s).trans (execCntWait_of_zero hturn hmay hread halign hroom hsound rfl hfree hzero hwrite)
    · exact (exec_cntWait s).trans (execCntWait_registers hturn hmay hread halign hroom hsound rfl hfree hpos)
  case tsendNew =>
    rintro s k t hturn hmay ⟨v, s1, code, s2, s5, hread, hlo, hhi, hready, hrec, hdead, hcode, htag, hperm, hwrite, rfl⟩
    exact (exec_tsendNew s).trans (execTsendNew_ok hturn hmay hread hlo hhi hready hrec hdead hcode htag hperm hwrite)
  case tsend =>
    rintro s k t hturn hmay ⟨h, n, s1, c, hread, hhigh, hcore, hcredit, rfl⟩
    exact (exec_tsend s).trans (execTsend_ok hturn hmay hread hhigh hcore hcredit)
  case launch =>
    rintro s k t hturn hmay ⟨v, s1, hread, halign, hroom, hready, hsound, htable, hgood, hplace, rfl⟩
    exact (exec_launch s).trans (execLaunch_ok hturn hmay hread halign hroom hready rfl rfl rfl rfl hsound htable hgood hplace)
  case above =>
    rw [State.countDec_of_above hsound rfl habove, lsWrite_lsWord s halign hroom]
    refine ⟨?_, (lsWrite_lsOnly ..).mem⟩
    rw [wf_setF_same _ (by decide), Nat.mod_eq_of_lt]
    exact Nat.lt_of_le_of_lt (Nat.sub_le _ _) (Nat.mod_lt _ (Nat.two_pow_pos 32))
  case last =>
    rintro ⟨hpos, hlast, hreg, hlo, hhi, hfree⟩
    exact State.countDec_of_last hsound rfl hpos hlast hreg hlo hhi hfree

end Sys2Proof.Machine

/-! # Active messages, `out` messages and decrements (R258, R269 to R271, R335)

What each event of the message network does with the message that it names, and from that the obligation O41. -/

namespace Sys2Proof.Machine

theorem State.netOf_eq {s : State} {id : Nat} {kd : NetKind} {n : Net} (hnet : s.net? id = some n) (hkind : n.kind = kd) : s.netOf id kd = some n := by
  simp [State.netOf, hnet, hkind]

/-! ### Active messages (R258) -/

section
variable {s : State} {n : Net}

theorem State.takeAmsg_of_other_gang (h : (s.core n.core).gang ≠ some n.gen) :
    s.takeAmsg n = (s.deadLetter (dieOfCore n.core) ((s.partOf (clOfCore n.core)).getD 0)).performed n := if_pos h

section
variable (hgang : (s.core n.core).gang = some n.gen)
include hgang

/-- Log entry 40: the inbox of 64 holds messages and active messages together. -/
theorem State.takeAmsg_of_full (hfull : 64 ≤ (s.core n.core).inbox.length + (s.core n.core).amq.length) : s.takeAmsg n = s :=
  (if_neg (not_not_intro hgang)).trans (if_pos hfull)

theorem State.takeAmsg_of_room (hroom : (s.core n.core).inbox.length + (s.core n.core).amq.length < 64) :
    s.takeAmsg n = ((s.modCore n.core (fun c => { c with amq := c.amq ++ [⟨n.at_, n.val, n.val2, n.rank⟩] })).acqFrom n.src n.core).performed n :=
  (if_neg (not_not_intro hgang)).trans (if_neg (Nat.not_le.2 hroom))
end
end

theorem State.startHandler_oldest {s : State} {c : Nat} {m : AMsg} {rest : List AMsg} {g : Gang} (hamq : (s.core c).amq = m :: rest)
    (hgang : (s.core c).gang.bind s.gang? = some g) (hmsg : g.msg = true) (hfree : (s.slot (16 * c + 15)).phase = .free)
    (hfits : s.poolFits c (s.handlerStart g c m).entries = true) :
    s.startHandler c = ({ s with free := s.free + 1 }.modCore c (fun x => { x with amq := rest })).startStrand (16 * c + 15) (s.handlerStart g c m) := by
  have hfree' : ((s.slot (16 * c + 15)).phase != .free) = false := by rw [hfree]; rfl
  simp only [State.startHandler, hamq, hgang, hmsg, hfree', hfits, Bool.not_true, Bool.or_self, Bool.false_eq_true, if_false]
  rfl

/-! ### `out` messages (R335) -/

/-- Log entry 40: a message for a resident strand enters its core's inbox while it and the active messages number less than 64. -/
theorem State.deliver_resident {s : State} {n : Net} {j : Nat} (hkind : n.val2 = 1) (hat : s.strandAt (16 * n.core + n.slot) n.gen false = .slot j)
    (hroom : (s.core n.core).inbox.length + (s.core n.core).amq.length < 64) :
    ∃ t, s.deliver n = .accept t ∧ (t.core n.core).inbox = (s.core n.core).inbox ++ [⟨n.src, n.slot, none, n.gen, n.val, false⟩] := by
  have hroom' : decide ((s.core n.core).inbox.length + (s.core n.core).amq.length < 64) = true := decide_eq_true hroom
  refine ⟨(s.modCore n.core (fun y => { y with inbox := y.inbox ++ [⟨n.src, n.slot, none, n.gen, n.val, false⟩] })).modSlot j
    (fun y => { y with binds := y.binds.filter (fun b => b.loc != .inbox) }), ?_, by simp⟩
  simp [State.deliver, hkind, hat, hroom']

/-- Settles O41: each event on the message that it names. That messages and active messages share one bound of 64 is the model's choice (log entry 40). -/
theorem messageEvents : Obligations.MessageEvents := by
  unfold Obligations.MessageEvents
  refine ⟨fun id => ?arrives, fun c => happens_next exec_activeMessageHandlerStart ?starts, fun s g c m => ⟨rfl, rfl, rfl, rfl, rfl, rfl, rfl⟩,
    fun id => ?delivered, fun s n j hkind hat hroom => State.deliver_resident hkind hat hroom, fun id => ?counted, fun id => ?taskCounted⟩
  case arrives =>
    rintro s t ⟨n, hnet, hkind, heff⟩
    have hexec : exec (.amsgDelivery id) s = .next (s.takeAmsg n) := by
      rw [exec_amsgDelivery, execAmsgDelivery, State.netOf_eq hnet hkind]
    rw [hexec]
    rcases heff with ⟨hgang, rfl⟩ | ⟨hgang, hfull, rfl⟩ | ⟨hgang, hroom, rfl⟩
    · rw [State.takeAmsg_of_other_gang hgang]
    · rw [State.takeAmsg_of_full hgang hfull]
    · rw [State.takeAmsg_of_room hgang hroom]
  case starts =>
    rintro s t ⟨m, rest, g, hamq, hgang, hmsg, hfree, hfits, rfl⟩
    exact State.startHandler_oldest hamq hgang hmsg hfree hfits
  case delivered =>
    rintro s t ⟨n, hnet, hkind, hfirst, -, heff⟩
    rcases heff with ⟨u, hd, rfl⟩ | ⟨u, hd, rfl⟩ | ⟨c, i, hd, rfl⟩ | ⟨hd, rfl⟩
    all_goals simp only [exec_messageDelivery, execMessageDelivery, State.netOf_eq hnet hkind, hfirst, hd, Bool.not_true, Bool.false_eq_true, if_false]
  case counted =>
    rintro s t ⟨n, hnet, hkind, rfl⟩
    rw [exec_counterDecrement, execCounterDecrement, State.netOf_eq hnet hkind]
  case taskCounted =>
    rintro s t ⟨n, hnet, hkind, rfl⟩
    rw [exec_taskDecrement, execTaskDecrement, State.netOf_eq hnet hkind]

end Sys2Proof.Machine

/-! # Furrows and the trellis (R294 to R302)

Each instruction once its operand is read: what its checks ask of the block's resources, and what it leaves there. From that the obligation O33. -/

namespace Sys2Proof.Machine

section
variable {k : Nat} {s : State}

theorem State.myFurrow_ok {f : Nat} {y : Furrow} (hfur : s.furrow? (clOfSlot k) f = some y) (howner : y.owner = s.ownerOf k) : s.myFurrow k f = .ok y := by
  simp only [State.myFurrow, hfur, if_pos howner]

/-! ### Turns at a furrow (R296, R297) -/

section
variable {i : Instr} {src : Bool} {d f : Nat} {y : Furrow} (hturn : s.Turn k) (hmay : (s.slot k).May 0 [d] [])
  (hfur : s.furrow? (clOfSlot k) f = some y) (howner : y.owner = s.ownerOf k)
include hturn hmay hfur howner

theorem furrowSlot_takes {t : State}
    (hfirst : (s.headWaiter (clOfSlot k) (if src then y.takq else y.resq)).getD (.strand k (s.slot k).gen) = .strand k (s.slot k).gen)
    (hslot : (if src then y.filled else y.free) ≠ 0)
    (hwrite : ((s.slotAt (clOfSlot k) src f (.strand k (s.slot k).gen)).2.acqL1 (coreOf k)).Writes k d
      (natW (y.core % 16 * 2 ^ 18 + y.offset (s.slotAt (clOfSlot k) src f (.strand k (s.slot k).gen)).1)) t) : furrowSlot i src d f s = .next (t.advance k) := by
  refine scalarI_ok hturn hmay ?_
  have hready : ((s.headWaiter (clOfSlot k) (if src then y.takq else y.resq)).getD (.strand k (s.slot k).gen) == .strand k (s.slot k).gen &&
      (if src then y.filled else y.free) != 0) = true := by simp [hfirst, hslot]
  simp only [State.myFurrow_ok hfur howner, bind_ok, if_pos hready]
  exact hwrite

theorem furrowSlot_parks (hnone : (if src then y.filled else y.free) = 0) : furrowSlot i src d f s =
    .next ((s.queueAt (clOfSlot k) src f (.strand k (s.slot k).gen)).doPark k (if src then .furrowFilled f else .furrowFree f) false) := by
  refine scalarI_parkWith hturn hmay ?_
  simp only [State.myFurrow_ok hfur howner, bind_ok, hnone, bne_self_eq_false, Bool.and_false, Bool.false_eq_true, if_false]
end

/-- `fw.take` and `fw.res` are the two sides of one operation. -/
theorem furrowSlot_exec {i : Instr} {src : Bool} {d f : Nat} (h : i = .fwTake d f ∧ src = true ∨ i = .fwRes d f ∧ src = false) :
    exec i s = furrowSlot i src d f s := by
  rcases h with ⟨rfl, rfl⟩ | ⟨rfl, rfl⟩
  · exact exec_fwTake s
  · exact exec_fwRes s

/-! ### Slots given back and published (R295, R298) -/

section
variable {a f i : Nat} {v : W64} {y : Furrow} {s1 : State} (hturn : s.Turn k) (hmay : (s.slot k).May 0 [] []) (hread : s.Reads k 1 [a] [v] s1)
  (hdesc : descBad v false = false) (hfur : s1.furrow? (clOfSlot k) f = some y) (howner : y.owner = s1.ownerOf k)
include hturn hmay hread hdesc hfur howner

theorem execFwGive_ok (hnamed : y.named v y.giv y.tak y.returned = some i) :
    execFwGive f a s = .next (((s1.wbAllL1 (coreOf k)).giveBack (clOfSlot k) f i).advance k) := by
  refine scalarI_ok hturn hmay ?_
  simp only [rdScs_one.1 hread, bind_ok, hdesc, Bool.not_false, ensureV_true, State.myFurrow_ok hfur howner, hnamed]
  rfl

theorem execFwPub_ok (hnamed : y.named v y.pub y.res y.done = some i) :
    execFwPub f a s = .next (((s1.wbAllL1 (coreOf k)).publish (clOfSlot k) f i).advance k) := by
  refine scalarI_ok hturn hmay ?_
  simp only [rdScs_one.1 hread, bind_ok, hdesc, Bool.not_false, ensureV_true, State.myFurrow_ok hfur howner, hnamed]
  rfl
end

/-! ### Definitions of furrows (R294) -/

/-- The strand's block owns the furrow, and nothing of it is in use. -/
def State.ownsIdleFurrow (s : State) (k f : Nat) : Prop :=
  ∃ y, s.furrow? (clOfSlot k) f = some y ∧ y.owner = s.ownerOf k ∧ s.furrowIdle (clOfSlot k) f y = true

/-- A furrow as `fw.res.def` defines it. -/
def State.newFurrow (s : State) (k : Nat) (v : W64) : Furrow :=
  ⟨s.ownerOf k, clOfSlot k * 16 + wf v 18 4, wf v 0 18, wf v 24 12, wf v 36 6, 0, 0, 0, 0, [], [], [], []⟩

section
variable {a f : Nat} {v : W64} {s1 : State} (hturn : s.Turn k) (hmay : (s.slot k).May 0 [] []) (hread : s.Reads k 1 [a] [v] s1)
include hturn hmay hread

theorem execFwResDef_frees (hzero : v = 0) (hmine : s1.ownsIdleFurrow k f) :
    execFwResDef f a s = .next ((s1.modCluster (clOfSlot k) (fun x => { x with furrows := mdel x.furrows f })).advance k) := by
  obtain ⟨y, hfur, howner, hidle⟩ := hmine
  refine scalarI_ok hturn hmay ?_
  simp only [rdScs_one.1 hread, bind_ok, hfur, howner, hidle, beq_self_eq_true, Bool.and_self, if_pos hzero, ensureV_true]
  rfl

theorem execFwResDef_defines (hv : v ≠ 0) (hlayout : wf v 42 22 = 0 ∧ wf v 36 6 ≠ 0 ∧ wf v 24 12 ≠ 0 ∧ wf v 22 2 = 0 ∧ wf v 0 6 = 0)
    (hfree : s1.ownsIdleFurrow k f ∨ s1.furrow? (clOfSlot k) f = none) (hblock : s1.inBlock k (wf v 18 4) = true)
    (hroom : wf v 0 18 + (wf v 36 6 + 1) * 64 * wf v 24 12 ≤ 262144) :
    execFwResDef f a s = .next ((s1.modCluster (clOfSlot k) (fun x => { x with furrows := mput x.furrows f (s1.newFurrow k v) })).advance k) := by
  obtain ⟨h1, h2, h3, h4, h5⟩ := hlayout
  have hlayout : (wf v 42 22 == 0 && wf v 36 6 != 0 && wf v 24 12 != 0 && wf v 22 2 == 0 && wf v 0 6 == 0) = true := by simp [h1, h2, h3, h4, h5]
  have hplace : (s1.inBlock k (wf v 18 4) && decide (wf v 0 18 + (wf v 36 6 + 1) * 64 * wf v 24 12 ≤ 262144)) = true := by simp [hblock, hroom]
  refine scalarI_ok hturn hmay ?_
  rcases hfree with ⟨y, hfur, howner, hidle⟩ | hnone
  · simp only [rdScs_one.1 hread, bind_ok, hfur, howner, hidle, beq_self_eq_true, Bool.and_self, Bool.true_or, if_neg hv, ensureV_ok hlayout, ensureV_ok hplace,
      ensureV_true]
    rfl
  · simp only [rdScs_one.1 hread, bind_ok, hnone, Option.isNone_none, Bool.or_true, if_neg hv, ensureV_ok hlayout, ensureV_ok hplace,
      ensureV_true]
    rfl
end

/-! ### Counters and terms (R299 to R302) -/

theorem all_owner {α : Type} {o : Option α} {g : α → Owner} {w : Owner} (h : ∀ c, o = some c → g c = w) : o.all (fun c => g c == w) = true := by
  cases o with
  | none => rfl
  | some c => simp [h c rfl]

section
variable {n : Nat} (hturn : s.Turn k) (hmay : (s.slot k).May 0 [] [])
include hturn hmay

theorem execTrlSetCounter_ok {a : Nat} {v : W64} {s1 : State} (hread : s.Reads k 1 [a] [v] s1) (h1 : wf v 32 32 = 0) (h2 : wf v 10 6 = 0) (h3 : wf v 4 4 = 0)
    (hsource : ¬ (wf v 8 2 = 0 ∧ wf v 0 4 = 0)) (howner : ∀ c, s1.counter? (clOfSlot k) n = some c → c.owner = s1.ownerOf k) :
    execTrlSetCounter n a s = .next ((s1.modCluster (clOfSlot k) (fun x => Cluster.latch { x with
      counters := mput x.counters n ⟨s1.ownerOf k, wf v 8 2, wf v 0 4, BitVec.ofNat 16 (wf v 16 16)⟩ })).advance k) := by
  have hlayout : (wf v 32 32 == 0 && wf v 10 6 == 0 && wf v 4 4 == 0 && !(wf v 8 2 == 0 && wf v 0 4 == 0)) = true := by
    simpa [h1, h2, h3] using Decidable.not_and_iff_not_or_not.1 hsource
  refine scalarI_ok hturn hmay ?_
  simp only [rdScs_one.1 hread, bind_ok, ensureV_ok hlayout, ensureV_ok (all_owner howner)]
  rfl

/-- The term that `trl.set` defines from its two words. -/
def State.newTerm (s : State) (k : Nat) (va vb : W64) : Term :=
  ⟨s.ownerOf k, litOf (wf va 0 32), litOf (wf va 32 32), litOf (wf vb 0 32), litOf (wf vb 32 32)⟩
/-- The literals of a term that are enabled. -/
def Term.lits (y : Term) : List Lit := [y.l0, y.l1, y.l2, y.l3].filterMap id

theorem execTrlSetTerm_ok {a b : Nat} {va vb : W64} {s1 s2 : State} (hreadA : s.Reads k 1 [a] [va] s1) (hreadB : s1.Reads k 1 [b] [vb] s2)
    (hA : litBad (wf va 0 32) = false ∧ litBad (wf va 32 32) = false) (hB : litBad (wf vb 0 32) = false ∧ litBad (wf vb 32 32) = false)
    (howner : ∀ c, s2.term? (clOfSlot k) n = some c → c.owner = s2.ownerOf k)
    (hlits : ∀ l ∈ (s2.newTerm k va vb).lits, s2.ownsCounter (clOfSlot k) l.cnt (s2.ownerOf k) = true) :
    execTrlSetTerm n a b s = .next ((s2.modCluster (clOfSlot k) (fun x => Cluster.latch { x with terms := mput x.terms n (s2.newTerm k va vb) })).advance k) := by
  have hA' : (!litBad (wf va 0 32) && !litBad (wf va 32 32)) = true := by simp [hA.1, hA.2]
  have hB' : (!litBad (wf vb 0 32) && !litBad (wf vb 32 32)) = true := by simp [hB.1, hB.2]
  have hfound : (s2.newTerm k va vb).lits.find? (fun l => !s2.ownsCounter (clOfSlot k) l.cnt (s2.ownerOf k)) = none :=
    List.find?_eq_none.2 fun l hl => by simp [hlits l hl]
  refine scalarI_ok hturn hmay ?_
  unfold Term.lits State.newTerm at hfound
  simp only [rdScs_one.1 hreadA, rdScs_one.1 hreadB, bind_ok, ensureV_ok hA', ensureV_ok hB', ensureV_ok (all_owner howner), hfound]
  rfl

theorem execTrlClrCounter_ok (howns : s.ownsCounter (clOfSlot k) n (s.ownerOf k) = true)
    (hunused : ∀ e ∈ (s.cluster (clOfSlot k)).terms, s.ownerLive (clOfSlot k) e.2.owner = true → ∀ l ∈ e.2.lits, l.cnt ≠ n) :
    execTrlClrCounter n s = .next ((s.modCluster (clOfSlot k) (fun x => { x with counters := mdel x.counters n })).advance k) := by
  have hterms : (s.cluster (clOfSlot k)).terms.all (fun e => !(e.2.lits.any (fun l => l.cnt == n) && s.ownerLive (clOfSlot k) e.2.owner)) = true := by
    refine List.all_eq_true.2 fun e he => ?_
    cases hlive : s.ownerLive (clOfSlot k) e.2.owner
    · simp
    · simpa using hunused e he hlive
  refine scalarI_ok hturn hmay ?_
  unfold Term.lits at hterms
  simp only [howns, hterms, Bool.and_self, ensureV_true, bind_ok]
  rfl

theorem execTrlClrTerm_ok (howns : s.ownsTerm (clOfSlot k) n (s.ownerOf k) = true)
    (hunused : ∀ c ∈ (s.cluster (clOfSlot k)).cmds, c.term = some n → c.startable = true) :
    execTrlClrTerm n s = .next ((s.modCluster (clOfSlot k) (fun x => { x with terms := mdel x.terms n })).advance k) := by
  have hcmds : (s.cluster (clOfSlot k)).cmds.all (fun c => !(c.term == some n && !c.startable)) = true := by
    refine List.all_eq_true.2 fun c hc => ?_
    by_cases hterm : c.term = some n
    · simp [hunused c hc hterm]
    · simp [hterm]
  refine scalarI_ok hturn hmay ?_
  simp only [howns, hcmds, Bool.and_self, ensureV_true, bind_ok]
  rfl
end
end

/-- Settles O33: each instruction past the checks that the clause names. -/
theorem furrowsAndTrellis : Obligations.FurrowsAndTrellis := by
  unfold Obligations.FurrowsAndTrellis
  refine ⟨⟨fun d f src i hi => ?takes, fun d f src i hi => ?parks, fun f a => ?gives, fun f a => ?publishes, fun f a => ?defines⟩,
    fun n a => ?setCounter, fun n a b => ?setTerm, fun n => ?clrCounter, fun n => ?clrTerm⟩
  case takes =>
    rintro s k t hturn hmay ⟨y, hfur, howner, hfirst, hslot, hwrite⟩
    exact (furrowSlot_exec hi).trans (furrowSlot_takes hturn hmay hfur howner hfirst hslot hwrite)
  case parks =>
    rintro s k t hturn hmay ⟨y, hfur, howner, hnone, rfl⟩
    exact (furrowSlot_exec hi).trans (furrowSlot_parks hturn hmay hfur howner hnone)
  case gives =>
    rintro s k t hturn hmay ⟨v, s1, y, i, hread, hdesc, hfur, howner, hnamed, rfl⟩
    exact (exec_fwGive s).trans (execFwGive_ok hturn hmay hread hdesc hfur howner hnamed)
  case publishes =>
    rintro s k t hturn hmay ⟨v, s1, y, i, hread, hdesc, hfur, howner, hnamed, rfl⟩
    exact (exec_fwPub s).trans (execFwPub_ok hturn hmay hread hdesc hfur howner hnamed)
  case defines =>
    rintro s k t hturn hmay ⟨v, s1, hread, ⟨hzero, hmine, rfl⟩ | ⟨hv, h1, h2, h3, h4, h5, hfree, hblock, hroom, rfl⟩⟩
    · exact (exec_fwResDef s).trans (execFwResDef_frees hturn hmay hread hzero hmine)
    · exact (exec_fwResDef s).trans (execFwResDef_defines hturn hmay hread hv ⟨h1, h2, h3, h4, h5⟩ hfree hblock hroom)
  case setCounter =>
    rintro s k t hturn hmay ⟨v, s1, hread, h1, h2, h3, hsource, howner, rfl⟩
    exact (exec_trlSetCounter s).trans (execTrlSetCounter_ok hturn hmay hread h1 h2 h3 hsource howner)
  case setTerm =>
    rintro s k t hturn hmay ⟨va, s1, vb, s2, hreadA, hreadB, hA1, hA2, hB1, hB2, howner, hlits, rfl⟩
    exact (exec_trlSetTerm s).trans (execTrlSetTerm_ok hturn hmay hreadA hreadB ⟨hA1, hA2⟩ ⟨hB1, hB2⟩ howner hlits)
  case clrCounter =>
    rintro s k t hturn hmay ⟨howns, hunused, rfl⟩
    exact (exec_trlClrCounter s).trans (execTrlClrCounter_ok hturn hmay howns hunused)
  case clrTerm =>
    rintro s k t hturn hmay ⟨howns, hunused, rfl⟩
    exact (exec_trlClrTerm s).trans (execTrlClrTerm_ok hturn hmay howns hunused)

end Sys2Proof.Machine

/-! # Operand loads of the matrix stream (R303, R312, R318, R435)

What a load reads and into which halves it goes, and from that the obligation O34. -/

namespace Sys2Proof.Machine

theorem exec_matLoad {i : Instr} {isB : Bool} {o : XLoad} (h : i = .xlda o ∧ isB = false ∨ i = .xldb o ∧ isB = true) (s : State) :
    exec i s = matrixI i true (matLoad isB o) s := by
  rcases h with ⟨rfl, rfl⟩ | ⟨rfl, rfl⟩
  · exact exec_xlda s
  · exact exec_xldb s

/-- The hazard unit lets a load through that `HazClear` names (R318). -/
theorem State.HazClear.ok {s t : State} {cl : Nat} {r w : List (Nat × Nat × Nat)} (h : s.HazClear cl r w t) : s.matrixHaz cl r w = .ok t := by
  rcases h with ⟨hnone, hroom, hclear, rfl⟩ | ⟨h, hsome, hclear, rfl⟩
  · exact State.matrixHaz_clear hnone hroom hclear
  · simp only [State.matrixHaz, hsome, hclear, Bool.false_eq_true, if_false]

/-- Two changes of a cluster that agree on it give one state. -/
theorem State.modCluster_congr {s : State} {cl : Nat} {f g : Cluster → Cluster} (h : f (s.cluster cl) = g (s.cluster cl)) :
    s.modCluster cl f = s.modCluster cl g := congrArg (s.setCluster cl) h

/-! ### What a load reads -/

section
variable (isB : Bool) (o : XLoad) (cl : Nat) (f : W64) (x : Cluster)

/-- Bytes of a row of a plane. -/
def loadRow : Nat := 16 * (if isB then x.kb else x.ka)
/-- The place of row `r` of plane `b`. -/
def loadPlace (b r : Nat) : Nat := 16 * o.off16 + b * (128 * loadRow isB x) + r * loadRow isB x + 16 * chunkIn o x
/-- The place of the chunk's exponents. -/
def loadExps : Nat := 16 * o.off16 + wf f 4 5 * (128 * loadRow isB x) + chunkIn o x / 2 ^ wf f 9 2 * 128
/-- The footprint of a load: the rows of its planes, and its exponents. -/
def loadPrint : List (Nat × Nat × Nat) :=
  (List.range (wf f 4 5)).flatMap (fun b => (List.range 128).map (fun r => (16 * cl + o.core + 1, loadPlace isB o x b r, 16))) ++
    (if (wf f 11 2 == 1) = true then [(16 * cl + o.core + 1, loadExps isB o f x, 128)] else [])
/-- The half that a load finds in the local store of `s`. -/
def loadHalf (s : State) : Half where
  slot := o.slot
  planes := (List.range (wf f 4 5)).map (fun b => (List.range 128).map (fun r => s.lsRead (16 * cl + o.core) (loadPlace isB o x b r) 16))
  exps := (List.range 128).map (fun r => if (wf f 11 2 == 1) = true then s.lsByte (16 * cl + o.core) (loadExps isB o f x + r) else 0)
  pois := (loadPrint isB o cl f x).any (fun e => (wordsOf e.2.1 e.2.2).any (fun w => s.wordPois (16 * cl + o.core) w))
/-- The state once a poisoned load has looked for undetected errors (R435). -/
def loadFound (s : State) : State :=
  if (loadHalf isB o cl f x s).pois then
    (s.findErr (16 * (16 * cl + o.core)) ((loadPrint isB o cl f x).flatMap (fun e => (wordsOf e.2.1 e.2.2).map (.lsw (16 * cl + o.core))))).2
  else s

/-! ### The halves that a load leaves (R303) -/

/-- A half put into its place. -/
def Cluster.putHalf (h : Half) (y : Cluster) : Cluster := { y with halves := mput y.halves (halfKey isB o.half) h }
/-- A load put into its half; the half that it overlaps is broken. -/
def Cluster.putLoad (h : Half) (y : Cluster) : Cluster :=
  let z := y.putHalf isB o h
  if 8 < wf f 4 5 then { z with halves := mput z.halves (halfKey isB true) h.broken }
  else if o.half then
    (match z.halves.find? (fun e => e.1 == halfKey isB false && decide (8 < e.2.planes.length)) with
    | some (_, a) => { z with halves := mput z.halves (halfKey isB false) a.broken }
    | none => z)
  else z
end

section
variable {isB : Bool} {o : XLoad} {cl : Nat} {f : W64} {h : Half} {y : Cluster}

theorem Cluster.putLoad_wide (hp : 8 < wf f 4 5) : y.putLoad isB o f h =
    { y with halves := mput (mput y.halves (halfKey isB o.half) h) (halfKey isB true) h.broken } := if_pos hp

section
variable (hp : wf f 4 5 ≤ 8)
include hp

theorem Cluster.putLoad_lower (hlow : o.half = false) : y.putLoad isB o f h = y.putHalf isB o h :=
  (if_neg (Nat.not_lt.2 hp)).trans (if_neg (by simp [hlow]))

section
variable (hup : o.half = true)
include hup

theorem Cluster.putLoad_upper (hnone : (y.putHalf isB o h).halves.find? (fun e => e.1 == halfKey isB false && decide (8 < e.2.planes.length)) = none) :
    y.putLoad isB o f h = y.putHalf isB o h := by
  simp only [Cluster.putLoad, if_neg (Nat.not_lt.2 hp), if_pos hup, hnone]

/-- Log entry 52: the lower half of a wide load that an upper half overwrites is broken. -/
theorem Cluster.putLoad_breaks {e : Nat × Half}
    (hsome : (y.putHalf isB o h).halves.find? (fun e => e.1 == halfKey isB false && decide (8 < e.2.planes.length)) = some e) : y.putLoad isB o f h =
    { y.putHalf isB o h with halves := mput (y.putHalf isB o h).halves (halfKey isB false) e.2.broken } := by
  simp only [Cluster.putLoad, if_neg (Nat.not_lt.2 hp), if_pos hup, hsome]
end
end
end

/-! ### The instruction -/

theorem sres_then {α β : Type} {m : SRes α} {a : α} {f : α → SRes β} {r : SRes β} (hm : m = .ok a) (hf : f a = r) : (m >>= f) = r := by
  rw [hm]
  exact hf
theorem sEnsure_then {α : Type} {b : Bool} {code : Nat} {f : Unit → SRes α} {r : SRes α} (hb : b = true) (hf : f () = r) : (sEnsure b code >>= f) = r :=
  sres_then (sEnsure_ok hb) hf

theorem matLoad_ok {isB : Bool} {o : XLoad} {cl : Nat} {g : Gang} {s s1 : State} {f : W64} {x : Cluster} (hf : g.fmtAt o.slot = f) (hx : s.cluster cl = x)
    (hkind : wf f 0 4 = b2n isB) (hplanes : wf f 4 5 ≠ 0) (hwide : 8 < wf f 4 5 → o.half = false) (hchunk : chunkIn o x < (if isB then x.kb else x.ka))
    (hcore : blockCore g cl o.core = true) (hrows : loadPlace isB o x (wf f 4 5 - 1) 127 + 16 ≤ 262144)
    (hexps : (wf f 11 2 == 1) = true → loadExps isB o f x + 128 ≤ 262144) (hhaz : s.matrixHaz cl (loadPrint isB o cl f x) [] = .ok s1) :
    matLoad isB o cl g s = .ok ((loadFound isB o cl f x s1).modCluster cl (Cluster.putLoad isB o f (loadHalf isB o cl f x s1))) := by
  have h15 : (wf f 0 4 == b2n isB && wf f 4 5 != 0 && !(decide (8 < wf f 4 5) && o.half)) = true := by
    simpa [hkind, hplanes, Decidable.or_iff_not_imp_left] using hwide
  have h14 : (decide (chunkIn o x < (if isB then x.kb else x.ka)) && blockCore g cl o.core && decide (loadPlace isB o x (wf f 4 5 - 1) 127 + 16 ≤ 262144) &&
      (!(wf f 11 2 == 1) || decide (loadExps isB o f x + 128 ≤ 262144))) = true := by
    rw [decide_eq_true hchunk, hcore, decide_eq_true hrows]
    cases hscale : (wf f 11 2 == 1)
    · rfl
    · simpa using hexps hscale
  subst hf hx
  exact sEnsure_then h15 (sEnsure_then h14 (sres_then hhaz rfl))

/-- Settles O34: a load reads what its slot, chunk and place name, and goes into its half. That an overlapped half is broken, named by no slot and with its
exponents kept, is the model's choice (log entry 52). -/
theorem operandLoads : Obligations.OperandLoads := by
  unfold Obligations.OperandLoads
  rintro isB o i hi s cl t hcur ⟨hkind, hplanes, hwide, hchunk, hcore, hrows, hexps, s1, hhaz, heff⟩
  refine (exec_matLoad hi s).trans (matrixI_ok hcur ?_)
  refine (matLoad_ok rfl rfl hkind hplanes hwide hchunk hcore hrows hexps hhaz.ok).trans (congrArg _ ?_)
  rcases heff with ⟨hp, rfl⟩ | ⟨hp, hlow, rfl⟩ | ⟨hp, hup, hnone, rfl⟩ | ⟨hp, hup, e, hsome, rfl⟩
  · exact State.modCluster_congr (Cluster.putLoad_wide hp)
  · exact State.modCluster_congr (Cluster.putLoad_lower hp hlow)
  · exact State.modCluster_congr (Cluster.putLoad_upper hp hup hnone)
  · exact State.modCluster_congr (Cluster.putLoad_breaks hp hup hsome)

end Sys2Proof.Machine

/-! # Control of the matrix stream (R304, R307, R308, R310, R316, R317)

Barriers and loops of the sequencer, case by case, and from these the obligation O37. -/

namespace Sys2Proof.Machine

theorem matrixI_wait {i : Instr} {adv : Bool} {body : Nat → Gang → State → SRes State} {s t : State} {cl : Nat} (h : s.cur = .seq cl)
    (hb : body cl (s.streamGang cl) s = .error (.wait t)) : matrixI i adv body s = .next t := by
  simp only [State.streamGang] at hb
  simp only [matrixI, h, hb]

section
variable {s : State} {cl : Nat} (hcur : s.cur = .seq cl)

/-! ### Numbered barriers (R308) -/

section
variable {n : Nat}

theorem State.seqTurn_ok (h : (s.nbar cl n).seq = false) : s.seqTurn cl n = .ok () := if_neg (by simp [h])

include hcur

theorem execXwait_completes (hphase : ∀ m ph, (s.cluster cl).seqPhase ≠ .waiting m ph) (hseq : (s.nbar cl n).seq = false)
    (hopen : (s.nbar cl n).phase < ((s.seqArrive cl n).nbar cl n).phase) :
    execXwait n s = .next (((s.seqArrive cl n).setSeqPhase cl .running).modCluster cl (fun x => { x with seqPc := x.seqPc + 2 })) := by
  refine matrixI_ok hcur ?_
  split
  case h_1 m ph heq => exact absurd heq (hphase m ph)
  case h_2 => exact sres_then (State.seqTurn_ok hseq) (if_pos hopen)

theorem execXwait_waits (hphase : ∀ m ph, (s.cluster cl).seqPhase ≠ .waiting m ph) (hseq : (s.nbar cl n).seq = false)
    (hopen : ((s.seqArrive cl n).nbar cl n).phase ≤ (s.nbar cl n).phase) :
    execXwait n s = .next ((s.seqArrive cl n).setSeqPhase cl (.waiting n (s.nbar cl n).phase)) := by
  refine matrixI_wait hcur ?_
  split
  case h_1 m ph heq => exact absurd heq (hphase m ph)
  case h_2 => exact sres_then (State.seqTurn_ok hseq) (if_neg (Nat.not_lt.2 hopen))

/-- A wait that stands is over when the barrier's phase has passed the one waited for. -/
theorem execXwait_resumes {m ph : Nat} (hphase : (s.cluster cl).seqPhase = .waiting m ph) (hopen : ph < (s.nbar cl n).phase) :
    execXwait n s = .next ((s.setSeqPhase cl .running).modCluster cl (fun x => { x with seqPc := x.seqPc + 2 })) := by
  refine matrixI_ok hcur ?_
  split
  case h_1 heq =>
    cases hphase.symm.trans heq
    exact if_pos hopen
  case h_2 hnot => exact absurd hphase (hnot m ph)

theorem execXpost_ok (hseq : (s.nbar cl n).seq = false) : execXpost n s =
    .next (((((s.seqArrive cl n).setSeqPhase cl .running).modCluster cl (fun x => { x with seq1 := x.seq1 + 1 })).pulse cl 1 n 1
      (.gang (s.streamGang cl).id)).modCluster cl (fun x => { x with seqPc := x.seqPc + 2 })) :=
  matrixI_ok hcur (sres_then (State.seqTurn_ok hseq) rfl)
end

/-! ### Loops (R307, R317) -/

include hcur

theorem execXloopBegin_ok {n : Nat} (hroom : (s.cluster cl).loops.length < 4) : execXloopBegin n s =
    .next ((s.modCluster cl (fun x => { x with loops := (n, 0) :: x.loops })).modCluster cl (fun x => { x with seqPc := x.seqPc + 2 })) :=
  matrixI_ok hcur (sEnsure_then (decide_eq_true hroom) rfl)

theorem execXloopBegin_fifth {n : Nat} (hfull : 4 ≤ (s.cluster cl).loops.length) : execXloopBegin n s = .next (s.seqStop cl 0x01 0) := by
  refine matrixI_stop hcur ?_
  rw [show decide ((s.cluster cl).loops.length < 4) = false from decide_eq_false (Nat.not_lt.2 hfull)]
  rfl

section
variable {off : BitVec 16} {n j : Nat} {rest : List (Nat × Nat)}

theorem execXloop_without (hnil : (s.cluster cl).loops = []) : execXloop off s = .next (s.seqStop cl 0x01 0) := by
  refine matrixI_stop hcur ?_
  simp only [hnil]
  rfl

theorem execXloop_last (hloops : (s.cluster cl).loops = (n, j) :: rest) (hlast : n ≤ j + 1) :
    execXloop off s = .next (s.setCluster cl { s.cluster cl with loops := rest, seqPc := (s.cluster cl).seqPc + 2 }) := by
  refine matrixI_ok (adv := false) hcur ?_
  simp only [hloops, if_neg (Nat.not_lt.2 hlast)]
  rfl

theorem execXloop_repeats {w : W64} {s1 : State} (hloops : (s.cluster cl).loops = (n, j) :: rest) (hmore : j + 1 < n)
    (heven : ((s.cluster cl).seqPc + off.toInt) % 2 = 0) (hword : s.seqWord cl (s.streamGang cl) ((s.cluster cl).seqPc + off.toInt) = .ok (w, s1))
    (hhdr : isHdr w = true) (hbegin : bitAt w 51 = true) :
    execXloop off s = .next (s1.modCluster cl (fun y =>
      { y with loops := (n, j + 1) :: rest, seqPc := ((s.cluster cl).seqPc + off.toInt).toNat, seqClause := none, seqHdr := false })) := by
  refine matrixI_ok (adv := false) hcur ?_
  simp only [hloops, if_pos hmore]
  exact sEnsure_then (beq_iff_eq.2 heven) (sres_then hword (sEnsure_then (Bool.and_eq_true_iff.2 ⟨hhdr, hbegin⟩) rfl))
end
end

/-- A tile that `xzero` took out reads as at reset in every cell. -/
theorem mget_xzero (x : Cluster) {n i : Nat} (h : i / 16384 = n) : mget Cell.reset (x.acc.filter (fun e => e.1 / 16384 != n)) i = Cell.reset := by
  rw [mget_filter_key Cell.reset x.acc (fun k => k / 16384 != n) i, if_neg (by simp [h])]

/-- Settles O37: each instruction in the cases that the clauses name. The stream goes on in the same clause after `xloop.begin` and after the last `xloop`. -/
theorem streamControl : Obligations.StreamControl := by
  unfold Obligations.StreamControl
  refine ⟨fun n => ?xzero, fun a n => ?xrow, fun a n => ?xcol, fun a b => ?xfmt, fun n => ?waitCompletes, fun n => ?waitResumes, fun n => ?waits,
    fun n => ?xpost, fun n => ?loopBegin, fun off => ?loopLast, fun off => ?loopRepeats, ?xend, fun n => ?fifth, fun off => ?without, fun x n i => mget_xzero x⟩
  case xzero =>
    rintro s cl t hcur rfl
    exact (exec_xzero s).trans (matrixI_ok hcur rfl)
  case xrow =>
    rintro s cl t hcur rfl
    exact (exec_xrow s).trans (matrixI_ok hcur rfl)
  case xcol =>
    rintro s cl t hcur rfl
    exact (exec_xcol s).trans (matrixI_ok hcur rfl)
  case xfmt =>
    rintro s cl t hcur rfl
    exact (exec_xfmt s).trans (matrixI_ok hcur rfl)
  case waitCompletes =>
    rintro s cl t hcur ⟨hphase, hseq, hopen, rfl⟩
    exact (exec_xwait s).trans (execXwait_completes hcur hphase hseq hopen)
  case waitResumes =>
    rintro s cl t hcur ⟨m, ph, hphase, hopen, rfl⟩
    exact (exec_xwait s).trans (execXwait_resumes hcur hphase hopen)
  case waits =>
    rintro s cl t hcur ⟨hphase, hseq, hopen, rfl⟩
    exact (exec_xwait s).trans (execXwait_waits hcur hphase hseq hopen)
  case xpost =>
    rintro s cl t hcur ⟨hseq, rfl⟩
    exact (exec_xpost s).trans (execXpost_ok hcur hseq)
  case loopBegin =>
    rintro s cl t hcur ⟨hroom, rfl⟩
    exact (exec_xloopBegin s).trans (execXloopBegin_ok hcur hroom)
  case loopLast =>
    rintro s cl t hcur ⟨n, j, rest, hloops, hlast, rfl⟩
    exact (exec_xloop s).trans (execXloop_last hcur hloops hlast)
  case loopRepeats =>
    rintro s cl t hcur ⟨n, j, rest, w, s1, hloops, hmore, heven, hword, hhdr, hbegin, rfl⟩
    exact (exec_xloop s).trans (execXloop_repeats hcur hloops hmore heven hword hhdr hbegin)
  case xend =>
    rintro s cl t hcur rfl
    exact (exec_xend s).trans (matrixI_ok hcur rfl)
  case fifth =>
    rintro s cl t hcur ⟨hfull, rfl⟩
    exact (exec_xloopBegin s).trans (execXloopBegin_fifth hcur hfull)
  case without =>
    rintro s cl t hcur ⟨hnil, rfl⟩
    exact (exec_xloop s).trans (execXloop_without hcur hnil)

end Sys2Proof.Machine

/-! # Command queues, their packets and windows (R319 to R324, R342, R473, R474)

What the front end does with the head of a queue, with the notify and signal windows and with a doorbell, and from these the obligation O43. -/

namespace Sys2Proof.Machine

section
variable {s u t : State} {p q d : Nat} {e : Queue}

/-! ### The head of a queue (R320, R473) -/

section
variable {kind : Nat} {f : Nat → Queue → List W64 → State → State}

theorem State.withHead_bad {r : Nat} (hdie : s.queueDie p q = some d) (hqueue : s.queue? d p q = some e) (hhead : s.headOf d p q = (.bad r, u)) :
    s.withHead p q kind f = u.stopQueue d p q r := by simp only [State.withHead, hdie, hqueue, hhead]

theorem State.HeadIs.withHead {ws : List W64} (h : s.HeadIs p q kind d e ws u) : s.withHead p q kind f = f d e ws u := by
  obtain ⟨hdie, hqueue, hhead, hkind⟩ := h
  simp only [State.withHead, hdie, hqueue, hhead, hkind, if_true]
end

/-- Every packet is processed by `withHead`, so a defective head stops its queue whatever the packet's event. -/
theorem exec_packet_of_bad {i : Instr} {r : Nat} (hi : i = .wait p q ∨ i = .signal p q ∨ i = .mark p q ∨ i = .edge p q ∨ i = .gang p q)
    (hdie : s.queueDie p q = some d) (hqueue : s.queue? d p q = some e) (hhead : s.headOf d p q = (.bad r, u)) :
    exec i s = .next (u.stopQueue d p q r) := by
  rcases hi with rfl | rfl | rfl | rfl | rfl
  · exact (exec_wait s).trans (congrArg _ (State.withHead_bad hdie hqueue hhead))
  · exact (exec_signal s).trans (congrArg _ (State.withHead_bad hdie hqueue hhead))
  · exact (exec_mark s).trans (congrArg _ (State.withHead_bad hdie hqueue hhead))
  · exact (exec_edge s).trans (congrArg _ (State.withHead_bad hdie hqueue hhead))
  · exact (exec_gang s).trans (congrArg _ (State.withHead_bad hdie hqueue hhead))

/-! ### WAIT (R322) -/

section
variable {ws : List W64} (hhead : s.HeadIs p q 2 d e ws u)
include hhead

theorem execWait_signalBad (hbad : u.signalBad p (wf (lrw ws 1) 0 12) = true) : execWait p q s = .next (u.stopQueue d p q 6) := by
  rw [execWait, hhead.withHead, if_pos hbad]

/-- A condition that once held while the queue was parked stands in `e.met` (log entry 56). -/
theorem execWait_holds (hgood : u.signalBad p (wf (lrw ws 1) 0 12) = false)
    (hholds : e.met = true ∨ condHolds (wf (lrw ws 0) 8 2) (u.signal p (wf (lrw ws 1) 0 12)) (lrw ws 2) = true) :
    execWait p q s = .next (u.advanceQ d p q) := by
  rw [execWait, hhead.withHead]
  simp only [hgood, Bool.or_eq_true, hholds, Bool.false_eq_true, if_false, if_true]

theorem execWait_parks (hgood : u.signalBad p (wf (lrw ws 1) 0 12) = false) (hmet : e.met = false)
    (hcond : condHolds (wf (lrw ws 0) 8 2) (u.signal p (wf (lrw ws 1) 0 12)) (lrw ws 2) = false) :
    execWait p q s = .next (u.parkQ d p q (fun y => { y with wait := some (wf (lrw ws 1) 0 12, wf (lrw ws 0) 8 2, lrw ws 2) })) := by
  rw [execWait, hhead.withHead]
  simp only [hgood, hmet, hcond, Bool.or_self, Bool.false_eq_true, if_false]
end

/-! ### SIGNAL and MARK (R322, R323) -/

/-- A packet with bit 8 waits for the queue's gangs to retire. -/
theorem waitsForGangs_eq_false {b : Bool} {l : List Nat} (h : b = false ∨ l = []) : (b && !l.isEmpty) = false := by
  rcases h with rfl | rfl
  · rfl
  · exact Bool.and_false b

theorem waitsForGangs_eq_true {b : Bool} {l : List Nat} (hb : b = true) (hl : l ≠ []) : (b && !l.isEmpty) = true := by simp [hb, hl]

section
variable {ws : List W64}

section
variable (hhead : s.HeadIs p q 3 d e ws u) (hgood : u.signalBad p (wf (lrw ws 1) 0 12) = false)
include hhead hgood

theorem execSignal_ok (hfree : bitAt (lrw ws 0) 8 = false ∨ e.gangs = []) : execSignal p q s =
    (let v := u.setSignal p (wf (lrw ws 1) 0 12) (if bitAt (lrw ws 0) 9 then u.signal p (wf (lrw ws 1) 0 12) + lrw ws 2 else lrw ws 2)
     .next ((if bitAt (lrw ws 0) 10 then v.emit (.msix p (wf (lrw ws 0) 20 12)) else v).advanceQ d p q)) := by
  rw [execSignal, hhead.withHead]
  simp only [hgood, waitsForGangs_eq_false hfree, Bool.false_eq_true, if_false]

theorem execSignal_held (hbit : bitAt (lrw ws 0) 8 = true) (hgangs : e.gangs ≠ []) : execSignal p q s = .next u := by
  rw [execSignal, hhead.withHead]
  simp only [hgood, waitsForGangs_eq_true hbit hgangs, Bool.false_eq_true, if_false, if_true]
end

section
variable (hhead : s.HeadIs p q 5 d e ws u)
include hhead

theorem execMark_ok {a : Nat} {b : W64} {x : Xl} {v : State} (hfree : bitAt (lrw ws 0) 8 = false ∨ e.gangs = [])
    (hwalk : u.walk d p (u.qAsid d p q) (lrw ws 1).toNat (accW 1) = .ok (a, b, x, v)) :
    execMark p q s = .next ((v.cwrite (some p) d x.pa 8 (v.gtcOf d)).advanceQ d p q) := by
  rw [execMark, hhead.withHead]
  simp only [waitsForGangs_eq_false hfree, hwalk, Bool.false_eq_true, if_false]

theorem execMark_held (hbit : bitAt (lrw ws 0) 8 = true) (hgangs : e.gangs ≠ []) : execMark p q s = .next u := by
  rw [execMark, hhead.withHead]
  simp only [waitsForGangs_eq_true hbit hgangs, if_true]
end
end

/-! ### EDGE (R176, R323) -/

theorem State.gang_gone_iff (s : State) (g : Nat) : (!(s.gang? g).any (fun x => !x.retired)) = true ↔ ∀ x, s.gang? g = some x → x.retired = true := by
  cases h : s.gang? g <;> simp

theorem execEdge_parks {ws : List W64} {rs : List (Nat × Nat)} {v : State} {gone : Bool} (hhead : s.HeadIs p q 4 d e ws u) (hedge : e.edge = false)
    (hranges : u.rangesPas d p (u.qAsid d p q) accValid (edgeRanges ws) = .ok (rs, v))
    (hgone : gone = true ↔ ∀ g, e.producer = some g → ∀ x, v.gang? g = some x → x.retired = true) :
    execEdge p q s = .next (v.parkQ d p q (fun y => { y with edge := true, flushing := gone, edgeR := edgeRanges ws })) := by
  rw [execEdge, hhead.withHead]
  cases hprod : e.producer with
  | none =>
    have hyes : gone = true := hgone.2 (fun g h => nomatch hprod.symm.trans h)
    simp only [hedge, hranges, hyes, Bool.false_eq_true, if_false]
  | some g =>
    have hwhen : gone = !(v.gang? g).any (fun x => !x.retired) := Bool.eq_iff_iff.2 (by
      simp only [hgone, State.gang_gone_iff, hprod, Option.some.injEq, forall_eq'])
    simp only [hedge, hranges, hwhen, Bool.false_eq_true, if_false]

section
variable {rs : List (Nat × Nat)} (hdie : s.queueDie p q = some d) (hqueue : s.queue? d p q = some e) (hflush : e.flushing = true)
  (hranges : s.rangesPas d p (s.qAsid d p q) accValid e.edgeR = .ok (rs, u))
include hdie hqueue hflush hranges

theorem State.flushEdge_of_no_producer (hgone : e.producer.bind s.gang? = none) :
    s.flushEdge p q = ((u.advanceQ d p q).modQueue d p q (fun y => { y with ranges := y.ranges ++ e.edgeR })).askQueue d p q := by
  simp only [State.flushEdge, hdie, hqueue, hflush, hranges, hgone, Bool.not_true, Bool.false_eq_true, if_false, List.flatMap_nil, List.foldl_nil]

theorem State.flushEdge_of_producer {x : Gang} (hprod : e.producer.bind s.gang? = some x) : s.flushEdge p q =
    ((((x.clusters.flatMap (fun l => (List.range 16).map (fun i => 16 * l + i))).foldl (fun v c => (v.l1Of c rs).foldl (fun w y => w.flushSector c y) v) u).advanceQ
      d p q).modQueue d p q (fun y => { y with ranges := y.ranges ++ e.edgeR })).askQueue d p q := by
  simp only [State.flushEdge, hdie, hqueue, hflush, hranges, hprod, Bool.not_true, Bool.false_eq_true, if_false]
end

/-! ### Mapping (R324) -/

theorem State.mapQueue_ok {out : Option Queue} (hdie : s.queueDie p q = some d) (hqueue : s.queue? d p q = some e) (hslot : s.slotFor d p = some out)
    (hunmapped : e.mapped = false) (hasked : e.asked ≠ 0) (hfirst : s.mapFirst d e = true) : s.mapQueue p q =
    (match out with
      | some x => s.modQueue d x.part x.q (fun y => { y with mapped := false })
      | none => s).modQueue d p q (fun y => { y with mapped := true, asked := 0 }) := by
  cases out <;>
    simp only [State.mapQueue, hdie, hqueue, hslot, hunmapped, beq_eq_false_iff_ne.2 hasked, hfirst, Bool.not_true, Bool.or_self, Bool.false_eq_true, if_false]

theorem State.mapQueue_of_no_slot (hdie : s.queueDie p q = some d) (hslot : s.slotFor d p = none) : s.mapQueue p q = s := by
  cases hqueue : s.queue? d p q <;> simp only [State.mapQueue, hdie, hslot, hqueue]

/-! ### Kicks and registration (R319, R321, R474) -/

theorem execNotifyKick_ok {v : W64} {ds : List Nat} (hdies : s.diesOf p = d :: ds) (hon : bitAt (s.cfg d p 0x020) 0 = true)
    (hreach : let pa := wf (s.cfg d p 0x020) 18 34 * 262144 + 64 * (q % 4096)
      s.reach (s.homeOf pa) pa = true) : execNotifyKick p q v s =
    (let pa := wf (s.cfg d p 0x020) 18 34 * 262144 + 64 * (q % 4096)
     .next ((((s.grabBlk (s.homeOf pa) (blkOf pa)).ckptHold pa).touchLine pa).notifyWrite d p (q % 4096) pa 8 v.toNat 255)) := by
  simp only [execNotifyKick, hdies, hon, hreach, Bool.not_true, Bool.false_eq_true, if_false]

theorem execQueueRemove_ok {ds : List Nat} (hdies : s.diesOf p = d :: ds) (hvalid : bitAt (s.qWord d p q 1) 0 = true)
    (hidle : bitAt (s.qWord d p q 3) 1 = true ∨ s.kick d p q ≤ s.rdIdx d p q ∧ bitAt (s.qWord d p q 3) 0 = false) :
    execQueueRemove p q s = .next (s.setQWord d p q 1 (setBit (s.qWord d p q 1) 0 false)) := by
  simp only [execQueueRemove, hdies, hvalid, Bool.not_eq_true', hidle, and_self, if_true]

/-! ### Doorbells (R342) -/

theorem State.ring_of_reset (h : ∃ d ∈ s.diesOf p, rstBusy (s.cfg d p 0x088) = true) : s.ring p = s := if_pos (List.any_eq_true.2 h)

/-- The doorbell of a partition that runs rings at the root of its first cluster. -/
theorem State.ring_of_resident {cl : Nat} {cls : List Nat} (hdies : ∀ d ∈ s.diesOf p, rstBusy (s.cfg d p 0x088) = false ∧ ∀ w ∈ (s.die d).swaps, w.part ≠ p)
    (hcls : s.clustersOf p = cl :: cls) : s.ring p = s.raiseIp (256 * cl) 2 := by
  have hidle : (s.diesOf p).any (fun d => rstBusy (s.cfg d p 0x088)) = false := List.any_eq_false.2 (fun d hd => Bool.eq_false_iff.1 (hdies d hd).1)
  have hnone : (s.diesOf p).findSome? (fun d => ((s.die d).swaps.find? (fun w => w.part == p)).map (fun w => (d, w))) = none :=
    List.findSome?_eq_none_iff.2 (fun d hd => Option.map_eq_none_iff.2 (List.find?_eq_none.2 (fun w hw => by simpa using (hdies d hd).2 w hw)))
  simp only [State.ring, hidle, hnone, hcls, Bool.false_eq_true, if_false]

/-- The doorbell of a partition that is swapped out waits in its context. -/
theorem State.ring_of_swapped {w : Swap} (hdies : s.diesOf p = [d]) (hidle : rstBusy (s.cfg d p 0x088) = false)
    (hswap : (s.die d).swaps.find? (fun v => v.part == p) = some w) : s.ring p =
    (let k := 256 * w.cls.headD 0
     s.modDie d (fun x => { x with swaps := x.swaps.map (fun v =>
      if v.part = p then { v with slots := mput v.slots k { mget Slot.reset v.slots k with ip := setBit (mget Slot.reset v.slots k).ip 2 true } } else v) })) := by
  simp only [State.ring, hdies, List.any_cons, List.any_nil, hidle, Bool.or_self, Bool.false_eq_true, if_false, List.findSome?_cons, hswap, Option.map_some]
end

/-- Settles O43: each event on its queue, packet or window. That a WAIT whose condition held once is taken (`met`, log entry 56) and that an EDGE parks its
queue even when its producer has retired (log entry 57) are the model's choices. -/
theorem queueEvents : Obligations.QueueEvents := by
  unfold Obligations.QueueEvents
  refine ⟨fun p q v => ?kick, fun p q ring ctl => ?register, fun p q => ?remove, fun p q => ?map, fun p q => ?noSlot, fun p q i hi => ?defect,
    fun p q => ?wait, fun p q => ?signal, fun p q i kd hi => ?held, fun p q => ?mark, fun p q => ?edge, fun p q => ?flushAlone, fun p q => ?flush,
    fun p idx v => ?windowSet, fun p idx v => ?windowAdd, fun p => ?rings, fun p => ?ringsOut, fun p => ?silent⟩
  case kick =>
    rintro s t ⟨d, ds, hdies, hon, hreach, rfl⟩
    exact (exec_notifyKick s).trans (execNotifyKick_ok hdies hon hreach)
  case register =>
    rintro s t ⟨d, ds, hdies, rfl⟩
    rw [exec_queueRegister, execQueueRegister, hdies]
  case remove =>
    rintro s t ⟨d, ds, hdies, hvalid, hidle, rfl⟩
    exact (exec_queueRemove s).trans (execQueueRemove_ok hdies hvalid hidle)
  case map =>
    rintro s t ⟨d, e, out, hdie, hqueue, hslot, hunmapped, hasked, hfirst, rfl⟩
    exact (exec_queueMap s).trans (congrArg _ (State.mapQueue_ok hdie hqueue hslot hunmapped hasked hfirst))
  case noSlot =>
    rintro s t ⟨d, hdie, hslot, rfl⟩
    exact (exec_queueMap _).trans (congrArg _ (State.mapQueue_of_no_slot hdie hslot))
  case defect =>
    rintro s t ⟨d, e, r, u, hdie, hqueue, hhead, rfl⟩
    exact exec_packet_of_bad hi hdie hqueue hhead
  case wait =>
    rintro s t ⟨d, e, ws, u, hhead, ⟨hbad, rfl⟩ | ⟨hgood, hholds, rfl⟩ | ⟨hgood, hmet, hcond, rfl⟩⟩
    · exact (exec_wait s).trans (execWait_signalBad hhead hbad)
    · exact (exec_wait s).trans (execWait_holds hhead hgood hholds)
    · exact (exec_wait s).trans (execWait_parks hhead hgood hmet hcond)
  case signal =>
    rintro s t ⟨d, e, ws, u, hhead, hgood, hfree, rfl⟩
    exact (exec_signal s).trans (execSignal_ok hhead hgood hfree)
  case held =>
    rintro s t ⟨d, e, ws, hhead, hgood, hbit, hgangs⟩
    rcases hi with ⟨rfl, rfl⟩ | ⟨rfl, rfl⟩
    · exact (exec_signal s).trans (execSignal_held hhead (hgood rfl) hbit hgangs)
    · exact (exec_mark s).trans (execMark_held hhead hbit hgangs)
  case mark =>
    rintro s t ⟨d, e, ws, u, a, b, x, v, hhead, hfree, hwalk, rfl⟩
    exact (exec_mark s).trans (execMark_ok hhead hfree hwalk)
  case edge =>
    rintro s t ⟨d, e, ws, u, rs, v, hhead, hedge, hranges, gone, hgone, rfl⟩
    exact (exec_edge s).trans (execEdge_parks hhead hedge hranges hgone)
  case flushAlone =>
    rintro s t ⟨d, e, rs, u, hdie, hqueue, hflush, hgone, hranges, rfl⟩
    exact (exec_edgeFlushComplete s).trans (congrArg _ (State.flushEdge_of_no_producer hdie hqueue hflush hranges hgone))
  case flush =>
    rintro s t ⟨d, e, g, x, rs, u, hdie, hqueue, hflush, hprod, hgang, hranges, rfl⟩
    exact (exec_edgeFlushComplete s).trans (congrArg _ (State.flushEdge_of_producer hdie hqueue hflush hranges (by rw [hprod]; exact hgang)))
  case windowSet =>
    rintro s t ⟨hgood, rfl⟩
    rw [exec_signalWindowSet, execSignalWindowSet, if_neg (Bool.eq_false_iff.1 hgood)]
  case windowAdd =>
    rintro s t ⟨hgood, rfl⟩
    rw [exec_signalWindowAdd, execSignalWindowAdd, if_neg (Bool.eq_false_iff.1 hgood)]
  case rings =>
    rintro s t ⟨cl, cls, hdies, hcls, rfl⟩
    exact (exec_doorbell s).trans (congrArg _ (State.ring_of_resident hdies hcls))
  case ringsOut =>
    rintro s t ⟨d, w, hdies, hidle, hswap, rfl⟩
    exact (exec_doorbell s).trans (congrArg _ (State.ring_of_swapped hdies hidle hswap))
  case silent =>
    rintro s t ⟨hbusy, rfl⟩
    exact (exec_doorbell _).trans (congrArg _ (State.ring_of_reset hbusy))

end Sys2Proof.Machine

/-! # Partitions and management registers (R338, R339, R341 to R347, R478 to R481)

Creation, reset, dissolution, swap out and resume of a partition case by case, and from these the obligation O52. -/

namespace Sys2Proof.Machine

section
variable {s : State} {d p : Nat}

/-! ### Creation and dissolution (R347) -/

theorem State.liveSet_ok (hdead : bitAt (s.cfg d p 0) 0 = false) (hfree : ∀ c ∈ s.maskCls d p, s.clFree p c = true) (hlevel : wf (s.cfg d p 0x0C0) 0 8 = 1)
    (hfeat : ∀ n, n < 6 → s.cfg d p (0x0C8 + 8 * n) = 0) : s.liveSet d p = s.setCfg d p 0 1 := by
  have hall : (s.maskCls d p).all (s.clFree p) = true := List.all_eq_true.2 hfree
  have hnone : (List.range 6).all (fun n => s.cfg d p (0x0C8 + 8 * n) == 0) = true :=
    List.all_eq_true.2 (fun n hn => beq_iff_eq.2 (hfeat n (List.mem_range.1 hn)))
  simp only [State.liveSet, hdead, hall, hlevel, hnone, bne_self_eq_false, Bool.not_true, Bool.or_self, Bool.false_eq_true, if_false]

theorem State.liveSet_of_refused (h : bitAt (s.cfg d p 0) 0 = true ∨ (∃ c ∈ s.maskCls d p, s.clFree p c = false) ∨ wf (s.cfg d p 0x0C0) 0 8 ≠ 1) :
    s.liveSet d p = s := by
  refine if_pos ?_
  rcases h with hlive | ⟨c, hc, htaken⟩ | hlevel
  · simp only [hlive, Bool.true_or]
  · have hall : (s.maskCls d p).all (s.clFree p) = false := List.all_eq_false.2 ⟨c, hc, Bool.eq_false_iff.1 htaken⟩
    simp only [hall, Bool.not_false, Bool.true_or, Bool.or_true]
  · simp only [bne_iff_ne.2 hlevel, Bool.true_or, Bool.or_true]

theorem State.liveClear_ok (hlive : bitAt (s.cfg d p 0) 0 = true) (hdone : bitAt (s.cfg d p 0x088) 2 = true) (hreset : rstBusy (s.cfg d p 0x088) = false)
    (hswap : swpBusy (s.cfg d p 0x090) = false) : s.liveClear d p = (s.setCfg d p 0 0).dropHeld d p := by
  simp only [State.liveClear, hlive, hdone, hreset, hswap, Bool.not_false, Bool.and_self, if_true]

theorem State.liveClear_of_refused (h : bitAt (s.cfg d p 0x088) 2 = false ∨ rstBusy (s.cfg d p 0x088) = true) : s.liveClear d p = s := by
  refine if_neg ?_
  rcases h with h | h <;> simp [h]

/-! ### Reset (R343, R478) -/

/-- No checkpoint and no migration runs, so that a reset has none to end. -/
def State.NoCopying (s : State) : Prop := s.ckpt = none ∧ ∀ e, (s.die e).migr = none

theorem State.NoCopying.modDie {f : Die → Die} {i : Nat} (h : s.NoCopying) (hf : ∀ x, (f x).migr = x.migr) : (s.modDie i f).NoCopying := by
  obtain ⟨hckpt, hmigr⟩ := h
  refine ⟨hckpt, fun e => ?_⟩
  by_cases he : e = i
  · rw [he, State.modDie_die, hf, hmigr]
  · rw [State.modDie_die_ne _ _ he, hmigr]

theorem State.NoCopying.modCfg {f : W64 → W64} {off : Nat} (h : s.NoCopying) : (s.modCfg d p off f).NoCopying := h.modDie (fun _ => rfl)

theorem State.NoCopying.foldl {α : Type} {f : State → α → State} (hf : ∀ t a, t.NoCopying → (f t a).NoCopying) (l : List α) (h : s.NoCopying) : (l.foldl f s).NoCopying := by
  induction l generalizing s with
  | nil => exact h
  | cons a l ih => exact ih (hf s a h)

/-- The migrations of a partition's pages that a reset would end. -/
theorem State.NoCopying.abortMigr (h : s.NoCopying) (l : List Nat) :
    l.foldl (fun t e => match (t.die e).migr.bind (fun m => t.chain 4 m.pte) with
      | some (_, _, q) => if q = p then t.abortMigr e else t
      | none => t) s = s := by
  induction l with
  | nil => rfl
  | cons e l ih =>
    rw [List.foldl_cons, h.2 e]
    exact ih

theorem State.startReset_of_refused (h : bitAt (s.cfg d p 0) 0 = false ∨ rstBusy (s.cfg d p 0x088) = true) : s.startReset d p = s := by
  refine if_pos ?_
  rcases h with h | h <;> simp [h]

/-- One die of a reset that begins: BUSY, the swap it ends, the time, and the clusters of a partition that was swapped out (log entry 82). -/
def State.beginReset (s : State) (p : Nat) (t : State) (e : Nat) : State :=
  ((t.modCfg e p 0x088 (fun r => setBit r 1 true)).modCfg e p 0x090 (fun r => if swpBusy r then natW (3 * 2 ^ 62) else setBit r 4 false)).modDie e (fun x => { x with
    resetPart := mput x.resetPart p (s.gtcOf e)
    heldMask := if s.away e p && !(s.maskCls e p).all (s.clFree p) then mput x.heldMask p 0 else x.heldMask })

theorem State.NoCopying.beginReset {t : State} {e : Nat} (h : t.NoCopying) : (s.beginReset p t e).NoCopying :=
  State.NoCopying.modDie (State.NoCopying.modCfg (State.NoCopying.modCfg h)) (fun _ => rfl)

theorem State.startReset_ok (hlive : bitAt (s.cfg d p 0) 0 = true) (hidle : rstBusy (s.cfg d p 0x088) = false) (hcopies : s.NoCopying) :
    s.startReset d p = ((s.diesOf p).foldl (s.beginReset p) s).resetSteps p (s.diesOf p) (s.clustersOf p) := by
  have hbegun : ((s.diesOf p).foldl (s.beginReset p) s).NoCopying := hcopies.foldl (fun t e h => State.NoCopying.beginReset h) _
  have hckpt : (((s.diesOf p).foldl (s.beginReset p) s).ckBusy && ((s.diesOf p).foldl (s.beginReset p) s).ckpt.isSome) = false := by
    rw [hbegun.1]
    exact Bool.and_false _
  unfold State.beginReset at hbegun hckpt ⊢
  simp only [State.startReset, hlive, hidle, Bool.not_true, Bool.or_self, Bool.false_eq_true, if_false]
  rw [if_neg (Bool.eq_false_iff.1 hckpt)]
  exact congrArg (fun u => State.resetSteps u p (s.diesOf p) (s.clustersOf p)) (hbegun.abortMigr (List.range 4))

theorem State.resetDone_of_idle (h : ∀ d ∈ s.diesOf p, rstBusy (s.cfg d p 0x088) = false) : s.resetDone p = s := by
  have hnone : (s.diesOf p).filter (fun d => rstBusy (s.cfg d p 0x088)) = [] := List.filter_eq_nil_iff.2 (fun d hd => Bool.eq_false_iff.1 (h d hd))
  rw [State.resetDone, hnone]
  rfl

/-- The end of a reset of a partition of one die. -/
theorem State.resetDone_ok (hdies : s.diesOf p = [d]) (hbusy : rstBusy (s.cfg d p 0x088) = true) : s.resetDone p =
    (let u := (s.modCfg d p 0x088 (fun r => setBit (setBit r 1 false) 2 true)).logDie d
      (evEntry (srcOfFw d) 0x74 4 0 (natW (s.gtcOf d - mget 0 (s.die d).resetPart p)) (natW p))
     (coresOf ((u.clustersOf p).filter (fun c => (u.cluster c).enabled && dieOfCl c == d))).foldl (fun v c => v.startCore c) u) := by
  have hone : (s.diesOf p).filter (fun d => rstBusy (s.cfg d p 0x088)) = [d] := by simp [hdies, hbusy]
  simp only [State.resetDone, hone, List.isEmpty_cons, Bool.false_eq_true, if_false, List.foldl_cons, List.foldl_nil, List.contains_cons, List.contains_nil,
    Bool.or_false]

/-! ### Swap out (R338, R479, R480) -/

theorem State.hotPages_setFree (s : State) (n d p : Nat) : ({ s with free := n } : State).hotPages d p = s.hotPages d p := rfl
theorem State.cfsBytes_setFree (s : State) (n d p : Nat) : ({ s with free := n } : State).cfsBytes d p = s.cfsBytes d p := rfl

section
variable {v : W64} (hgo : bitAt v 0 = true) (hout : bitAt v 1 = false) (hswap : swpBusy (s.cfg d p 0x090) = false)
include hgo hout hswap

theorem execPswctlSwapOut_of_refused (h : bitAt (s.cfg d p 0) 0 = false ∨ s.swappedOut d p = true ∨ rstBusy (s.cfg d p 0x088) = true) :
    execPswctlSwapOut d p v s = .next (s.refuseSwap d p 1 (s.ctxSize ((s.clustersOf p).filter (fun c => dieOfCl c == d)))) := by
  have hrefused : (!bitAt (s.cfg d p 0) 0 || s.swappedOut d p || rstBusy (s.cfg d p 0x088)) = true := by rcases h with h | h | h <;> simp [h]
  simp only [execPswctlSwapOut, hgo, hout, State.swapOut, hswap, hrefused, Bool.not_false, Bool.and_self, Bool.false_eq_true, if_false, if_true]

/-- The swap out of a partition of one die that has no gang: no launch has to complete its release. -/
theorem execPswctlSwapOut_ok (hlive : bitAt (s.cfg d p 0) 0 = true) (hin : s.swappedOut d p = false) (hreset : rstBusy (s.cfg d p 0x088) = false)
    (hdies : s.diesOf p = [d]) (hgangs : ∀ g ∈ s.gangs, g.part ≠ p)
    (hroom : s.noRoom d p (s.ctxSize ((s.clustersOf p).filter (fun c => dieOfCl c == d))) = false) : execPswctlSwapOut d p v s =
    (let f := fitPages (s.hotPages d p) (s.cfsBytes d p - s.ctxSize ((s.clustersOf p).filter (fun c => dieOfCl c == d)))
     .next (((f.2.foldl (fun v i => v.forceOut d p i) ({ s with free := s.free + 96 } : State)).saveDie d p f.1).modCfg d p 0x090
      (fun r => setF (setBit r 3 true) 62 2 0))) := by
  have hnone : s.gangs.filter (fun g => g.part == p && !g.released && !g.retired) = [] :=
    List.filter_eq_nil_iff.2 (fun g hg => by simp [hgangs g hg])
  have hrefused : ¬ (!bitAt (s.cfg d p 0) 0 || s.swappedOut d p || rstBusy (s.cfg d p 0x088)) = true := by simp [hlive, hin, hreset]
  have hfind : (s.diesOf p).find? (fun e => s.noRoom e p (s.ctxSize ((s.clustersOf p).filter (fun c => dieOfCl c == e)))) = none := by
    simp [hdies, hroom]
  rw [execPswctlSwapOut, if_pos (by simp [hgo, hout]), State.swapOut, if_neg (Bool.eq_false_iff.1 hswap), if_neg hrefused]
  simp only [hfind]
  simp only [hnone, hdies, List.map_nil, List.foldl_nil, List.foldl_cons, State.hotPages_setFree, State.cfsBytes_setFree]
end

/-! ### Resume (R338, R479, R481) -/

section
variable {v : W64} (hgo : bitAt v 0 = true) (hback : bitAt v 1 = true) (hswap : swpBusy (s.cfg d p 0x090) = false)
include hgo hback hswap

theorem execPswctlResume_of_refused (h : s.swappedOut d p = false ∨ rstBusy (s.cfg d p 0x088) = true) :
    execPswctlResume d p v s = .next (s.refuseSwap d p 1 0) := by
  have hrefused : (!s.swappedOut d p || rstBusy (s.cfg d p 0x088)) = true := by rcases h with h | h <;> simp [h]
  simp only [execPswctlResume, hgo, hback, State.resume, hswap, hrefused, Bool.true_or, Bool.and_self, Bool.false_eq_true, if_false, if_true]

/-- The resume of a partition of one die onto free clusters, as many as its context has. -/
theorem execPswctlResume_ok {w : Swap} (hout : s.swappedOut d p = true) (hreset : rstBusy (s.cfg d p 0x088) = false) (hdies : s.diesOf p = [d])
    (hctx : s.swapOf d p = some w) (hfree : ∀ c ∈ s.maskCls d p, s.clFree p c = true) (hlen : (s.maskCls d p).length = w.cls.length) :
    execPswctlResume d p v s =
    (let f (c : Nat) : Nat := (((w.cls.zip (s.maskCls d p)).find? (fun e => e.1 == c)).map (·.2)).getD c
     let u := ((s.loadDie d f w).dropHeld d p).modCfg d p 0x090 (fun r => setF (setBit r 3 true) 62 2 0)
     .next { u with
      gangs := u.gangs.map (fun g => if g.part = p then g.ren f else g)
      saves := u.saves.map (fun x => if x.part = p then { x with slot := renSlot f x.slot, addr := renArea f x.addr, img := x.img.ren f } else x) }) := by
  have hall : (s.maskCls d p).all (s.clFree p) = true := List.all_eq_true.2 hfree
  simp only [execPswctlResume, hgo, hback, State.resume, hswap, hout, hreset, hdies, hctx, hall, hlen, List.all_cons, List.all_nil, Option.map_some,
    Option.getD_some, beq_self_eq_true, Bool.not_true, Bool.or_self, Bool.and_self, Bool.false_eq_true, if_false, if_true, List.flatMap_cons, List.flatMap_nil,
    List.append_nil, List.foldl_cons, List.foldl_nil]
end

/-- The end of a swap or resume of a partition of one die. -/
theorem State.swapDone_ok (hdies : s.diesOf p = [d]) (hbusy : swpBusy (s.cfg d p 0x090) = true) : s.swapDone p =
    (if s.swappedOut d p then s else s.dropHeld d p).modCfg d p 0x090 (fun r => setBit (setBit r 3 false) 4 (!bitAt r 4)) := by
  have hone : (s.diesOf p).filter (fun d => swpBusy (s.cfg d p 0x090)) = [d] := by simp [hdies, hbusy]
  rw [State.swapDone, hone, List.foldl_cons, List.foldl_nil]

/-! ### Management registers (R6, R341, R346) -/

theorem State.mgmtWrite_of_ignored {off : Nat} {v : W64} (h : (s.die d).stopped = true ∨ (s.die d).isolated = true ∨ off % 8 ≠ 0) : s.mgmtWrite d off v = s :=
  if_pos (or_assoc.2 h).symm

section
variable {v : W64} (hstop : (s.die d).stopped = false) (hiso : (s.die d).isolated = false)
include hstop hiso

/-- A register whose write has no effect but on its writable bits. -/
theorem State.mgmtWrite_plain {off : Nat} (h : off = 0x08 ∨ off = 0x18 ∨ off = 0x20 ∨ off = 0x40 ∨ off = 0x48) :
    s.mgmtWrite d off v = s.setMg d off (v &&& mgmtMask off) := by
  rcases h with rfl | rfl | rfl | rfl | rfl <;> simp [State.mgmtWrite, hstop, hiso, mgmtMask]

/-- Offset 0x38: a write of the time of the next snapshot may take it at once. -/
theorem State.mgmtWrite_snapTime : s.mgmtWrite d 0x38 v = (s.setMg d 0x38 v).armedNow d := by
  simp [State.mgmtWrite, hstop, hiso]
end
end

/-- Settles O52: each event on its partition or register. That a reset, swap or resume acts at GO and only its BUSY ends later (log entry 66), DETAIL 0 of a refused resume (log entry 67)
and the clusters of a partition that is reset while swapped out (log entry 82) are the model's choices. -/
theorem partitionEvents : Obligations.PartitionEvents := by
  unfold Obligations.PartitionEvents
  refine ⟨fun d p => happens_next exec_pctlLiveSet ?create, fun d p => happens_next exec_pctlLiveSet ?notCreated, fun d p => happens_next exec_pctlLiveClear ?dissolve,
    fun d p => happens_next exec_pctlLiveClear ?notDissolved, fun d p => happens_next exec_prstctlGo ?noReset, fun d p => happens_next exec_prstctlGo ?reset,
    fun d p => happens_next exec_prstctlDoneClear ?doneClear, fun p => happens_next exec_partitionResetComplete ?noneDone,
    fun p => happens_next exec_partitionResetComplete ?resetDone, fun d p v => ?noSwap, fun d p v => ?swap, fun d p v => ?noResume, fun d p v => ?resume,
    fun p => happens_next exec_swapComplete ?swapDone, fun d off v => happens_next exec_mgmtRegisterWrite ?ignored,
    fun d off v => happens_next exec_mgmtRegisterWrite ?plain, fun d v => happens_next exec_mgmtRegisterWrite ?snapTime⟩
  case create =>
    rintro s t ⟨hdead, hfree, hlevel, hfeat, rfl⟩
    exact State.liveSet_ok hdead hfree hlevel hfeat
  case notCreated =>
    rintro s t ⟨h, rfl⟩
    exact State.liveSet_of_refused h
  case dissolve =>
    rintro s t ⟨hlive, hdone, hreset, hswap, rfl⟩
    exact State.liveClear_ok hlive hdone hreset hswap
  case notDissolved =>
    rintro s t ⟨h, rfl⟩
    exact State.liveClear_of_refused h
  case noReset =>
    rintro s t ⟨h, rfl⟩
    exact State.startReset_of_refused h
  case reset =>
    rintro s t ⟨hlive, hidle, hckpt, hmigr, rfl⟩
    exact State.startReset_ok hlive hidle ⟨hckpt, hmigr⟩
  case doneClear =>
    rintro s t rfl
    rfl
  case noneDone =>
    rintro s t ⟨h, rfl⟩
    exact State.resetDone_of_idle h
  case resetDone =>
    rintro s t ⟨d, hdies, hbusy, rfl⟩
    exact State.resetDone_ok hdies hbusy
  case noSwap =>
    rintro s t ⟨hgo, hout, hswap, h, rfl⟩
    exact (exec_pswctlSwapOut s).trans (execPswctlSwapOut_of_refused hgo hout hswap h)
  case swap =>
    rintro s t ⟨hgo, hout, hswap, hlive, hin, hreset, hdies, hgangs, hroom, rfl⟩
    exact (exec_pswctlSwapOut s).trans (execPswctlSwapOut_ok hgo hout hswap hlive hin hreset hdies hgangs hroom)
  case noResume =>
    rintro s t ⟨hgo, hback, hswap, h, rfl⟩
    exact (exec_pswctlResume s).trans (execPswctlResume_of_refused hgo hback hswap h)
  case resume =>
    rintro s t ⟨w, hgo, hback, hswap, hout, hreset, hdies, hctx, hfree, hlen, rfl⟩
    exact (exec_pswctlResume s).trans (execPswctlResume_ok hgo hback hswap hout hreset hdies hctx hfree hlen)
  case swapDone =>
    rintro s t ⟨d, hdies, hbusy, rfl⟩
    exact State.swapDone_ok hdies hbusy
  case ignored =>
    rintro s t ⟨h, rfl⟩
    exact State.mgmtWrite_of_ignored h
  case plain =>
    rintro s t ⟨hstop, hiso, hoff, rfl⟩
    exact State.mgmtWrite_plain hstop hiso hoff
  case snapTime =>
    rintro s t ⟨hstop, hiso, rfl⟩
    exact State.mgmtWrite_snapTime hstop hiso

end Sys2Proof.Machine

/-! # The encoder and the decoder agree (R178 to R190)

One lemma for each shape of encoding: the fields fit, and the shape's decoder reads the operands back. From these, the obligation O58. -/

namespace Sys2Proof
-- One proof at a time: elaborated side by side, the proofs of the whole text need more memory than the check gives.
set_option Elab.async false

/-- Every word of `e` has fields that fit, and `dec` takes it to `i`. -/
def Coded (e : Option Fields) (dec : Fields → Dec Instr) (i : Instr) : Prop := ∀ f, e = some f → f.ok = true ∧ dec f = .ok i

/-! ### The decoder's checks -/

@[simp] theorem zeros_nil : zeros [] = .ok () := rfl
@[simp] theorem zeros_cons_zero (l : List Nat) : zeros (0 :: l) = zeros l := rfl
theorem wfOr_of_wellFormed {i : Instr} (h : WellFormed i = true) : wfOr i = .ok i := by simp [wfOr, h]
@[simp] theorem opt_some {α : Type} (a : α) (e : Illegal) : opt (some a) e = .ok a := rfl
@[simp] theorem ok_bind {α β : Type} (a : α) (g : α → Dec β) : (Except.ok a >>= g) = g a := rfl
@[simp] theorem need_true (e : Illegal) : need true e = .ok () := rfl

section
variable {op fn d a b c p m x t s r : Nat}

@[simp] theorem noPred_zero : noPred ⟨op, fn, d, a, b, c, 0, m⟩ = .ok () := rfl
theorem predOf_code {q : Pred} (h : q.ok = true) : predOf ⟨op, fn, d, a, b, c, q.code, m⟩ = .ok q := by simp [predOf, pred_ofCode h]
@[simp] theorem xmod_mkMod (ht : t < 16) (hs : s < 2) (hr : r < 8) : (⟨op, fn, d, a, b, c, p, mkMod x t s r⟩ : Fields).xmod = x := mkMod_xmod ht hs hr
@[simp] theorem tyc_mkMod (ht : t < 16) (hs : s < 2) (hr : r < 8) : (⟨op, fn, d, a, b, c, p, mkMod x t s r⟩ : Fields).tyc = t := mkMod_ty ht hs hr
@[simp] theorem satb_mkMod (hs : s < 2) (hr : r < 8) : (⟨op, fn, d, a, b, c, p, mkMod x t s r⟩ : Fields).satb = s := mkMod_sat hs hr
@[simp] theorem rndc_mkMod (hr : r < 8) : (⟨op, fn, d, a, b, c, p, mkMod x t s r⟩ : Fields).rndc = r := mkMod_rnd hr
@[simp] theorem tyOf_mkMod {ty : Ty} (hs : s < 2) (hr : r < 8) : tyOf ⟨op, fn, d, a, b, c, p, mkMod x ty.code s r⟩ = .ok ty := by
  have := ty_lt ty
  rw [tyOf, tyc_mkMod (by omega) hs hr, ty_ofCode, opt_some]
@[simp] theorem rndOf_mkMod {rnd : Rnd} : rndOf ⟨op, fn, d, a, b, c, p, mkMod x t s rnd.code⟩ = .ok rnd := by
  have := rnd_lt rnd
  rw [rndOf, rndc_mkMod (by omega), rnd_ofCode, opt_some]
/-- XMOD[15], above a field of seven bits. -/
theorem sbsOf_mkMod {q : Bool} (hx : x < 128) (ht : t < 16) (hs : s < 2) (hr : r < 8) :
    sbsOf ⟨op, fn, d, a, b, c, p, mkMod (128 * b2n q + x) t s r⟩ = q := by
  have : mkMod (128 * b2n q + x) t s r / 32768 = b2n q := by simp only [mkMod]; omega
  rw [sbsOf, this, b2n_beq]
@[simp] theorem sbsOf_mkMod_zero {q : Bool} (ht : t < 16) (hs : s < 2) (hr : r < 8) :
    sbsOf ⟨op, fn, d, a, b, c, p, mkMod (128 * b2n q) t s r⟩ = q := sbsOf_mkMod (x := 0) (by omega) ht hs hr
end

/-! ### Ranges of the operands -/

theorem lt_of_wrS {n : Nat} (h : wrS n = true) : n < 256 := by simp [wrS] at h; omega
theorem lt_of_rdS {n : Nat} (h : rdS n = true) : n < 255 := by simp [rdS] at h; omega
theorem lt_of_okV {n : Nat} (h : okV n = true) : n < 255 := by simp [okV] at h; omega
theorem lt_of_okVT {ty : Ty} {n : Nat} (h : okVT ty n = true) : n < 256 := by simp [okVT] at h; omega
theorem lt_of_okVSz {sz n : Nat} (h : okVSz sz n = true) : n < 256 := by simp [okVSz] at h; omega
theorem lt_of_okM {n : Nat} (h : okM n = true) : n < 8 := by simpa [okM] using h
theorem lt_of_wrM {n : Nat} (h : wrM n = true) : n < 256 := by simp [wrM] at h; omega
theorem lt_of_okP {n : Nat} (h : okP n = true) : n < 256 := by simp [okP] at h; omega
theorem lt_of_wrP {n : Nat} (h : wrP n = true) : n < 256 := by simp [wrP] at h; omega
theorem lt_of_feReg {n : Nat} (h : feReg n = true) : n < 64 := by simp [feReg] at h; omega
theorem lt_of_okB2 {sbs : Bool} {ty : Ty} {n : Nat} (h : okB2 sbs ty n = true) : n < 256 := by
  cases sbs
  · exact lt_of_okVT h
  · exact (lt_of_rdS h).trans (by decide)
theorem okXS_lt {x : Option Nat} (h : okXS x = true) : ∀ n, x = some n → n < 255 := by
  rintro n rfl
  exact lt_of_rdS h
theorem okXV_lt {x : Option Nat} (h : okXV x = true) : ∀ n, x = some n → n < 255 := by
  rintro n rfl
  exact lt_of_okV h
theorem xCode_lt {x : Option Nat} (h : ∀ n, x = some n → n < 255) : xCode x < 256 := by
  cases x with
  | none => decide
  | some n => exact (h n rfl).trans (by decide)

/-! ### Immediates and offsets -/

theorem bitVec_split (w hi mid : Nat) (v : BitVec w) :
    BitVec.ofNat w (v.toNat / 2 ^ (mid + hi) * 2 ^ (mid + hi) + v.toNat / 2 ^ mid % 2 ^ hi * 2 ^ mid + v.toNat % 2 ^ mid) = v := by
  have h1 : v.toNat / 2 ^ (mid + hi) = v.toNat / 2 ^ mid / 2 ^ hi := by rw [pow_add, Nat.div_div_eq_div_mul]
  have h2 : v.toNat / 2 ^ mid / 2 ^ hi * 2 ^ (mid + hi) + v.toNat / 2 ^ mid % 2 ^ hi * 2 ^ mid = v.toNat / 2 ^ mid * 2 ^ mid := by
    calc _ = (2 ^ hi * (v.toNat / 2 ^ mid / 2 ^ hi) + v.toNat / 2 ^ mid % 2 ^ hi) * 2 ^ mid := by ring
      _ = _ := by rw [Nat.div_add_mod]
  rw [h1, h2, Nat.div_add_mod', BitVec.ofNat_toNat, BitVec.setWidth_eq]
/-- IMM of the I format, with a number of four bits below it. -/
theorem immOf_eI {op fn d a n : Nat} {imm : BitVec 28} (h : n < 16) :
    immOf ⟨op, fn, d, a, imm.toNat / 2 ^ 20, imm.toNat / 2 ^ 12 % 256, 0, imm.toNat % 4096 * 16 + n⟩ = imm := by
  have : (imm.toNat % 4096 * 16 + n) / 16 = imm.toNat % 4096 := by omega
  rw [immOf]
  simp only [this]
  exact bitVec_split 28 8 12 imm
/-- OFF of the B format. -/
theorem off32_eB {op fn d a : Nat} {off : BitVec 32} :
    off32 ⟨op, fn, d, a, off.toNat / 2 ^ 24, off.toNat / 2 ^ 16 % 256, 0, off.toNat % 65536⟩ = off := bitVec_split 32 8 16 off
theorem eI_mod_16 {x n : Nat} (h : n < 16) : (x * 16 + n) % 16 = n := by omega


/-! ### Fields of which the opcode is known -/

theorem forall_op {op : Nat} {P : Fields → Prop} (h : ∀ fn d a b c p m, P ⟨op, fn, d, a, b, c, p, m⟩) : ∀ f : Fields, f.op = op → P f := by
  rintro ⟨⟩ ⟨⟩
  exact h ..
theorem forall_op_fn {op fn : Nat} {P : Fields → Prop} (h : ∀ d a b c p m, P ⟨op, fn, d, a, b, c, p, m⟩) : ∀ f : Fields, f.op = op → f.fn = fn → P f := by
  rintro ⟨⟩ ⟨⟩ ⟨⟩
  exact h ..
theorem forall_op_fn_m {op fn : Nat} {P : Fields → Prop} (h : ∀ d a b c p, P ⟨op, fn, d, a, b, c, p, 0⟩) :
    ∀ f : Fields, f.op = op → f.fn = fn → f.m = 0 → P f := by
  rintro ⟨⟩ ⟨⟩ ⟨⟩ ⟨⟩
  exact h ..

/-! ### Shapes of the R format (R203 to R207, R217, R218, R263) -/

section
variable {op fn : Nat} {dec : Fields → Dec Instr}

theorem coded_RTS {o : RTS} {k : RTS → Instr} (hk : WellFormed (k o) = true) (ho : o.ok = true) (hop : op < 256 := by decide)
    (hdec : ∀ f, f.op = op → dec f = decRTS f k := by exact forall_op fun _ _ _ _ _ _ _ => rfl) : Coded (eRTS op o) dec (k o) := by
  rintro _ ⟨⟩
  simp only [RTS.ok, Bool.and_eq_true] at ho
  obtain ⟨⟨⟨hd, ha⟩, hb⟩, -⟩ := ho
  have := lt_of_wrS hd; have := lt_of_rdS ha; have := lt_of_rdS hb; have := ty_lt o.ty; have := b2n_lt o.sat
  rw [hdec _ rfl]
  constructor
  · simp (disch := omega) [Fields.ok, mkMod_lt]; omega
  · simp (disch := omega) [decRTS, wfOr_of_wellFormed hk]
theorem coded_RT {tys : Ty → Bool} {o : RT} {k : RT → Instr} (hk : WellFormed (k o) = true) (ho : o.ok tys = true) (hop : op < 256 := by decide)
    (hdec : ∀ f, f.op = op → dec f = decRT f k := by exact forall_op fun _ _ _ _ _ _ _ => rfl) : Coded (eRT op o) dec (k o) := by
  rintro _ ⟨⟩
  simp only [RT.ok, Bool.and_eq_true] at ho
  obtain ⟨⟨⟨hd, ha⟩, hb⟩, -⟩ := ho
  have := lt_of_wrS hd; have := lt_of_rdS ha; have := lt_of_rdS hb; have := ty_lt o.ty
  rw [hdec _ rfl]
  constructor
  · simp (disch := omega) [Fields.ok, mkMod_lt]; omega
  · simp (disch := omega) [decRT, wfOr_of_wellFormed hk]
theorem coded_RT1 {tys : Ty → Bool} {o : RT1} {k : RT1 → Instr} (hk : WellFormed (k o) = true) (ho : o.ok tys = true) (hop : op < 256 := by decide)
    (hdec : ∀ f, f.op = op → dec f = decRT1 f k := by exact forall_op fun _ _ _ _ _ _ _ => rfl) : Coded (eRT1 op o) dec (k o) := by
  rintro _ ⟨⟩
  simp only [RT1.ok, Bool.and_eq_true] at ho
  obtain ⟨⟨hd, ha⟩, -⟩ := ho
  have := lt_of_wrS hd; have := lt_of_rdS ha; have := ty_lt o.ty
  rw [hdec _ rfl]
  constructor
  · simp (disch := omega) [Fields.ok, mkMod_lt]; omega
  · simp (disch := omega) [decRT1, wfOr_of_wellFormed hk]
/-- Three register fields and MOD zero. -/
theorem coded_3 {o : R3} {k : R3 → Instr} (hk : WellFormed (k o) = true) (hd : o.d < 256) (ha : o.a < 256) (hb : o.b < 256) (hop : op < 256 := by decide)
    (hfn : fn < 16 := by decide) (hdec : ∀ f, f.op = op → f.fn = fn → dec f = dec3 f k := by exact forall_op_fn fun _ _ _ _ _ _ => rfl) : Coded (e3 op fn o) dec (k o) := by
  rintro _ ⟨⟩
  rw [hdec _ rfl rfl]
  simp [Fields.ok, dec3, wfOr_of_wellFormed hk, hd, ha, hb, hop, hfn]
theorem coded_2 {o : R2} {k : R2 → Instr} (hk : WellFormed (k o) = true) (hd : o.d < 256) (ha : o.a < 256) (hop : op < 256 := by decide)
    (hfn : fn < 16 := by decide) (hdec : ∀ f, f.op = op → f.fn = fn → f.m = 0 → dec f = dec2 f k := by exact forall_op_fn_m fun _ _ _ _ _ => rfl) : Coded (e2 op fn o) dec (k o) := by
  rintro _ ⟨⟩
  rw [hdec _ rfl rfl rfl]
  simp [Fields.ok, dec2, wfOr_of_wellFormed hk, hd, ha, hop, hfn]
theorem coded_D {d : Nat} {k : Nat → Instr} (hk : WellFormed (k d) = true) (hd : d < 256) (hop : op < 256 := by decide)
    (hfn : fn < 16 := by decide) (hdec : ∀ f, f.op = op → f.fn = fn → dec f = decD f k := by exact forall_op_fn fun _ _ _ _ _ _ => rfl) : Coded (eR op fn d 0 0 0 0) dec (k d) := by
  rintro _ ⟨⟩
  rw [hdec _ rfl rfl]
  simp [Fields.ok, decD, wfOr_of_wellFormed hk, hd, hop, hfn]
theorem coded_A {a : Nat} {k : Nat → Instr} (hk : WellFormed (k a) = true) (ha : rdS a = true) (hop : op < 256 := by decide)
    (hfn : fn < 16 := by decide) (hdec : ∀ f, f.op = op → f.fn = fn → dec f = decA f k := by exact forall_op_fn fun _ _ _ _ _ _ => rfl) : Coded (eR op fn 0 a 0 0 0) dec (k a) := by
  rintro _ ⟨⟩
  have := lt_of_rdS ha
  rw [hdec _ rfl rfl]
  constructor
  · simp [Fields.ok, hop, hfn]; omega
  · simp [decA, wfOr_of_wellFormed hk]
theorem coded_AB {a b : Nat} {k : Nat → Nat → Instr} (hk : WellFormed (k a b) = true) (ha : a < 256) (hb : rdS b = true) (hop : op < 256 := by decide)
    (hfn : fn < 16 := by decide) (hdec : ∀ f, f.op = op → f.fn = fn → dec f = decAB f k := by exact forall_op_fn fun _ _ _ _ _ _ => rfl) : Coded (eR op fn 0 a b 0 0) dec (k a b) := by
  rintro _ ⟨⟩
  have := lt_of_rdS hb
  rw [hdec _ rfl rfl]
  constructor
  · simp [Fields.ok, hop, hfn, ha]; omega
  · simp [decAB, wfOr_of_wellFormed hk]
theorem coded_0 {i : Instr} (hop : op < 256 := by decide) (hfn : fn < 16 := by decide)
    (hdec : ∀ f, f.op = op → f.fn = fn → dec f = dec0 f i := by exact forall_op_fn fun _ _ _ _ _ _ => rfl) : Coded (eR op fn 0 0 0 0 0) dec i := by
  rintro _ ⟨⟩
  rw [hdec _ rfl rfl]
  simp [Fields.ok, dec0, hop, hfn]
theorem coded_R2N {o : R2N} {k : R2N → Instr} (hk : WellFormed (k o) = true) (hd : o.d < 256) (ha : o.a < 256) (hn : o.n < 256) (hop : op < 256 := by decide)
    (hdec : ∀ f, f.op = op → dec f = decR2N f k := by exact forall_op fun _ _ _ _ _ _ _ => rfl) : Coded (eR2N op o) dec (k o) := by
  rintro _ ⟨⟩
  rw [hdec _ rfl]
  constructor
  · simp [Fields.ok, hop, hd, ha]; omega
  · simp [decR2N, Fields.xmod, wfOr_of_wellFormed hk]

/-! ### The I format (R204) -/

theorem coded_ITS {o : ITS} {k : ITS → Instr} (hk : WellFormed (k o) = true) (ho : o.ok = true) (hop : op < 256 := by decide)
    (hdec : ∀ f, f.op = op → dec f = decITS f k := by exact forall_op fun _ _ _ _ _ _ _ => rfl) : Coded (eI op o.d o.a o.imm (8 * b2n o.sat + o.ty.codeI)) dec (k o) := by
  rintro _ ⟨⟩
  simp only [ITS.ok, Bool.and_eq_true] at ho
  obtain ⟨⟨hd, ha⟩, hty⟩ := ho
  have := lt_of_wrS hd; have := lt_of_rdS ha; have := tyI_lt o.ty; have hs := b2n_lt o.sat; have := o.imm.isLt
  rw [hdec _ rfl]
  constructor
  · simp [Fields.ok]; omega
  · generalize hn : 8 * b2n o.sat + o.ty.codeI = n
    have hgap : (o.imm.toNat % 4096 * 16 + n) / 4 % 2 = 0 := by omega
    have hcode : (o.imm.toNat % 4096 * 16 + n) % 4 = o.ty.codeI := by omega
    have hsat : (o.imm.toNat % 4096 * 16 + n) / 8 % 2 = b2n o.sat := by omega
    simp only [decITS, hgap, hcode, hsat, immOf_eI (show n < 16 by omega), ty_ofI hty, b2n_beq]
    simp [wfOr_of_wellFormed hk]
theorem coded_IT {o : IT} {k : IT → Instr} (hk : WellFormed (k o) = true) (ho : o.ok = true) (hop : op < 256 := by decide)
    (hdec : ∀ f, f.op = op → dec f = decIT f k := by exact forall_op fun _ _ _ _ _ _ _ => rfl) : Coded (eIT op o) dec (k o) := by
  rintro _ ⟨⟩
  simp only [IT.ok, Bool.and_eq_true] at ho
  obtain ⟨⟨⟨hd, ha⟩, hty⟩, -⟩ := ho
  have := lt_of_wrS hd; have := lt_of_rdS ha; have := tyI_lt o.ty; have := o.imm.isLt
  rw [hdec _ rfl]
  constructor
  · simp [Fields.ok]; omega
  · have hgap : (o.imm.toNat % 4096 * 16 + o.ty.codeI) / 4 % 4 = 0 := by omega
    have hcode : (o.imm.toNat % 4096 * 16 + o.ty.codeI) % 4 = o.ty.codeI := by omega
    simp only [decIT, hgap, hcode, immOf_eI (show o.ty.codeI < 16 by omega), ty_ofI hty]
    simp [wfOr_of_wellFormed hk]
theorem coded_I2 {o : I2} {k : I2 → Instr} (hk : WellFormed (k o) = true) (ho : o.ok = true) (hop : op < 256 := by decide)
    (hdec : ∀ f, f.op = op → dec f = decI2 f k := by exact forall_op fun _ _ _ _ _ _ _ => rfl) : Coded (eI2 op o) dec (k o) := by
  rintro _ ⟨⟩
  simp only [I2.ok, Bool.and_eq_true] at ho
  obtain ⟨hd, ha⟩ := ho
  have := lt_of_wrS hd; have := lt_of_rdS ha; have := o.imm.isLt
  rw [hdec _ rfl]
  constructor
  · simp [Fields.ok]; omega
  · simp only [decI2, immOf_eI (show 0 < 16 by omega), Nat.mul_add_mod_self_right]
    simp [wfOr_of_wellFormed hk]
end
theorem coded_li {d : Nat} {imm : BitVec 28} (h : WellFormed (.li d imm) = true) : Coded (encodeFields (.li d imm)) decodeFields (.li d imm) := by
  rintro _ ⟨⟩
  have := lt_of_wrS h; have := imm.isLt
  constructor
  · simp [Fields.ok]; omega
  · show decLi _ = _
    simp only [decLi, immOf_eI (show 0 < 16 by omega), Nat.mul_add_mod_self_right]
    simp [wfOr_of_wellFormed h]
theorem coded_lih {o : IPos} (h : WellFormed (.lih o) = true) : Coded (encodeFields (.lih o)) decodeFields (.lih o) := by
  rintro _ ⟨⟩
  have ho : (_ && _ && _) = true := h
  simp only [Bool.and_eq_true, decide_eq_true_eq] at ho
  obtain ⟨⟨hd, ha⟩, hp⟩ := ho
  have := lt_of_wrS hd; have := lt_of_rdS ha; have := o.imm.isLt
  constructor
  · simp [Fields.ok]; omega
  · show decLih _ = _
    have hpos : (o.imm.toNat % 4096 * 16 + o.pos) % 16 = o.pos := by omega
    simp only [decLih, immOf_eI (show o.pos < 16 by omega), hpos]
    simp [wfOr_of_wellFormed h]

/-! ### Scalar floating point (R205 to R207) -/

section
variable {op : Nat} {dec : Fields → Dec Instr}

theorem coded_F3 {o : F3} {k : F3 → Instr} (hk : WellFormed (k o) = true) (ho : o.ok = true) (hop : op < 256 := by decide)
    (hdec : ∀ f, f.op = op → dec f = decF3 f k := by exact forall_op fun _ _ _ _ _ _ _ => rfl) : Coded (eF3 op o) dec (k o) := by
  rintro _ ⟨⟩
  simp only [F3.ok, Bool.and_eq_true] at ho
  obtain ⟨⟨⟨⟨hd, ha⟩, hb⟩, -⟩, -⟩ := ho
  have := lt_of_wrS hd; have := lt_of_rdS ha; have := lt_of_rdS hb; have := ty_lt o.ty; have := rnd_lt o.rnd
  rw [hdec _ rfl]
  constructor
  · simp (disch := omega) [Fields.ok, mkMod_lt]; omega
  · simp (disch := omega) [decF3, wfOr_of_wellFormed hk]
end
theorem coded_ffma {o : F4} (h : WellFormed (.ffma o) = true) : Coded (encodeFields (.ffma o)) decodeFields (.ffma o) := by
  rintro _ ⟨⟩
  have ho : o.ok = true := h
  simp only [F4.ok, Bool.and_eq_true] at ho
  obtain ⟨⟨⟨⟨⟨hd, ha⟩, hb⟩, hc⟩, -⟩, -⟩ := ho
  have := lt_of_wrS hd; have := lt_of_rdS ha; have := lt_of_rdS hb; have := lt_of_rdS hc; have := ty_lt o.ty; have := rnd_lt o.rnd
  constructor
  · simp (disch := omega) [Fields.ok, mkMod_lt]; omega
  · show decF4 _ .ffma = _
    simp (disch := omega) [decF4, wfOr_of_wellFormed h]
theorem coded_fsqrt {o : F2} (h : WellFormed (.fsqrt o) = true) : Coded (encodeFields (.fsqrt o)) decodeFields (.fsqrt o) := by
  rintro _ ⟨⟩
  have ho : o.ok = true := h
  simp only [F2.ok, Bool.and_eq_true] at ho
  obtain ⟨⟨⟨hd, ha⟩, -⟩, -⟩ := ho
  have := lt_of_wrS hd; have := lt_of_rdS ha; have := ty_lt o.ty; have := rnd_lt o.rnd
  constructor
  · simp (disch := omega) [Fields.ok, mkMod_lt]; omega
  · show decF2 _ .fsqrt = _
    simp (disch := omega) [decF2, wfOr_of_wellFormed h]
theorem coded_fcmp {o : FCmp} (h : WellFormed (.fcmp o) = true) : Coded (encodeFields (.fcmp o)) decodeFields (.fcmp o) := by
  rintro _ ⟨⟩
  have ho : o.ok = true := h
  simp only [FCmp.ok, Bool.and_eq_true] at ho
  obtain ⟨⟨⟨hd, ha⟩, hb⟩, -⟩ := ho
  have := lt_of_wrS hd; have := lt_of_rdS ha; have := lt_of_rdS hb; have := ty_lt o.ty; have := cond_lt o.cond
  constructor
  · simp (disch := omega) [Fields.ok, mkMod_lt]; omega
  · show decFCmp _ = _
    simp (disch := omega) [decFCmp, Nat.div_eq_of_lt, Nat.mod_eq_of_lt, wfOr_of_wellFormed h]
theorem coded_fcvt {o : FCvt} (h : WellFormed (.fcvt o) = true) : Coded (encodeFields (.fcvt o)) decodeFields (.fcvt o) := by
  rintro _ ⟨⟩
  have ho : o.ok = true := h
  simp only [FCvt.ok, Bool.and_eq_true] at ho
  obtain ⟨⟨⟨⟨⟨⟨hd, ha⟩, -⟩, -⟩, -⟩, -⟩, -⟩ := ho
  have := lt_of_wrS hd; have := lt_of_rdS ha; have := ty_lt o.dty; have := ty_lt o.sty; have := rnd_lt o.rnd
  constructor
  · simp (disch := omega) [Fields.ok, mkMod_lt]; omega
  · show decFCvt _ = _
    simp (disch := omega) [decFCvt, Nat.div_eq_of_lt, Nat.mod_eq_of_lt, wfOr_of_wellFormed h]

/-! ### The B format (R178, R208) -/

section
variable {op : Nat} {dec : Fields → Dec Instr}

theorem coded_B0 {off : BitVec 32} {k : BitVec 32 → Instr} (hop : op < 256 := by decide)
    (hdec : ∀ f, f.op = op → dec f = decB0 f k := by exact forall_op fun _ _ _ _ _ _ _ => rfl) : Coded (eB op 0 0 off) dec (k off) := by
  rintro _ ⟨⟩
  have := off.isLt
  rw [hdec _ rfl]
  constructor
  · simp [Fields.ok]; omega
  · simp only [decB0, off32_eB]
    simp
theorem coded_B1 {o : B1} {k : B1 → Instr} (hk : WellFormed (k o) = true) (ha : o.a < 256) (hop : op < 256 := by decide)
    (hdec : ∀ f, f.op = op → dec f = decB1 f k := by exact forall_op fun _ _ _ _ _ _ _ => rfl) : Coded (eB1 op o) dec (k o) := by
  rintro _ ⟨⟩
  have := o.off.isLt
  rw [hdec _ rfl]
  constructor
  · simp [Fields.ok]; omega
  · simp only [decB1, off32_eB]
    simp [wfOr_of_wellFormed hk]
theorem coded_B2 {o : B2} {k : B2 → Instr} (hk : WellFormed (k o) = true) (ho : (rdS o.a && rdS o.b) = true) (hop : op < 256 := by decide)
    (hdec : ∀ f, f.op = op → dec f = decB2 f k := by exact forall_op fun _ _ _ _ _ _ _ => rfl) : Coded (eB2 op o) dec (k o) := by
  rintro _ ⟨⟩
  simp only [Bool.and_eq_true] at ho
  obtain ⟨ha, hb⟩ := ho
  have := o.off.isLt; have := lt_of_rdS ha; have := lt_of_rdS hb
  rw [hdec _ rfl]
  constructor
  · simp [Fields.ok]; omega
  · simp only [decB2, off32_eB]
    simp [wfOr_of_wellFormed hk]
end

/-! ### Lane instructions (R213, R231 to R242) -/

section
variable {op : Nat} {dec : Fields → Dec Instr}

theorem coded_VCmp {tys : Ty → Bool} {o : VCmp} {k : VCmp → Instr} (hk : WellFormed (k o) = true) (ho : o.ok tys = true) (hop : op < 256 := by decide)
    (hdec : ∀ f, f.op = op → dec f = decVCmp f k := by exact forall_op fun _ _ _ _ _ _ _ => rfl) : Coded (eVCmp op o) dec (k o) := by
  rintro _ ⟨⟩
  simp only [VCmp.ok, Bool.and_eq_true] at ho
  obtain ⟨⟨⟨⟨hd, ha⟩, hb⟩, -⟩, hp⟩ := ho
  have := lt_of_wrM hd; have := lt_of_okVT ha; have := lt_of_okVT hb; have := pred_lt hp; have := ty_lt o.ty; have := cond_lt o.cond
  rw [hdec _ rfl]
  constructor
  · simp (disch := omega) [Fields.ok, mkMod_lt]; omega
  · simp (disch := omega) [decVCmp, predOf_code hp, Nat.div_eq_of_lt, Nat.mod_eq_of_lt, wfOr_of_wellFormed hk]
theorem coded_AP {a : Nat} {q : Pred} {k : Nat → Pred → Instr} (hk : WellFormed (k a q) = true) (ho : (okVT .s64 a && q.ok) = true) (hop : op < 256 := by decide)
    (hdec : ∀ f, f.op = op → dec f = decAP f k := by exact forall_op fun _ _ _ _ _ _ _ => rfl) : Coded (eP op 0 0 a 0 0 q 0) dec (k a q) := by
  rintro _ ⟨⟩
  simp only [Bool.and_eq_true] at ho
  obtain ⟨ha, hp⟩ := ho
  have := lt_of_okVT ha; have := pred_lt hp
  rw [hdec _ rfl]
  constructor
  · simp [Fields.ok]; omega
  · simp [decAP, predOf_code hp, wfOr_of_wellFormed hk]
theorem coded_VTS {o : VTS} {k : VTS → Instr} (hk : WellFormed (k o) = true) (ho : o.ok = true) (hop : op < 256 := by decide)
    (hdec : ∀ f, f.op = op → dec f = decVTS f k := by exact forall_op fun _ _ _ _ _ _ _ => rfl) : Coded (eVTS op o) dec (k o) := by
  rintro _ ⟨⟩
  simp only [VTS.ok, Bool.and_eq_true] at ho
  obtain ⟨⟨⟨⟨hd, ha⟩, hb⟩, -⟩, hp⟩ := ho
  have := lt_of_okVT hd; have := lt_of_okVT ha; have := lt_of_okB2 hb; have := pred_lt hp
  have := ty_lt o.ty; have := b2n_lt o.sat; have := b2n_lt o.sbs
  rw [hdec _ rfl]
  constructor
  · simp (disch := omega) [Fields.ok, mkMod_lt]; omega
  · simp (disch := omega) [decVTS, predOf_code hp, wfOr_of_wellFormed hk]
theorem coded_VT {tys : Ty → Bool} {o : VT} {k : VT → Instr} (hk : WellFormed (k o) = true) (ho : o.ok tys = true) (hop : op < 256 := by decide)
    (hdec : ∀ f, f.op = op → dec f = decVT f k := by exact forall_op fun _ _ _ _ _ _ _ => rfl) : Coded (eVT op o) dec (k o) := by
  rintro _ ⟨⟩
  simp only [VT.ok, Bool.and_eq_true] at ho
  obtain ⟨⟨⟨⟨hd, ha⟩, hb⟩, -⟩, hp⟩ := ho
  have := lt_of_okVT hd; have := lt_of_okVT ha; have := lt_of_okB2 hb; have := pred_lt hp; have := ty_lt o.ty; have := b2n_lt o.sbs
  rw [hdec _ rfl]
  constructor
  · simp (disch := omega) [Fields.ok, mkMod_lt]; omega
  · simp (disch := omega) [decVT, predOf_code hp, wfOr_of_wellFormed hk]
theorem coded_VT1 {o : VT1} {k : VT1 → Instr} (hk : WellFormed (k o) = true) (hd : o.d < 256) (ha : o.a < 256) (hp : o.p.ok = true) (hop : op < 256 := by decide)
    (hdec : ∀ f, f.op = op → dec f = decVT1 f k := by exact forall_op fun _ _ _ _ _ _ _ => rfl) : Coded (eVT1 op o) dec (k o) := by
  rintro _ ⟨⟩
  have := pred_lt hp; have := ty_lt o.ty
  rw [hdec _ rfl]
  constructor
  · simp (disch := omega) [Fields.ok, mkMod_lt]; omega
  · simp (disch := omega) [decVT1, predOf_code hp, wfOr_of_wellFormed hk]
theorem coded_VTN {o : VTN} {k : VTN → Instr} (hk : WellFormed (k o) = true) (ho : o.ok = true) (hop : op < 256 := by decide)
    (hdec : ∀ f, f.op = op → dec f = decVTN f k := by exact forall_op fun _ _ _ _ _ _ _ => rfl) : Coded (eVTN op o) dec (k o) := by
  rintro _ ⟨⟩
  simp only [VTN.ok, Bool.and_eq_true, decide_eq_true_eq] at ho
  obtain ⟨⟨⟨⟨⟨hd, ha⟩, -⟩, hn⟩, -⟩, hp⟩ := ho
  have hw : o.ty.width ≤ 64 := by cases o.ty <;> decide
  have := lt_of_okVT hd; have := lt_of_okVT ha; have := pred_lt hp; have := ty_lt o.ty
  have hbit : mkMod o.n o.ty.code 0 0 / 32768 = 0 := by simp only [mkMod]; omega
  rw [hdec _ rfl]
  constructor
  · simp (disch := omega) [Fields.ok, mkMod_lt]; omega
  · simp (disch := omega) [decVTN, hbit, predOf_code hp, Nat.mod_eq_of_lt, wfOr_of_wellFormed hk]
theorem coded_VF3 {tys : Ty → Bool} {o : VF3} {k : VF3 → Instr} (hk : WellFormed (k o) = true) (ho : o.ok tys = true) (hop : op < 256 := by decide)
    (hdec : ∀ f, f.op = op → dec f = decVF3 f k := by exact forall_op fun _ _ _ _ _ _ _ => rfl) : Coded (eVF3 op o) dec (k o) := by
  rintro _ ⟨⟩
  simp only [VF3.ok, Bool.and_eq_true] at ho
  obtain ⟨⟨⟨⟨hd, ha⟩, hb⟩, -⟩, hp⟩ := ho
  have := lt_of_okVT hd; have := lt_of_okVT ha; have := lt_of_okB2 hb; have := pred_lt hp
  have := ty_lt o.ty; have := rnd_lt o.rnd; have := b2n_lt o.sbs
  rw [hdec _ rfl]
  constructor
  · simp (disch := omega) [Fields.ok, mkMod_lt]; omega
  · simp (disch := omega) [decVF3, predOf_code hp, wfOr_of_wellFormed hk]
theorem coded_VF4 {tys : Ty → Bool} {o : VF4} {k : VF4 → Instr} (hk : WellFormed (k o) = true) (ho : o.ok tys = true) (hop : op < 256 := by decide)
    (hdec : ∀ f, f.op = op → dec f = decVF4 f k := by exact forall_op fun _ _ _ _ _ _ _ => rfl) : Coded (eVF4 op o) dec (k o) := by
  rintro _ ⟨⟩
  simp only [VF4.ok, Bool.and_eq_true] at ho
  obtain ⟨⟨⟨⟨⟨hd, ha⟩, hb⟩, hc⟩, -⟩, hp⟩ := ho
  have := lt_of_okVT hd; have := lt_of_okVT ha; have := lt_of_okB2 hb; have := lt_of_okVT hc; have := pred_lt hp
  have := ty_lt o.ty; have := rnd_lt o.rnd; have := b2n_lt o.sbs
  rw [hdec _ rfl]
  constructor
  · simp (disch := omega) [Fields.ok, mkMod_lt]; omega
  · simp (disch := omega) [decVF4, predOf_code hp, wfOr_of_wellFormed hk]
theorem coded_VF2 {tys : Ty → Bool} {rs : Rnd → Bool} {o : VF2} {k : VF2 → Instr} (hk : WellFormed (k o) = true) (ho : o.ok tys rs = true)
    (hop : op < 256 := by decide) (hdec : ∀ f, f.op = op → dec f = decVF2 f k := by exact forall_op fun _ _ _ _ _ _ _ => rfl) : Coded (eVF2 op o) dec (k o) := by
  rintro _ ⟨⟩
  simp only [VF2.ok, Bool.and_eq_true] at ho
  obtain ⟨⟨⟨⟨hd, ha⟩, -⟩, -⟩, hp⟩ := ho
  have := lt_of_okVT hd; have := lt_of_okVT ha; have := pred_lt hp; have := ty_lt o.ty; have := rnd_lt o.rnd
  rw [hdec _ rfl]
  constructor
  · simp (disch := omega) [Fields.ok, mkMod_lt]; omega
  · simp (disch := omega) [decVF2, predOf_code hp, wfOr_of_wellFormed hk]
end

theorem coded_lexit {p : Pred} (h : WellFormed (.lexit p) = true) : Coded (encodeFields (.lexit p)) decodeFields (.lexit p) := by
  rintro _ ⟨⟩
  have hp : p.ok = true := h
  have := pred_lt hp
  constructor
  · simp [Fields.ok]; omega
  · show (do
      zeros [0, 0, 0, 0, 0, 0]
      let q ← predOf _
      wfOr (.lexit q)) = _
    simp [predOf_code hp, wfOr_of_wellFormed h]
theorem coded_vmad {o : VMad} (h : WellFormed (.vmad o) = true) : Coded (encodeFields (.vmad o)) decodeFields (.vmad o) := by
  rintro _ ⟨⟩
  have ho : o.ok = true := h
  simp only [VMad.ok, Bool.and_eq_true] at ho
  obtain ⟨⟨⟨⟨⟨hd, ha⟩, hb⟩, hc⟩, -⟩, hp⟩ := ho
  have := lt_of_okVT hd; have := lt_of_okVT ha; have := lt_of_okB2 hb; have := lt_of_okVT hc; have := pred_lt hp
  have := ty_lt o.ty; have := b2n_lt o.sat; have := b2n_lt o.sbs
  constructor
  · simp (disch := omega) [Fields.ok, mkMod_lt]; omega
  · show decVMad _ = _
    simp (disch := omega) [decVMad, predOf_code hp, wfOr_of_wellFormed h]
theorem coded_vabs {o : VT1S} (h : WellFormed (.vabs o) = true) : Coded (encodeFields (.vabs o)) decodeFields (.vabs o) := by
  rintro _ ⟨⟩
  have ho : o.ok = true := h
  simp only [VT1S.ok, Bool.and_eq_true] at ho
  obtain ⟨⟨⟨hd, ha⟩, -⟩, hp⟩ := ho
  have := lt_of_okVT hd; have := lt_of_okVT ha; have := pred_lt hp; have := ty_lt o.ty; have := b2n_lt o.sat
  constructor
  · simp (disch := omega) [Fields.ok, mkMod_lt]; omega
  · show decVabs _ = _
    simp (disch := omega) [decVabs, predOf_code hp, wfOr_of_wellFormed h]
theorem coded_vsel {o : VSel} (h : WellFormed (.vsel o) = true) : Coded (encodeFields (.vsel o)) decodeFields (.vsel o) := by
  rintro _ ⟨⟩
  have ho : o.ok = true := h
  simp only [VSel.ok, Bool.and_eq_true] at ho
  obtain ⟨⟨⟨⟨⟨hd, ha⟩, hb⟩, hc⟩, -⟩, hp⟩ := ho
  have := lt_of_okVT hd; have := lt_of_okVT ha; have := lt_of_okVT hb; have := lt_of_okM hc; have := pred_lt hp; have := ty_lt o.ty
  constructor
  · simp (disch := omega) [Fields.ok, mkMod_lt]; omega
  · show decVSel _ = _
    simp (disch := omega) [decVSel, predOf_code hp, wfOr_of_wellFormed h]
theorem coded_vext {o : VExt} (h : WellFormed (.vext o) = true) : Coded (encodeFields (.vext o)) decodeFields (.vext o) := by
  rintro _ ⟨⟩
  have ho : o.ok = true := h
  simp only [VExt.ok, Bool.and_eq_true] at ho
  obtain ⟨⟨⟨hd, ha⟩, hb⟩, -⟩ := ho
  have := lt_of_wrS hd; have := lt_of_okVT ha; have := lt_of_rdS hb; have := ty_lt o.ty; have := b2n_lt o.live
  constructor
  · simp (disch := omega) [Fields.ok, mkMod_lt]; omega
  · show decVExt _ = _
    simp (disch := omega) [decVExt, wfOr_of_wellFormed h]
theorem coded_vins {o : VIns} (h : WellFormed (.vins o) = true) : Coded (encodeFields (.vins o)) decodeFields (.vins o) := by
  rintro _ ⟨⟩
  have ho : o.ok = true := h
  simp only [VIns.ok, Bool.and_eq_true] at ho
  obtain ⟨⟨⟨⟨hd, ha⟩, hb⟩, -⟩, hp⟩ := ho
  have := lt_of_okVT hd; have := lt_of_rdS ha; have := lt_of_rdS hb; have := pred_lt hp; have := ty_lt o.ty
  constructor
  · simp (disch := omega) [Fields.ok, mkMod_lt]; omega
  · show decVIns _ = _
    simp (disch := omega) [decVIns, predOf_code hp, wfOr_of_wellFormed h]
theorem coded_vfcvt {o : VFCvt} (h : WellFormed (.vfcvt o) = true) : Coded (encodeFields (.vfcvt o)) decodeFields (.vfcvt o) := by
  rintro _ ⟨⟩
  have ho : o.ok = true := h
  simp only [VFCvt.ok, Bool.and_eq_true] at ho
  obtain ⟨⟨⟨⟨⟨⟨hd, ha⟩, -⟩, -⟩, -⟩, -⟩, hp⟩ := ho
  have := lt_of_okVT hd; have := lt_of_okVT ha; have := pred_lt hp
  have := ty_lt o.dty; have := ty_lt o.sty; have := rnd_lt o.rnd; have := b2n_lt o.sat; have := b2n_lt o.hi
  have hz : (16 * b2n o.hi + o.sty.code) / 32 = 0 := by omega
  have hhi : (16 * b2n o.hi + o.sty.code) / 16 % 2 = b2n o.hi := by omega
  have hsty : (16 * b2n o.hi + o.sty.code) % 16 = o.sty.code := by omega
  constructor
  · simp (disch := omega) [Fields.ok, mkMod_lt]; omega
  · show decVFCvt _ = _
    simp (disch := omega) only [decVFCvt, xmod_mkMod, satb_mkMod, hz, hhi, hsty]
    simp (disch := omega) [predOf_code hp, wfOr_of_wellFormed h]
theorem coded_vqblkExp {o : VQExp} (h : WellFormed (.vqblkExp o) = true) : Coded (encodeFields (.vqblkExp o)) decodeFields (.vqblkExp o) := by
  rintro _ ⟨⟩
  have ho : (_ && _ && _ && _) = true := h
  simp only [Bool.and_eq_true, decide_eq_true_eq] at ho
  obtain ⟨⟨⟨hd, ha⟩, hs⟩, hp⟩ := ho
  have := lt_of_okV hd; have := lt_of_okV ha; have := pred_lt hp
  constructor
  · simp (disch := omega) [Fields.ok, mkMod_lt]; omega
  · show decVQ _ = _
    simp (disch := omega) [decVQ, predOf_code hp, Nat.div_eq_of_lt, Nat.mod_eq_of_lt, wfOr_of_wellFormed h]
theorem coded_vqblkMan {o : VQMan} (h : WellFormed (.vqblkMan o) = true) : Coded (encodeFields (.vqblkMan o)) decodeFields (.vqblkMan o) := by
  rintro _ ⟨⟩
  have ho : (_ && _ && _ && _ && _) = true := h
  simp only [Bool.and_eq_true, decide_eq_true_eq] at ho
  obtain ⟨⟨⟨⟨hd, ha⟩, hb⟩, hs⟩, hp⟩ := ho
  have := lt_of_okV hd; have := lt_of_okV ha; have := lt_of_okV hb; have := pred_lt hp
  have hman : (8 + o.slot) / 8 % 2 = 1 := by omega
  have hslot : (8 + o.slot) % 8 = o.slot := by omega
  constructor
  · simp (disch := omega) [Fields.ok, mkMod_lt]; omega
  · show decVQ _ = _
    simp (disch := omega) only [decVQ, xmod_mkMod, hman, hslot]
    simp (disch := omega) [predOf_code hp, Nat.div_eq_of_lt, wfOr_of_wellFormed h]
theorem coded_vbpt {o : V2} (h : WellFormed (.vbpt o) = true) : Coded (encodeFields (.vbpt o)) decodeFields (.vbpt o) := by
  rintro _ ⟨⟩
  have ho : (_ && _ && _) = true := h
  simp only [Bool.and_eq_true] at ho
  obtain ⟨⟨hd, ha⟩, hp⟩ := ho
  have := lt_of_okV hd; have := lt_of_okV ha; have := pred_lt hp
  constructor
  · simp [Fields.ok]; omega
  · show decVbpt _ = _
    simp [decVbpt, predOf_code hp, wfOr_of_wellFormed h]

/-! ### Cross-lane instructions (R241, R242) -/

/-- The XMOD of a cross-lane instruction gives back `.live`, the member mask register and the four bits below. -/
theorem crossMod {live : Bool} {mm n t s r op d a b p : Nat} (hm : mm < 8) (hn : n < 16) (ht : t < 16) (hs : s < 2) (hr : r < 8) :
    let f : Fields := ⟨op, 0, d, a, b, 0, p, mkMod (128 * b2n live + 16 * mm + n) t s r⟩
    sbsOf f = live ∧ mmOf f = mm ∧ f.xmod % 16 = n ∧ f.xmod % 8 = n % 8 ∧ f.xmod / 8 % 2 = n / 8 ∧ f.m < 65536 := by
  have hl := b2n_lt live
  intro f
  have hx : f.xmod = 128 * b2n live + 16 * mm + n := xmod_mkMod ht hs hr
  refine ⟨?_, ?_, by omega, by omega, by omega, mkMod_lt (by omega) ht hs hr⟩
  · show sbsOf ⟨op, 0, d, a, b, 0, p, mkMod (128 * b2n live + 16 * mm + n) t s r⟩ = live
    rw [Nat.add_assoc]
    exact sbsOf_mkMod (by omega) ht hs hr
  · rw [mmOf, hx]; omega

theorem coded_VX3 {op : Nat} {dec : Fields → Dec Instr} {sb : Bool} {o : VX3} {k : VX3 → Instr} (hk : WellFormed (k o) = true) (ho : o.ok sb = true)
    (hop : op < 256 := by decide) (hdec : ∀ f, f.op = op → dec f = decVX3 f k := by exact forall_op fun _ _ _ _ _ _ _ => rfl) : Coded (eVX3 op o) dec (k o) := by
  rintro _ ⟨⟩
  simp only [VX3.ok, Bool.and_eq_true] at ho
  obtain ⟨⟨⟨⟨⟨hd, ha⟩, hb⟩, -⟩, hm⟩, hp⟩ := ho
  have hb : o.b < 256 := by
    cases sb
    · exact (lt_of_okV hb).trans (by decide)
    · exact (lt_of_rdS hb).trans (by decide)
  have := lt_of_okVT hd; have := lt_of_okVT ha; have hm := lt_of_okM hm; have := pred_lt hp; have := ty_lt o.ty
  obtain ⟨hlive, hmm, hlow, -, -, hmod⟩ := crossMod (live := o.live) (n := 0) (t := o.ty.code) (s := 0) (r := 0) (op := op) (d := o.d) (a := o.a) (b := o.b)
    (p := o.p.code) hm (by omega) (by omega) (by omega) (by omega)
  rw [hdec _ rfl]
  constructor
  · simp only [Nat.add_zero] at hmod
    simp [Fields.ok, hmod]; omega
  · simp only [Nat.add_zero] at hlive hmm hlow
    simp (disch := omega) only [decVX3, hlive, hmm, hlow, satb_mkMod, rndc_mkMod]
    simp (disch := omega) [predOf_code hp, wfOr_of_wellFormed hk]
theorem coded_vmatch {o : VX2} (h : WellFormed (.vmatch o) = true) : Coded (encodeFields (.vmatch o)) decodeFields (.vmatch o) := by
  rintro _ ⟨⟩
  have ho : o.ok = true := h
  simp only [VX2.ok, Bool.and_eq_true] at ho
  obtain ⟨⟨⟨⟨hd, ha⟩, -⟩, hm⟩, hp⟩ := ho
  have := lt_of_okV hd; have := lt_of_okVT ha; have hm := lt_of_okM hm; have := pred_lt hp; have := ty_lt o.ty
  obtain ⟨hlive, hmm, hlow, -, -, hmod⟩ := crossMod (live := o.live) (n := 0) (t := o.ty.code) (s := 0) (r := 0) (op := 0x81) (d := o.d) (a := o.a) (b := 0)
    (p := o.p.code) hm (by omega) (by omega) (by omega) (by omega)
  constructor
  · simp only [Nat.add_zero] at hmod
    simp [Fields.ok, hmod]; omega
  · show decVX2 _ .vmatch = _
    simp only [Nat.add_zero] at hlive hmm hlow
    simp (disch := omega) only [decVX2, hlive, hmm, hlow, satb_mkMod, rndc_mkMod]
    simp (disch := omega) [predOf_code hp, wfOr_of_wellFormed h]
theorem coded_vred {o : VRed} (h : WellFormed (.vred o) = true) : Coded (encodeFields (.vred o)) decodeFields (.vred o) := by
  rintro _ ⟨⟩
  have ho : o.ok = true := h
  simp only [VRed.ok, Bool.and_eq_true] at ho
  obtain ⟨⟨⟨⟨⟨hd, ha⟩, -⟩, -⟩, hm⟩, hp⟩ := ho
  have := lt_of_okVT hd; have := lt_of_okVT ha; have hm := lt_of_okM hm; have := pred_lt hp
  have := ty_lt o.ty; have := rnd_lt o.rnd; have hop := redOp_lt o.op
  obtain ⟨hlive, hmm, -, hlow, hexcl, hmod⟩ := crossMod (live := o.live) (n := o.op.code) (t := o.ty.code) (s := 0) (r := o.rnd.code) (op := 0x7F) (d := o.d)
    (a := o.a) (b := 0) (p := o.p.code) hm (by omega) (by omega) (by omega) (by omega)
  constructor
  · simp [Fields.ok, hmod]; omega
  · show decVRed _ = _
    rw [show o.op.code % 8 = o.op.code by omega] at hlow
    rw [show o.op.code / 8 = 0 by omega] at hexcl
    simp (disch := omega) only [decVRed, hlive, hmm, hlow, hexcl, satb_mkMod]
    simp (disch := omega) [predOf_code hp, wfOr_of_wellFormed h]
theorem coded_vscan {o : VScan} (h : WellFormed (.vscan o) = true) : Coded (encodeFields (.vscan o)) decodeFields (.vscan o) := by
  rintro _ ⟨⟩
  have ho : o.ok = true := h
  simp only [VScan.ok, Bool.and_eq_true] at ho
  obtain ⟨⟨⟨⟨⟨⟨hd, ha⟩, -⟩, -⟩, -⟩, hm⟩, hp⟩ := ho
  have := lt_of_okVT hd; have := lt_of_okVT ha; have hm := lt_of_okM hm; have := pred_lt hp
  have := ty_lt o.ty; have := rnd_lt o.rnd; have hop := redOp_lt o.op; have := b2n_lt o.excl
  obtain ⟨hlive, hmm, -, hlow, hexcl, hmod⟩ := crossMod (live := o.live) (n := 8 * b2n o.excl + o.op.code) (t := o.ty.code) (s := 0) (r := o.rnd.code)
    (op := 0x80) (d := o.d) (a := o.a) (b := 0) (p := o.p.code) hm (by omega) (by omega) (by omega) (by omega)
  rw [← Nat.add_assoc] at hlive hmm hlow hexcl hmod
  constructor
  · simp [Fields.ok, hmod]; omega
  · show decVScan _ = _
    rw [show (8 * b2n o.excl + o.op.code) % 8 = o.op.code by omega] at hlow
    rw [show (8 * b2n o.excl + o.op.code) / 8 = b2n o.excl by omega] at hexcl
    simp (disch := omega) only [decVScan, hlive, hmm, hlow, hexcl, satb_mkMod]
    simp (disch := omega) [predOf_code hp, wfOr_of_wellFormed h]

/-! ### Memory instructions (R182, R243 to R262) -/

section
variable {op : Nat} {dec : Fields → Dec Instr}

/-- The FN field of a load: SIZE and SGN. -/
theorem loadFn {sz d a b c p m : Nat} {sgn : Bool} (h : sz < 4) :
    let f : Fields := ⟨op, sz + 4 * b2n sgn, d, a, b, c, p, m⟩
    f.fn < 16 ∧ f.fn / 8 = 0 ∧ szOf f = sz ∧ sgnOf f = sgn := by
  have hs := b2n_lt sgn
  have hsgn : (sz + 4 * b2n sgn) / 4 % 2 = b2n sgn := by omega
  refine ⟨?_, ?_, ?_, ?_⟩ <;> simp only [szOf, sgnOf, hsgn, b2n_beq]
  all_goals omega
theorem b2n_half (q : Bool) : b2n q / 2 = 0 := by cases q <;> rfl
theorem b2n_mod (q : Bool) : b2n q % 2 = b2n q := by cases q <;> rfl
/-- A register field that is a pointer or a scalar. -/
theorem lt_of_base {q : Bool} {n : Nat} (h : (if q then okP n else rdS n) = true) : n < 256 := by
  cases q
  · exact (lt_of_rdS h).trans (by decide)
  · exact lt_of_okP h
/-- An index that is a scalar or a vector. -/
theorem lt_of_index {q : Bool} {x : Option Nat} (h : (if q then okXS x else okXV x) = true) : ∀ n, x = some n → n < 255 := by
  cases q
  · exact okXV_lt h
  · exact okXS_lt h
/-- A scalar base without an index, or a pointer with one. -/
theorem base_index_lt {q : Bool} {n : Nat} {x : Option Nat} (h : (if q then okP n && okXS x else rdS n && x == none) = true) :
    n < 256 ∧ ∀ j, x = some j → j < 255 := by
  cases q
  · obtain ⟨hn, rfl⟩ : rdS n = true ∧ x = none := by simpa using h
    exact ⟨(lt_of_rdS hn).trans (by decide), nofun⟩
  · obtain ⟨hn, hx⟩ : okP n = true ∧ okXS x = true := by simpa using h
    exact ⟨lt_of_okP hn, okXS_lt hx⟩

theorem coded_VLoad {ptr sx poll : Bool} {o : VLoad} {k : VLoad → Instr} (hk : WellFormed (k o) = true) (ho : o.ok ptr sx poll = true)
    (hop : op < 256 := by decide) (hdec : ∀ f, f.op = op → dec f = decVLoad f k := by exact forall_op fun _ _ _ _ _ _ _ => rfl) : Coded (eVLoad op o) dec (k o) := by
  rintro _ ⟨⟩
  simp only [VLoad.ok, Bool.and_eq_true, decide_eq_true_eq] at ho
  obtain ⟨⟨⟨⟨⟨⟨hd, ha⟩, hx⟩, hsz⟩, -⟩, -⟩, hp⟩ := ho
  have hx := lt_of_index hx
  have := lt_of_okVSz hd; have := lt_of_base ha; have := xCode_lt hx; have := pred_lt hp; have := b2n_lt o.poll; have := o.off.isLt
  obtain ⟨hfn, hz, hs, hg⟩ := loadFn (op := op) (sgn := o.sgn) (d := o.d) (a := o.p) (b := xCode o.x) (c := b2n o.poll) (p := o.pr.code) (m := o.off.toNat) hsz
  rw [hdec _ rfl]
  constructor
  · simp [Fields.ok, hfn]; omega
  · simp only [decVLoad, hz, hs, hg]
    simp [b2n_half, b2n_mod, predOf_code hp, xOf_xCode hx, wfOr_of_wellFormed hk]
theorem coded_VStore {ptr : Bool} {o : VStore} {k : VStore → Instr} (hk : WellFormed (k o) = true) (ho : o.ok ptr = true) (hop : op < 256 := by decide)
    (hdec : ∀ f, f.op = op → dec f = decVStore f k := by exact forall_op fun _ _ _ _ _ _ _ => rfl) : Coded (eVStore op o) dec (k o) := by
  rintro _ ⟨⟩
  simp only [VStore.ok, Bool.and_eq_true, decide_eq_true_eq] at ho
  obtain ⟨⟨⟨⟨hd, ha⟩, hx⟩, hsz⟩, hp⟩ := ho
  have hx := okXV_lt hx
  have := lt_of_okVSz hd; have := lt_of_base ha; have := xCode_lt hx; have := pred_lt hp; have := o.off.isLt
  rw [hdec _ rfl]
  constructor
  · simp [Fields.ok]; omega
  · simp (disch := omega) [decVStore, szOf, Nat.div_eq_of_lt, Nat.mod_eq_of_lt, predOf_code hp, xOf_xCode hx, wfOr_of_wellFormed hk]

/-- The MA fields give back order, scope and type. -/
theorem maOk_maMod {d a b c p : Nat} {ord : Ord} {scope : Scope} {ty : Ty} :
    maOk ⟨op, maFn ty, d, a, b, c, p, maMod ord scope ty⟩ = .ok (ord, scope, ty) ∧ maFn ty < 16 ∧ maMod ord scope ty < 65536 := by
  have := ord_lt ord; have := scope_lt scope; have := ty_lt ty
  have hfn : maFn ty < 4 := by unfold maFn; split <;> decide
  have ho : maMod ord scope ty / 8192 = ord.code := by simp only [maMod]; omega
  have hs : maMod ord scope ty / 1024 % 8 = scope.code := by simp only [maMod]; omega
  have ht : maMod ord scope ty / 16 % 16 = ty.code := by simp only [maMod]; omega
  have hz : maMod ord scope ty / 256 % 4 = 0 := by simp only [maMod]; omega
  have hl : maMod ord scope ty % 16 = 0 := by simp only [maMod]; omega
  refine ⟨?_, by omega, by simp only [maMod]; omega⟩
  simp (disch := omega) [maOk, hz, hl, ho, hs, tyOf, Fields.tyc, ht, Nat.div_eq_of_lt]
  simp [maFn]
theorem coded_VAtom {tys : Ty → Bool} {cas : Bool} {o : VAtom} {k : VAtom → Instr} (hk : WellFormed (k o) = true) (ho : o.ok tys cas = true)
    (hop : op < 256 := by decide) (hdec : ∀ f, f.op = op → dec f = decVAtom f k := by exact forall_op fun _ _ _ _ _ _ _ => rfl) : Coded (eVAtom op o) dec (k o) := by
  rintro _ ⟨⟩
  simp only [VAtom.ok, Bool.and_eq_true] at ho
  obtain ⟨⟨⟨⟨⟨⟨hd, ha⟩, hx⟩, hc⟩, -⟩, -⟩, hp⟩ := ho
  have hx := okXV_lt hx
  have hc : o.c < 256 := by
    cases cas
    · have : o.c = 0 := by simpa using hc
      omega
    · exact lt_of_okVT hc
  have := lt_of_okVT hd; have := lt_of_okP ha; have := xCode_lt hx; have := pred_lt hp
  obtain ⟨hma, hfn, hmod⟩ := maOk_maMod (op := op) (d := o.d) (a := o.p) (b := xCode o.x) (c := o.c) (p := o.pr.code) (ord := o.ord) (scope := o.scope) (ty := o.ty)
  rw [hdec _ rfl]
  constructor
  · simp [Fields.ok, hfn, hmod]; omega
  · simp only [decVAtom, hma]
    simp [predOf_code hp, xOf_xCode hx, wfOr_of_wellFormed hk]
theorem coded_Atom {tys : Ty → Bool} {cas : Bool} {o : Atom} {k : Atom → Instr} (hk : WellFormed (k o) = true) (ho : o.ok tys cas = true)
    (hop : op < 256 := by decide) (hdec : ∀ f, f.op = op → dec f = decAtom f k := by exact forall_op fun _ _ _ _ _ _ _ => rfl) : Coded (eAtom op o) dec (k o) := by
  rintro _ ⟨⟩
  simp only [Atom.ok, Bool.and_eq_true] at ho
  obtain ⟨⟨⟨⟨⟨⟨-, hd⟩, ha⟩, hx⟩, hc⟩, -⟩, -⟩ := ho
  have hx := okXS_lt hx
  have hc : o.c < 256 := by
    cases cas
    · have : o.c = 0 := by simpa using hc
      omega
    · exact (lt_of_rdS hc).trans (by decide)
  have := lt_of_wrS hd; have := lt_of_okP ha; have := xCode_lt hx
  obtain ⟨hma, hfn, hmod⟩ := maOk_maMod (op := op) (d := o.d) (a := o.p) (b := xCode o.x) (c := o.c) (p := 0) (ord := o.ord) (scope := o.scope) (ty := o.ty)
  rw [hdec _ rfl]
  constructor
  · simp [Fields.ok, hfn, hmod]; omega
  · simp only [decAtom, hma]
    simp [xOf_xCode hx, wfOr_of_wellFormed hk]
theorem coded_Load {ptr : Bool} {o : Load} {k : Load → Instr} (hk : WellFormed (k o) = true) (ho : o.ok ptr = true) (hop : op < 256 := by decide)
    (hdec : ∀ f, f.op = op → dec f = decLoad f k := by exact forall_op fun _ _ _ _ _ _ _ => rfl) : Coded (eLoad op o) dec (k o) := by
  rintro _ ⟨⟩
  rw [Load.ok, Bool.and_eq_true, Bool.and_eq_true, Bool.and_eq_true, decide_eq_true_eq] at ho
  obtain ⟨⟨⟨hd, hb⟩, hsz⟩, -⟩ := ho
  obtain ⟨ha, hx⟩ := base_index_lt hb
  have := lt_of_wrS hd; have := xCode_lt hx; have := b2n_lt o.poll; have := o.off.isLt
  obtain ⟨hfn, hz, hs, hg⟩ := loadFn (op := op) (sgn := o.sgn) (d := o.d) (a := o.p) (b := xCode o.x) (c := b2n o.poll) (p := 0) (m := o.off.toNat) hsz
  rw [hdec _ rfl]
  constructor
  · simp [Fields.ok, hfn]; omega
  · simp only [decLoad, hz, hs, hg]
    simp [b2n_half, b2n_mod, xOf_xCode hx, wfOr_of_wellFormed hk]
theorem coded_Store {ptr : Bool} {o : Store} {k : Store → Instr} (hk : WellFormed (k o) = true) (ho : o.ok ptr = true) (hop : op < 256 := by decide)
    (hdec : ∀ f, f.op = op → dec f = decStore f k := by exact forall_op fun _ _ _ _ _ _ _ => rfl) : Coded (eStore op o) dec (k o) := by
  rintro _ ⟨⟩
  rw [Store.ok, Bool.and_eq_true, Bool.and_eq_true, decide_eq_true_eq] at ho
  obtain ⟨⟨hd, hb⟩, hsz⟩ := ho
  obtain ⟨ha, hx⟩ := base_index_lt hb
  have := lt_of_rdS hd; have := xCode_lt hx; have := o.off.isLt
  rw [hdec _ rfl]
  constructor
  · simp [Fields.ok]; omega
  · simp (disch := omega) [decStore, szOf, Nat.div_eq_of_lt, Nat.mod_eq_of_lt, xOf_xCode hx, wfOr_of_wellFormed hk]
theorem coded_FE {rd : Nat → Bool} {o : FE} {k : FE → Instr} (hk : WellFormed (k o) = true) (ho : o.ok rd = true) (hd : o.d < 256) (hop : op < 256 := by decide)
    (hdec : ∀ f, f.op = op → f.c < 3 → dec f = decFE f k := by rintro ⟨⟩ ⟨⟩ -; rfl) : Coded (eFE op o) dec (k o) := by
  rintro _ ⟨⟩
  have ⟨ha, hx⟩ : o.p < 256 ∧ ∀ j, o.x = some j → j < 255 := by
    rw [FE.ok, Bool.and_eq_true] at ho
    refine base_index_lt (q := !o.ls) ?_
    cases hl : o.ls <;> simpa [hl] using ho.2
  have := xCode_lt hx; have := b2n_lt o.ls; have := o.off.isLt
  rw [hdec _ rfl (by simp only; omega)]
  constructor
  · simp [Fields.ok]; omega
  · obtain ⟨ls, d, p, x, off⟩ := o
    cases ls <;> simp [decFE, b2n, xOf_xCode hx, wfOr_of_wellFormed hk]
/-- Cache maintenance over a range (R261). -/
theorem coded_cache {o : R2} {k : R2 → Instr} {all : Instr} (hk : WellFormed (k o) = true) (ho : (okP o.d && rdS o.a) = true) (hop : op < 256 := by decide)
    (hdec : ∀ f, f.op = op → dec f = decCache f k all := by exact forall_op fun _ _ _ _ _ _ _ => rfl) : Coded (eCache op o) dec (k o) := by
  rintro _ ⟨⟩
  simp only [Bool.and_eq_true] at ho
  obtain ⟨hd, ha⟩ := ho
  have := lt_of_okP hd; have := lt_of_rdS ha
  rw [hdec _ rfl]
  constructor
  · simp [Fields.ok]; omega
  · simp [decCache, wfOr_of_wellFormed hk]
theorem coded_cacheAll {k : R2 → Instr} {all : Instr} (hop : op < 256 := by decide)
    (hdec : ∀ f, f.op = op → dec f = decCache f k all := by exact forall_op fun _ _ _ _ _ _ _ => rfl) : Coded (eR op 0 0 0 0 0 256) dec all := by
  rintro _ ⟨⟩
  rw [hdec _ rfl]
  simp [Fields.ok, decCache, hop]
end

theorem coded_vldacc {o : VAcc} (h : WellFormed (.vldacc o) = true) : Coded (encodeFields (.vldacc o)) decodeFields (.vldacc o) := by
  rintro _ ⟨⟩
  have ho : o.ok = true := h
  simp only [VAcc.ok, Bool.and_eq_true] at ho
  obtain ⟨⟨⟨hd, ha⟩, hx⟩, hp⟩ := ho
  have hx := okXV_lt hx
  have := lt_of_okV hd; have := lt_of_rdS ha; have := xCode_lt hx; have := pred_lt hp; have := o.off.isLt
  constructor
  · simp [Fields.ok]; omega
  · show decVAcc _ = _
    simp [decVAcc, predOf_code hp, xOf_xCode hx, wfOr_of_wellFormed h]
theorem coded_steScalar {d : Nat} (h : WellFormed (.steScalar d) = true) : Coded (encodeFields (.steScalar d)) decodeFields (.steScalar d) := by
  rintro _ ⟨⟩
  have := lt_of_feReg h
  constructor
  · simp [Fields.ok]; omega
  · show decSte ⟨0xA7, 3, d, 0, 255, 4, 0, 0⟩ = _
    simp [decSte, wfOr_of_wellFormed h]
theorem coded_steVector {d : Nat} (h : WellFormed (.steVector d) = true) : Coded (encodeFields (.steVector d)) decodeFields (.steVector d) := by
  rintro _ ⟨⟩
  have := lt_of_okV h
  constructor
  · simp [Fields.ok]; omega
  · show decSte ⟨0xA7, 3, d, 0, 255, 6, 0, 0⟩ = _
    simp [decSte, wfOr_of_wellFormed h]
theorem coded_rput {o : RPut} (h : WellFormed (.rput o) = true) : Coded (encodeFields (.rput o)) decodeFields (.rput o) := by
  rintro _ ⟨⟩
  have ho : (_ && _ && _) = true := h
  simp only [Bool.and_eq_true] at ho
  obtain ⟨⟨hs, hr⟩, hn⟩ := ho
  have := lt_of_rdS hs; have := lt_of_rdS hr; have := lt_of_feReg hn
  constructor
  · simp [Fields.ok]; omega
  · show decRPut _ = _
    simp (disch := omega) [decRPut, Nat.div_eq_of_lt, wfOr_of_wellFormed h]
theorem coded_sputfe {o : SPutFE} (h : WellFormed (.sputfe o) = true) : Coded (encodeFields (.sputfe o)) decodeFields (.sputfe o) := by
  rintro _ ⟨⟩
  have ho : (_ && _ && _) = true := h
  simp only [Bool.and_eq_true] at ho
  obtain ⟨⟨hs, hr⟩, hx⟩ := ho
  have hx := okXS_lt hx
  have := lt_of_rdS hs; have := lt_of_rdS hr; have := xCode_lt hx; have := o.off.isLt
  constructor
  · simp [Fields.ok]; omega
  · show decSPut _ = _
    simp [decSPut, xOf_xCode hx, wfOr_of_wellFormed h]
theorem coded_amsg {o : R3} (h : WellFormed (.amsg o) = true) : Coded (encodeFields (.amsg o)) decodeFields (.amsg o) := by
  rintro _ ⟨⟩
  have ho : (_ && _ && _) = true := h
  simp only [Bool.and_eq_true] at ho
  obtain ⟨⟨hd, ha⟩, hb⟩ := ho
  have := lt_of_rdS hd; have := lt_of_rdS ha; have := lt_of_rdS hb
  constructor
  · simp [Fields.ok]; omega
  · show decAmsg _ = _
    simp [decAmsg, wfOr_of_wellFormed h]
theorem coded_fence {o : FenceOp} (h : WellFormed (.fence o) = true) : Coded (encodeFields (.fence o)) decodeFields (.fence o) := by
  rintro _ ⟨⟩
  have hgrp : o.grp < 256 := by
    have ho : o.ok = true := h
    rw [FenceOp.ok, Bool.and_eq_true] at ho
    split at ho <;> simp at ho <;> omega
  have := ord_lt o.ord; have := scope_lt o.scope
  have hord : (o.ord.code * 8192 + o.scope.code * 1024) / 8192 = o.ord.code := by omega
  have hscope : (o.ord.code * 8192 + o.scope.code * 1024) / 1024 % 8 = o.scope.code := by omega
  have hz : (o.ord.code * 8192 + o.scope.code * 1024) % 1024 = 0 := by omega
  constructor
  · simp [Fields.ok, hgrp]; omega
  · show decFence _ = _
    simp only [decFence, hord, hscope, hz]
    simp [wfOr_of_wellFormed h]

/-! ### Pointers, barriers, tasks, slots, system (R263 to R279) -/

/-- The number that a word holds in XMOD, with the rest of MOD zero. -/
theorem xmod_mul {op fn d a b c p n : Nat} : (⟨op, fn, d, a, b, c, p, n * 256⟩ : Fields).xmod = n := by simp [Fields.xmod]

theorem coded_pld {d b : Nat} {n : BitVec 16} (h : WellFormed (.pld d b n) = true) : Coded (encodeFields (.pld d b n)) decodeFields (.pld d b n) := by
  rintro _ ⟨⟩
  have ho : (_ && _) = true := h
  simp only [Bool.and_eq_true] at ho
  obtain ⟨hd, hb⟩ := ho
  have := lt_of_wrP hd; have := lt_of_rdS hb; have := n.isLt
  constructor
  · simp [Fields.ok]; omega
  · show decPld _ = _
    simp [decPld, wfOr_of_wellFormed h]
theorem coded_pget {o : R2N} (h : WellFormed (.pget o) = true) : Coded (encodeFields (.pget o)) decodeFields (.pget o) := by
  rintro _ ⟨⟩
  have ho : (_ && _ && _) = true := h
  simp only [Bool.and_eq_true, decide_eq_true_eq] at ho
  obtain ⟨⟨hd, ha⟩, hn⟩ := ho
  have := lt_of_wrS hd; have := lt_of_okP ha
  constructor
  · simp [Fields.ok]; omega
  · show decPget _ = _
    simp [decPget, xmod_mul, wfOr_of_wellFormed h]
theorem coded_ptest {o : PTest} (h : WellFormed (.ptest o) = true) : Coded (encodeFields (.ptest o)) decodeFields (.ptest o) := by
  rintro _ ⟨⟩
  have ho : (_ && _ && _ && _) = true := h
  simp only [Bool.and_eq_true, decide_eq_true_eq] at ho
  obtain ⟨⟨⟨hd, ha⟩, hb⟩, hn⟩ := ho
  have := lt_of_wrS hd; have := lt_of_okP ha; have := lt_of_rdS hb
  constructor
  · simp [Fields.ok]; omega
  · show decPtest _ = _
    simp [decPtest, xmod_mul, wfOr_of_wellFormed h]
/-- A barrier's operands, read back from its word, and the function code that selects the instruction (R265). -/
theorem coded_bar {fn : Nat} {o : Bar} {k : Bar → Instr} (hk : WellFormed (k o) = true) (ho : o.ok = true) (hfn : fn < 16 := by decide)
    (hdec : ∀ d a b c p m, decBar ⟨0xC0, fn, d, a, b, c, p, m⟩ = (do
      noPred ⟨0xC0, fn, d, a, b, c, p, m⟩
      zeros [d, b, c, m % 256 / 2]
      wfOr (k ⟨m % 2 == 1, m / 256, a⟩)) := by intros; rfl) : Coded (eBar fn o) decodeFields (k o) := by
  rintro _ ⟨⟩
  have ⟨hn, ha⟩ : o.n < 256 ∧ o.a < 256 := by
    rw [Bar.ok] at ho
    split at ho <;> simp at ho
    · have := lt_of_rdS ho.2; omega
    · omega
  have := b2n_lt o.nb
  have hz : (o.n * 256 + b2n o.nb) % 256 / 2 = 0 := by omega
  have hnum : (o.n * 256 + b2n o.nb) / 256 = o.n := by omega
  have hnb : (o.n * 256 + b2n o.nb) % 2 = b2n o.nb := by omega
  constructor
  · simp [Fields.ok, hfn]; omega
  · refine (hdec 0 o.a 0 0 0 _).trans ?_
    rw [hz, hnum, hnb, b2n_beq]
    simp [wfOr_of_wellFormed hk]
theorem coded_expect {o : Expect} (h : WellFormed (.expect o) = true) : Coded (encodeFields (.expect o)) decodeFields (.expect o) := by
  have ho : o.ok = true := h
  rw [Expect.ok, Bool.and_eq_true] at ho
  obtain ⟨ha, ht⟩ := ho
  obtain ⟨t, a⟩ := o
  have := lt_of_rdS (n := a) ha
  cases t with
  | reg d =>
    rintro _ ⟨⟩
    have := lt_of_feReg ht
    constructor
    · simp [Fields.ok]; omega
    · show decExpect _ = _
      simp [decExpect, Fields.xmod, wfOr_of_wellFormed h]
  | ls b =>
    rintro _ ⟨⟩
    have := lt_of_rdS ht
    constructor
    · simp [Fields.ok]; omega
    · show decExpect _ = _
      simp [decExpect, Fields.xmod, wfOr_of_wellFormed h]
  | inbox =>
    rintro _ ⟨⟩
    constructor
    · simp [Fields.ok]; omega
    · show decExpect _ = _
      simp [decExpect, Fields.xmod, wfOr_of_wellFormed h]
theorem coded_slotStart {o : R3} (h : WellFormed (.slotStart o) = true) : Coded (encodeFields (.slotStart o)) decodeFields (.slotStart o) := by
  rintro _ ⟨⟩
  have ho : o.okS = true := h
  simp only [R3.okS, Bool.and_eq_true] at ho
  obtain ⟨⟨hd, ha⟩, hb⟩ := ho
  have := lt_of_wrS hd; have := lt_of_rdS ha; have := lt_of_rdS hb
  constructor
  · simp [Fields.ok]; omega
  · show decSlotStart _ = _
    simp [decSlotStart, wfOr_of_wellFormed h]
theorem coded_slotStartTask {o : R3} (h : WellFormed (.slotStartTask o) = true) : Coded (encodeFields (.slotStartTask o)) decodeFields (.slotStartTask o) := by
  rintro _ ⟨⟩
  have ho : o.okS = true := h
  simp only [R3.okS, Bool.and_eq_true] at ho
  obtain ⟨⟨hd, ha⟩, hb⟩ := ho
  have := lt_of_wrS hd; have := lt_of_rdS ha; have := lt_of_rdS hb
  constructor
  · simp [Fields.ok]; omega
  · show decSlotStart _ = _
    simp [decSlotStart, wfOr_of_wellFormed h]
theorem coded_imm16 {op : Nat} {dec : Fields → Dec Instr} {n : BitVec 16} {k : BitVec 16 → Instr} (hop : op < 256 := by decide)
    (hdec : ∀ f, f.op = op → dec f = decImm16 f k := by exact forall_op fun _ _ _ _ _ _ _ => rfl) : Coded (eR op 0 0 0 0 0 n.toNat) dec (k n) := by
  rintro _ ⟨⟩
  have := n.isLt
  rw [hdec _ rfl]
  constructor
  · simp [Fields.ok]; omega
  · simp [decImm16]
theorem coded_trap {a : Nat} {n : BitVec 16} (h : WellFormed (.trap a n) = true) : Coded (encodeFields (.trap a n)) decodeFields (.trap a n) := by
  rintro _ ⟨⟩
  have := lt_of_rdS (n := a) h; have := n.isLt
  constructor
  · simp [Fields.ok]; omega
  · show decTrap _ = _
    simp [decTrap, wfOr_of_wellFormed h]
theorem coded_cget {d : Nat} {c : BitVec 12} (h : WellFormed (.cget d c) = true) : Coded (encodeFields (.cget d c)) decodeFields (.cget d c) := by
  rintro _ ⟨⟩
  have := lt_of_wrS (n := d) h; have := c.isLt
  constructor
  · simp [Fields.ok]; omega
  · show decCtl _ = _
    simp (disch := omega) [decCtl, Nat.div_eq_of_lt, wfOr_of_wellFormed h]
theorem coded_cput {a : Nat} {c : BitVec 12} (h : WellFormed (.cput c a) = true) : Coded (encodeFields (.cput c a)) decodeFields (.cput c a) := by
  rintro _ ⟨⟩
  have := lt_of_rdS (n := a) h; have := c.isLt
  constructor
  · simp [Fields.ok]; omega
  · show decCtl _ = _
    simp (disch := omega) [decCtl, Nat.div_eq_of_lt, wfOr_of_wellFormed h]
theorem coded_cswap {d a : Nat} {c : BitVec 12} (h : WellFormed (.cswap d c a) = true) : Coded (encodeFields (.cswap d c a)) decodeFields (.cswap d c a) := by
  rintro _ ⟨⟩
  have ho : (_ && _) = true := h
  simp only [Bool.and_eq_true] at ho
  obtain ⟨hd, ha⟩ := ho
  have := lt_of_wrS hd; have := lt_of_rdS ha; have := c.isLt
  constructor
  · simp [Fields.ok]; omega
  · show decCtl _ = _
    simp (disch := omega) [decCtl, Nat.div_eq_of_lt, wfOr_of_wellFormed h]
theorem coded_cfq {d n : Nat} (h : WellFormed (.cfq d n) = true) : Coded (encodeFields (.cfq d n)) decodeFields (.cfq d n) := by
  rintro _ ⟨⟩
  have ho : (_ && _) = true := h
  simp only [Bool.and_eq_true, decide_eq_true_eq] at ho
  obtain ⟨hd, hn⟩ := ho
  have := lt_of_wrS hd
  constructor
  · simp [Fields.ok]; omega
  · show decCfq _ = _
    simp [decCfq, wfOr_of_wellFormed h]
theorem coded_tlb {kind a b : Nat} {k : Nat → Nat → Instr} (hk : WellFormed (k a b) = true) (ho : (rdS a && rdS b) = true) (hkind : kind < 256 := by decide)
    (hdec : ∀ f, f.m = kind * 256 → decTlb f = (do
      noPred f
      zeros [f.fn, f.d, f.c, f.m % 256]
      wfOr (k f.a f.b)) := by intro f hm; simp [decTlb, Fields.xmod, hm]) : Coded (eR 0xD6 0 0 a b 0 (kind * 256)) decodeFields (k a b) := by
  rintro _ ⟨⟩
  simp only [Bool.and_eq_true] at ho
  obtain ⟨ha, hb⟩ := ho
  have := lt_of_rdS ha; have := lt_of_rdS hb
  constructor
  · simp [Fields.ok]; omega
  · refine (hdec ⟨0xD6, 0, 0, a, b, 0, 0, kind * 256⟩ rfl).trans ?_
    simp [wfOr_of_wellFormed hk]

/-! ### Engines (R283 to R302) -/

/-- The fields of a copy command: XMOD holds `.mc` in bit 7, `.bp` in bit 6, `.on` in bit 5 and its term below. -/
theorem eCpy_eq (fn : Nat) (o : Cpy) : eCpy fn o = eR 0xE0 fn o.d o.a o.b o.c
    (mkMod (128 * b2n o.mc + 64 * b2n o.bp.isSome + (32 * b2n o.on.isSome + o.on.getD 0)) (o.bp.getD .s32).code 0 0) := by
  obtain ⟨d, a, b, c, m, t, on⟩ := o
  cases t <;> cases on <;> simp [eCpy, b2n, Ty.code]
/-- A copy command's operands, read back from its word; FN is the direction. -/
theorem coded_cpy {fn : Nat} {sp mc bp : Bool} {o : Cpy} {k : Cpy → Instr} (hk : WellFormed (k o) = true) (ho : o.ok sp mc bp = true) (hfn : fn < 16 := by decide)
    (hdir : ∀ f, f.fn = fn → decCpy f = (do
      noPred f
      zeros [f.satb, f.rndc]
      let ty ← tyOf f
      need (f.xmod / 64 % 2 == 1 || f.tyc == 0) .mod
      need (f.xmod / 32 % 2 == 1 || f.xmod % 32 == 0) .mod
      wfOr (k ⟨f.d, f.a, f.b, f.c, sbsOf f, if f.xmod / 64 % 2 == 1 then some ty else none, if f.xmod / 32 % 2 == 1 then some (f.xmod % 32) else none⟩))
      := by rintro ⟨⟩ ⟨⟩; rfl) : Coded (eCpy fn o) decodeFields (k o) := by
  rw [eCpy_eq]
  rintro _ ⟨⟩
  rw [Cpy.ok] at ho
  simp only [Bool.and_eq_true] at ho
  obtain ⟨⟨⟨⟨⟨⟨hd, ha⟩, hb⟩, hc⟩, -⟩, -⟩, hon⟩ := ho
  have ha : o.a < 256 := by
    cases sp
    · exact lt_of_okP ha
    · exact (lt_of_rdS ha).trans (by decide)
  have hterm : o.on.getD 0 < 32 := by
    cases h : o.on with
    | none => decide
    | some n => simpa [h, okOn] using hon
  have := lt_of_wrS hd; have := lt_of_rdS hb; have := lt_of_rdS hc
  have := ty_lt (o.bp.getD .s32); have := b2n_lt o.mc; have := b2n_lt o.bp.isSome; have := b2n_lt o.on.isSome
  constructor
  · simp (disch := omega) [Fields.ok, mkMod_lt]; omega
  · generalize hx : 128 * b2n o.mc + 64 * b2n o.bp.isSome + (32 * b2n o.on.isSome + o.on.getD 0) = x
    have hmc : mkMod x (o.bp.getD .s32).code 0 0 / 32768 = b2n o.mc := by simp only [mkMod]; omega
    have hbp : x / 64 % 2 = b2n o.bp.isSome := by omega
    have hon : x / 32 % 2 = b2n o.on.isSome := by omega
    have hlow : x % 32 = o.on.getD 0 := by omega
    refine (hdir ⟨0xE0, fn, o.d, o.a, o.b, o.c, 0, _⟩ rfl).trans ?_
    simp (disch := omega) only [tyOf_mkMod, sbsOf, xmod_mkMod, tyc_mkMod, satb_mkMod, rndc_mkMod, hmc, hbp, hon, hlow, b2n_beq]
    obtain ⟨d, a, b, c, mc, bp, on⟩ := o
    cases bp <;> cases on <;> simp [wfOr_of_wellFormed hk, Ty.code]
theorem coded_fwD {op fn : Nat} {dec : Fields → Dec Instr} {d n : Nat} {k : Nat → Nat → Instr} (hk : WellFormed (k d n) = true) (ho : (wrS d && n < 16) = true)
    (hop : op < 256 := by decide) (hfn : fn < 16 := by decide) (hdec : ∀ f, f.op = op → f.fn = fn → dec f = decFwD f k := by exact forall_op_fn fun _ _ _ _ _ _ => rfl) :
    Coded (eR op fn d 0 0 0 (n * 256)) dec (k d n) := by
  rintro _ ⟨⟩
  simp only [Bool.and_eq_true, decide_eq_true_eq] at ho
  obtain ⟨hd, hn⟩ := ho
  have := lt_of_wrS hd
  rw [hdec _ rfl rfl]
  constructor
  · simp [Fields.ok, hop, hfn]; omega
  · simp [decFwD, xmod_mul, wfOr_of_wellFormed hk]
theorem coded_fwA {op fn : Nat} {dec : Fields → Dec Instr} {n a : Nat} {k : Nat → Nat → Instr} (hk : WellFormed (k n a) = true) (ha : rdS a = true) (hn : n < 16)
    (hop : op < 256 := by decide) (hfn : fn < 16 := by decide) (hdec : ∀ f, f.op = op → f.fn = fn → dec f = decFwA f k := by exact forall_op_fn fun _ _ _ _ _ _ => rfl) :
    Coded (eR op fn 0 a 0 0 (n * 256)) dec (k n a) := by
  rintro _ ⟨⟩
  have := lt_of_rdS ha
  rw [hdec _ rfl rfl]
  constructor
  · simp [Fields.ok, hop, hfn]; omega
  · simp [decFwA, xmod_mul, wfOr_of_wellFormed hk]
theorem coded_trl {op fn : Nat} {dec : Fields → Dec Instr} {n : Nat} {k : Nat → Instr} (hk : WellFormed (k n) = true) (hn : n < 32)
    (hop : op < 256 := by decide) (hfn : fn < 16 := by decide) (hdec : ∀ f, f.op = op → f.fn = fn → dec f = decTrl f k := by exact forall_op_fn fun _ _ _ _ _ _ => rfl) :
    Coded (eR op fn 0 0 0 0 (n * 256)) dec (k n) := by
  rintro _ ⟨⟩
  rw [hdec _ rfl rfl]
  constructor
  · simp [Fields.ok, hop, hfn]; omega
  · simp [decTrl, xmod_mul, wfOr_of_wellFormed hk]
theorem coded_trlSetTerm {n a b : Nat} (h : WellFormed (.trlSetTerm n a b) = true) : Coded (encodeFields (.trlSetTerm n a b)) decodeFields (.trlSetTerm n a b) := by
  rintro _ ⟨⟩
  have ho : (_ && _ && _) = true := h
  simp only [Bool.and_eq_true, decide_eq_true_eq] at ho
  obtain ⟨⟨hn, ha⟩, hb⟩ := ho
  have := lt_of_rdS ha; have := lt_of_rdS hb
  constructor
  · simp [Fields.ok]; omega
  · show decTrlT _ = _
    simp [decTrlT, xmod_mul, wfOr_of_wellFormed h]

/-! ### The matrix stream (R311) -/

theorem coded_XLoad {op : Nat} {dec : Fields → Dec Instr} {o : XLoad} {k : XLoad → Instr} (hk : WellFormed (k o) = true) (ho : o.ok = true)
    (hop : op < 256 := by decide) (hdec : ∀ f, f.op = op → dec f = decXLoad f k := by exact forall_op fun _ _ _ _ _ _ _ => rfl) : Coded (eXLoad op o) dec (k o) := by
  rintro _ ⟨⟩
  simp only [XLoad.ok, Bool.and_eq_true, decide_eq_true_eq] at ho
  obtain ⟨⟨⟨⟨⟨hslot, hcore⟩, hoff⟩, hchunk⟩, h0⟩, h1⟩ := ho
  have := b2n_lt o.half
  have hhalf : (o.core * 16 + 8 * b2n o.half) / 8 % 2 = b2n o.half := by omega
  have hlow : (o.core * 16 + 8 * b2n o.half) % 8 = 0 := by omega
  have hc : (o.core * 16 + 8 * b2n o.half) / 16 = o.core := by omega
  have hs0 : (o.step0 * 16 + o.step1) / 16 = o.step0 := by omega
  have hs1 : (o.step0 * 16 + o.step1) % 16 = o.step1 := by omega
  rw [hdec _ rfl]
  constructor
  · simp [Fields.ok]; omega
  · simp only [decXLoad, hhalf, hlow, hc, hs0, hs1, b2n_beq]
    simp (disch := omega) [Nat.div_eq_of_lt, Nat.mod_eq_of_lt, wfOr_of_wellFormed hk]
/-- A half and a slot in one field. -/
theorem half_slot {q : Bool} {n : Nat} (h : n < 8) : (8 * b2n q + n) / 16 = 0 ∧ (8 * b2n q + n) % 8 = n ∧ ((8 * b2n q + n) / 8 == 1) = q := by
  have hq := b2n_lt q
  have : (8 * b2n q + n) / 8 = b2n q := by omega
  refine ⟨by omega, by omega, by rw [this, b2n_beq]⟩
theorem coded_xmul {o : XMul} (h : WellFormed (.xmul o) = true) : Coded (encodeFields (.xmul o)) decodeFields (.xmul o) := by
  rintro _ ⟨⟩
  have ho : (_ && _ && _) = true := h
  simp only [Bool.and_eq_true, decide_eq_true_eq] at ho
  obtain ⟨⟨ht, ha⟩, hb⟩ := ho
  have := b2n_lt o.ahalf; have := b2n_lt o.bhalf
  obtain ⟨ha0, ha1, ha2⟩ := half_slot (q := o.ahalf) ha
  obtain ⟨hb0, hb1, hb2⟩ := half_slot (q := o.bhalf) hb
  constructor
  · simp [Fields.ok]; omega
  · show decXMul _ = _
    simp only [decXMul, ha0, ha1, ha2, hb0, hb1, hb2]
    simp (disch := omega) [Nat.div_eq_of_lt, wfOr_of_wellFormed h]
theorem coded_xfold {o : XFold} (h : WellFormed (.xfold o) = true) : Coded (encodeFields (.xfold o)) decodeFields (.xfold o) := by
  rintro _ ⟨⟩
  have ho : (_ && _) = true := h
  simp only [Bool.and_eq_true, decide_eq_true_eq] at ho
  obtain ⟨ht, hs⟩ := ho
  have := b2n_lt o.ahalf; have := b2n_lt o.bhalf
  obtain ⟨ha0, ha1, ha2⟩ := half_slot (q := o.ahalf) (n := 0) (by omega)
  obtain ⟨hb0, hb1, hb2⟩ := half_slot (q := o.bhalf) (n := 0) (by omega)
  constructor
  · simp [Fields.ok]; omega
  · show decXFold _ = _
    simp only [Nat.add_zero] at ha0 ha1 ha2 hb0 hb1 hb2
    simp only [decXFold, ha0, ha1, ha2, hb0, hb1, hb2]
    simp (disch := omega) [Nat.div_eq_of_lt, Nat.mod_eq_of_lt, wfOr_of_wellFormed h]
theorem coded_xcvt {o : XCvt} (h : WellFormed (.xcvt o) = true) : Coded (encodeFields (.xcvt o)) decodeFields (.xcvt o) := by
  rintro _ ⟨⟩
  have ho : o.ok = true := h
  simp only [XCvt.ok, Bool.and_eq_true, decide_eq_true_eq] at ho
  obtain ⟨⟨⟨⟨⟨ht, hs⟩, hc⟩, hoff⟩, hsc⟩, hso⟩ := ho
  constructor
  · simp [Fields.ok]; omega
  · show decXCvt _ = _
    simp (disch := omega) [decXCvt, Nat.div_eq_of_lt, Nat.mod_eq_of_lt, wfOr_of_wellFormed h]
theorem coded_xzero {t : Nat} (h : WellFormed (.xzero t) = true) : Coded (encodeFields (.xzero t)) decodeFields (.xzero t) := by
  rintro _ ⟨⟩
  have ht : t < 4 := of_decide_eq_true h
  constructor
  · simp [Fields.ok]; omega
  · show decXzero _ = _
    simp (disch := omega) [decXzero, Nat.div_eq_of_lt, wfOr_of_wellFormed h]
theorem coded_X2 {op : Nat} {dec : Fields → Dec Instr} {x y : Nat} {k : Nat → Nat → Instr} (hk : WellFormed (k x y) = true) (hx : x < 256) (hy : y < 256)
    (hop : op < 256 := by decide) (hdec : ∀ f, f.op = op → dec f = decX2 f k := by exact forall_op fun _ _ _ _ _ _ _ => rfl) : Coded (eR op 0 x y 0 0 0) dec (k x y) := by
  rintro _ ⟨⟩
  rw [hdec _ rfl]
  simp [Fields.ok, decX2, hop, hx, hy, wfOr_of_wellFormed hk]
theorem coded_X1 {op : Nat} {dec : Fields → Dec Instr} {n : Nat} {k : Nat → Instr} (hk : WellFormed (k n) = true) (hn : n < 256)
    (hop : op < 256 := by decide) (hdec : ∀ f, f.op = op → dec f = decX1 f k := by exact forall_op fun _ _ _ _ _ _ _ => rfl) : Coded (eR op 0 n 0 0 0 0) dec (k n) := by
  rintro _ ⟨⟩
  rw [hdec _ rfl]
  simp [Fields.ok, decX1, hop, hn, wfOr_of_wellFormed hk]
theorem coded_xfmt {ka kb : Nat} (h : WellFormed (.xfmt ka kb) = true) : Coded (encodeFields (.xfmt ka kb)) decodeFields (.xfmt ka kb) := by
  have ho : (_ && _ && _ && _) = true := h
  simp only [Bool.and_eq_true, decide_eq_true_eq] at ho
  obtain ⟨⟨⟨ha, ha'⟩, hb⟩, hb'⟩ := ho
  obtain ⟨x, rfl⟩ : ∃ x, ka = x + 1 := ⟨ka - 1, by omega⟩
  obtain ⟨y, rfl⟩ : ∃ y, kb = y + 1 := ⟨kb - 1, by omega⟩
  exact coded_X2 (k := fun x y => .xfmt (x + 1) (y + 1)) h (by omega) (by omega)
theorem coded_xloopBegin {n : Nat} (h : WellFormed (.xloopBegin n) = true) : Coded (encodeFields (.xloopBegin n)) decodeFields (.xloopBegin n) := by
  rintro _ ⟨⟩
  have ho : (_ && _) = true := h
  simp only [Bool.and_eq_true, decide_eq_true_eq] at ho
  constructor
  · simp [Fields.ok]; omega
  · show decXloop _ = _
    simp only [decXloop, show n - 1 + 1 = n by omega]
    simp
theorem coded_xloop {off : BitVec 16} : Coded (encodeFields (.xloop off)) decodeFields (.xloop off) := by
  rintro _ ⟨⟩
  have := off.isLt
  constructor
  · simp [Fields.ok]; omega
  · show decXloop _ = _
    simp only [decXloop, Nat.div_add_mod']
    simp

/-! ### Every instruction -/

theorem R3.lt_of_okS {o : R3} (h : o.okS = true) : o.d < 256 ∧ o.a < 256 ∧ o.b < 256 := by
  simp only [R3.okS, Bool.and_eq_true] at h
  obtain ⟨⟨hd, ha⟩, hb⟩ := h
  exact ⟨lt_of_wrS hd, (lt_of_rdS ha).trans (by decide), (lt_of_rdS hb).trans (by decide)⟩
theorem coded_3S {op : Nat} {dec : Fields → Dec Instr} {o : R3} {k : R3 → Instr} (hk : WellFormed (k o) = true) (ho : o.okS = true) (hop : op < 256 := by decide)
    (hdec : ∀ f, f.op = op → f.fn = 0 → dec f = dec3 f k := by exact forall_op_fn fun _ _ _ _ _ _ => rfl) : Coded (e3 op 0 o) dec (k o) := by
  obtain ⟨hd, ha, hb⟩ := R3.lt_of_okS ho
  exact coded_3 hk hd ha hb hop (by decide) hdec
theorem and_lt {p q : Nat → Bool} {x y m n : Nat} (h : (p x && q y) = true) (hp : p x = true → x < m) (hq : q y = true → y < n) : x < m ∧ y < n := by
  rw [Bool.and_eq_true] at h
  exact ⟨hp h.1, hq h.2⟩
/-- Two fields, each in its range. -/
theorem coded_2S {op fn : Nat} {dec : Fields → Dec Instr} {o : R2} {k : R2 → Instr} {p q : Nat → Bool} (hk : WellFormed (k o) = true)
    (ho : (p o.d && q o.a) = true) (hp : p o.d = true → o.d < 256) (hq : q o.a = true → o.a < 256) (hop : op < 256 := by decide) (hfn : fn < 16 := by decide)
    (hdec : ∀ f, f.op = op → f.fn = fn → f.m = 0 → dec f = dec2 f k := by exact forall_op_fn_m fun _ _ _ _ _ => rfl) : Coded (e2 op fn o) dec (k o) := by
  obtain ⟨hd, ha⟩ := and_lt ho hp hq
  exact coded_2 hk hd ha hop hfn hdec
theorem lt_of_rdS' {n : Nat} (h : rdS n = true) : n < 256 := (lt_of_rdS h).trans (by decide)
theorem lt_of_okM' {n : Nat} (h : okM n = true) : n < 256 := (lt_of_okM h).trans (by decide)
theorem coded_countBits {op : Nat} {dec : Fields → Dec Instr} {o : R2N} {k : R2N → Instr} (hk : WellFormed (k o) = true) (ho : o.okB = true)
    (hop : op < 256 := by decide) (hdec : ∀ f, f.op = op → dec f = decR2N f k := by exact forall_op fun _ _ _ _ _ _ _ => rfl) : Coded (eR2N op o) dec (k o) := by
  simp only [R2N.okB, Bool.and_eq_true, decide_eq_true_eq] at ho
  obtain ⟨⟨⟨hd, ha⟩, -⟩, hn⟩ := ho
  exact coded_R2N hk (lt_of_wrS hd) (lt_of_rdS' ha) (by omega) hop hdec
theorem coded_mpeekDepth {d : Nat} (h : WellFormed (.mpeekDepth d) = true) : Coded (encodeFields (.mpeekDepth d)) decodeFields (.mpeekDepth d) := by
  rintro _ ⟨⟩
  refine ⟨by simp [Fields.ok, lt_of_wrS h], ?_⟩
  show (do
    zeros [0, 0, 0]
    noPred _
    wfOr (.mpeekDepth d)) = _
  simp [wfOr_of_wellFormed h]
theorem coded_mpopcBits {o : R2} (h : WellFormed (.mpopcBits o) = true) : Coded (encodeFields (.mpopcBits o)) decodeFields (.mpopcBits o) := by
  rintro _ ⟨⟩
  obtain ⟨hd, ha⟩ := and_lt h lt_of_wrS lt_of_okM'
  refine ⟨by simp [Fields.ok, hd, ha], ?_⟩
  show (do
    zeros [0, 0]
    noPred _
    wfOr (.mpopcBits o)) = _
  simp [wfOr_of_wellFormed h]
theorem coded_ABS {op fn : Nat} {dec : Fields → Dec Instr} {a b : Nat} {k : Nat → Nat → Instr} (hk : WellFormed (k a b) = true) (ho : (rdS a && rdS b) = true)
    (hop : op < 256 := by decide) (hfn : fn < 16 := by decide) (hdec : ∀ f, f.op = op → f.fn = fn → dec f = decAB f k := by exact forall_op_fn fun _ _ _ _ _ _ => rfl) :
    Coded (eR op fn 0 a b 0 0) dec (k a b) := by
  rw [Bool.and_eq_true] at ho
  exact coded_AB hk (lt_of_rdS' ho.1) ho.2 hop hfn hdec
theorem coded_ABP {op fn : Nat} {dec : Fields → Dec Instr} {a b : Nat} {k : Nat → Nat → Instr} (hk : WellFormed (k a b) = true) (ho : (okP a && rdS b) = true)
    (hop : op < 256 := by decide) (hfn : fn < 16 := by decide) (hdec : ∀ f, f.op = op → f.fn = fn → dec f = decAB f k := by exact forall_op_fn fun _ _ _ _ _ _ => rfl) :
    Coded (eR op fn 0 a b 0 0) dec (k a b) := by
  rw [Bool.and_eq_true] at ho
  exact coded_AB hk (lt_of_okP ho.1) ho.2 hop hfn hdec
theorem coded_3M {op fn : Nat} {dec : Fields → Dec Instr} {o : R3} {k : R3 → Instr} (hk : WellFormed (k o) = true) (ho : (wrM o.d && okM o.a && okM o.b) = true)
    (hop : op < 256 := by decide) (hfn : fn < 16 := by decide) (hdec : ∀ f, f.op = op → f.fn = fn → dec f = dec3 f k := by exact forall_op_fn fun _ _ _ _ _ _ => rfl) :
    Coded (e3 op fn o) dec (k o) := by
  simp only [Bool.and_eq_true] at ho
  obtain ⟨⟨hd, ha⟩, hb⟩ := ho
  exact coded_3 hk (lt_of_wrM hd) (lt_of_okM' ha) (lt_of_okM' hb) hop hfn hdec
theorem coded_3P {op : Nat} {dec : Fields → Dec Instr} {o : R3} {k : R3 → Instr} (hk : WellFormed (k o) = true) (ho : (wrP o.d && okP o.a && rdS o.b) = true)
    (hop : op < 256 := by decide) (hdec : ∀ f, f.op = op → f.fn = 0 → dec f = dec3 f k := by exact forall_op_fn fun _ _ _ _ _ _ => rfl) : Coded (e3 op 0 o) dec (k o) := by
  simp only [Bool.and_eq_true] at ho
  obtain ⟨⟨hd, ha⟩, hb⟩ := ho
  exact coded_3 hk (lt_of_wrP hd) (lt_of_okP ha) (lt_of_rdS' hb) hop (by decide) hdec
theorem coded_vnot {o : VT1} (h : WellFormed (.vnot o) = true) : Coded (encodeFields (.vnot o)) decodeFields (.vnot o) := by
  have ho : o.ok = true := h
  simp only [VT1.ok, Bool.and_eq_true] at ho
  obtain ⟨⟨⟨hd, ha⟩, -⟩, hp⟩ := ho
  exact coded_VT1 h (lt_of_okVT hd) (lt_of_okVT ha) hp
theorem coded_count {op : Nat} {dec : Fields → Dec Instr} {o : VT1} {k : VT1 → Instr} (hk : WellFormed (k o) = true) (ho : o.okCount = true)
    (hop : op < 256 := by decide) (hdec : ∀ f, f.op = op → dec f = decVT1 f k := by exact forall_op fun _ _ _ _ _ _ _ => rfl) : Coded (eVT1 op o) dec (k o) := by
  simp only [VT1.okCount, Bool.and_eq_true] at ho
  obtain ⟨⟨⟨hd, ha⟩, -⟩, hp⟩ := ho
  exact coded_VT1 hk ((lt_of_okV hd).trans (by decide)) (lt_of_okVT ha) hp hop hdec
theorem coded_vbs {o : VT1} (h : WellFormed (.vbs o) = true) : Coded (encodeFields (.vbs o)) decodeFields (.vbs o) := by
  have ho : o.okBs = true := h
  simp only [VT1.okBs, Bool.and_eq_true] at ho
  obtain ⟨⟨⟨hd, ha⟩, -⟩, hp⟩ := ho
  exact coded_VT1 h (lt_of_okVT hd) (lt_of_rdS' ha) hp
theorem FE.okD {rd : Nat → Bool} {o : FE} (h : o.ok rd = true) : rd o.d = true := by
  rw [FE.ok, Bool.and_eq_true] at h
  exact h.1
theorem coded_ste {o : FE} (h : WellFormed (.ste o) = true) : Coded (encodeFields (.ste o)) decodeFields (.ste o) := by
  have hd : o.d = 0 := by simpa using FE.okD (rd := (· == 0)) (o := o) h
  refine coded_FE (rd := (· == 0)) h h (by omega) (by decide) (fun f hop hc => ?_)
  obtain ⟨op, fn, d, a, b, c, p, m⟩ := f
  subst hop
  have hc : ¬ (c = 4 ∨ c = 6) := by simp only at hc; omega
  exact if_neg hc
theorem coded_fwS {op fn : Nat} {dec : Fields → Dec Instr} {n a : Nat} {k : Nat → Nat → Instr} (hk : WellFormed (k n a) = true) (ho : (rdS a && n < 16) = true)
    (hop : op < 256 := by decide) (hfn : fn < 16 := by decide) (hdec : ∀ f, f.op = op → f.fn = fn → dec f = decFwA f k := by exact forall_op_fn fun _ _ _ _ _ _ => rfl) :
    Coded (eR op fn 0 a 0 0 (n * 256)) dec (k n a) := by
  rw [Bool.and_eq_true, decide_eq_true_eq] at ho
  exact coded_fwA hk ho.1 ho.2 hop hfn hdec
theorem coded_trlSetCounter {n a : Nat} (h : WellFormed (.trlSetCounter n a) = true) : Coded (encodeFields (.trlSetCounter n a)) decodeFields (.trlSetCounter n a) := by
  have ho : (_ && _) = true := h
  simp only [Bool.and_eq_true, decide_eq_true_eq] at ho
  exact coded_fwA h ho.2 ho.1
theorem coded_range {op : Nat} {dec : Fields → Dec Instr} {x y : Nat} {k : Nat → Nat → Instr} (hk : WellFormed (k x y) = true)
    (ho : (x < 128 && y ≤ 128 && x + y ≤ 128) = true) (hop : op < 256 := by decide) (hdec : ∀ f, f.op = op → dec f = decX2 f k := by exact forall_op fun _ _ _ _ _ _ _ => rfl) :
    Coded (eR op 0 x y 0 0 0) dec (k x y) := by
  simp only [Bool.and_eq_true, decide_eq_true_eq] at ho
  exact coded_X2 hk (by omega) (by omega) hop hdec

/-- An instruction's fields fit, and the decoder takes them to the instruction; an event has no fields. -/
theorem encodeFields_coded (i : Instr) (h : WellFormed i = true) : Coded (encodeFields i) decodeFields i := by
  cases i
  case add | sub | mul => exact coded_RTS h h
  case mulh | div | rem | shl | shr | sra | slt | sltn | min | max | bext | bdep | fmin | fmax => exact coded_RT h h
  case clz | ctz | popc | fclass => exact coded_RT1 h h
  case and | or | xor | slotSpill => exact coded_3S h h
  case sext | zext => exact coded_countBits h h
  case mov | mpeek | tsendNew | rqPop | slotReap | slotLoad => exact coded_2S h h lt_of_wrS lt_of_rdS'
  case addi => exact coded_ITS h h
  case andi | ori | xori => exact coded_I2 h h
  case shli | shri | srai => exact coded_IT h h
  case li => exact coded_li h
  case lih => exact coded_lih h
  case fadd | fsub | fmul | fdiv => exact coded_F3 h h
  case ffma => exact coded_ffma h
  case fsqrt => exact coded_fsqrt h
  case fcmp => exact coded_fcmp h
  case fcvt => exact coded_fcvt h
  case br | call => exact coded_B0
  case bz | bnz => exact coded_B1 h (lt_of_rdS' h)
  case mdiv | melse => exact coded_B1 h (lt_of_okM' h)
  case beq | bne | blt | bge | bltn | bgen => exact coded_B2 h h
  case callr | jr | haltKeep | mpush | mspill | mfill | launch | rqPush | cpyWait => exact coded_A h h
  case ret | halt | nop | mjoin | refill | fenceI | gbar | yield | wfi | eret | xend => exact coded_0
  case vcmp | vfcmp => exact coded_VCmp h h
  case mpop => exact coded_D h (lt_of_wrS h)
  case mpeekDepth => exact coded_mpeekDepth h
  case mpoke | cntDec | tsend => exact coded_ABS h h
  case hhDsc | hhZero => exact coded_ABP h h
  case mset => exact coded_2S h h lt_of_wrM lt_of_rdS'
  case mnot => exact coded_2S h h lt_of_wrM lt_of_okM'
  case mand | mor | mxor => exact coded_3M h h
  case mpopc | mfirst => exact coded_2S h h lt_of_wrS lt_of_okM'
  case mpopcBits => exact coded_mpopcBits h
  case lexit => exact coded_lexit h
  case sow | vcall => exact coded_AP h h
  case vadd | vsub | vmul => exact coded_VTS h h
  case vmulh | vshl | vshr | vsra | vmin | vmax | vand | vor | vxor | vfmin | vfmax => exact coded_VT h h
  case vmad => exact coded_vmad h
  case vnot => exact coded_vnot h
  case vclz | vpopc => exact coded_count h h
  case vbs => exact coded_vbs h
  case vabs => exact coded_vabs h
  case vsel => exact coded_vsel h
  case vsext | vzext => exact coded_VTN h h
  case vext => exact coded_vext h
  case vins => exact coded_vins h
  case vfadd | vfsub | vfmul | vfdiv | vhadd | vhmul => exact coded_VF3 h h
  case vffma | vhfma => exact coded_VF4 h h
  case vfsqrt => exact coded_VF2 (tys := Ty.fp) (rs := fun _ => true) h h
  case vfrcp | vfrsq | vfexp2 | vflog2 => exact coded_VF2 (tys := (· == .f32)) (rs := fun _ => true) h h
  case vfround => exact coded_VF2 h h
  case vfcvt => exact coded_vfcvt h
  case vqblkExp => exact coded_vqblkExp h
  case vqblkMan => exact coded_vqblkMan h
  case vbpt => exact coded_vbpt h
  case vshuf | vbcast | vrot => exact coded_VX3 h h
  case vred => exact coded_vred h
  case vscan => exact coded_vscan h
  case vmatch => exact coded_vmatch h
  case vld | vldu | lld => exact coded_VLoad h h
  case vst | lst => exact coded_VStore h h
  case vldacc => exact coded_vldacc h
  case vaadd | vamin | vamax | vaand | vaor | vaxor | vaxch | vacas => exact coded_VAtom h h
  case ld | lds => exact coded_Load h h
  case st | sts => exact coded_Store h h
  case ldf | ldff => exact coded_FE h h (lt_of_wrS (FE.okD h))
  case stf => exact coded_FE h h (lt_of_rdS' (FE.okD h))
  case ste => exact coded_ste h
  case steScalar => exact coded_steScalar h
  case steVector => exact coded_steVector h
  case rput => exact coded_rput h
  case sputfe => exact coded_sputfe h
  case amsg => exact coded_amsg h
  case aadd | amin | amax | aand | aor | axor | axch | acas => exact coded_Atom h h
  case fence => exact coded_fence h
  case l1wb => exact coded_cache (all := .l1wbAll) h h
  case l1inv => exact coded_cache (all := .l1invAll) h h
  case l1wbi => exact coded_cache (all := .l1wbiAll) h h
  case cdcf => exact coded_cache (all := .cdcfAll) h h
  case l1wbAll => exact coded_cacheAll (k := .l1wb)
  case l1invAll => exact coded_cacheAll (k := .l1inv)
  case l1wbiAll => exact coded_cacheAll (k := .l1wbi)
  case cdcfAll => exact coded_cacheAll (k := .cdcf)
  case pld => exact coded_pld h
  case pmov => exact coded_2S h h lt_of_wrP lt_of_okP
  case padd | pnarrow | pperm => exact coded_3P h h
  case pget => exact coded_pget h
  case ptest => exact coded_ptest h
  case barArrive | barWait | barSync => exact coded_bar h h
  case expect => exact coded_expect h
  case cntWait => exact coded_2S h h (fun hd => (lt_of_feReg hd).trans (by decide)) lt_of_rdS'
  case slotStart => exact coded_slotStart h
  case slotStartTask => exact coded_slotStartTask h
  case sys | ebreak => exact coded_imm16
  case trap => exact coded_trap h
  case cget => exact coded_cget h
  case cput => exact coded_cput h
  case cswap => exact coded_cswap h
  case cfq => exact coded_cfq h
  case tlbInvPage => exact coded_tlb (kind := 0) (k := .tlbInvPage) h h
  case tlbInvSpace => exact coded_tlb (kind := 1) (k := .tlbInvSpace) h h
  case tlbInvAll => exact coded_tlb (kind := 2) (k := .tlbInvAll) h h
  case cpyMl | cpyLm | cpyLl | cpyMr => exact coded_cpy h h
  case fwTake | fwRes => exact coded_fwD h h
  case fwGive | fwResDef | fwPub => exact coded_fwS h h
  case trlSetCounter => exact coded_trlSetCounter h
  case trlSetTerm => exact coded_trlSetTerm h
  case trlClrCounter n => exact coded_trl h ((of_decide_eq_true h : n < 16).trans (by decide))
  case trlClrTerm => exact coded_trl h (of_decide_eq_true h)
  case xlda | xldb => exact coded_XLoad h h
  case xmul => exact coded_xmul h
  case xfold => exact coded_xfold h
  case xcvt => exact coded_xcvt h
  case xzero => exact coded_xzero h
  case xrow | xcol => exact coded_range h h
  case xfmt => exact coded_xfmt h
  case xwait n | xpost n => exact coded_X1 h ((of_decide_eq_true h : n < 16).trans (by decide))
  case xloopBegin => exact coded_xloopBegin h
  case xloop => exact coded_xloop
  all_goals rintro _ ⟨⟩

/-- Settles O58: the fields of a well-formed instruction fit into its word, and the decoder of its shape reads every operand back. -/
theorem encodingRoundTrip : Obligations.EncodingRoundTrip := by
  unfold Obligations.EncodingRoundTrip
  intro i w hwf he
  obtain ⟨f, hf, -⟩ := Option.map_eq_some_iff.mp he
  obtain ⟨hok, hdec⟩ := encodeFields_coded i hwf f hf
  exact decode_encode he hf hok hdec

/-- Settles O56: the decoder evaluated on each word. That the word of `trl.set` has its term in bits 15 to 8 is the model's choice (log entry 16). -/
theorem decodeWords : Obligations.DecodeWords := by
  unfold Obligations.DecodeWords
  decide

end Sys2Proof

namespace Sys2Proof.Machine

/-- The major opcodes that R190 reserves. -/
def reservedOp (op : Nat) : Prop :=
  op = 0 ∨ (0x2D ≤ op ∧ op ≤ 0x2F) ∨ op = 0x3F ∨ op = 0x4E ∨ op = 0x4F ∨ op = 0x67 ∨ op = 0x7B ∨ (0x82 ≤ op ∧ op ≤ 0x8F) ∨ op = 0x9E ∨ op = 0x9F ∨ op = 0xCF ∨
    (0xDB ≤ op ∧ op ≤ 0xDF) ∨ (0xE8 ≤ op ∧ op ≤ 0xEF) ∨ 0xFD ≤ op

theorem decodeFields_of_reservedOp {f : Fields} (h : reservedOp f.op) (hlt : f.op < 256) : decodeFields f = .error .opcode := by
  obtain ⟨op, fn, d, a, b, c, p, m⟩ := f
  dsimp only at h hlt
  rcases h with rfl | ⟨h1, h2⟩ | rfl | rfl | rfl | rfl | rfl | ⟨h1, h2⟩ | rfl | rfl | rfl | ⟨h1, h2⟩ | ⟨h1, h2⟩ | h1
  · rfl
  · interval_cases op <;> rfl
  · rfl
  · rfl
  · rfl
  · rfl
  · rfl
  · interval_cases op <;> rfl
  · rfl
  · rfl
  · rfl
  · interval_cases op <;> rfl
  · interval_cases op <;> rfl
  · interval_cases op <;> rfl

/-- Settles O57: no shape has a reserved opcode, so the word's decoder answers an error, on which a strand traps and the sequencer stops. -/
theorem reservedOpcodes : Obligations.ReservedOpcodes := by
  unfold Obligations.ReservedOpcodes
  intro w hw
  have hdec : decode w.toNat = .error .opcode := decodeFields_of_reservedOp hw (Nat.mod_lt _ (by decide))
  refine ⟨fun s k hword => State.issue_illegal hword hdec, fun s cl hword => ?_⟩
  simp only [State.issue, hword, hdec]

end Sys2Proof.Machine

/-! # Scalar operands and the frame of scalar instructions (R66, R67, R72, R73, R87, R268)

What a read of each kind of scalar source gives and what a write of each kind of destination leaves; from these, the obligations O3 and O2. -/

namespace Sys2Proof.Machine
-- One proof at a time: elaborated side by side, the proofs of the whole text need more memory than the check gives.
set_option Elab.async false

/-! ### Reading a scalar source (R66, R67, R73, R432) -/

section
variable {s : State} {k n : Nat} {fm : W64}

theorem poisStop_of_known {α : Type} {us : List HwUnit} {t : Trap} (h : ∀ u ∈ us, s.undet.contains u = false) :
    (s.poisStop k us t : Res α) = .error (.trap t) := by
  have hnone : us.filter s.undet.contains = [] := List.filter_eq_nil_iff.2 (fun u hu => by simpa using h u hu)
  simp only [State.poisStop, State.findErr, hnone, List.isEmpty_nil, if_true]

theorem rdSc_of_empty (h0 : 0 < n) (hn : n < 60) (hempty : ((s.slot k).sreg n).full = false) : rdSc k fm n s = .error (.park (.sreg n)) := by
  simp only [rdSc, if_neg h0.ne', if_pos hn, hempty]
  rfl
theorem rdSc_of_pois (h0 : 0 < n) (hn : n < 60) (hfull : ((s.slot k).sreg n).full = true) (hpois : ((s.slot k).sreg n).pois = true)
    (hknown : s.undet.contains (.sreg k n) = false) : rdSc k fm n s = .error (.trap ⟨0x11, none, some fm, 0⟩) := by
  simp only [rdSc, if_neg h0.ne', if_pos hn, hfull, hpois, Bool.not_true, Bool.false_eq_true, if_false, if_true]
  exact poisStop_of_known (by simpa using hknown)
theorem rdSc_in {m : Msg} (h : (s.core (coreOf k)).inbox.find? (s.msgFor k) = some m) :
    rdSc k fm 60 s = .ok (m.val, s.modCore (coreOf k) (fun c => { c with inbox := c.inbox.erase m })) := by
  simp only [rdSc, h]
  rfl
theorem rdSc_in_none (h : (s.core (coreOf k)).inbox.find? (s.msgFor k) = none) : rdSc k fm 60 s = .error (.park .inbox) := by
  simp only [rdSc, h]
  rfl
theorem rdSc_work {g : Gang} (hg : s.myGang k = some g) : rdSc k fm 62 s =
    if g.work < (lrw g.lrec 1).toNat then .ok (natW g.work, s.modGang g.id (fun y => { y with work := y.work + 1 })) else .ok (BitVec.allOnes 64, s) := by
  rw [State.myGang] at hg
  simp only [rdSc, hg]
  rfl
theorem rdSc_time : rdSc k fm 63 s = .ok (natW (s.gtcAt k), s) := rfl
/-- A k-register that nothing has overwritten in the last 15 cycles reads its value (R73). -/
theorem rdSc_kreg (hn : 64 ≤ n) (hold : ∀ e ∈ mget [] (s.core (coreOf k)).kold (n - 64), e.2 + 16 ≤ s.cycle)
    (hpois : (s.core (coreOf k)).kpois.contains (n - 64) = false) : rdSc k fm n s = .ok (mget 0 (s.core (coreOf k)).k (n - 64), s) := by
  have hnew : (mget [] (s.core (coreOf k)).kold (n - 64)).any (fun e => s.cycle < e.2 + 16 && e.1 != mget 0 (s.core (coreOf k)).k (n - 64)) = false := by
    rw [List.any_eq_false]
    intro e he
    simp [Nat.not_lt.2 (hold e he)]
  have h0 : n ≠ 0 := by omega
  have h60 : ¬ n < 60 := by omega
  have hports : n ≠ 60 ∧ n ≠ 62 ∧ n ≠ 63 := by omega
  obtain ⟨hin, hwork, htime⟩ := hports
  simp only [rdSc, if_neg h0, if_neg h60, if_neg hin, if_neg hwork, if_neg htime, hpois, hnew, Bool.false_eq_true, if_false]

/-- Ready registers read their values and leave the state. -/
theorem reads_all_ready {ns : List Nat} (h : ∀ n ∈ ns, (s.slot k).Ready n) : s.Reads k fm ns (ns.map (s.slot k).val) s := by
  induction ns with
  | nil => exact reads_nil.2 ⟨rfl, rfl⟩
  | cons n ns ih =>
    have htail : rdScs k fm ns s = .ok (ns.map (s.slot k).val, s) := ih (fun j hj => h j (List.mem_cons_of_mem n hj))
    simp only [State.Reads, rdScs, rdSc_of_ready (h n List.mem_cons_self), bind_ok, htail]
    rfl
end

/-! ### Writing a scalar destination (R66, R67, R72, R268) -/

/-- The strand after a write of s0 to s59: s0 discards it, and a binding on another register ends. -/
def Slot.tookS (x : Slot) (n : Nat) (v : W64) : Slot := if n = 0 then x else { x.setS n v with binds := x.binds.filter (fun b => b.loc != .reg n) }

section
variable (x : Slot) (n : Nat) (v : W64)

theorem Slot.tookS_same (h : n ≠ 0) : (x.tookS n v).sreg n = ⟨v, true, false⟩ := by
  rw [Slot.tookS, if_neg h]
  exact x.setS_sreg n v
theorem Slot.tookS_ne {m : Nat} (h : m ≠ n) : (x.tookS n v).sreg m = x.sreg m := by
  unfold Slot.tookS
  split
  · rfl
  · exact x.setS_sreg_ne v h
theorem Slot.tookS_frame : x.tookS n v = { x with s := (x.tookS n v).s, binds := (x.tookS n v).binds } := by
  unfold Slot.tookS
  split <;> rfl
end

section
variable (s : State) (k n : Nat) (v : W64)

theorem exists_writes_reg (h : n < 60) : ∃ t, s.Writes k n v t ∧ OnlySlot k s t ∧ t.slot k = (s.slot k).tookS n v := by
  by_cases h0 : n = 0
  · refine ⟨s, ?_, ⟨rfl, fun _ _ => rfl⟩, ?_⟩
    · simp only [State.Writes, wrSc, if_pos h0]
    · simp only [Slot.tookS, if_pos h0]
  · refine ⟨s.modSlot k (fun x => x.tookS n v), ?_, onlySlot_setSlot .., State.modSlot_slot ..⟩
    simp only [State.Writes, wrSc, if_neg h0, if_pos h, Slot.tookS]

/-- The core after a write of k-register `i` by strand `k`; the value before stays to be seen for 15 cycles (R73). -/
def State.tookK (i : Nat) : State :=
  s.modCore (coreOf k) (fun c =>
    { c with k := mset 0 c.k i v, kpois := c.kpois.filter (· != i)
             kold := mput c.kold i ((mget 0 c.k i, s.ownCycle k) :: (mget [] c.kold i).filter (fun e => s.cycle < e.2 + 16)) })

theorem exists_writes_kreg (h : 64 ≤ n) : ∃ t, s.Writes k n v t ∧ mget 0 (t.core (coreOf k)).k (n - 64) = v ∧
    (∀ j, j ≠ n - 64 → mget 0 (t.core (coreOf k)).k j = mget 0 (s.core (coreOf k)).k j) ∧ t.slots = s.slots ∧ t.mem = s.mem := by
  have hports : n ≠ 0 ∧ ¬ n < 60 ∧ n ≠ 61 := by omega
  obtain ⟨h0, h60, hout⟩ := hports
  have hwrite : wrSc k n v s = .ok (s.tookK k v (n - 64)) := by
    simp only [wrSc, if_neg h0, if_neg h60, if_neg hout]
    rfl
  refine ⟨_, hwrite, ?_, fun j hj => ?_, rfl, rfl⟩
  · rw [State.tookK, State.modCore_core]
    exact mget_mset_same ..
  · rw [State.tookK, State.modCore_core]
    exact mget_mset_ne _ _ _ hj
end

/-- Settles O3: each kind of source and of destination. -/
theorem scalarOperands : Obligations.ScalarOperands := by
  unfold Obligations.ScalarOperands
  refine ⟨fun s k fm n => ⟨?zero, ?full, ?empty, ?pois, ?inbox, ?noMsg, ?work, ?workDone, ?time, ?kreg⟩, fun s k n v => ⟨?wrZero, ?wrReg, exists_writes_kreg s k n v⟩⟩
  case zero =>
    rintro rfl
    exact reads_of_ready (.inl rfl) fm
  case full =>
    rintro ⟨h0, hn, hfull, hpois⟩
    have hval : (s.slot k).val n = ((s.slot k).sreg n).val := if_neg h0.ne'
    exact hval ▸ reads_of_ready (.inr ⟨hn, hfull, hpois⟩) fm
  case empty =>
    rintro ⟨h0, hn, hempty⟩
    exact rdSc_of_empty h0 hn hempty
  case pois =>
    rintro ⟨h0, hn, hfull, hpois, hknown⟩
    exact rdSc_of_pois h0 hn hfull hpois hknown
  case inbox =>
    rintro rfl m hm
    exact rdScs_one.2 (rdSc_in hm)
  case noMsg =>
    rintro rfl hm
    exact rdSc_in_none hm
  case work =>
    rintro rfl g hg hlt
    exact rdScs_one.2 ((rdSc_work hg).trans (if_pos hlt))
  case workDone =>
    rintro rfl g hg hle
    exact rdScs_one.2 ((rdSc_work hg).trans (if_neg (Nat.not_lt.2 hle)))
  case time =>
    rintro rfl
    exact rdScs_one.2 rdSc_time
  case kreg =>
    exact fun hn hold hpois => rdScs_one.2 (rdSc_kreg hn hold hpois)
  case wrZero =>
    rintro rfl
    rfl
  case wrReg =>
    rintro ⟨h0, hn⟩
    have hreg : (s.slot k).tookS n v = { (s.slot k).setS n v with binds := (s.slot k).binds.filter (fun b => b.loc != .reg n) } := if_neg h0.ne'
    obtain ⟨t, hwrite, honly, hslot⟩ := exists_writes_reg s k n v hn
    refine ⟨t, hwrite, honly, ?_, fun m hm => ?_, ?_⟩
    · rw [hslot, Slot.tookS_same _ _ _ h0.ne']
    · rw [hslot, Slot.tookS_ne _ _ _ hm]
    · rw [hslot, hreg]
      rfl

/-! ### The frame of an instruction that computes a value (R59, R87, R268, R397) -/

/-- Flags are sticky in FFLAGS, and nothing else of the state is touched. -/
theorem flagged_frame (s : State) (k fl : Nat) : OnlySlot k s (s.flagged k fl) ∧ (s.flagged k fl).slot k = { s.slot k with fflags := (s.slot k).fflags ||| natW fl } := by
  unfold State.flagged
  split
  · next h0 => exact ⟨⟨rfl, fun _ _ => rfl⟩, by simp [h0, natW]⟩
  · exact ⟨onlySlot_setSlot .., State.modSlot_slot ..⟩

/-- Settles O2: the value is written as O1 says, and each of its steps changes one strand alone. -/
theorem scalarFrame : Obligations.ScalarFrame := by
  unfold Obligations.ScalarFrame
  intro i f s k hform hturn hd hready r
  obtain ⟨hflags, hflagSlot⟩ := flagged_frame s k r.2
  obtain ⟨t, hwrite, hwritten, hslot⟩ := exists_writes_reg (s.flagged k r.2) k f.d r.1 hd
  have hmay : (s.slot k).May 0 [f.d] [] := by
    refine ⟨Nat.zero_le _, fun _ d hd' => ?_, by simp⟩
    obtain rfl := List.mem_singleton.1 hd'
    omega
  have honly := (hflags.trans hwritten).trans (onlySlot_advance t k)
  refine ⟨t.advance k, scalarResults i f hform s k t hturn hmay ⟨_, s, reads_all_ready hready, hwrite⟩, honly, honly.sameBytes, ?_⟩
  obtain ⟨c, hadv⟩ := advance_slot t k
  rw [hslot, hflagSlot] at hadv
  rw [hadv]
  refine ⟨fun h0 => Slot.tookS_same _ _ _ h0, fun n hn => Slot.tookS_ne _ _ _ hn, fun h0 => by simp [Slot.tookS, h0], ?_⟩
  rw [Slot.tookS_frame]

end Sys2Proof.Machine

/-! # Branches, calls, returns and retirement (R208 to R212, R395)

Each instruction's body answers the state that its rule gives; from these and `jumpI_ok` the obligation O5. -/

namespace Sys2Proof.Machine
-- One proof at a time: elaborated side by side, the proofs of the whole text need more memory than the check gives.
set_option Elab.async false

section
variable {s s1 t : State} {k : Nat}

theorem rdSc_bind {α : Type} {fm v : W64} {n : Nat} (h : s.Reads k fm [n] [v] t) (f : W64 × State → Res α) : (rdSc k fm n s >>= f) = f (v, t) :=
  congrArg (· >>= f) (rdScs_one.1 h)
theorem then_ok {α β : Type} {m : Res α} {a : α} {f : α → Res β} {r : Res β} (hm : m = .ok a) (hf : f a = r) : (m >>= f) = r := by
  rw [hm]
  exact hf

/-- A branch whose body is `branchIf` with the condition `c`. -/
theorem branch_of_exec {i : Instr} {srcs : List Nat} {off : BitVec 32} {c : List W64 → Bool} (hexec : ∀ s, exec i s = branchIf i srcs off c s) :
    Branch i srcs off c := by
  intro s k t hturn hmay ⟨vs, s1, hread, hcase⟩
  refine (hexec s).trans (jumpI_ok hturn hmay (then_ok hread ?_))
  rcases hcase with ⟨hc, rfl⟩ | ⟨hc, s2, htarget, rfl⟩
  · exact if_neg (by simp [hc])
  · exact (if_pos hc).trans (then_ok htarget rfl)

theorem Slot.targetBad_guard {x : Slot} {v : W64} (h : x.targetBad v = 0) : ¬ x.targetBad v ≠ 0 := not_not.2 h

/-- `ret` on a call's entry (KIND 2) resumes at its offset with its mask (R211). -/
theorem State.retStep_call {s2 : State} (n : Nat) (hdepth : (s.slot k).depth ≠ 0) (hpois : s.msPois k 0 = false) (hkind : (s.msEntry k 0).kind = 2)
    (hresume : ((s.unlink k).msDrop k 1).resumeAt k (s.msEntry k 0).resume = .ok s2) :
    s.retStep k (n + 1) = .ok (s2.modSlot k (fun x => x.setM 0 ((s.msEntry k 0).mask &&& (s.slot k).m7))) :=
  then_ok (State.topEntry_ok hdepth hpois) ((if_pos hkind).trans (then_ok hresume rfl))

/-- Outside a reconvergence a strand that halts retires (R212). -/
theorem State.haltStep_ok (keep : Nat) (h : (s.slot k).inReconv = none) : s.haltStep k keep = .ok (s.retire k keep false) := by
  simp only [State.haltStep, h]

/-- Segments that lose power hold what they held, and no strand is concerned (R43, R360). -/
theorem powerDown_calm (s : State) (c keep : Nat) : Calm s (s.powerDown c keep) := by
  refine calm_foldl (fun u j => calm_ite (.refl u) ?_) _ _
  simp only [State.powerSeg, Bool.false_eq_true, if_false]
  exact calm_ite (.refl u) (setCore_calm ..)

/-- The slot that a retired strand leaves (R43, R212). -/
def Slot.ended (x : Slot) : Slot := { Slot.reset with phase := .halted, gen := x.gen, held := x.held, pairOf := x.pairOf, savea := x.savea }

/-- A strand of no gang and no task leaves its slot alone when it retires. -/
theorem retire_unowned (s : State) (k keep : Nat) (ab : Bool) (hwidth : (s.slot k).width ≠ 64) (hjob : (s.slot k).job = .none) :
    ((s.retire k keep ab).slot k) = (s.slot k).ended ∧ (s.retire k keep ab).mem = s.mem ∧ (s.retire k keep ab).gangs = s.gangs := by
  simp only [State.retire, hjob, if_neg hwidth]
  have hmem : ∀ (u : State) c, (u.powerDown c keep).mem = u.mem := fun u c => by
    refine foldl_keeps State.mem (fun t j => ?_) _ _
    simp only [State.powerSeg, Bool.false_eq_true, if_false]
    split
    · rfl
    · split <;> rfl
  rw [(powerDown_calm ..).slot, hmem, (powerDown_calm ..).gangs]
  split <;> exact ⟨(State.modCore_slot ..).trans (State.modSlot_slot ..), rfl, rfl⟩

end

/-- Settles O5: each body answers what its rule gives. -/
theorem controlFlow : Obligations.ControlFlow := by
  unfold Obligations.ControlFlow
  refine ⟨⟨fun _ => branch_of_exec exec_br, fun _ => branch_of_exec exec_bz, fun _ => branch_of_exec exec_bnz,
    fun _ => branch_of_exec exec_beq, fun _ => branch_of_exec exec_bne, fun _ => branch_of_exec exec_blt, fun o => ?bge,
    fun _ => branch_of_exec exec_bltn, fun o => ?bgen⟩, ⟨?call, ?callr, ?ret, ?jr, ?halt, ?haltKeep, ?nop⟩, ?halted⟩
  case bge =>
    have hcond : (fun v : List W64 => !(lrw v 0).slt (lrw v 1)) = fun v => decide ((lrw v 1).toInt ≤ (lrw v 0).toInt) := by
      funext v
      simp only [BitVec.slt, ← decide_not, Int.not_lt]
    exact hcond ▸ branch_of_exec exec_bge
  case bgen =>
    have hcond : (fun v : List W64 => !decide (lrw v 0 < lrw v 1)) = fun v => decide ((lrw v 1).toNat ≤ (lrw v 0).toNat) := by
      funext v
      simp only [BitVec.lt_def, ← decide_not, Nat.not_lt]
    exact hcond ▸ branch_of_exec exec_bgen
  case call =>
    rintro off s k t hturn hmay ⟨s2, hroom, htarget, rfl⟩
    have hpush : s.pushChecked k [⟨2, (s.slot k).pc + 2, (s.slot k).m0⟩] = .ok (s.msPush k ⟨2, (s.slot k).pc + 2, (s.slot k).m0⟩) :=
      State.pushChecked_ok (by simpa using hroom)
    exact (exec_call _).trans (jumpI_ok hturn hmay (then_ok hpush (then_ok htarget rfl)))
  case callr =>
    rintro a s k t hturn hmay ⟨v, s1, hread, hgood, henter⟩
    exact (exec_callr _).trans (jumpI_ok hturn hmay ((rdSc_bind hread _).trans ((if_neg (Slot.targetBad_guard hgood)).trans henter)))
  case ret =>
    rintro s k t hturn hmay ⟨hdepth, hpois, hkind, s2, hresume, rfl⟩
    exact (exec_ret _).trans (jumpI_ok hturn hmay (State.retStep_call _ hdepth hpois hkind hresume))
  case jr =>
    rintro a s k t hturn hmay ⟨v, s1, s2, hread, hhigh, htarget, rfl⟩
    exact (exec_jr _).trans (jumpI_ok hturn hmay ((rdSc_bind hread _).trans (ensureV_then (beq_iff_eq.2 hhigh) (then_ok htarget rfl))))
  case halt =>
    rintro s k t hturn hmay ⟨hreconv, rfl⟩
    exact (exec_halt _).trans (jumpI_ok hturn hmay (State.haltStep_ok 0 hreconv))
  case haltKeep =>
    rintro a s k t hturn hmay ⟨v, s1, hread, hhigh, hreconv, rfl⟩
    exact (exec_haltKeep _).trans (jumpI_ok hturn hmay ((rdSc_bind hread _).trans (ensureV_then (beq_iff_eq.2 hhigh) (State.haltStep_ok _ hreconv))))
  case nop =>
    rintro s k t hturn hmay rfl
    exact (exec_nop _).trans (scalarI_ok hturn hmay rfl)
  case halted =>
    intro s k hturn hreconv hwidth hjob
    have hmay : (s.slot k).May 0 [] [] := by simp [Slot.May]
    obtain ⟨hslot, hmem, hgangs⟩ := retire_unowned s k 0 false hwidth hjob
    refine ⟨_, (exec_halt s).trans (jumpI_ok hturn hmay (State.haltStep_ok 0 hreconv)), ?_, ?_, ?_, ?_, hmem, hgangs⟩ <;> rw [hslot] <;> rfl

end Sys2Proof.Machine

/-! # Compares and mask registers (R58, R70, R213, R218)

The lanes of a compare when nothing is empty or poisoned, the mask instructions, and the frame of a mask write: the obligation O7. -/

namespace Sys2Proof.Machine
-- One proof at a time: elaborated side by side, the proofs of the whole text need more memory than the check gives.
set_option Elab.async false

/-- The lanes whose compare holds are those of the pairs (lane, result) whose result holds. -/
theorem filter_pairs {α : Type} (l : List Nat) (f : Nat → α) (p : α → Bool) :
    ((l.map (fun i => (i, f i))).filter (fun r => p r.2)).map (·.1) = l.filter (fun i => p (f i)) := by
  rw [List.filter_map, List.map_map]
  exact List.map_id _

theorem or_and_zero (a b : W64) : a ||| (b &&& 0) = a := by simp

/-- With every source full and clean, a compare writes its mask and raises its flags (R213). -/
theorem compare_of_exec {i : Instr} {o : VCmp} {f : Nat → Nat → Bool × Nat} (hexec : ∀ s, exec i s = cmpInto i o f s) : Compare i o f := by
  rintro s k t hturn hmay ⟨hready, fl, rfl, rfl⟩
  refine (hexec s).trans (strandWith_ok hturn hmay ?_)
  simp only [emptyReg_none hready, poisLanes_zero hready, and_compl_zero, if_true, filter_pairs _ _ Prod.fst, List.foldl_map, or_and_zero]

theorem maskI_completes {i : Instr} {d : Nat} {f : Slot → W64} (hexec : ∀ s, exec i s = maskI i d f s) :
    Completes i 0 [] [] (fun k s t => t = s.modSlot k (fun x => x.setM d (f x))) := by
  rintro s k t hturn hmay rfl
  exact (hexec s).trans (scalarI_ok hturn hmay rfl)

/-- Settles O7: compares, the mask instructions, and what a mask write leaves. -/
theorem comparesAndMasks : Obligations.ComparesAndMasks := by
  unfold Obligations.ComparesAndMasks
  refine ⟨⟨fun _ => compare_of_exec exec_vcmp, fun _ => compare_of_exec exec_vfcmp⟩, ⟨?mset, fun _ => maskI_completes exec_mand, fun _ => maskI_completes exec_mor,
    fun _ => maskI_completes exec_mxor, fun _ => maskI_completes exec_mnot⟩, fun x n v hn => ⟨x.setM_mreg n v, fun _ => x.setM_mreg_ne v, rfl⟩⟩
  rintro o s k t hturn hmay ⟨v, s1, hread, rfl⟩
  exact (exec_mset s).trans (scalarI_ok hturn hmay (rdSc_bind hread _))

end Sys2Proof.Machine

/-! # Lanes of a strand (R39 to R42, R220 to R226, R400)

`lexit`, `refill`, `sow` with no group or one, and `vcall`: the obligation O8. -/

namespace Sys2Proof.Machine
-- One proof at a time: elaborated side by side, the proofs of the whole text need more memory than the check gives.
set_option Elab.async false

/-! ### Masks and their lanes -/

theorem getLsbD_setBit_true (m : W64) (i j : Nat) : (setBit m i true).getLsbD j = (m.getLsbD j || (decide (j < 64) && decide (i = j))) := by
  have hpow : (BitVec.ofNat 64 (2 ^ i)).getLsbD j = (decide (j < 64) && decide (i = j)) := by
    rw [BitVec.getLsbD_ofNat, Nat.testBit_two_pow]
  simp only [setBit, if_true, BitVec.getLsbD_or, hpow]

theorem getLsbD_foldl_setBit (l : List Nat) (m : W64) (j : Nat) :
    (l.foldl (fun m i => setBit m i true) m).getLsbD j = (m.getLsbD j || (decide (j < 64) && decide (j ∈ l))) := by
  induction l generalizing m with
  | nil => simp
  | cons i l ih => rw [List.foldl_cons, ih, getLsbD_setBit_true]; grind

/-- The mask of the lanes of a mask is the mask. -/
theorem maskOf_lanesOf (m : W64) : maskOf (lanesOf m) = m := by
  refine BitVec.eq_of_getLsbD_eq fun j hj => ?_
  rw [maskOf, getLsbD_foldl_setBit]
  have hbit : (m.toNat / 2 ^ j % 2 == 1) = m.getLsbD j := (Nat.testBit_eq_decide_div_mod_eq ..).symm
  simp [lanesOf, bitAt, hbit, hj]

/-! ### Room on the mask stack -/

theorem Slot.msRoom_iff {x : Slot} {n : Nat} : x.msRoom n = true ↔ x.stack.length + n - 16 = 0 ∨
    x.msUsed + (x.stack.length + n - 16) ≤ wf x.msbase 32 14 ∧ x.msAddr (x.msUsed + (x.stack.length + n - 16)) ≤ 262144 := by
  simp [Slot.msRoom]
/-- Room for more entries is room for fewer (R47, R214). -/
theorem Slot.msRoom_mono {x : Slot} {m n : Nat} (hle : m ≤ n) (h : x.msRoom n = true) : x.msRoom m = true := by
  rw [Slot.msRoom_iff] at h ⊢
  unfold Slot.msAddr at h ⊢
  omega

/-! ### Lane exit (R39, R220) -/

section
variable (s : State) (k : Nat) (e : W64)

theorem exitLanes_m7 : ((s.exitLanes k e).slot k).m7 = (s.slot k).m7 &&& ~~~e := by
  simp only [State.exitLanes, State.freePool, State.modCore_slot, State.setSlot_slot, Slot.m7, Slot.mreg]
  rw [mget_mset_ne _ _ _ (by decide), mget_mset_same]
theorem exitLanes_m0 : ((s.exitLanes k e).slot k).m0 = (s.slot k).m0 &&& ~~~e := by
  simp only [State.exitLanes, State.freePool, State.modCore_slot, State.setSlot_slot, Slot.m0, Slot.mreg]
  exact mget_mset_same ..
theorem exitLanes_stack : ((s.exitLanes k e).slot k).stack = (s.slot k).stack := by
  simp only [State.exitLanes, State.freePool, State.modCore_slot, State.setSlot_slot]
theorem exitLanes_inReconv : ((s.exitLanes k e).slot k).inReconv = (s.slot k).inReconv := by
  simp only [State.exitLanes, State.freePool, State.modCore_slot, State.setSlot_slot]
  rfl
end

/-! ### Sowing (R223 to R225) -/

theorem eraseDups_map_const {α : Type} [BEq α] [LawfulBEq α] {l : List Nat} {f : Nat → α} {w : α} (hne : l ≠ []) (h : ∀ i ∈ l, f i = w) :
    (l.map f).eraseDups = [w] := by
  obtain ⟨i, l, rfl⟩ := List.exists_cons_of_ne_nil hne
  have hrest : (l.map f).filter (fun b => !b == w) = [] := by
    rw [List.filter_eq_nil_iff]
    intro b hb
    obtain ⟨j, hj, rfl⟩ := List.mem_map.1 hb
    simp [h j (List.mem_cons_of_mem _ hj)]
  rw [List.map_cons, List.eraseDups_cons, h i List.mem_cons_self, hrest]
  rfl
theorem lanesOf_ne_nil {m : W64} (h : m ≠ 0) : lanesOf m ≠ [] := fun hnil => h (by rw [← maskOf_lanesOf m, hnil]; rfl)

section
variable {s u : State} {k a w : Nat} {p : Pred} {b : SowBody} (hfresh : (s.slot k).resumed = false)
include hfresh

/-- Without executing lanes `sow` is `nop`. -/
theorem sowStep_none (he : (s.slot k).exec p = 0) : sowStep a p k s = .ok (s.advance k) := by
  simp [sowStep, hfresh, he]

/-- Lanes that all hold one word are one group, which runs it at once. -/
theorem sowStep_one (hready : (s.slot k).LanesReady ((s.slot k).exec p) [a, a + 1]) (he : (s.slot k).exec p ≠ 0)
    (hword : ∀ l ∈ lanesOf ((s.slot k).exec p), sowWord (s.slot k) a l = w) (hdecode : sowDecode (s.slot k) w = some b)
    (hrun : b.run ((s.slot k).exec p) k s = .ok (false, u)) :
    sowStep a p k s = .ok (((u.modSlot k (fun y => { y.rested (w / 2 ^ 56) s.cycle with sowDem := false })).modSlot k
      (fun y => { y with sowst := 0, sowsth := 0, sowDem := false })).finish k false) := by
  have hwords : ((lanesOf ((s.slot k).exec p)).map (sowWord (s.slot k) a)).eraseDups = [w] := eraseDups_map_const (lanesOf_ne_nil he) hword
  have hgroup : (lanesOf ((s.slot k).exec p)).filter (fun l => sowWord (s.slot k) a l == w) = lanesOf ((s.slot k).exec p) :=
    List.filter_eq_self.2 (fun l hl => beq_iff_eq.2 (hword l hl))
  simp only [sowStep, hfresh, Bool.false_and, Bool.false_eq_true, if_false, if_neg he, emptyReg_none hready, poisLanes_zero hready, hwords, List.headD_cons,
    hgroup, maskOf_lanesOf, hdecode, hrun, List.length_singleton, Bool.or_false, State.modSlot_slot]
  rfl
end

/-- Settles O8: lane exit, refill, `sow` with no group and with one, `vcall`, and what lane exit leaves. -/
theorem lanesOfTheStrand : Obligations.LanesOfTheStrand := by
  unfold Obligations.LanesOfTheStrand
  refine ⟨⟨?lexit, ?refill, ?sowNone, ?sowOne, ?vcall, ?vcallNone⟩, fun s k e => ⟨exitLanes_m7 s k e, exitLanes_m0 s k e, exitLanes_stack s k e, rfl⟩⟩
  case lexit =>
    rintro p s k t hturn hmay ⟨hreconv, rfl⟩
    refine (exec_lexit s).trans (strandWith_ok (t := (s.exitLanes k ((s.slot k).exec p)).advance k) hturn hmay ?_)
    simp only [exitLanes_inReconv, hreconv]
  case refill =>
    rintro s k t hturn hmay (⟨hgang, rfl⟩ | ⟨g, hgang, hdepth, rfl⟩ | ⟨g, s1, hgang, hdepth, hlanes, rfl⟩)
    · exact (exec_refill _).trans (scalarI_ok hturn hmay (by simp only [hgang]))
    · exact (exec_refill _).trans (scalarI_ok hturn hmay (by simp only [hgang, if_pos hdepth]))
    · refine (exec_refill _).trans (scalarI_ok hturn hmay ?_)
      simp only [hgang, hdepth, ne_eq, not_true_eq_false, if_false]
      exact then_ok hlanes rfl
  case sowNone =>
    rintro a p s k t hturn hmay ⟨hfresh, he, rfl⟩
    exact (exec_sow s).trans (strandWith_ok hturn hmay (sowStep_none hfresh he))
  case sowOne =>
    rintro a p s k t hturn hmay ⟨hfresh, hready, w, b, u, he, hword, hdecode, hrun, rfl⟩
    exact (exec_sow s).trans (strandWith_ok hturn hmay (sowStep_one hfresh hready he hword hdecode hrun))
  case vcall =>
    rintro a p s k t hturn hmay ⟨he, hroom, hstep⟩
    have hpush : s.pushChecked k [⟨2, (s.slot k).pc + 2, (s.slot k).m0⟩] = .ok (s.msPush k ⟨2, (s.slot k).pc + 2, (s.slot k).m0⟩) :=
      State.pushChecked_ok (Slot.msRoom_mono (by simp; omega) hroom)
    exact (exec_vcall s).trans (strandWith_ok hturn hmay ((if_neg he).trans (ensureV_then hroom (then_ok hpush hstep))))
  case vcallNone =>
    rintro a p s k t hturn hmay ⟨he, rfl⟩
    exact (exec_vcall s).trans (strandWith_ok hturn hmay (if_pos he))

end Sys2Proof.Machine

/-! # Scalar loads and stores (R49, R251 to R253)

From the checked place to the register or the write: the obligation O16. -/

namespace Sys2Proof.Machine
-- One proof at a time: elaborated side by side, the proofs of the whole text need more memory than the check gives.
set_option Elab.async false

/-- An aligned place within the local store passes the checks of R251. -/
theorem lsAddr_ok {a : Int} {n : Nat} (hlow : 0 ≤ a) (hhigh : a + n ≤ 262144) (halign : a % n = 0) : lsAddr a n n = .ok a.toNat := by
  have hrange : ¬ (a < 0 ∨ a + n > 262144) := by omega
  exact (if_neg hrange).trans (if_neg (not_not.2 halign))
theorem lsPlace_ok {b : W64} {off : BitVec 16} {n : Nat} (hlow : 0 ≤ (b.toNat : Int) + off.toInt) (hhigh : (b.toNat : Int) + off.toInt + n ≤ 262144)
    (halign : ((b.toNat : Int) + off.toInt) % n = 0) :
    lsPlace b off n = .ok ⟨0, true, ((b.toNat : Int) + off.toInt).toNat, ((b.toNat : Int) + off.toInt).toNat, false⟩ :=
  then_ok (lsAddr_ok hlow hhigh halign) rfl

section
variable {i : Instr} {k v : Nat} {s s1 s2 s3 t : State} {r : Ref}

/-- A read of full, unpoisoned words of the own local store. -/
theorem State.scalarRead_ls {n : Nat} {poll : Bool} (hls : r.ls = true) (h : s.LsReady (coreOf k) r.addr n) :
    s.scalarRead k n poll r = .ok (s.lsRead (coreOf k) r.addr n, s) := by
  simp only [State.scalarRead, hls, if_true]
  exact then_ok (lsLoad_ok h) rfl

theorem loadI_ok {o : Load} {place : Nat → State → Res (Ref × State)} (hturn : s.Turn k) (hmay : (s.slot k).May 0 [o.d] []) (hplace : place k s = .ok (r, s1))
    (hread : s1.scalarRead k (szN o.sz) o.poll r = .ok (v, s2)) (hwrite : s2.Writes k o.d (natW (widen o.sgn (szN o.sz) 64 v)) s3) :
    loadI i o place s = .next (s3.finish k o.poll) :=
  strandWith_ok (adv := false) hturn hmay (then_ok hplace (then_ok hread (then_ok hwrite rfl)))
theorem storeI_ok {o : Store} {place : Nat → State → Res (Ref × State)} {w : W64} (hturn : s.Turn k) (hmay : (s.slot k).May 0 [] [])
    (hplace : place k s = .ok (r, s1)) (hread : s1.Reads k 1 [o.d] [w] s2) (hwrite : s2.scalarWrite k (szN o.sz) r (w.toNat % 256 ^ szN o.sz) = .ok t) :
    storeI i o place s = .next (t.advance k) :=
  scalarI_ok hturn hmay (then_ok hplace ((rdSc_bind hread _).trans hwrite))
end

/-- Settles O16: loads and stores, through a pointer and of the local store. -/
theorem scalarLoadsAndStores : Obligations.ScalarLoadsAndStores := by
  unfold Obligations.ScalarLoadsAndStores
  refine ⟨?ld, ?st, ?lds, ?sts⟩
  case ld =>
    rintro o s k t hturn hmay ⟨x, s1, r, s2, v, s3, s4, hindex, hplace, hread, hwrite, rfl⟩
    exact (exec_ld s).trans (loadI_ok hturn hmay ((rdSc_bind hindex _).trans hplace) hread hwrite)
  case st =>
    rintro o s k t hturn hmay ⟨x, s1, r, s2, v, s3, hindex, hplace, hdata, hwrite⟩
    exact (exec_st s).trans (storeI_ok hturn hmay ((rdSc_bind hindex _).trans hplace) hdata hwrite)
  case lds =>
    rintro o s k t hturn hmay ⟨b, s1, s2, hbase, hlow, hhigh, halign, hready, hwrite, rfl⟩
    exact (exec_lds s).trans (loadI_ok hturn hmay ((rdSc_bind hbase _).trans (then_ok (lsPlace_ok hlow hhigh halign) rfl))
      (State.scalarRead_ls rfl hready) hwrite)
  case sts =>
    rintro o s k t hturn hmay ⟨b, v, s1, s2, hbase, hdata, hlow, hhigh, halign, rfl⟩
    exact (exec_sts s).trans (storeI_ok hturn hmay ((rdSc_bind hbase _).trans (then_ok (lsPlace_ok hlow hhigh halign) rfl)) hdata rfl)

end Sys2Proof.Machine

/-! # Remote writes, active messages and the register out (R67, R256 to R258, R280, R426)

What a write of `out` sends, and the one message of each remote write: the obligation O19. -/

namespace Sys2Proof.Machine
-- One proof at a time: elaborated side by side, the proofs of the whole text need more memory than the check gives.
set_option Elab.async false

theorem rankOk_iff {v : W64} {bound : Nat} : rankOk v bound = true ↔ v.toNat < 65536 ∧ v.toNat < bound := by simp [rankOk]

section
variable {i : Instr} {k : Nat} {s s1 : State} {m : Net} {peer what : Nat}

/-- A remote write whose checks pass: its message leaves and its strand parks (R280). -/
theorem sendPark_ends {body : Nat → State → Res State} (hturn : s.Turn k) (hmay : (s.slot k).May 0 [] []) (hbody : body k s = s1.sendPark k m peer what) :
    scalarI i [] body s = .next (s1.sentFrom k m peer what) :=
  (scalarI_stop hturn hmay hbody).trans (congrArg _ (stop_parkWith ..))
end

/-! ### The register out (R67, R335, R426) -/

/-- The message that a write of `v` to `out` sends (R67). -/
def State.outMsg (s : State) (k c : Nat) (v : W64) : Net :=
  let o := (s.slot k).outdst
  ⟨s.nextMsg, .out, srcOfSlot k, c, wf o 0 4, wf o 32 32, wf o 19 9, v, natW (wf o 16 2), 0, bitAt o 18, wf o 16 2 == 2, false, false, false, 0⟩
/-- A message has left. -/
def State.sent (s : State) (m : Net) : State := { s with net := s.net ++ [m], nextMsg := s.nextMsg + 1 }

section
variable {s : State} {k c : Nat} (v : W64)

/-- With room in the held-message area and a credit nothing is waited for. -/
theorem State.outWait_none (hroom : (s.core c).heldq.length < 256) (hcredit : s.credit c = true) : s.outWait k c = none := by
  have hheld : ¬ 256 ≤ (s.core c).heldq.length := Nat.not_le.2 hroom
  simp [State.outWait, hheld, hcredit]

variable (hdst : coreOfSrc (wf (s.slot k).outdst 0 16) = some c) (hkind : wf (s.slot k).outdst 16 2 ≠ 3) (hpart : s.partOf (clOfCore c) = s.partOf (clOfSlot k))
  (hwait : s.outWait k c = none)
include hdst hkind hpart hwait

theorem sendOut_ok (hack : bitAt (s.slot k).outdst 18 = false) : sendOut k v s = .ok (s.sent (s.outMsg k c v)) := by
  simp [sendOut, hdst, hkind, hpart, hwait, hack, State.sent, State.outMsg, State.sendNet]
theorem sendOut_parks (hack : bitAt (s.slot k).outdst 18 = true) : sendOut k v s = .error (.parkWith
    ((s.sent (s.outMsg k c v)).modSlot k (fun y => { y with remote := some ⟨s.nextMsg, none⟩ })) (.remote s.nextMsg true (srcOfSlot (16 * c)) 0)) := by
  simp [sendOut, hdst, hkind, hpart, hwait, hack, State.sent, State.outMsg, State.sendNet]
end

/-- Settles O19: the register `out`, `rput`, `sputfe` and `amsg`. -/
theorem remoteWrites : Obligations.RemoteWrites := by
  unfold Obligations.RemoteWrites
  refine ⟨fun s k v c hdst hkind hpart hroom hcredit => ?out, ?rput, ?sputfe, ?amsg⟩
  case out =>
    have hwait : s.outWait k c = none := State.outWait_none hroom hcredit
    exact ⟨s.outMsg k c v, rfl, rfl, rfl, rfl, rfl, rfl, fun hack => sendOut_ok v hdst hkind hpart hwait hack, fun hack =>
      ⟨_, rfl, by rw [State.modSlot_slot], sendOut_parks v hdst hkind hpart hwait hack⟩⟩
  case rput =>
    rintro o s k t hturn hmay ⟨r, v, s1, g, m, hread, hgang, hrank, hlow, rfl, rfl⟩
    refine (exec_rput s).trans (sendPark_ends hturn hmay (then_ok hread ?_))
    simp only [hgang, lrw_first, ensureV_ok (rankOk_iff.2 ⟨hlow, hrank⟩)]
    rfl
  case sputfe =>
    rintro o s k t hturn hmay ⟨r, x, v, s1, g, hread, hgang, hrank, hlow, hpos, hhigh, halign, rfl⟩
    refine (exec_sputfe s).trans (sendPark_ends hturn hmay (then_ok hread ?_))
    simp only [hgang, lrw_first, lrw_second, ensureV_ok (rankOk_iff.2 ⟨hlow, hrank⟩), bind_ok]
    exact then_ok (lsAddr_ok hpos hhigh halign) rfl
  case amsg =>
    rintro o s k t hturn hmay ⟨a, b, c, s1, g, hread, hgang, hrank, hmsg, hhigh, rfl⟩
    have hgood : (decide (wf a 0 16 < g.rows * g.cols) && g.msg && wf a 40 24 == 0) = true := by simp [hrank, hmsg, hhigh]
    refine (exec_amsg s).trans (sendPark_ends hturn hmay (then_ok hread ?_))
    simp only [hgang, lrw_first]
    exact ensureV_then hgood rfl

end Sys2Proof.Machine

/-! # Frames of writes (R5, R22, R157, R245, R251, R252, R432)

What a write at the local-store port, a write of device memory and a scalar store into the CDC change, and what they leave: the obligation O17. -/

namespace Sys2Proof.Machine
-- One proof at a time: elaborated side by side, the proofs of the whole text need more memory than the check gives.
set_option Elab.async false

/-! ### The local-store port (R22, R245) -/

theorem wKey_inj {c w w' : Nat} : wKey c w = wKey c w' ↔ w = w' := by unfold wKey; omega

section
variable (s : State) (core : Nat)

theorem lsPut_attributes (off v n : Nat) : (s.lsPut core off v n).lsEmpty = s.lsEmpty ∧ (s.lsPut core off v n).lsPois = s.lsPois := by
  induction n generalizing s off v with
  | zero => exact ⟨rfl, rfl⟩
  | succ n ih => exact ih ..
theorem endLs_attributes (w : Nat) : (s.endLs core w).lsEmpty = s.lsEmpty ∧ (s.endLs core w).lsPois = s.lsPois :=
  ⟨foldl_keeps State.lsEmpty (fun _ _ => State.modSlot_lsEmpty ..) _ s, foldl_keeps State.lsPois (fun _ _ => State.modSlot_lsPois ..) _ s⟩
theorem setEmpty_false_wordEmpty (w w' : Nat) : (s.setEmpty core w false).wordEmpty core w' = (s.wordEmpty core w' && !decide (w' = w)) := by
  simp only [State.setEmpty, State.wordEmpty, Bool.false_eq_true, if_false, List.contains_eq_mem, List.mem_filter, bne_iff_ne, ne_eq, wKey_inj]
  grind
theorem setPoisW_false_wordPois (w w' : Nat) : (s.setPoisW core w false).wordPois core w' = (s.wordPois core w' && !decide (w' = w)) := by
  simp only [State.setPoisW, State.wordPois, Bool.false_eq_true, if_false, List.contains_eq_mem, List.mem_filter, bne_iff_ne, ne_eq, wKey_inj]
  grind

/-- What a write does to each word that it touches: it becomes full, and is no longer poisoned when all of it is written. -/
def State.wroteWord (s : State) (core off n w : Nat) : State :=
  let t := (s.setEmpty core w false).endLs core w
  if off ≤ 8 * w ∧ 8 * w + 8 ≤ off + n then t.setPoisW core w false else t
/-- Is all of a word written. -/
def wholeWord (off n w : Nat) : Bool := decide (off ≤ 8 * w) && decide (8 * w + 8 ≤ off + n)

theorem wroteWord_wordEmpty (off n w w' : Nat) : (s.wroteWord core off n w).wordEmpty core w' = (s.wordEmpty core w' && !decide (w' = w)) := by
  have hempty : (s.wroteWord core off n w).lsEmpty = (s.setEmpty core w false).lsEmpty := by
    unfold State.wroteWord
    dsimp only
    split <;> exact (endLs_attributes ..).1
  rw [State.wordEmpty, hempty]
  exact setEmpty_false_wordEmpty ..
theorem wroteWord_wordPois (off n w w' : Nat) :
    (s.wroteWord core off n w).wordPois core w' = (s.wordPois core w' && !(decide (w' = w) && wholeWord off n w)) := by
  have hkept : ((s.setEmpty core w false).endLs core w).lsPois = s.lsPois := (endLs_attributes ..).2
  unfold State.wroteWord wholeWord
  dsimp only
  split
  · next hwhole => rw [setPoisW_false_wordPois, State.wordPois, hkept]; simp [hwhole, State.wordPois]
  · next hpart =>
    have hsome : (decide (off ≤ 8 * w) && decide (8 * w + 8 ≤ off + n)) = false := by simpa using hpart
    rw [State.wordPois, hkept, hsome, Bool.and_false, Bool.not_false, Bool.and_true, State.wordPois]

theorem foldl_wroteWord_wordEmpty (off n : Nat) (l : List Nat) (w' : Nat) :
    (l.foldl (fun t w => t.wroteWord core off n w) s).wordEmpty core w' = (s.wordEmpty core w' && !decide (w' ∈ l)) := by
  induction l generalizing s with
  | nil => simp
  | cons w l ih => rw [List.foldl_cons, ih, wroteWord_wordEmpty]; grind
theorem foldl_wroteWord_wordPois (off n : Nat) (l : List Nat) (w' : Nat) :
    (l.foldl (fun t w => t.wroteWord core off n w) s).wordPois core w' = (s.wordPois core w' && !(decide (w' ∈ l) && wholeWord off n w')) := by
  induction l generalizing s with
  | nil => simp
  | cons w l ih => rw [List.foldl_cons, ih, wroteWord_wordPois]; grind

theorem lsWrite_wordEmpty (off n v w : Nat) : (s.lsWrite core off n v).wordEmpty core w = (s.wordEmpty core w && !decide (w ∈ wordsOf off n)) := by
  refine (foldl_wroteWord_wordEmpty ..).trans ?_
  rw [State.wordEmpty, (lsPut_attributes ..).1, ← State.wordEmpty]
theorem lsWrite_wordPois (off n v w : Nat) :
    (s.lsWrite core off n v).wordPois core w = (s.wordPois core w && !(decide (w ∈ wordsOf off n) && wholeWord off n w)) := by
  refine (foldl_wroteWord_wordPois ..).trans ?_
  rw [State.wordPois, (lsPut_attributes ..).2, ← State.wordPois]
end

theorem LsOnly.hot {s t : State} (h : LsOnly s t) : t.hot = s.hot := by obtain ⟨_, _, _, _, _, rfl⟩ := h; rfl
theorem LsOnly.cores {s t : State} (h : LsOnly s t) : t.cores = s.cores := by obtain ⟨_, _, _, _, _, rfl⟩ := h; rfl

/-! ### Device memory (R5, R432) -/

theorem foldl_wb_eq_wrN (s : State) (pa v n : Nat) :
    (List.range n).foldl (fun t i => t.wb (pa + i) (BitVec.ofNat 8 (v / 256 ^ i))) s = s.wrN pa v n := by
  induction n generalizing s pa v with
  | zero => rfl
  | succ n ih =>
    rw [List.range_succ_eq_map, List.foldl_cons, List.foldl_map, State.wrN, ← ih, Nat.add_zero, Nat.pow_zero, Nat.div_one]
    refine congrArg (fun f => List.foldl f _ _) (funext fun t => funext fun i => ?_)
    rw [Nat.div_div_eq_div_mul, Nat.pow_succ', Nat.add_assoc, Nat.add_comm 1 i]

/-- Only bytes of memory and of the hothouse lines differ. -/
def MemOnly (s t : State) : Prop := ∃ m h, t = { s with mem := m, hot := h }

theorem wb_memOnly (s : State) (a : Nat) (b : Byte) : MemOnly s (s.wb a b) := by
  unfold State.wb
  split
  · exact ⟨_, _, rfl⟩
  · exact ⟨_, _, rfl⟩
theorem wrN_memOnly (s : State) (pa v n : Nat) : MemOnly s (s.wrN pa v n) := by
  induction n generalizing s pa v with
  | zero => exact ⟨_, _, rfl⟩
  | succ n ih =>
    obtain ⟨m, h, heq⟩ := wb_memOnly s pa (BitVec.ofNat 8 v)
    obtain ⟨m', h', heq'⟩ := ih (s.wb pa (BitVec.ofNat 8 v)) (pa + 1) (v / 256)
    exact ⟨m', h', heq'.trans (by rw [heq])⟩

/-- The bytes after a write of `n` bytes. -/
theorem wrN_rb (s : State) (pa v n a : Nat) : (s.wrN pa v n).rb a = if pa ≤ a ∧ a < pa + n then BitVec.ofNat 8 (v / 256 ^ (a - pa)) else s.rb a := by
  split
  · next hin =>
    have hbyte := rb_wrN_in s n pa v (a - pa) (by omega)
    rwa [Nat.add_sub_cancel' hin.1] at hbyte
  · next hout => exact rb_wrN _ _ _ _ (by omega)

/-- Without undetected errors the sectors that a write covers are cleaned, and nothing else is done to them. -/
theorem foldl_cleanSector {whole : Nat → Prop} [DecidablePred whole] {found : State → Nat → State} {s : State} (hbad : s.bad = []) (l : List Nat) :
    ∃ q, l.foldl (fun t x => if whole x then t.cleanSector x else if t.bad.contains x then found t x else t) s = { s with pois := q } ∧ ∀ x ∈ q, x ∈ s.pois := by
  induction l generalizing s with
  | nil => exact ⟨_, rfl, fun _ => id⟩
  | cons x l ih =>
    rw [List.foldl_cons]
    by_cases hwhole : whole x
    · obtain ⟨q, hq, hsub⟩ := ih (s := s.cleanSector x) (by simp [State.cleanSector, hbad])
      refine ⟨q, ?_, fun y hy => List.mem_of_mem_filter (hsub y hy)⟩
      rw [if_pos hwhole, hq]
      simp [State.cleanSector, hbad]
    · rw [if_neg hwhole, if_neg (by simp [hbad])]
      exact ih hbad

theorem mask_all {n i : Nat} (h : i < n) : (2 ^ n - 1) / 2 ^ i % 2 = 1 := by
  have hbit : (2 ^ n - 1).testBit i = true := by simp [Nat.testBit_two_pow_sub_one, h]
  simpa [Nat.testBit_eq_decide_div_mod_eq] using hbit

/-- A write of device memory apart from a checkpoint, notify pages, descriptors and undetected errors: its bytes are written, and sectors that it covers are
clean. -/
theorem commit_plain {s : State} {part : Option Nat} {d pa n v : Nat} (hroom : pa + n ≤ 0x9000000000) (hreach : s.reach d pa = true) (hckpt : s.ckpt = none)
    (hnotify : s.notifyOf pa = none) (hqueues : s.queuesAt pa n = []) (hbad : s.bad = []) :
    ∃ q, s.commit part d pa n v = ({ s with pois := q } : State).wrN pa v n ∧ ∀ x ∈ q, x ∈ s.pois := by
  have hregion : ∀ m, regionOf pa ≠ .mgmt m := by
    intro m
    unfold regionOf
    split
    · simp
    · rw [if_neg (by omega), if_neg (by omega), if_neg (by omega)]
      simp
  have hheld : s.ckptHold pa = s := by simp only [State.ckptHold, hckpt]
  have htouch : s.touchLine pa = s := if_neg (by unfold hotBase; omega)
  have hphys : s.phys d pa = pa := if_neg (by omega)
  obtain ⟨q, hq, hsub⟩ := foldl_cleanSector
    (whole := fun x => (List.range 64).all (fun i => decide (pa ≤ 64 * x + i) && decide (64 * x + i < pa + n) && (2 ^ n - 1) / 2 ^ (64 * x + i - pa) % 2 == 1) = true)
    (found := fun t x => (t.poisonSector x).memEvent part (t.homeOf (64 * x)) (t.unitOf (64 * x)) 0x41 0 0 (natW (64 * x / 128 * 128))) hbad (sectorsOf pa n)
  refine ⟨q, ?_, hsub⟩
  unfold State.commit State.commitMask
  rw [if_neg (by simp [hreach])]
  split
  · next m hm => exact absurd hm (hregion m)
  · simp only [hheld, htouch, hnotify, hphys, hq, hqueues, List.foldl_nil]
    rw [← foldl_wb_eq_wrN]
    refine List.foldl_ext _ _ _ fun t i hi => ?_
    exact if_pos (mask_all (List.mem_range.1 hi))

/-- A core whose CDC holds a block has written it. -/
def Core.dirtied (b : Nat) (x : Core) : Core := { x with cdc := if mhas x.cdc b then mput x.cdc b { mget noTok x.cdc b with dirty := true } else x.cdc }

/-- Settles O17: at the local-store port, of device memory, and into a block that the CDC holds whole. -/
theorem storeFrames : Obligations.StoreFrames := by
  unfold Obligations.StoreFrames
  refine ⟨fun s core off n v hroom => ?port, fun s part d pa n v hroom hreach hckpt hnotify hqueues hbad => ?memory,
    fun s k n r v hls hdirect hroom hreach hcdc hckpt hnotify hqueues hbad => ?cdc⟩
  case port =>
    have honly := lsWrite_lsOnly s core off n v
    refine ⟨fun c a ha => lsWrite_lsByte _ _ _ _ _ hroom _ ha, fun w hw => ?_, fun w hw => ⟨?_, ?_⟩, fun w hw => ?_, honly.mem, honly.hot, honly.cores, fun j => ?_⟩
    · simp [lsWrite_wordEmpty, hw]
    · simp [lsWrite_wordEmpty, hw]
    · simp [lsWrite_wordPois, hw]
    · simp [lsWrite_wordPois, hw, wholeWord]
    · have hsame := (lsWrite_sameStrands s core off n v).slot j
      exact ⟨(congrArg Slot.s hsame :), (congrArg Slot.v hsame :), (congrArg Slot.m hsame :), (congrArg Slot.p hsame :), (congrArg Slot.status hsame :)⟩
  case memory =>
    obtain ⟨q, hcommit, hsub⟩ := commit_plain (part := part) (v := v) hroom hreach hckpt hnotify hqueues hbad
    obtain ⟨m, h, hframe⟩ := wrN_memOnly { s with pois := q } pa v n
    refine ⟨fun a => ?_, ?_⟩
    · rw [hcommit]
      exact wrN_rb ..
    · rw [hcommit, hframe]
      refine ⟨rfl, rfl, rfl, rfl, rfl, rfl, fun x hx => ?_⟩
      simpa using fun hq => absurd (hsub x hq) (by simpa using hx)
  case cdc =>
    obtain ⟨q, hcommit, -⟩ := commit_plain (part := s.partOf (clOfCore (coreOf k))) (v := v) hroom hreach hckpt hnotify hqueues hbad
    obtain ⟨m, h, hframe⟩ := wrN_memOnly { s with pois := q } r.addr v n
    have hhot : isHot r.addr = false := by unfold isHot hotBase; simp; omega
    have hwrite : s.scalarWrite k n r v = .ok ((s.commit (s.partOf (clOfCore (coreOf k))) (dieOfCore (coreOf k)) r.addr n v).modCore (coreOf k) (Core.dirtied (blkOf r.addr))) := by
      simp only [State.scalarWrite, hls, hdirect, hhot, hcdc, Bool.false_and, Bool.false_eq_true, if_false, Bool.not_true, Bool.and_false]
      rfl
    refine ⟨_, hwrite, fun a => ?_, ?_, ?_, fun c => ?_⟩
    · exact (congrArg (fun u => State.rb u a) hcommit).trans (wrN_rb ..)
    · rw [State.modCore_slots, hcommit, hframe]
    · rw [State.modCore_ls, hcommit, hframe]
    · rw [hcommit, hframe]
      by_cases hc : c = coreOf k
      · subst hc
        rw [State.modCore_core]
        exact ⟨rfl, rfl⟩
      · rw [State.modCore_core_ne _ _ hc]
        exact ⟨rfl, rfl⟩

end Sys2Proof.Machine

/-! # Barriers (R50, R56, R57, R153, R265 to R267, R420)

Arrivals at a numbered barrier and the phases of groups give the obligation O24; the barrier instructions of a strand with one path give O23. -/

namespace Sys2Proof.Machine
-- One proof at a time: elaborated side by side, the proofs of the whole text need more memory than the check gives.
set_option Elab.async false

/-! ### Arrivals at a numbered barrier (R57, R266, R420) -/

/-- The state after strand `k` joins phase `ph` of a numbered barrier, which becomes `b'`. -/
def State.joinedNbar (s : State) (k n off : Nat) (b' : NBar) (ph : Nat) : State :=
  ((s.wbAllL1 (coreOf k)).setNbar (clOfSlot k) n b'.settle).modSlot k (fun x => x.setMark ⟨true, n, ph, off⟩)

section
variable {s : State} {k n off : Nat} {v : W64} {g r : Nat} {b : NBar} (hjob : (s.slot k).job = .gang g r) (hlease : s.holdsLease k = true)
  (hb : s.nbar (clOfSlot k) n = b)
include hjob hlease hb

theorem arriveNumbered_bad_count (hv : v.toNat = 0 ∨ 240 < v.toNat) : s.arriveNumbered k n off v = .error (.trap ⟨0x0F, some (nbarDesc b n), none, 0⟩) := by
  simp only [State.arriveNumbered, hjob, hlease, hb, Bool.not_true, Bool.false_eq_true, if_false, if_pos hv]
  rfl

variable (hv : ¬ (v.toNat = 0 ∨ 240 < v.toNat))
include hv

/-- While the open phase lacks strands, an arrival is checked against it and joins it. -/
theorem arriveNumbered_open (hopen : ¬ (b.sa ≠ 0 ∧ b.sa ≤ b.arr.length)) : s.arriveNumbered k n off v =
    if b.arr.contains r then .error (.trap ⟨0x0E, some (nbarDesc b n), none, 0⟩)
    else if b.sa ≠ 0 ∧ v.toNat ≠ b.sa then .error (.trap ⟨0x0F, some (nbarDesc b n), none, 0⟩)
    else .ok (s.joinedNbar k n off { b with arr := b.arr ++ [r], sa := v.toNat } b.phase) := by
  simp only [State.arriveNumbered, hjob, hlease, hb, Bool.not_true, Bool.false_eq_true, if_false, if_neg hv, if_neg hopen]
  rfl
/-- When the open phase has all its strands, the first arrival after them counts in the next one. -/
theorem arriveNumbered_next (hfull : b.sa ≠ 0 ∧ b.sa ≤ b.arr.length) (hnone : b.arr2 = []) :
    s.arriveNumbered k n off v = .ok (s.joinedNbar k n off { b with arr2 := [r], sa2 := v.toNat } (b.phase + 1)) := by
  simp only [State.arriveNumbered, hjob, hlease, hb, Bool.not_true, Bool.false_eq_true, if_false, if_neg hv, if_pos hfull, hnone, List.isEmpty_nil, if_true]
  rfl
end

/-! ### Phases of a group (R56) -/

section
variable (g : Gang) (n : Nat)

theorem Gang.settle_complete (hlive : g.liveOf n ≠ []) (hall : ∀ q ∈ g.liveOf n, (g.arrived n).contains q = true) :
    (g.settle n).phase n = g.phase n + 1 ∧ (g.settle n).arrived n = [] := by
  have hcond : (!(g.liveOf n).isEmpty && (g.liveOf n).all (fun r => (g.arrived n).contains r)) = true := by
    rw [Bool.and_eq_true, List.all_eq_true]
    exact ⟨by simpa using hlive, hall⟩
  have hsettle : g.settle n = { g with phases := mput g.phases n (g.phase n + 1), arrivals := mput g.arrivals n [] } := if_pos hcond
  rw [hsettle]
  exact ⟨mget_mput_same .., mget_mput_same ..⟩
theorem Gang.settle_open {q : Nat} (hq : q ∈ g.liveOf n) (hmissing : (g.arrived n).contains q = false) : g.settle n = g := by
  have hcond : ¬ (!(g.liveOf n).isEmpty && (g.liveOf n).all (fun r => (g.arrived n).contains r)) = true := by
    rw [Bool.and_eq_true, List.all_eq_true]
    rintro ⟨-, hall⟩
    exact absurd (hall q hq) (by simp only [hmissing, Bool.false_eq_true, not_false_iff])
  exact if_neg hcond

/-- The gang after an arrival that has not yet been looked at. -/
def Gang.joined (r : Nat) : Gang := { g with arrivals := mput g.arrivals n (g.arrived n ++ [r]) }
theorem Gang.joined_arrived (r : Nat) : (g.joined n r).arrived n = g.arrived n ++ [r] := mget_mput_same ..
theorem Gang.joined_contains (r q : Nat) : ((g.joined n r).arrived n).contains q = ((g.arrived n).contains q || q == r) := by
  rw [Gang.joined_arrived, Bool.eq_iff_iff]
  simp
end

/-- Settles O24: counts and causes of a numbered barrier, and the phases of both kinds. -/
theorem barrierPhases : Obligations.BarrierPhases := by
  unfold Obligations.BarrierPhases
  refine ⟨fun s k n off v g r hjob hlease => ⟨arriveNumbered_bad_count hjob hlease rfl, fun hlo hhi => ?counts⟩, fun g n r hlive hall => ?completes,
    fun g n r q hq hqr hmissing => ?stays, fun b => ?settles⟩
  case counts =>
    have hv : ¬ (v.toNat = 0 ∨ 240 < v.toNat) := by omega
    refine ⟨fun ⟨hfirst, hnew⟩ => ?_, fun ⟨hset, hroom, htwice⟩ => ?_, fun ⟨hset, hroom, hnew, hdiffers⟩ => ?_, fun ⟨hset, hroom, hnew⟩ => ?_,
      fun ⟨hset, hfull, hnone⟩ => arriveNumbered_next hjob hlease rfl hv ⟨hset, hfull⟩ hnone⟩
    · rw [arriveNumbered_open hjob hlease rfl hv (by simp [hfirst]), if_neg (by simpa using hnew), if_neg (by simp [hfirst])]
      rfl
    · rw [arriveNumbered_open hjob hlease rfl hv (by omega), if_pos htwice]
    · rw [arriveNumbered_open hjob hlease rfl hv (by omega), if_neg (by simpa using hnew), if_pos ⟨hset, hdiffers⟩]
    · rw [arriveNumbered_open hjob hlease rfl hv (by omega), if_neg (by simpa using hnew), if_neg (by simp [hset])]
      rfl
  case completes =>
    refine (g.joined n r).settle_complete n hlive fun q hq => ?_
    rw [Gang.joined_contains, Bool.or_eq_true, beq_iff_eq]
    exact (hall q hq).symm
  case stays =>
    have hopen : g.arrive n r = g.joined n r := (g.joined n r).settle_open n hq (by rw [Gang.joined_contains, hmissing, beq_eq_false_iff_ne.2 hqr]; rfl)
    rw [hopen]
    exact ⟨rfl, g.joined_arrived n r⟩
  case settles =>
    unfold NBar.settle
    by_cases hcond : b.seq = true ∧ b.sa ≠ 0 ∧ b.sa ≤ b.arr.length
    · rw [if_pos hcond, if_pos (by simpa [and_assoc] using hcond)]
    · rw [if_neg hcond, if_neg (by simpa [and_assoc] using hcond)]

/-! ### Barrier instructions (R50, R56, R153, R265 to R267) -/

/-- Is the barrier instruction at the program counter the one whose arrival the strand has made. -/
def Slot.resumesWait (x : Slot) (o : Bar) (arrive wait : Bool) : Bool :=
  match x.mark? o.nb o.n with
  | some m => arrive && wait && m.off == x.pc
  | none => false
/-- A barrier instruction of a strand with one path: the arrival, the wait, and on. -/
def State.onePath (s : State) (k : Nat) (o : Bar) (arrive wait : Bool) : Res State := do
  let s1 ← if !arrive || (s.slot k).resumesWait o arrive wait then pure s
    else if o.nb then do
      let (v, t) ← rdSc k 1 o.a s
      t.arriveNumbered k o.n (if wait then (s.slot k).pc else noOff) v
    else s.arriveGroup k o.n (if wait then (s.slot k).pc else noOff)
  let s2 ← if wait then s1.barrierWait k o.nb o.n else pure s1
  pure ((s2.pastBarrier k).advance k)

/-- Issue depends on what the body does to the strand that issues. -/
theorem strandWith_congr {i : Instr} {lvl : Nat} {dsts vecs : List Nat} {p : Pred} {adv : Bool} {body body' : Nat → State → Res State} {s : State} {k : Nat}
    (hturn : s.Turn k) (h : body k s = body' k s) : strandWith i lvl dsts vecs p adv body s = strandWith i lvl dsts vecs p adv body' s := by
  simp only [State.Turn] at hturn
  simp only [strandWith, strandIf, hturn, h]

section
variable {i : Instr} {o : Bar} {arrive wait : Bool} {s s1 s2 : State} {k : Nat}

/-- Outside a reconvergence, with no other path or with its arrival made, a strand performs the barrier itself (R50). -/
theorem barrierI_onePath (hturn : s.Turn k) (hgroup : o.nb = false → s.groupBad k o.n = false) (hreconv : (s.slot k).reconv = none)
    (hpaths : (s.slot k).resumesWait o arrive wait = false → s.barrierPaths k o.nb = none) :
    barrierI i o arrive wait s = strandWith i 0 [] [] allLanes false (fun k s => s.onePath k o arrive wait) s := by
  have hexists : (o.nb || !s.groupBad k o.n) = true := by
    cases hnb : o.nb with
    | true => rfl
    | false => rw [hgroup hnb]; rfl
  refine strandWith_congr hturn ?_
  simp only [ensure_ok hexists, bind_ok, hreconv]
  show (match if (s.slot k).resumesWait o arrive wait = true then none else s.barrierPaths k o.nb with
    | some r => r
    | none => s.onePath k o arrive wait) = _
  split
  · next r hr =>
    split at hr
    · cases hr
    · next hfresh =>
      rw [hpaths (Bool.eq_false_iff.2 hfresh)] at hr
      cases hr
  · rfl

theorem Slot.resumesWait_of_half {x : Slot} (h : (arrive && wait) = false) : x.resumesWait o arrive wait = false := by
  unfold Slot.resumesWait
  split
  · rw [h]; rfl
  · rfl
theorem Slot.resumesWait_sync {x : Slot} : x.resumesWait o true true = true ↔ ∃ m, x.mark? o.nb o.n = some m ∧ m.off = x.pc := by
  unfold Slot.resumesWait
  split
  · next m hm => simp [hm]
  · next hm => simp [hm]

theorem State.arriveGroup_ok {n r off : Nat} {j : Nat} {g : Gang} (hgang : s.myGang k = some g) (hjob : (s.slot k).job = .gang j r) (hmember : g.member n r = true)
    (hnew : (g.arrived n).contains r = false) : s.arriveGroup k n off =
    .ok (((s.wbAllL1 (coreOf k)).modGang g.id (fun y => y.arrive n r)).modSlot k (fun x => x.setMark ⟨false, n, g.phase n, off⟩)) := by
  simp only [State.arriveGroup, hgang, hjob, hmember, hnew, Bool.not_true, Bool.or_false, Bool.false_eq_true, if_false]

theorem State.barrierWait_unmarked {nb : Bool} {n : Nat} (h : (s.slot k).mark? nb n = none) : s.barrierWait k nb n = .ok s := by
  simp only [State.barrierWait, h]
theorem State.barrierWait_met {nb : Bool} {n : Nat} {m : Mark} (hmark : (s.slot k).mark? nb n = some m) (hmet : s.awaitMet k ((s.slot k).awaited nb n m) = true) :
    s.barrierWait k nb n = .ok ((s.modSlot k (fun x => x.unmark nb n)).acqL1 (coreOf k)) := by
  simp only [State.barrierWait, hmark]
  exact if_pos hmet
theorem State.barrierWait_parks {nb : Bool} {n : Nat} {m : Mark} (hmark : (s.slot k).mark? nb n = some m) (hopen : s.awaitMet k ((s.slot k).awaited nb n m) = false) :
    s.barrierWait k nb n = .error (.parkWith s ((s.slot k).awaited nb n m)) := by
  simp only [State.barrierWait, hmark]
  exact if_neg (by simp only [Slot.awaited] at hopen; simp [hopen])

/-- Without an arrival of its own the instruction only waits. -/
theorem State.onePath_waits (hskip : (!arrive || (s.slot k).resumesWait o arrive true) = true) :
    s.onePath k o arrive true = (s.barrierWait k o.nb o.n >>= fun s2 => pure ((s2.pastBarrier k).advance k)) := by
  simp only [State.onePath, hskip, if_true]
  rfl
theorem State.onePath_arrives (hnew : (s.slot k).resumesWait o true wait = false) (harrive : s.Arrived k o (if wait then (s.slot k).pc else noOff) s1) :
    s.onePath k o true wait = ((if wait then s1.barrierWait k o.nb o.n else pure s1) >>= fun s2 => pure ((s2.pastBarrier k).advance k)) := by
  simp only [State.onePath, hnew, Bool.not_true, Bool.or_false, Bool.false_eq_true, if_false]
  obtain ⟨hnb, g, j, r, hgang, hjob, hmember, hfirst, rfl⟩ | ⟨hnb, v, s0, hread, hnumbered⟩ := harrive
  · simp only [hnb, Bool.false_eq_true, if_false, State.arriveGroup_ok hgang hjob hmember hfirst, bind_ok]
    cases wait <;> rfl
  · simp only [hnb, if_true, rdScs_one.1 hread, bind_ok, hnumbered]
    cases wait <;> rfl
end

/-- `bar.sync` and `gbar` alike. -/
theorem barSync_of_exec {i : Instr} {o : Bar} (hexec : ∀ s, exec i s = barrierI i o true true s) : BarSync i o := by
  constructor
  · rintro s k t hturn hmay ⟨⟨hgroup, hreconv, hpaths⟩, hfresh, s1, m, harrive, hmark, hphase⟩
    have hnew : (s.slot k).resumesWait o true true = false := by
      rw [Bool.eq_false_iff, Ne, Slot.resumesWait_sync]
      rintro ⟨m, hm, hoff⟩
      exact hfresh m hm hoff
    refine (hexec s).trans ((barrierI_onePath hturn hgroup hreconv fun _ => hpaths).trans ?_)
    have hbody := State.onePath_arrives (wait := true) hnew harrive
    rcases hphase with ⟨hmet, rfl⟩ | ⟨hopen, rfl⟩
    · exact strandWith_ok (adv := false) hturn hmay (hbody.trans (then_ok (State.barrierWait_met hmark hmet) rfl))
    · exact (strandWith_stop hturn hmay (hbody.trans (congrArg (· >>= _) (State.barrierWait_parks hmark hopen)))).trans (congrArg _ (stop_parkWith ..))
  · rintro s k t hturn hmay ⟨hgroup, hreconv, m, hmark, hoff, hmet, rfl⟩
    have hmine : (s.slot k).resumesWait o true true = true := Slot.resumesWait_sync.2 ⟨m, hmark, hoff⟩
    refine (hexec s).trans ((barrierI_onePath hturn hgroup hreconv fun h => by rw [hmine] at h; cases h).trans ?_)
    exact strandWith_ok (adv := false) hturn hmay ((State.onePath_waits (arrive := true) hmine).trans (then_ok (State.barrierWait_met hmark hmet) rfl))

/-- Settles O23: `bar.arrive`, `bar.wait`, `bar.sync` and `gbar` (the paths they ask for are log entry 45's). -/
theorem barriers : Obligations.Barriers := by
  unfold Obligations.Barriers
  refine ⟨fun o => ?arrive, fun o => ?wait, fun o => ?parks, fun _ => barSync_of_exec exec_barSync, barSync_of_exec exec_gbar⟩
  case arrive =>
    rintro s k t hturn hmay ⟨⟨hgroup, hreconv, hpaths⟩, s1, harrive, rfl⟩
    refine (exec_barArrive s).trans ((barrierI_onePath hturn hgroup hreconv fun _ => hpaths).trans ?_)
    exact strandWith_ok (adv := false) hturn hmay (State.onePath_arrives (wait := false) (Slot.resumesWait_of_half rfl) harrive)
  case wait =>
    rintro s k t hturn hmay ⟨⟨hgroup, hreconv, hpaths⟩, hcase⟩
    refine (exec_barWait s).trans ((barrierI_onePath hturn hgroup hreconv fun _ => hpaths).trans ?_)
    refine strandWith_ok (adv := false) hturn hmay ((State.onePath_waits rfl).trans ?_)
    rcases hcase with ⟨hmark, rfl⟩ | ⟨m, hmark, hmet, rfl⟩
    · exact then_ok (State.barrierWait_unmarked hmark) rfl
    · exact then_ok (State.barrierWait_met hmark hmet) rfl
  case parks =>
    rintro s k t hturn hmay ⟨⟨hgroup, hreconv, hpaths⟩, m, hmark, hopen, rfl⟩
    refine (exec_barWait s).trans ((barrierI_onePath hturn hgroup hreconv fun _ => hpaths).trans ?_)
    have hbody : s.onePath k o false true = .error (.parkWith s ((s.slot k).awaited o.nb o.n m)) :=
      (State.onePath_waits rfl).trans (congrArg (· >>= _) (State.barrierWait_parks hmark hopen))
    exact (strandWith_stop hturn hmay hbody).trans (congrArg _ (stop_parkWith ..))

end Sys2Proof.Machine

/-! # Slot control and starts (R33, R36, R58, R76, R273, R328, R364, R476)

The status of each slot-control instruction, and what a strand finds at its start: the obligation O26. -/

namespace Sys2Proof.Machine
-- One proof at a time: elaborated side by side, the proofs of the whole text need more memory than the check gives.
set_option Elab.async false

/-! ### Slot control (R273, R364, R476) -/

section
variable {i : Instr} {d k st : Nat} {srcs : List Nat} {vs : List W64} {s s1 s2 t : State} {body : Nat → List W64 → State → Res (Nat × State)}

theorem slotI_ok (hturn : s.Turn k) (hmay : (s.slot k).May 1 [d] []) (hread : s.Reads k 1 srcs vs s1) (hbody : body k vs s1 = .ok (st, s2))
    (hwrite : s2.Writes k d (natW st) t) : slotI i d srcs body s = .next (t.advance k) :=
  sysI_ok hturn hmay (then_ok hread (then_ok hbody hwrite))
end

/-! ### What a strand finds at its start (R36, R58, R76, R328) -/

/-- The registers after the arguments have been placed in s1 and up. -/
theorem foldl_setS_sreg (args : List W64) (x : Slot) (m n : Nat) :
    ((List.range m).foldl (fun t j => t.setS (j + 1) (lrw args j)) x).sreg n = if 1 ≤ n ∧ n ≤ m then ⟨lrw args (n - 1), true, false⟩ else x.sreg n := by
  induction m with
  | zero => exact (if_neg (by omega)).symm
  | succ m ih =>
    rw [List.range_succ, List.foldl_append, List.foldl_cons, List.foldl_nil]
    by_cases hlast : n = m + 1
    · subst hlast
      rw [Slot.setS_sreg, if_pos (by omega), Nat.add_sub_cancel]
    · rw [Slot.setS_sreg_ne _ _ hlast, ih]
      exact if_congr (by omega) rfl rfl
/-- Placing arguments touches scalar registers alone. -/
theorem foldl_setS_frame (args : List W64) (x : Slot) (m : Nat) :
    ∃ r, (List.range m).foldl (fun t j => t.setS (j + 1) (lrw args j)) x = { x with s := r } := by
  induction m with
  | zero => exact ⟨_, rfl⟩
  | succ m ih =>
    obtain ⟨r, hr⟩ := ih
    rw [List.range_succ, List.foldl_append, hr]
    exact ⟨_, rfl⟩

/-- What a start places in an unlent slot, apart from its arguments (R36, R76). -/
def Start.slot (b : Start) (x : Slot) (cycle : Nat) : Slot :=
  (((({ Slot.reset with
    phase := .running, pc := b.pc, budget := b.budget, width := b.width, slices := slicesOf b.width, job := b.job, segs := b.segs
    gen := x.gen + 1
    fmt := b.fmt, asid := b.asid, utvec := b.utvec, udeleg := b.udeleg, tvec := b.tvec, gseed := b.gseed, ranks := b.ranks
    m := mset 0 (mset 0 [] 7 (laneMask b.width)) 0 (laneMask b.width), savea := x.savea, ready := cycle + 1 } : Slot).setP 0 b.p0).setP 1 b.p1).setP 14 b.p14).setP 15 b.p15

theorem startStrand_slot (s : State) (k : Nat) (b : Start) (hheld : (s.slot k).held = none) :
    (s.startStrand k b).slot k = (List.range b.args.length).foldl (fun t j => t.setS (j + 1) (lrw b.args j)) (b.slot (s.slot k) s.cycle) := by
  unfold State.startStrand
  simp only [hheld, Option.isSome_none, Bool.false_eq_true, if_false]
  split
  · rw [State.modSlot_slot_ne _ _ (by omega), State.modCore_slot, State.setSlot_slot]
    rfl
  · rw [State.modCore_slot, State.setSlot_slot]
    rfl

theorem Start.slot_preg (b : Start) (x : Slot) (c n : Nat) : (b.slot x c).preg n =
    if n = 15 then b.p15 else if n = 14 then b.p14 else if n = 1 then b.p1 else if n = 0 then b.p0 else 0 := by
  unfold Start.slot
  split
  · next h => rw [h, Slot.setP_preg]
  · next h15 =>
    rw [Slot.setP_preg_ne _ _ h15]
    split
    · next h => rw [h, Slot.setP_preg]
    · next h14 =>
      rw [Slot.setP_preg_ne _ _ h14]
      split
      · next h => rw [h, Slot.setP_preg]
      · next h1 =>
        rw [Slot.setP_preg_ne _ _ h1]
        split
        · next h => rw [h, Slot.setP_preg]
        · next h0 =>
          rw [Slot.setP_preg_ne _ _ h0]
          rfl
theorem Start.slot_mreg (b : Start) (x : Slot) (c n : Nat) : (b.slot x c).mreg n = if n = 0 ∨ n = 7 then laneMask b.width else 0 := by
  show mget 0 (mset 0 (mset 0 [] 7 (laneMask b.width)) 0 (laneMask b.width)) n = _
  by_cases h0 : n = 0
  · rw [h0, mget_mset_same]
    rfl
  · rw [mget_mset_ne _ _ _ h0]
    by_cases h7 : n = 7
    · rw [h7, mget_mset_same]
      rfl
    · rw [mget_mset_ne _ _ _ h7, if_neg (by omega)]
      rfl

/-- Settles O26. That a strand of another slot finds every slot a bad one, and status 7 for a save area that has left its pages, are the model's choices (log
entries 80 and 12). -/
theorem slotControl : Obligations.SlotControl := by
  unfold Obligations.SlotControl
  refine ⟨⟨fun o => ?start, fun o => ?startTask, fun o => ?reap, fun o => ?spill, fun o => ?load⟩, fun s k b hheld _ => ?fresh⟩
  case start =>
    rintro s k t hturn hmay ⟨a, v, s1, hread, ⟨hbad, hwrite⟩ | ⟨n, hslot, hwrite⟩⟩
    · exact (exec_slotStart s).trans (slotI_ok hturn hmay hread (by simp only [lrw_first, hbad]) hwrite)
    · exact (exec_slotStart s).trans (slotI_ok hturn hmay hread (by simp only [lrw_first, lrw_second, hslot]) hwrite)
  case startTask =>
    rintro s k t hturn hmay ⟨a, v, s1, hread, ⟨hbad, hwrite⟩ | ⟨n, hslot, hwrite⟩⟩
    · exact (exec_slotStartTask s).trans (slotI_ok hturn hmay hread (by simp only [lrw_first, hbad]) hwrite)
    · exact (exec_slotStartTask s).trans (slotI_ok hturn hmay hread (by simp only [lrw_first, lrw_second, hslot]) hwrite)
  case reap =>
    rintro s k t hturn hmay ⟨a, s1, hread, ⟨hbad, hwrite⟩ | ⟨n, hslot, hwrite⟩⟩
    · exact (exec_slotReap s).trans (slotI_ok hturn hmay hread (by simp only [lrw_first, hbad]) hwrite)
    · exact (exec_slotReap s).trans (slotI_ok hturn hmay hread (by simp only [lrw_first, hslot]) hwrite)
  case spill =>
    rintro s k t hturn hmay ⟨a, v, s1, hread, ⟨hbad, hwrite⟩ | ⟨n, hslot, ⟨hrun, hpark, hwrite⟩ | ⟨hphase, ⟨harea, hwrite⟩ | ⟨harea, hreply, hwrite⟩⟩⟩⟩
    · exact (exec_slotSpill s).trans (slotI_ok hturn hmay hread (by simp only [lrw_first, hbad]) hwrite)
    · exact (exec_slotSpill s).trans (slotI_ok hturn hmay hread (by simp only [lrw_first, hslot]; exact if_pos ⟨hrun, hpark⟩) hwrite)
    · have hlive : ¬ ((s1.slot n).phase ≠ .running ∧ (s1.slot n).phase ≠ .parked) := by tauto
      refine (exec_slotSpill s).trans (slotI_ok hturn hmay hread (st := 2) ?_ hwrite)
      simp only [lrw_first, lrw_second, hslot, if_neg hlive, harea, Bool.not_false, if_true]
    · have hlive : ¬ ((s1.slot n).phase ≠ .running ∧ (s1.slot n).phase ≠ .parked) := by tauto
      refine (exec_slotSpill s).trans (slotI_ok hturn hmay hread (st := 0) ?_ hwrite)
      simp only [lrw_first, lrw_second, hslot, if_neg hlive, harea, hreply, Bool.not_true, Bool.false_eq_true, if_false]
  case load =>
    rintro s k t hturn hmay ⟨a, s1, hread, ⟨hbad, hwrite⟩ | ⟨n, hslot, ⟨hlost, hwrite⟩ | ⟨hkept, hwrite⟩⟩⟩
    · exact (exec_slotLoad s).trans (slotI_ok hturn hmay hread (by simp only [lrw_first, hbad]) hwrite)
    · refine (exec_slotLoad s).trans (slotI_ok hturn hmay hread (st := 7) ?_ hwrite)
      simp only [lrw_first, hslot]
      rw [if_pos (by simpa using hlost)]
    · refine (exec_slotLoad s).trans (slotI_ok hturn hmay hread ?_ hwrite)
      simp only [lrw_first, hslot]
      rw [if_neg (by simpa using hkept)]
  case fresh =>
    obtain ⟨r, hframe⟩ := foldl_setS_frame b.args (b.slot (s.slot k) s.cycle) b.args.length
    have hsreg : ∀ n, ((s.startStrand k b).slot k).sreg n = ⟨if 1 ≤ n ∧ n ≤ b.args.length then lrw b.args (n - 1) else 0, true, false⟩ := fun n => by
      rw [startStrand_slot s k b hheld, foldl_setS_sreg]
      split <;> rfl
    have hpreg : ∀ n, ((s.startStrand k b).slot k).preg n = (b.slot (s.slot k) s.cycle).preg n := fun n => by
      rw [startStrand_slot s k b hheld, hframe]
      rfl
    have hmreg : ∀ n, ((s.startStrand k b).slot k).mreg n = (b.slot (s.slot k) s.cycle).mreg n := fun n => by
      rw [startStrand_slot s k b hheld, hframe]
      rfl
    have hslot := (startStrand_slot s k b hheld).trans hframe
    refine ⟨?_, ?_, ?_, ?_, ?_, ?_, hsreg, fun r l => ?_, fun n => (hmreg n).trans (b.slot_mreg ..), (hpreg 0).trans (b.slot_preg ..), (hpreg 1).trans (b.slot_preg ..),
      (hpreg 14).trans (b.slot_preg ..), (hpreg 15).trans (b.slot_preg ..), fun n h0 h1 h14 h15 => (hpreg n).trans ?_, ?_, ?_, ?_, ?_, ?_, ?_, ?_, ?_, ?_, ?_, ?_, ?_⟩
    case refine_8 => rw [b.slot_preg, if_neg h15, if_neg h14, if_neg h1, if_neg h0]
    all_goals rw [hslot]; rfl

end Sys2Proof.Machine

/-! # Ready queues, yield and wfi (R61, R274, R275, R476)

From these the obligation O27. -/

namespace Sys2Proof.Machine
-- One proof at a time: elaborated side by side, the proofs of the whole text need more memory than the check gives.
set_option Elab.async false

theorem sysI_stop {i : Instr} {dsts : List Nat} {body : Nat → State → Res State} {s : State} {k : Nat} {e : Stop} (hturn : s.Turn k)
    (hmay : (s.slot k).May 1 dsts []) (hbody : body k s = .error e) :
    sysI i dsts body s = .next (s.stop k (wordOf i) ((s.slot k).m0 &&& (s.slot k).predMask allLanes) e) := strandWith_stop hturn hmay hbody

/-- Settles O27: each body answers what its rule gives. -/
theorem queuesAndWaits : Obligations.QueuesAndWaits := by
  unfold Obligations.QueuesAndWaits
  refine ⟨fun a => ?push, fun o => ?pop, ?yieldStays, ?yieldTraps, ?wfiPending, ?wfiWaits, ?wfiEnds⟩
  case push =>
    rintro s k t hturn hmay ⟨h, s1, hread, hcore, hhigh, hlive, hgen, hstate, rfl⟩
    have hvalid : (s.partCore k (wf h 0 16) == some (coreOf k) && wf h 25 7 == 0 && (s.ctx (coreOf k) (wf h 16 9)).live &&
        (s.recGen (coreOf k) (wf h 16 9)).toNat == wf h 32 32 &&
        (recState (s.trec (coreOf k) (wf h 16 9) 0) == 3 || recState (s.trec (coreOf k) (wf h 16 9) 0) == 4)) = true := by
      simp only [hcore, hhigh, hlive, hgen, beq_self_eq_true, Bool.and_true, Bool.true_and, Bool.or_eq_true, beq_iff_eq]
      exact hstate
    exact (exec_rqPush s).trans (sysI_ok hturn hmay ((rdSc_bind hread _).trans (ensureV_then hvalid rfl)))
  case pop =>
    rintro s k t hturn hmay ⟨v, s1, hread, hhigh, hcase⟩
    refine (exec_rqPop s).trans (sysI_ok hturn hmay ((rdSc_bind hread _).trans (ensureV_then (beq_iff_eq.2 hhigh) ?_)))
    obtain ⟨h, s2, hpop, hwrite⟩ | ⟨hnone, hwrite⟩ := hcase
    · simp only [hpop]
      exact hwrite
    · simp only [hnone]
      exact hwrite
  case yieldStays =>
    rintro s k t hturn hmay ⟨hstay, rfl⟩
    have hcond : ¬ (!(s.slot k).th && s.yields k) = true := by rcases hstay with h | h <;> simp [h]
    exact (exec_yield s).trans (strandWith_ok (adv := false) hturn hmay (congrArg _ (if_neg hcond)))
  case yieldTraps =>
    rintro s k t hturn hmay ⟨hth, hyields, rfl⟩
    have hcond : (!(s.slot k).th && s.yields k) = true := by simp [hth, hyields]
    exact (exec_yield s).trans (strandWith_ok (adv := false) hturn hmay (congrArg _ (if_pos hcond)))
  case wfiPending =>
    rintro s k t hturn hmay ⟨hpark, hirq, rfl⟩
    exact (exec_wfi s).trans (sysI_ok hturn hmay (by simp only [hpark, hirq, if_true]))
  case wfiWaits =>
    rintro s k t hturn hmay ⟨hpark, hirq, rfl⟩
    refine (exec_wfi s).trans ((sysI_stop hturn hmay ?_).trans (congrArg _ (stop_parkWith ..)))
    simp only [hpark, hirq, Option.isSome_none, Bool.false_eq_true, if_false]
  case wfiEnds =>
    rintro s k t hturn hmay ⟨hpark, hmet, rfl⟩
    obtain ⟨p, hp⟩ := Option.ne_none_iff_exists'.1 hpark
    exact (exec_wfi s).trans (sysI_ok hturn hmay (by simp only [hp, hmet, if_true]))

end Sys2Proof.Machine

/-! # Control registers (R76, R80, R151, R277)

The levels that reads and writes need, the fields that a write of STATUS keeps, and from these the obligation O30. -/

namespace Sys2Proof.Machine
-- One proof at a time: elaborated side by side, the proofs of the whole text need more memory than the check gives.
set_option Elab.async false

/-! ### Fields of words, bit by bit -/

/-- Bit `i` of a word is its bit in the library's sense. -/
theorem bitAt_eq_getLsbD (x : W64) (i : Nat) : bitAt x i = x.getLsbD i := (Nat.testBit_eq_decide_div_mod_eq ..).symm
/-- A field depends on its own bits alone. -/
theorem wf_congr {x y : W64} {lo len : Nat} (h : ∀ i, i < len → bitAt x (lo + i) = bitAt y (lo + i)) : wf x lo len = wf y lo len := by
  refine Nat.eq_of_testBit_eq fun i => ?_
  simp only [wf, Nat.testBit_mod_two_pow, Nat.testBit_div_two_pow]
  by_cases hi : i < len
  · have hbit := h i hi
    rw [bitAt_eq_getLsbD, bitAt_eq_getLsbD] at hbit
    simpa [hi, BitVec.getLsbD, Nat.add_comm] using hbit
  · simp [hi]
/-- A write through a mask takes the bits of the mask and keeps the others (R6). -/
theorem bitAt_keepRo (old v mask : W64) {i : Nat} (hi : i < 64) : bitAt (keepRo old v mask) i = if bitAt mask i = true then bitAt v i else bitAt old i := by
  simp only [bitAt_eq_getLsbD, keepRo, BitVec.getLsbD_or, BitVec.getLsbD_and, BitVec.getLsbD_not, hi, decide_true, Bool.true_and]
  cases mask.getLsbD i <;> simp

/-! ### Levels (R76, R277) -/

/-- An address that reads gives its value at the level that the address alone decides. -/
theorem crRead_level (s : State) (k a : Nat) : (s.crRead k a).map (·.1) = crReadLevel a := by
  simp only [State.crRead, crReadLevel, apply_ite (Option.map _), Option.map_some, Option.map_none]
  by_cases hlow : a < 0x80
  · revert a
    decide
  · repeat rw [if_neg (by omega)]
    rw [if_neg (by simp; omega)]
    exact (if_neg (by omega)).symm
/-- The level of a write does not depend on the slot or on the value. -/
theorem crWrite_level (x y : Slot) (a : Nat) (v w : W64) : (x.crWrite a v).map (·.1) = (y.crWrite a w).map (·.1) := by
  simp only [Slot.crWrite, apply_ite (Option.map _), Option.map_some, Option.map_none]

/-! ### Issue of a control-register instruction (R191, R277) -/

/-- An address that may be read and written at the strand's level passes the checks that come first. -/
theorem crRefuse_none {x : Slot} {r w : Bool} {a l m : Nat} {dsts : List Nat} (hmay : x.May 0 dsts []) (hread : (if r then crReadLevel a else some 0) = some l)
    (hwrite : (if w then (x.crWrite a 0).map (·.1) else some 0) = some m) (hl : l ≤ x.priv) (hm : m ≤ x.priv) : x.crRefuse r w a dsts = none := by
  have hlevels : ¬ (x.priv < l ∨ x.priv < m) := by omega
  simp only [Slot.crRefuse, hread, hwrite, if_neg hlevels, refuse_none hmay]

section
variable {s : State} {k a lvl : Nat} {v : W64} {y : Slot}

theorem State.cgetR_ok (h : s.crRead k a = some (lvl, v)) (hlvl : lvl ≤ (s.slot k).priv) : s.cgetR k a = .ok v := by
  simp only [State.cgetR, h, ensure_ok (decide_eq_true hlvl)]
  rfl
theorem State.cputR_ok (h : (s.slot k).crWrite a v = some (lvl, y)) (hlvl : lvl ≤ (s.slot k).priv) (hbase : a = 0x013 → (s.slot k).msUsed = 0) :
    s.cputR k a v = .ok (s.setSlot k y) := by
  have hfree : (!(a == 0x013 && (s.slot k).msUsed != 0)) = true := by
    by_cases ha : a = 0x013 <;> simp [ha, hbase]
  simp only [State.cputR, h, ensure_ok (decide_eq_true hlvl), ensure_ok hfree]
  rfl
end

/-! ### What a write leaves (R76) -/

/-- A write of STATUS keeps PRIV and takes IEN and TH. -/
theorem writeStatus_fields (old v : W64) : wf (writeStatus old v) 0 2 = wf old 0 2 ∧ bitAt (writeStatus old v) 4 = bitAt v 4 ∧ bitAt (writeStatus old v) 6 = bitAt v 6 := by
  have hmask : (if wf v 2 2 = 3 then 0xF0 else 0xFC : W64) = 0xF0 ∨ (if wf v 2 2 = 3 then 0xF0 else 0xFC : W64) = 0xFC := by
    split
    · exact .inl rfl
    · exact .inr rfl
  unfold writeStatus
  generalize (if wf v 2 2 = 3 then 0xF0 else 0xFC : W64) = mask at hmask
  have hlow : ∀ i, i < 2 → bitAt mask (0 + i) = false := by
    rcases hmask with rfl | rfl <;> decide
  have hhigh : bitAt mask 4 = true ∧ bitAt mask 6 = true := by
    rcases hmask with rfl | rfl <;> decide
  refine ⟨wf_congr fun i hi => ?_, ?_, ?_⟩
  · rw [bitAt_keepRo _ _ _ (by omega), if_neg (by rw [hlow i hi]; decide)]
  · rw [bitAt_keepRo _ _ _ (by decide), if_pos hhigh.1]
  · rw [bitAt_keepRo _ _ _ (by decide), if_pos hhigh.2]

theorem and_ones (v : W64) : v &&& 0xFFFFFFFFFFFFFFFF#64 = v := BitVec.and_allOnes

/-- Settles O30: reads, writes and the exchange, then what a write leaves in the registers. -/
theorem controlRegisters : Obligations.ControlRegisters := by
  unfold Obligations.ControlRegisters
  refine ⟨fun d c => ?get, fun c a => ?put, fun d c a => ?swap, fun x v lvl y h => ?status, fun s k a v lvl y ha h => ?plain, fun x a v ha => ?readOnly⟩
  case get =>
    rintro s k t hturn hmay ⟨lvl, v, hread, hlvl, hwrite⟩
    have hlevel : crReadLevel c.toNat = some lvl := by rw [← crRead_level s k, hread]; rfl
    have hpass := crRefuse_none (r := true) (w := false) hmay hlevel rfl hlvl (Nat.zero_le _)
    exact (exec_cget s).trans (strandIf_ok hturn hpass (then_ok (State.cgetR_ok hread hlvl) hwrite))
  case put =>
    rintro s k t hturn hmay ⟨v, s1, lvl, y, hread, hput, hlvl, hbase, rfl⟩
    have hslot := hread.slot k
    have hlevel : ((s.slot k).crWrite c.toNat 0).map (·.1) = some lvl := by rw [crWrite_level _ (s1.slot k) _ _ v, hput]; rfl
    have hpass := crRefuse_none (r := false) (w := true) hmay rfl hlevel (Nat.zero_le _) (hslot ▸ hlvl)
    exact (exec_cput s).trans (strandIf_ok hturn hpass ((rdSc_bind hread _).trans (State.cputR_ok hput hlvl hbase)))
  case swap =>
    rintro s k t hturn hmay ⟨v, s1, l1, old, l2, y, hread, hget, hl1, hput, hl2, hbase, hwrite⟩
    have hslot := hread.slot k
    have hlevel1 : crReadLevel c.toNat = some l1 := by rw [← crRead_level s1 k, hget]; rfl
    have hlevel2 : ((s.slot k).crWrite c.toNat 0).map (·.1) = some l2 := by rw [crWrite_level _ (s1.slot k) _ _ v, hput]; rfl
    have hpass := crRefuse_none (r := true) (w := true) hmay hlevel1 hlevel2 (hslot ▸ hl1) (hslot ▸ hl2)
    exact (exec_cswap s).trans (strandIf_ok hturn hpass
      ((rdSc_bind hread _).trans (then_ok (State.cgetR_ok hget hl1) (then_ok (State.cputR_ok hput hl2 hbase) hwrite))))
  case status =>
    obtain ⟨rfl, rfl⟩ : 1 = lvl ∧ { x with status := writeStatus x.status v } = y := by simpa [Slot.crWrite] using h
    obtain ⟨hpriv, hien, hth⟩ := writeStatus_fields x.status v
    exact ⟨rfl, hpriv, hien, hth, rfl⟩
  case plain =>
    obtain rfl | rfl | rfl | rfl | rfl := ha
    all_goals
      obtain ⟨rfl, rfl⟩ : 0 = lvl ∧ _ = y := by simpa [Slot.crWrite] using h
      simp [State.crRead, and_ones]
  case readOnly =>
    unfold Slot.crWrite
    repeat rw [if_neg (by omega)]

end Sys2Proof.Machine

/-! # Taking a trap (R78, R81, R276, R378)

The status word that a trap leaves, field by field, the slot that it leaves, and from these the obligation O28. -/

namespace Sys2Proof.Machine
-- One proof at a time: elaborated side by side, the proofs of the whole text need more memory than the check gives.
set_option Elab.async false

/-! ### Fields of a word after a field has been replaced -/

theorem wf_setF_apart {w : W64} {lo len lo' len' : Nat} (v : Nat) (hw : lo + len ≤ 64) (h : lo' + len' ≤ lo ∨ lo + len ≤ lo') :
    wf (setF w lo len v) lo' len' = wf w lo' len' := by
  rw [wf, setF_toNat v hw, putField_apart v h, wf]
theorem bitAt_eq_wf (w : W64) (i : Nat) : bitAt w i = (wf w i 1 == 1) := by rw [bitAt, wf, Nat.pow_one]
theorem b2n_mod (b : Bool) : b2n b % 2 ^ 1 = b2n b := by cases b <;> rfl
theorem b2n_beq_one (b : Bool) : (b2n b == 1) = b := by cases b <;> rfl
theorem Slot.priv_lt (x : Slot) : x.priv < 4 := Nat.mod_lt _ (by decide)
theorem wf_one_of_bitAt (w : W64) (i : Nat) : wf w i 1 = b2n (bitAt w i) := by
  have hlt : wf w i 1 < 2 := Nat.mod_lt _ (by decide)
  rw [bitAt_eq_wf]
  interval_cases wf w i 1 <;> rfl

/-- STATUS after a trap to the level `p` (R81). -/
def Slot.trapStatus (x : Slot) (p : Nat) : W64 := setF (setF (setF (setF (setF (setF x.status 2 2 x.priv) 5 1 (b2n x.ien)) 7 1 (b2n x.th)) 4 1 0) 6 1 1) 0 2 p

section
variable (x : Slot) (p : Nat)

theorem trapStatus_priv (hp : p < 4) : wf (x.trapStatus p) 0 2 = p := (wf_setF_same _ (by decide)).trans (Nat.mod_eq_of_lt hp)
theorem trapStatus_pendPriv : wf (x.trapStatus p) 2 2 = x.priv := by
  unfold Slot.trapStatus
  rw [wf_setF_apart _ (by decide) (by decide), wf_setF_apart _ (by decide) (by decide), wf_setF_apart _ (by decide) (by decide),
    wf_setF_apart _ (by decide) (by decide), wf_setF_apart _ (by decide) (by decide), wf_setF_same _ (by decide)]
  exact Nat.mod_eq_of_lt x.priv_lt
theorem trapStatus_ien : bitAt (x.trapStatus p) 4 = false := by
  unfold Slot.trapStatus
  rw [bitAt_eq_wf, wf_setF_apart _ (by decide) (by decide), wf_setF_apart _ (by decide) (by decide), wf_setF_same _ (by decide)]
  rfl
theorem trapStatus_pendIen : bitAt (x.trapStatus p) 5 = x.ien := by
  unfold Slot.trapStatus
  rw [bitAt_eq_wf, wf_setF_apart _ (by decide) (by decide), wf_setF_apart _ (by decide) (by decide), wf_setF_apart _ (by decide) (by decide),
    wf_setF_apart _ (by decide) (by decide), wf_setF_same _ (by decide), b2n_mod, b2n_beq_one]
theorem trapStatus_th : bitAt (x.trapStatus p) 6 = true := by
  unfold Slot.trapStatus
  rw [bitAt_eq_wf, wf_setF_apart _ (by decide) (by decide), wf_setF_same _ (by decide)]
  rfl
theorem trapStatus_pendTh : bitAt (x.trapStatus p) 7 = x.th := by
  unfold Slot.trapStatus
  rw [bitAt_eq_wf, wf_setF_apart _ (by decide) (by decide), wf_setF_apart _ (by decide) (by decide), wf_setF_apart _ (by decide) (by decide),
    wf_setF_same _ (by decide), b2n_mod, b2n_beq_one]
end

/-! ### The slot that a trap leaves (R78, R81) -/

/-- What every trap leaves in the slot: it runs again, with the cause, the saved program counter and the status. -/
def Slot.trapped (x : Slot) (code epc : Nat) (tval lanes : W64) (toU : Bool) : Slot :=
  { x with phase := .running, park := none, clause := none, hdrWait := false, resuming := false, replay := none, resumed := false, sc := none, reported := false
           epc := natW epc, cause := natW (code + 256 * b2n toU), tval := tval, fmask := lanes, lfm := lanes, status := x.trapStatus (if toU then 0 else 1) }

section
variable (s : State) (k code epc : Nat) (tval lanes detail : W64)

/-- The slot at the entry of the handler, at U or at S. -/
def State.trapSlot (toU : Bool) : Slot :=
  if toU then { (s.slot k).trapped code epc tval lanes true with pc := (s.slot k).utvec }
  else ({ (s.slot k).trapped code epc tval lanes false with
    shadow0 := (s.slot k).preg 0, shadow1 := (s.slot k).preg 1, pc := (s.slot k).tvec
    kern := if (s.core (coreOf k)).deleg.isNone then some (kernFor code tval detail (s.slot k).job.isTask) else none } : Slot).setP 0 (s.kernelPtr (coreOf k))
/-- A trap enters its handler, and the causes that R378 marks are logged; one at S or F inside a handler stops the strand (R81). -/
theorem takeTrap_eq : s.takeTrap k code epc tval lanes detail =
    if !(s.slot k).delegates code && decide ((s.slot k).priv ≠ 0) && (s.slot k).th then s.stopAndSignal k code epc tval lanes detail
    else if logged code then (s.setSlot k (s.trapSlot k code epc tval lanes detail ((s.slot k).delegates code))).logTrap k code ((s.slot k).delegates code) false epc tval lanes detail
    else s.setSlot k (s.trapSlot k code epc tval lanes detail ((s.slot k).delegates code)) := by
  have hcomm : ∀ p b t : Bool, (p && b && !t) = (!t && p && b) := by decide
  cases hd : delegBit code with
  | none =>
    simp only [State.takeTrap, Slot.delegates, hd, Bool.false_and, Bool.and_false]
    rfl
  | some b =>
    simp only [State.takeTrap, Slot.delegates, hd, hcomm]
    generalize (!(s.slot k).th && decide ((s.slot k).priv = 0) && bitAt (s.slot k).udeleg b) = toU
    cases toU <;> rfl
/-- Outside a handler at S a trap leaves its slot at the entry of the handler. -/
theorem takeTrap_slot (hfirst : (s.slot k).delegates code = true ∨ (s.slot k).th = false ∨ (s.slot k).priv = 0) :
    (s.takeTrap k code epc tval lanes detail).slot k = s.trapSlot k code epc tval lanes detail ((s.slot k).delegates code) := by
  have hgoes : ¬ (!(s.slot k).delegates code && decide ((s.slot k).priv ≠ 0) && (s.slot k).th) = true := by
    rcases hfirst with h | h | h <;> simp [h]
  rw [takeTrap_eq, if_neg hgoes]
  split
  · rw [State.logTrap, (logTo_calm ..).slot, State.setSlot_slot]
  · rw [State.setSlot_slot]
end

/-! ### Entries into handlers (R276) -/

section
variable {i : Instr} {s : State} {k c : Nat} {v : W64}

theorem entered_of_stop (l : W64) (hl : l = (s.slot k).m0 &&& (s.slot k).predMask allLanes) :
    s.stop k (wordOf i) l (.trap (Trap.mk1 c (some v))) = s.entered k c v := by
  rw [stop_mkV, hl]
  rfl
theorem jumpI_enters {body : Nat → State → Res State} (hturn : s.Turn k) (hmay : (s.slot k).May 0 [] []) (hbody : body k s = raiseV c v) :
    jumpI i body s = .next (s.entered k c v) := (strandWith_stop hturn hmay hbody).trans (congrArg _ (entered_of_stop _ rfl))
theorem scalarI_enters {body : Nat → State → Res State} (hturn : s.Turn k) (hmay : (s.slot k).May 0 [] []) (hbody : body k s = raiseV c v) :
    scalarI i [] body s = .next (s.entered k c v) := (strandWith_stop hturn hmay hbody).trans (congrArg _ (entered_of_stop _ rfl))
end

/-- Settles O28: the slot after a trap to either level, then the instructions that take one. -/
theorem trapEntry : Obligations.TrapEntry := by
  unfold Obligations.TrapEntry
  refine ⟨fun s k code epc tval lanes detail => ⟨fun hkernel hfirst => ?toS, fun hdelegated => ?toU⟩, fun n => ?sys, fun n => ?ebreak, fun a n => ?trap, fun a n => ?onward⟩
  case toS =>
    rw [takeTrap_slot s k code epc tval lanes detail (.inr hfirst), hkernel]
    exact ⟨rfl, rfl, rfl, rfl, rfl, rfl, trapStatus_priv _ _ (by decide), trapStatus_pendPriv .., trapStatus_ien .., trapStatus_pendIen .., trapStatus_th ..,
      trapStatus_pendTh .., rfl, rfl, Slot.setP_preg .., fun n hn => Slot.setP_preg_ne _ _ hn, rfl, rfl, rfl, rfl, rfl, rfl⟩
  case toU =>
    have hlevel : (s.slot k).priv = 0 ∧ (s.slot k).th = false := by
      rw [Slot.delegates, Bool.and_eq_true, Bool.and_eq_true] at hdelegated
      simpa [and_comm] using hdelegated.1
    rw [takeTrap_slot s k code epc tval lanes detail (.inl hdelegated), hdelegated]
    exact ⟨rfl, rfl, rfl, rfl, rfl, rfl, trapStatus_priv _ _ (by decide), (trapStatus_pendPriv ..).trans hlevel.1, trapStatus_ien .., trapStatus_pendIen ..,
      trapStatus_th .., (trapStatus_pendTh ..).trans hlevel.2, rfl, rfl, rfl, rfl, rfl, rfl, rfl⟩
  case sys =>
    rintro s k t hturn hmay rfl
    exact (exec_sys s).trans (jumpI_enters hturn hmay rfl)
  case ebreak =>
    rintro s k t hturn hmay rfl
    exact (exec_ebreak s).trans (jumpI_enters hturn hmay rfl)
  case trap =>
    rintro s k t hturn hmay ⟨v, s1, hread, hv, rfl⟩
    exact (exec_trap s).trans (scalarI_enters hturn hmay ((rdSc_bind hread _).trans (if_neg hv)))
  case onward =>
    rintro s k t hturn hmay ⟨v, hread, hv⟩
    exact (exec_trap s).trans (scalarI_ok hturn hmay ((rdSc_bind hread _).trans (if_pos hv)))

end Sys2Proof.Machine

/-! # The trap return (R82, R396, R397, R476)

What the return restores, where it resumes, and from these the obligation O29. -/

namespace Sys2Proof.Machine
-- One proof at a time: elaborated side by side, the proofs of the whole text need more memory than the check gives.
set_option Elab.async false

/-! ### What it restores (R82, steps 2 and 3) -/

/-- STATUS after a trap return. -/
def Slot.returnStatus (x : Slot) : W64 := natW (wf x.status 2 2 + 16 * wf x.status 5 1 + 64 * wf x.status 7 1)

section
variable (x : Slot)

theorem returnStatus_fields : wf x.returnStatus 0 2 = wf x.status 2 2 ∧ bitAt x.returnStatus 4 = bitAt x.status 5 ∧ bitAt x.returnStatus 6 = bitAt x.status 7 := by
  have hp : wf x.status 2 2 < 4 := Nat.mod_lt _ (by decide)
  have hi : wf x.status 5 1 < 2 := Nat.mod_lt _ (by decide)
  have ht : wf x.status 7 1 < 2 := Nat.mod_lt _ (by decide)
  have hword : x.returnStatus.toNat = wf x.status 2 2 + 16 * wf x.status 5 1 + 64 * wf x.status 7 1 :=
    (BitVec.toNat_ofNat ..).trans (Nat.mod_eq_of_lt (by omega))
  have hfields : wf x.returnStatus 0 2 = wf x.status 2 2 ∧ wf x.returnStatus 4 1 = wf x.status 5 1 ∧ wf x.returnStatus 6 1 = wf x.status 7 1 := by
    rw [wf, wf.eq_1 x.returnStatus 4, wf.eq_1 x.returnStatus 6, hword]
    generalize wf x.status 2 2 = a, wf x.status 5 1 = b, wf x.status 7 1 = c at hp hi ht ⊢
    norm_num only
    omega
  obtain ⟨hpriv, hien, hth⟩ := hfields
  exact ⟨hpriv, by rw [bitAt_eq_wf, hien, ← bitAt_eq_wf], by rw [bitAt_eq_wf, hth, ← bitAt_eq_wf]⟩
end

/-- The slot that a trap return leaves: from S it has its pointers back. -/
theorem eretRestore_slot (s : State) (k : Nat) : (s.eretRestore k).slot k =
    if bitAt (s.slot k).cause 8 then { s.slot k with status := (s.slot k).returnStatus }
    else (({ s.slot k with status := (s.slot k).returnStatus } : Slot).setP 0 (s.slot k).shadow0).setP 1 (s.slot k).shadow1 :=
  State.modSlot_slot ..

/-! ### Where it resumes (R82, step 4; R396, R397) -/

/-- The state from which a trap return resumes. -/
def State.returned (s : State) (k : Nat) : State := (s.eretRestore k).modSlot k (fun y => { y with kern := none, reported := false })

theorem returned_replayHeld (s : State) (k : Nat) : ((s.returned k).slot k).replayHeld = (s.slot k).replayHeld := by
  rw [State.returned, State.modSlot_slot, eretRestore_slot]
  split <;> rfl
/-- A resumption leaves the lanes that an interrupt held back. -/
theorem resumeAt_replayHeld {s t : State} {k : Nat} {pc : Int} (h : s.resumeAt k pc = .ok t) : (t.slot k).replayHeld = (s.slot k).replayHeld := by
  obtain ⟨x, hslot, -, hx⟩ := resumeAt_slot h
  rw [hslot, hx]

/-- Resumption with its settled marks. -/
def State.finishAt (s : State) (k pc : Nat) : Res State := do
  let t ← s.resumeAt k pc
  pure (t.modSlot k (fun y => y.settleMarks pc))
/-- The lanes that an interrupt held back run when the return from it resumes at their instruction. -/
def Slot.resumeHeld (y : Slot) (code epc : Nat) : Slot :=
  match y.replayHeld with
  | some (pc, m) => if 128 ≤ code ∧ pc = epc then { y with replay := some m, replayHeld := none } else y
  | none => y

section
variable {s u : State} {k : Nat}

/-- Without an active sow and a repaired access, a system call or breakpoint is behind the strand, and any other instruction runs again. -/
theorem eretStep_plain (hsow : bitAt (s.slot k).sowst 63 = false) (hrepair : wf (s.slot k).cause 0 8 ≠ 0x10 ∧ wf (s.slot k).cause 0 8 ≠ 0x11) :
    ∃ again : Bool, (laneCause (wf (s.slot k).cause 0 8) = true → again = true) ∧ (vcallCause (wf (s.slot k).cause 0 8) = false → again = laneCause (wf (s.slot k).cause 0 8)) ∧
    s.eretStep k =
      if wf (s.slot k).cause 0 8 = 0x18 ∨ wf (s.slot k).cause 0 8 = 0x19 then (s.returned k).finishAt k ((s.slot k).epc.toNat + 2)
      else (s.returned k).finishAt k (s.slot k).epc.toNat >>= fun t => .ok (t.modSlot k (fun y =>
        if again && !(s.slot k).reported then { y with replay := some (s.slot k).fmask } else y.resumeHeld (wf (s.slot k).cause 0 8) (s.slot k).epc.toNat)) := by
  have hrepl : (wf (s.slot k).cause 0 8 == 0x10 || wf (s.slot k).cause 0 8 == 0x11) = false := by simp [hrepair]
  unfold State.eretStep
  simp only [hsow, hrepl, Bool.false_eq_true, if_false]
  split
  case h_1 heq => split at heq <;> cases heq
  case h_2 => exact ⟨_, fun h => by rw [h, Bool.true_or], fun h => by rw [h, Bool.false_and, Bool.or_false], rfl⟩

theorem finishAt_ok {pc : Nat} (hresume : s.resumeAt k (pc : Int) = .ok u) : s.finishAt k pc = .ok (u.modSlot k (fun y => y.settleMarks pc)) := by
  rw [State.finishAt, hresume]
  rfl
/-- Nothing that an interrupt held back stands after the resumption either. -/
theorem resumeHeld_none {y : Slot} {code epc : Nat} (h : y.replayHeld = none) : y.resumeHeld code epc = y := by rw [Slot.resumeHeld, h]
theorem settled_resumeHeld {pc code epc : Nat} (hheld : (s.slot k).replayHeld = none) (hresume : (s.returned k).resumeAt k (pc : Int) = .ok u) :
    (((u.modSlot k (fun y => y.settleMarks pc)).slot k).resumeHeld code epc) = (u.modSlot k (fun y => y.settleMarks pc)).slot k := by
  refine resumeHeld_none ?_
  rw [State.modSlot_slot]
  exact (resumeAt_replayHeld hresume).trans ((returned_replayHeld ..).trans hheld)

/-- A watchdog restart changes no strand. -/
theorem watch_slot (s : State) (k : Nat) : (s.watch k).slot k = s.slot k := by
  unfold State.watch
  split
  · rfl
  · rfl

/-- A return that waits for no SC operation and repairs no access is its step. -/
theorem execEret_step {t : State} (hturn : s.Turn k) (hmay : (s.slot k).May 0 [] []) (hth : (s.slot k).th = true) (hsc : (s.slot k).sc = none)
    (hrepair : wf (s.slot k).cause 0 8 ≠ 0x10 ∧ wf (s.slot k).cause 0 8 ≠ 0x11) (hstep : (s.watch k).eretStep k = .ok t) : execEret s = .next t := by
  refine strandWith_ok (adv := false) hturn hmay (ensure_then hth ?_)
  simp only [hsc, hrepair, or_self, if_false]
  exact hstep
end

/-- Settles O29: the return's step for each kind of cause, then what it restores. -/
theorem trapReturn : Obligations.TrapReturn := by
  unfold Obligations.TrapReturn
  refine ⟨fun s k t hturn hmay ⟨hth, hsc, hsow, hrepair, hends⟩ => ?ends, fun s k => ?restores⟩
  case ends =>
    refine (exec_eret s).trans (execEret_step hturn hmay hth hsc hrepair ?_)
    obtain ⟨again, hlane, hvcall, hstep⟩ := eretStep_plain (s := s.watch k) (k := k) (by rwa [watch_slot]) (by rwa [watch_slot])
    rw [watch_slot] at hlane hvcall hstep
    rw [hstep]
    rcases hends with ⟨hcode, u, hresume, rfl⟩ | ⟨h18, h19, hcause, hreported, u, hresume, rfl⟩ | ⟨h18, h19, hwhole, hheld, u, hresume, rfl⟩
    · rw [if_pos hcode]
      exact finishAt_ok hresume
    · rw [if_neg (by simp [h18, h19]), finishAt_ok (s := (s.watch k).returned k) hresume]
      simp only [hlane hcause, hreported]
      rfl
    · have hagain : (again && !(s.slot k).reported) = false := by
        rcases hwhole with ⟨hl, hv⟩ | hr
        · rw [hvcall hv, hl, Bool.false_and]
        · rw [hr, Bool.not_true, Bool.and_false]
      rw [if_neg (by simp [h18, h19]), finishAt_ok (s := (s.watch k).returned k) hresume]
      simp only [hagain, Bool.false_eq_true, if_false]
      exact congrArg (fun y => Except.ok (State.setSlot _ k y)) (settled_resumeHeld (by rwa [watch_slot]) hresume)
  case restores =>
    obtain ⟨hpriv, hien, hth⟩ := returnStatus_fields (s.slot k)
    rw [eretRestore_slot]
    split
    case isTrue hcause => exact ⟨hpriv, hien, hth, fun h => absurd (hcause.symm.trans h) nofun, fun _ => rfl, rfl, rfl, rfl, rfl⟩
    case isFalse hcause =>
      refine ⟨hpriv, hien, hth, fun _ => ⟨?_, Slot.setP_preg .., fun n hn => ?_⟩, fun h => absurd h hcause, rfl, rfl, rfl, rfl⟩
      · exact (Slot.setP_preg_ne _ _ (by decide)).trans (Slot.setP_preg ..)
      · exact (Slot.setP_preg_ne _ _ (by omega)).trans (Slot.setP_preg_ne _ _ (by omega))

end Sys2Proof.Machine

/-! # Privilege, budget and stream checks (R68, R76, R188, R190, R390, R392)

Each check is the issue's own, so an obligation's instruction has it as soon as it is issued by that check. O38. -/

namespace Sys2Proof.Machine
-- One proof at a time: elaborated side by side, the proofs of the whole text need more memory than the check gives.
set_option Elab.async false

section
variable {i : Instr} {s : State} {k cl : Nat}

/-- A strand at U may not issue an instruction of level S (R190). -/
theorem sysI_privilege {dsts : List Nat} {body : Nat → State → Res State} (hturn : s.Turn k) (hpriv : (s.slot k).priv = 0) :
    sysI i dsts body s = .next (s.takeTrap k 0x02 (s.slot k).pc (wordOf i) ((s.slot k).m0 &&& (s.slot k).predMask allLanes) 0) :=
  strandWith_refused hturn (if_pos (.inl (by omega)))

/-- The instructions of level S whose only check it is (R190). -/
def LevelS : Instr → Prop
  | .slotStart _ | .slotStartTask _ | .slotReap _ | .slotSpill _ | .slotLoad _ | .rqPush _ | .rqPop _ | .wfi | .tlbInvPage _ _ | .tlbInvSpace _ _ | .tlbInvAll _ _
  | .l1invAll | .cdcfAll => True
  | _ => False
theorem LevelS.exec (h : LevelS i) : ∃ dsts body, ∀ s, exec i s = sysI i dsts body s := by
  unfold LevelS at h
  split at h
  · exact ⟨_, _, fun s => exec_slotStart s⟩
  · exact ⟨_, _, fun s => exec_slotStartTask s⟩
  · exact ⟨_, _, fun s => exec_slotReap s⟩
  · exact ⟨_, _, fun s => exec_slotSpill s⟩
  · exact ⟨_, _, fun s => exec_slotLoad s⟩
  · exact ⟨_, _, fun s => exec_rqPush s⟩
  · exact ⟨_, _, fun s => exec_rqPop s⟩
  · exact ⟨_, _, fun s => exec_wfi s⟩
  · exact ⟨_, _, fun s => exec_tlbInvPage s⟩
  · exact ⟨_, _, fun s => exec_tlbInvSpace s⟩
  · exact ⟨_, _, fun s => exec_tlbInvAll s⟩
  · exact ⟨_, _, fun s => exec_l1invAll s⟩
  · exact ⟨_, _, fun s => exec_cdcfAll s⟩
  · cases h

/-- The instructions of the matrix stream (R188). -/
def OfStream : Instr → Prop
  | .xlda _ | .xldb _ | .xmul _ | .xfold _ | .xcvt _ | .xzero _ | .xrow _ _ | .xcol _ _ | .xfmt _ _ | .xwait _ | .xpost _ | .xloopBegin _ | .xloop _ | .xend => True
  | _ => False
theorem OfStream.exec (h : OfStream i) : ∃ adv body, ∀ s, exec i s = matrixI i adv body s := by
  cases i
  case xlda => exact ⟨_, _, fun s => exec_xlda s⟩
  case xldb => exact ⟨_, _, fun s => exec_xldb s⟩
  case xmul => exact ⟨_, _, fun s => exec_xmul s⟩
  case xfold => exact ⟨_, _, fun s => exec_xfold s⟩
  case xcvt => exact ⟨_, _, fun s => exec_xcvt s⟩
  case xzero => exact ⟨_, _, fun s => exec_xzero s⟩
  case xrow => exact ⟨_, _, fun s => exec_xrow s⟩
  case xcol => exact ⟨_, _, fun s => exec_xcol s⟩
  case xfmt => exact ⟨_, _, fun s => exec_xfmt s⟩
  case xwait => exact ⟨_, _, fun s => exec_xwait s⟩
  case xpost => exact ⟨_, _, fun s => exec_xpost s⟩
  case xloopBegin => exact ⟨_, _, fun s => exec_xloopBegin s⟩
  case xloop => exact ⟨_, _, fun s => exec_xloop s⟩
  case xend => exact ⟨_, _, fun s => exec_xend s⟩
  all_goals cases h

/-! ### Instructions of a strand in the matrix stream (R188) -/

theorem scalarI_seq {dsts : List Nat} {body : Nat → State → Res State} (hcur : s.cur = .seq cl) : scalarI i dsts body s = .next (s.seqStop cl 0x01 0) :=
  strandWith_seq hcur
theorem cpyI_seq {o : Cpy} {dir : Dir} (hcur : s.cur = .seq cl) : cpyI i o dir s = .next (s.seqStop cl 0x01 0) := scalarI_seq hcur
theorem scalarForm_exec (h : (scalarForm i).isSome = true) : ∃ dsts body, ∀ s, exec i s = scalarI i dsts body s := by
  unfold scalarForm at h
  split at h
  · exact ⟨_, _, fun s => exec_add s⟩
  · exact ⟨_, _, fun s => exec_sub s⟩
  · exact ⟨_, _, fun s => exec_mul s⟩
  · exact ⟨_, _, fun s => exec_mulh s⟩
  · exact ⟨_, _, fun s => exec_div s⟩
  · exact ⟨_, _, fun s => exec_rem s⟩
  · exact ⟨_, _, fun s => exec_and s⟩
  · exact ⟨_, _, fun s => exec_or s⟩
  · exact ⟨_, _, fun s => exec_xor s⟩
  · exact ⟨_, _, fun s => exec_shl s⟩
  · exact ⟨_, _, fun s => exec_shr s⟩
  · exact ⟨_, _, fun s => exec_sra s⟩
  · exact ⟨_, _, fun s => exec_slt s⟩
  · exact ⟨_, _, fun s => exec_sltn s⟩
  · exact ⟨_, _, fun s => exec_min s⟩
  · exact ⟨_, _, fun s => exec_max s⟩
  · exact ⟨_, _, fun s => exec_clz s⟩
  · exact ⟨_, _, fun s => exec_ctz s⟩
  · exact ⟨_, _, fun s => exec_popc s⟩
  · exact ⟨_, _, fun s => exec_bext s⟩
  · exact ⟨_, _, fun s => exec_bdep s⟩
  · exact ⟨_, _, fun s => exec_sext s⟩
  · exact ⟨_, _, fun s => exec_zext s⟩
  · exact ⟨_, _, fun s => exec_mov s⟩
  · exact ⟨_, _, fun s => exec_addi s⟩
  · exact ⟨_, _, fun s => exec_andi s⟩
  · exact ⟨_, _, fun s => exec_ori s⟩
  · exact ⟨_, _, fun s => exec_xori s⟩
  · exact ⟨_, _, fun s => exec_shli s⟩
  · exact ⟨_, _, fun s => exec_shri s⟩
  · exact ⟨_, _, fun s => exec_srai s⟩
  · exact ⟨_, _, fun s => exec_li s⟩
  · exact ⟨_, _, fun s => exec_lih s⟩
  · exact ⟨_, _, fun s => exec_fadd s⟩
  · exact ⟨_, _, fun s => exec_fsub s⟩
  · exact ⟨_, _, fun s => exec_fmul s⟩
  · exact ⟨_, _, fun s => exec_ffma s⟩
  · exact ⟨_, _, fun s => exec_fdiv s⟩
  · exact ⟨_, _, fun s => exec_fsqrt s⟩
  · exact ⟨_, _, fun s => exec_fmin s⟩
  · exact ⟨_, _, fun s => exec_fmax s⟩
  · exact ⟨_, _, fun s => exec_fcmp s⟩
  · exact ⟨_, _, fun s => exec_fcvt s⟩
  · exact ⟨_, _, fun s => exec_fclass s⟩
  · exact ⟨_, _, fun s => exec_mpopc s⟩
  · exact ⟨_, _, fun s => exec_mpopcBits s⟩
  · exact ⟨_, _, fun s => exec_mfirst s⟩
  · exact ⟨_, _, fun s => exec_pget s⟩
  · exact ⟨_, _, fun s => exec_ptest s⟩
  · exact ⟨_, _, fun s => exec_cfq s⟩
  · cases h
theorem scalarForm_seq (hcur : s.cur = .seq cl) (hform : (scalarForm i).isSome = true) : exec i s = .next (s.seqStop cl 0x01 0) := by
  obtain ⟨dsts, body, hexec⟩ := scalarForm_exec hform
  exact (hexec s).trans (scalarI_seq hcur)
theorem laneForm_seq (hcur : s.cur = .seq cl) (hform : (laneForm i).isSome = true) : exec i s = .next (s.seqStop cl 0x01 0) := by
  obtain ⟨f, hform⟩ := Option.isSome_iff_exists.1 hform
  obtain ⟨body, hexec, -⟩ := laneForm_lanes i f hform
  exact (hexec s).trans (strandWith_seq hcur)
theorem scalarAtom_seq (hcur : s.cur = .seq cl) (hform : (scalarAtom i).isSome = true) : exec i s = .next (s.seqStop cl 0x01 0) := by
  obtain ⟨⟨op, o⟩, hform⟩ := Option.isSome_iff_exists.1 hform
  exact (scalarAtom_exec hform).trans (strandWith_seq hcur)
theorem copyForm_seq (hcur : s.cur = .seq cl) (hform : (copyForm i).isSome = true) : exec i s = .next (s.seqStop cl 0x01 0) := by
  obtain ⟨⟨o, dir⟩, hform⟩ := Option.isSome_iff_exists.1 hform
  exact (copyForm_exec hform).trans (cpyI_seq hcur)
end

/-- Settles O38: each check is the one with which the instruction is issued. -/
theorem instructionChecks : Obligations.InstructionChecks := by
  unfold Obligations.InstructionChecks
  refine ⟨fun i s k hturn hpriv hi => ?privilege, fun i f s k hform hturn hbudget => ?budget, fun i s k hturn hi => ?matrix, fun i s cl hcur hform => ?strand⟩
  case privilege =>
    obtain ⟨dsts, body, hexec⟩ := LevelS.exec hi
    exact (hexec s).trans (sysI_privilege hturn hpriv)
  case budget =>
    obtain ⟨body, hexec, -⟩ := laneForm_lanes i f hform
    exact ⟨_, (hexec s).trans (laneI_budget hturn hbudget)⟩
  case matrix =>
    obtain ⟨adv, body, hexec⟩ := OfStream.exec hi
    exact (hexec s).trans (matrixI_strand hturn)
  case strand =>
    rcases hform with h | h | h | h
    · exact scalarForm_seq hcur h
    · exact laneForm_seq hcur h
    · exact scalarAtom_seq hcur h
    · exact copyForm_seq hcur h

end Sys2Proof.Machine

/-! # Events of strands (R32, R79, R184 to R187, R280, R394, R408 to R412)

Clause fetch with its header waits, the ends of parks, and interrupt entry; from these the obligation O39. -/

namespace Sys2Proof.Machine
-- One proof at a time: elaborated side by side, the proofs of the whole text need more memory than the check gives.
set_option Elab.async false

/-! ### Clause fetch in a strand (R184 to R186, R394) -/

section
variable {s s1 s2 : State} {k : Nat} {w : W64} {ws : List W64} {c : Clause}

theorem evalWaits_kind0 {hdr : W64} {l : List HWait} (h : ∀ w ∈ l, w.kind = 0) : s.evalWaits k hdr l = .ok () := by
  induction l with
  | nil => rfl
  | cons w l ih =>
    obtain ⟨hw, hl⟩ := List.forall_mem_cons.1 h
    rw [State.evalWaits, hw]
    exact ih hl
theorem evalWaits_reached {hdr : W64} {l : List HWait} (h : ∀ w ∈ l, w.kind = 1 ∧ (s.cluster (clOfSlot k)).ctrReached w.sel w.thr = true) :
    s.evalWaits k hdr l = .ok () := by
  induction l with
  | nil => rfl
  | cons w l ih =>
    obtain ⟨⟨hw, hreached⟩, hl⟩ := List.forall_mem_cons.1 h
    simp only [State.evalWaits, hw, hreached]
    exact ih hl
theorem evalWaits_waits {hdr : W64} {v : HWait} {l : List HWait} (hkind : v.kind = 1) (hshort : (s.cluster (clOfSlot k)).ctrReached v.sel v.thr = false) :
    s.evalWaits k hdr (v :: l) = parkOn (.counter v.sel v.thr) := by
  simp only [State.evalWaits, hkind, hshort]
  rfl
theorem hdrOwned_kind0 {cl : Nat} {o : Owner} (h : ∀ c ∈ hdrWaits w, c.kind = 0) : s.hdrOwned cl o w = true :=
  List.all_eq_true.2 fun c hc => by rw [h c hc]; rfl

/-- A header without waits: the first instruction of the clause is next. -/
theorem hdrStep_noWaits (h : ∀ v ∈ hdrWaits c.hdr, v.kind = 0) :
    s.hdrStep k c = .ok (s.modSlot k (fun x => { x with pc := c.off + 2, hdrWait := false, park := none })) := by
  have hall : (hdrWaits c.hdr).all (fun w => w.kind == 0) = true := List.all_eq_true.2 fun v hv => by rw [h v hv]; rfl
  refine ensureV_then (hdrOwned_kind0 h) ?_
  simp only [evalWaits_kind0 h, hall]
  rfl
/-- A header whose counters have all come: what they observed is acquired. -/
theorem hdrStep_reached (hown : s.hdrOwned (clOfSlot k) (s.ownerOf k) c.hdr = true)
    (h : ∀ v ∈ hdrWaits c.hdr, v.kind = 1 ∧ (s.cluster (clOfSlot k)).ctrReached v.sel v.thr = true) :
    s.hdrStep k c = .ok ((s.acqL1 (coreOf k)).modSlot k (fun x => { x with pc := c.off + 2, hdrWait := false, park := none })) := by
  have hall : (hdrWaits c.hdr).all (fun w => w.kind == 0) = false := by
    rw [hdrWaits, List.map_cons, List.all_cons, (h _ (List.mem_cons_self ..)).1]
    rfl
  refine ensureV_then hown ?_
  simp only [evalWaits_reached h, hall]
  rfl
theorem hdrStep_waits {v v' : HWait} (hown : s.hdrOwned (clOfSlot k) (s.ownerOf k) c.hdr = true) (hwaits : hdrWaits c.hdr = [v, v'])
    (hkind : v.kind = 1) (hshort : (s.cluster (clOfSlot k)).ctrReached v.sel v.thr = false) : s.hdrStep k c = .error (.park (.counter v.sel v.thr)) := by
  refine ensureV_then hown ?_
  rw [hwaits, evalWaits_waits hkind hshort]
  rfl
theorem fetchClause_ok (hcode : s.codeWord k ((s.slot k).preg 0) (s.slot k).pc = .ok (w, s1)) (hhdr : isHdr w = true)
    (haccess : (checkAccess ((s.slot k).preg 0) (4 * (s.slot k).pc) (8 * (hdrCount w + 1)) 5).isSome = true) (hgood : hdrBad false w = false)
    (hwords : s1.clauseWords k ((s.slot k).preg 0) (s.slot k).pc (hdrCount w) = .ok (ws, s2)) :
    s.fetchClause k = .ok (s2.modSlot k (fun x => { x with clause := some ⟨(s.slot k).pc, w, ws⟩, hdrWait := true })) := by
  unfold State.fetchClause
  simp only [hcode, bind_ok]
  refine ensureV_then hhdr (ensureV_then haccess (ensureV_then (by rw [hgood]; rfl) ?_))
  rw [hwords]
  rfl

/-- A strand that waits at the header of a fetched clause evaluates its waits. -/
theorem strandFetch_waiting (hphase : (s.slot k).phase = .running) (hres : (s.slot k).resuming = false) (hwait : (s.slot k).hdrWait = true)
    (hclause : (s.slot k).clause = some c) : s.strandFetch k = match s.hdrStep k c with
      | .ok t => t
      | .error e => s.fetchStop k e := by
  simp only [State.strandFetch, hphase, hres, hwait, hclause]
  rfl
theorem strandFetch_fetches (hphase : (s.slot k).phase = .running) (hres : (s.slot k).resuming = false)
    (hnew : (s.slot k).hdrWait = false ∨ (s.slot k).clause = none) (hfetch : s.fetchClause k = .ok s1) (hclause : (s1.slot k).clause = some c) :
    s.strandFetch k = match s1.hdrStep k c with
      | .ok u => u
      | .error e => s1.fetchStop k e := by
  have hnone : (if (s.slot k).hdrWait then (s.slot k).clause else none) = none := by
    rcases hnew with h | h <;> simp [h]
  simp only [State.strandFetch, hphase, hres, hnone, hfetch, hclause]
  rfl
end

/-! ### Clause fetch in the matrix stream (R408) -/

section
variable {s s1 s2 : State} {cl : Nat} {g : Gang} {w : W64} {ws : List W64}

theorem fetchMatrix_ok (hcode : s.seqWord cl g (s.cluster cl).seqPc = .ok (w, s1)) (hhdr : isHdr w = true)
    (haccess : (checkAccess g.p0 (4 * (s.cluster cl).seqPc) (8 * (hdrCount w + 1)) 5).isSome = true) (hgood : hdrBad true w = false)
    (hnone : ∀ c ∈ hdrWaits w, c.kind = 0) (hwords : s1.seqWords cl g (s.cluster cl).seqPc (hdrCount w) = .ok (ws, s2)) :
    s.fetchMatrix cl g = .ok (s2.modCluster cl (fun x => { x with seqClause := some ⟨(s.cluster cl).seqPc, w, ws⟩, seqHdr := true, seqPhase := .running })) := by
  unfold State.fetchMatrix
  refine sres_then hcode (sEnsure_then hhdr (sEnsure_then haccess (sEnsure_then (by rw [hgood]; rfl) (sEnsure_then (hdrOwned_kind0 hnone) ?_))))
  exact sres_then hwords rfl
/-- A matrix header without waits: the first instruction of its clause is next. -/
theorem matrixWaits_noWaits {t : State} {c : Clause} (hclause : (t.cluster cl).seqClause = some c) (hnone : ∀ v ∈ hdrWaits c.hdr, v.kind = 0) :
    t.matrixWaits cl = t.modCluster cl (fun x => { x with seqHdr := false, seqPc := c.off + 2, seqPhase := .running }) := by
  have hall : (hdrWaits c.hdr).all (fun v => v.kind == 0 || (t.cluster cl).ctrReached v.sel v.thr) = true :=
    List.all_eq_true.2 fun v hv => by rw [hnone v hv]; rfl
  unfold State.matrixWaits
  dsimp only
  split
  case h_1 h => exact absurd (hclause.symm.trans h) nofun
  case h_2 c' h =>
    obtain rfl : c' = c := Option.some.inj (h.symm.trans hclause)
    exact if_pos hall
theorem seqFetch_fetches {t : State} (hphase : (s.cluster cl).seqPhase = .running) (hhdr : (s.cluster cl).seqHdr = false)
    (hgang : s.gang? (s.cluster cl).seqGang = some g) (hfetch : s.fetchMatrix cl g = .ok t) : s.seqFetch cl = t.matrixWaits cl := by
  simp only [State.seqFetch, hphase, hhdr, hgang, hfetch]
  rfl
end

/-! ### The ends of parks (R32, R280, R409 to R412) -/

section
variable {s : State} {k : Nat} {p : Park}

/-- The slot issues again in one of its own cycles (R32). -/
def State.issuesAgain (s : State) (k : Nat) : State := s.modSlot k (fun x => { x with phase := .running, ready := s.cycle + 1 })

section
variable (hparked : (s.slot k).phase = .parked) (hpark : (s.slot k).park = some p) (hmet : s.awaitMet k p.on = true)
include hparked hpark hmet

theorem resumePark_again (hremote : ∀ i a q w, p.on ≠ .remote i a q w) (haccepted : ∀ d n, p.on ≠ .accepted d n) (hwrack : ∀ i, p.on ≠ .wrack i) :
    s.resumePark k = s.issuesAgain k := by
  simp only [State.resumePark, hparked, hpark, hmet, Bool.not_true, Bool.false_eq_true, if_false]
  rw [← hpark]
  rfl
theorem resumePark_accepted {d n : Nat} {v : State} (hon : p.on = .accepted d n) (hwrite : (s.issuesAgain k).Writes k d (natW n) v) :
    s.resumePark k = v.advance k := by
  rw [hon] at hmet
  rw [State.Writes, State.issuesAgain, State.modSlot] at hwrite
  simp only [State.resumePark, hparked, hpark, hon, hmet, Bool.not_true, Bool.false_eq_true, if_false]
  rw [← hpark, hwrite]
theorem resumePark_wrack {i : Nat} (hon : p.on = .wrack i) :
    s.resumePark k = (s.modSlot k (fun x => { x with phase := .running, park := none, ready := s.cycle + 1 })).advance k := by
  rw [hon] at hmet
  simp only [State.resumePark, hparked, hpark, hon, hmet, Bool.not_true, Bool.false_eq_true, if_false]
  rfl
theorem resumePark_remote {i peer w : Nat} {a : Bool} {r : Remote} (hon : p.on = .remote i a peer w) (hremote : (s.slot k).remote = some r) :
    s.resumePark k =
      if r.done == some true then (s.modSlot k (fun x => { x with phase := .running, park := none, remote := none, ready := s.cycle + 1 })).advance k
      else (s.modSlot k (fun x => { x with phase := .running, park := none, remote := none, ready := s.cycle + 1 })).takeTrap k 0x1B (s.slot k).pc
        (s.slot k).outdst (s.slot k).trapLanes 0 := by
  rw [hon] at hmet
  simp only [State.resumePark, hparked, hpark, hon, hmet, hremote, Bool.not_true, Bool.false_eq_true, if_false]
  rfl
end

section
variable (hpark : (s.slot k).park = some p) (hexpired : s.expired k = true)
include hpark hexpired

theorem expire_remote {i peer w : Nat} {a : Bool} (hon : p.on = .remote i a peer w) :
    s.expire k = { s with net := s.net.map (fun n => if n.id = i then { n with withdraw := true } else n) } := by
  simp only [State.expire, hpark, hexpired, hon]
  rfl
theorem expire_traps (hon : ∀ i a q w, p.on ≠ .remote i a q w) :
    s.expire k = (s.unsend k p.on).takeTrap k (if p.on.wkind = 16 then 0x0D else 0x0B) (s.slot k).pc (s.expiryTval k p.on) (s.slot k).trapLanes 0 := by
  simp only [State.expire, hpark, hexpired, Bool.not_true, Bool.false_eq_true, if_false]
end
theorem expired_of_park (hparked : (s.slot k).phase = .parked) (hpark : (s.slot k).park = some p) (hlimit : p.limit ≠ 0) (hticks : p.limit ≤ p.ticks)
    (hkind : p.on.wkind ≠ 17) (hmet : s.awaitMet k p.on = false) : s.expired k = true := by
  simp only [State.expired, hparked, hpark, hmet]
  simp [hlimit, hticks, hkind]
end

/-! ### The timer's level (R79) -/

theorem bitAt_setBit (x : W64) (b : Bool) {i j : Nat} (hj : j < 64) : bitAt (setBit x i b) j = if i = j then b else bitAt x j := by
  rw [bitAt_eq_getLsbD, bitAt_eq_getLsbD, setBit]
  by_cases hij : i = j <;> cases b <;>
    simp only [hij, hj, if_true, if_false, Bool.false_eq_true, BitVec.getLsbD_or, BitVec.getLsbD_and, BitVec.getLsbD_not, BitVec.getLsbD_ofNat,
      Nat.testBit_two_pow, decide_true, decide_false, Bool.and_true, Bool.and_false, Bool.or_true, Bool.or_false, Bool.not_true, Bool.not_false]
theorem ipOf_timer (s : State) (k : Nat) : bitAt (s.ipOf k) 0 = decide ((s.slot k).timecmp.toNat ≤ s.gtcAt k) := by
  rw [State.ipOf]
  rw [bitAt_setBit _ _ (by decide), if_neg (by decide), bitAt_setBit _ _ (by decide), if_pos rfl]

/-- Settles O39: each event by what its conditions leave of it. -/
theorem strandEvents : Obligations.StrandEvents := by
  unfold Obligations.StrandEvents
  refine ⟨fun k => ?fetch, fun k => ?headerWaits, fun k => ?headerMet, fun cl => ?matrix, fun k => ?again, fun k => ?completes, fun k => ?remote,
    fun k => ?expires, fun k s => ⟨exec_timerPending s, ?timer⟩, fun k => ?irq, fun k => ?noIrq⟩
  case fetch =>
    refine happens_next exec_clauseFetch ?_
    rintro s t ⟨w, s1, ws, s2, hphase, hres, hnew, hcode, hhdr, haccess, hgood, hwords, hnone, rfl⟩
    refine (strandFetch_fetches (c := ⟨(s.slot k).pc, w, ws⟩) hphase hres hnew (fetchClause_ok hcode hhdr haccess hgood hwords)
      (congrArg Slot.clause (State.modSlot_slot ..))).trans ?_
    rw [hdrStep_noWaits hnone]
    exact State.modSlot_modSlot ..
  case headerWaits =>
    refine happens_next exec_clauseFetch ?_
    rintro s t ⟨c, w, v, hphase, hres, hwait, hclause, hown, hwaits, hkind, hshort, rfl⟩
    refine (strandFetch_waiting hphase hres hwait hclause).trans ?_
    rw [hdrStep_waits hown hwaits hkind hshort]
    rfl
  case headerMet =>
    refine happens_next exec_clauseFetch ?_
    rintro s t ⟨c, hphase, hres, hwait, hclause, hown, hmet, rfl⟩
    refine (strandFetch_waiting hphase hres hwait hclause).trans ?_
    rw [hdrStep_reached hown hmet]
  case matrix =>
    refine happens_next exec_clauseFetch ?_
    rintro s t ⟨g, w, s1, ws, s2, hphase, hhdr, hgang, hcode, hishdr, haccess, hgood, hnone, hwords, rfl⟩
    refine (seqFetch_fetches hphase hhdr hgang (fetchMatrix_ok hcode hishdr haccess hgood hnone hwords)).trans ?_
    refine (matrixWaits_noWaits (c := ⟨(s.cluster cl).seqPc, w, ws⟩) (congrArg Cluster.seqClause (State.modCluster_cluster ..)) hnone).trans ?_
    exact State.modCluster_modCluster ..
  case again =>
    refine happens_next exec_parkResume ?_
    rintro s t ⟨p, hparked, hpark, hmet, hremote, haccepted, hwrack, rfl⟩
    exact resumePark_again hparked hpark hmet hremote haccepted hwrack
  case completes =>
    refine happens_next exec_parkResume ?_
    rintro s t ⟨p, hparked, hpark, hmet, ⟨d, n, v, hon, hwrite, rfl⟩ | ⟨i, hon, rfl⟩⟩
    · exact resumePark_accepted hparked hpark hmet hon hwrite
    · exact resumePark_wrack hparked hpark hmet hon
  case remote =>
    refine happens_next exec_parkResume ?_
    rintro s t ⟨p, i, a, q, w, r, hparked, hpark, hon, hremote, hanswer⟩
    have hmet : s.awaitMet k p.on = true := by
      rw [hon]
      simp only [State.awaitMet, hremote]
      rcases hanswer with ⟨h, -⟩ | ⟨h, -⟩ <;> rw [h] <;> rfl
    rw [resumePark_remote hparked hpark hmet hon hremote]
    rcases hanswer with ⟨hok, rfl⟩ | ⟨hrefused, rfl⟩
    · rw [hok]
      rfl
    · rw [hrefused]
      rfl
  case expires =>
    refine happens_next exec_waitLimitExpiry ?_
    rintro s t ⟨p, hparked, hpark, hlimit, hticks, hkind, hmet, hend⟩
    have hexpired := expired_of_park hparked hpark hlimit hticks hkind hmet
    rcases hend with ⟨hon, rfl⟩ | ⟨i, a, q, w, hon, rfl⟩
    · exact expire_traps hpark hexpired hon
    · exact expire_remote hpark hexpired hon
  case timer => rw [ipOf_timer, decide_eq_true_iff]
  case irq =>
    refine happens_next exec_interruptEntry ?_
    rintro s t ⟨hboundary, code, hcode, rfl⟩
    simp only [State.enterIrq, hboundary, hcode]
    rfl
  case noIrq =>
    refine happens_next exec_interruptEntry ?_
    rintro s t ⟨h | h, rfl⟩ <;> simp [State.enterIrq, h]

end Sys2Proof.Machine

/-! # Events of remote writes (R51, R125, R256, R257, R280, R412)

What a remote write does at its location, its withdrawal and its answer; from these the obligation O40. -/

namespace Sys2Proof.Machine
-- One proof at a time: elaborated side by side, the proofs of the whole text need more memory than the check gives.
set_option Elab.async false

/-! ### A remote write at its location (R51, R256, R257) -/

section
variable {s t : State} {n : Net}

/-- The first write at a free location is performed. -/
theorem tryWrite_lands (h : s.lands n t) : s.tryWrite n = t := by
  obtain ⟨hfirst, ⟨hkind, hstart, hfree, rfl⟩ | ⟨hkind, hempty, rfl⟩⟩ := h
  · simp only [State.tryWrite, hfirst, hkind, hstart, hfree]
    rfl
  · simp only [State.tryWrite, hfirst, hkind, hempty]
    rfl
/-- A write behind another, or at a full location, waits. -/
theorem tryWrite_waits (h : s.firstAt n = false ∨ s.occupied n) : s.tryWrite n = s.waitNet n := by
  cases hfirst : s.firstAt n with
  | false =>
    rw [State.tryWrite, hfirst]
    rfl
  | true =>
    rcases h.resolve_left (by rw [hfirst]; decide) with ⟨hkind, hstart, hfull⟩ | ⟨hkind, hfull⟩
    · simp only [State.tryWrite, hfirst, hkind, hstart, hfull]
      rfl
    · simp only [State.tryWrite, hfirst, hkind, hfull]
      rfl
theorem waitNet_arrives (hnew : n.waiting = false) : s.waitNet n = s.waitsIn n := by
  rw [State.waitNet, hnew]
  rfl
theorem waitNet_stays (hold : n.waiting = true) : s.waitNet n = s := if_pos hold
/-- A write that arrives lands, or comes to wait. -/
theorem tryWrite_arrival (hnew : n.waiting = false) (h : s.lands n t ∨ ((s.firstAt n = false ∨ s.occupied n) ∧ t = s.waitsIn n)) : s.tryWrite n = t := by
  rcases h with hland | ⟨hwait, rfl⟩
  · exact tryWrite_lands hland
  · exact (tryWrite_waits hwait).trans (waitNet_arrives hnew)
/-- A write that waits lands, or waits on. -/
theorem tryWrite_release (hold : n.waiting = true) (h : s.lands n t ∨ ((s.firstAt n = false ∨ s.occupied n) ∧ t = s)) : s.tryWrite n = t := by
  rcases h with hland | ⟨hwait, rfl⟩
  · exact tryWrite_lands hland
  · exact (tryWrite_waits hwait).trans (waitNet_stays hold)
end

/-! ### Withdrawal and answers (R280, R412) -/

section
variable {s : State} {n : Net}

/-- The answer to a withdrawn write, which no other answer shares, says so. -/
theorem execWithdrawalRequest_drops {id c : Nat} (hnet : s.net? id = some n) (hwithdraw : n.withdraw = true) (hsrc : coreOfSrc n.src = some c)
    (hunique : ∀ a ∈ s.answers, a.id ≠ id) (hid : n.id = id) : execWithdrawalRequest id s = .next { s with
      net := s.net.filter (fun m => m.id != id), answers := s.answers ++ [⟨id, 16 * c + n.src % 16, (s.slot (16 * c + n.src % 16)).gen, false, true⟩] } := by
  have hothers : s.answers.map (fun a => if a.id = id then { a with withdrawn := true } else a) = s.answers :=
    (List.map_congr_left fun a ha => if_neg (hunique a ha)).trans (List.map_id' _)
  simp only [execWithdrawalRequest, hnet, hwithdraw, State.answer, hsrc, if_true, State.dropNet, List.map_append, List.map_cons, List.map_nil, hothers, hid]
  rfl
/-- A strand that waits for an answer records it. -/
theorem takeAnswer_records {a : Ans} {k : Nat} {r : Remote} (hplace : s.placeOf a.slot (fun _ x => x.remote.any (fun r => r.id == a.id)) = .slot k)
    (hkept : a.withdrawn = false) (hremote : (s.slot k).remote = some r) (hid : r.id = a.id) : s.takeAnswer a =
      ({ s with answers := s.answers.filter (fun b => b.id != a.id) } : State).modSlot k (fun x => { x with remote := some { r with done := some a.ok } }) := by
  simp only [State.takeAnswer, hplace, hkept]
  refine congrArg (State.setSlot _ k) ?_
  have hslot : ({ s with answers := s.answers.filter (fun b => b.id != a.id) } : State).slot k = s.slot k := rfl
  simp only [hslot, hremote, hid, if_true]
theorem takeAnswer_withdrawn {a : Ans} {k : Nat} {p : Park} (hplace : s.placeOf a.slot (fun _ x => x.remote.any (fun r => r.id == a.id)) = .slot k)
    (hwithdrawn : a.withdrawn = true) (hrep : (s.slot k).seqRep = none) (hpark : (s.slot k).park = some p) : s.takeAnswer a =
      (({ s with answers := s.answers.filter (fun b => b.id != a.id) } : State).modSlot k (fun y => { y with remote := none })).takeTrap k 0x0B (s.slot k).pc
        (waitDesc p.on p.on.peer) (s.slot k).trapLanes 0 := by
  simp only [State.takeAnswer, hplace, hwithdrawn, hrep, hpark]
  rfl
end

/-- Settles O40: arrival, release, withdrawal and answer. -/
theorem remoteWriteEvents : Obligations.RemoteWriteEvents := by
  unfold Obligations.RemoteWriteEvents
  refine ⟨fun id i kd hi => ?arrival, fun id => ?release, fun id => ?withdrawal, fun id => ?answer⟩
  case arrival =>
    rintro s t ⟨n, hnet, hkind, hnew, hend⟩
    rcases hi with ⟨rfl, rfl⟩ | ⟨rfl, rfl⟩
    · rw [exec_rputDelivery, execRputDelivery, State.netOf_eq hnet hkind]
      simp only [hnew, tryWrite_arrival hnew hend]
      rfl
    · rw [exec_sputfeDelivery, execSputfeDelivery, State.netOf_eq hnet hkind]
      simp only [hnew, tryWrite_arrival hnew hend]
      rfl
  case release =>
    rintro s t ⟨n, hnet, hold, hend⟩
    rw [exec_remoteWriteRelease, execRemoteWriteRelease, hnet]
    simp only [hold, tryWrite_release hold hend]
    rfl
  case withdrawal =>
    rintro s t ⟨n, c, hnet, hwithdraw, hsrc, hunique, hid, rfl⟩
    exact (exec_withdrawalRequest s).trans (execWithdrawalRequest_drops hnet hwithdraw hsrc hunique hid)
  case answer =>
    rintro s t ⟨a, k, hfind, hplace, hend⟩
    rw [exec_acceptanceOrRefusal, execAcceptanceOrRefusal, hfind]
    rcases hend with ⟨hkept, r, hremote, hid, rfl⟩ | ⟨hwithdrawn, hrep, p, hpark, rfl⟩
    · exact congrArg _ (takeAnswer_records hplace hkept hremote hid)
    · exact congrArg _ (takeAnswer_withdrawn hplace hwithdrawn hrep hpark)

end Sys2Proof.Machine

/-! # Events of the kernel (R45, R332 to R337, R364, R368, R444, R445, R476, R477)

What the kernel does at each of its events; from these the obligation O42. That a pre-empted task's slot becomes Free, and where its state goes, are the
model's choices (log entries 10 and 12). -/

namespace Sys2Proof.Machine
-- One proof at a time: elaborated side by side, the proofs of the whole text need more memory than the check gives.
set_option Elab.async false

/-! ### Pre-emption and freed slots (R45, R337, R364) -/

/-- A slot whose strand has halted is Free, or its held strand's again. -/
theorem emptied_of_freed (x : Slot) : ({ x with pairOf := none, kern := none } : Slot).emptied x.held = match x.held with
    | none => { x with phase := .free, pairOf := none, kern := none }
    | some h => { x with phase := .spilled, pairOf := none, kern := none, savea := h.1 } := by
  cases x
  dsimp only
  split <;> rfl
/-- A slot whose task has been saved is Free, or its held strand's again. -/
theorem emptied_of_saved (y : Slot) (held : Option (W64 × Nat)) : ({ Slot.reset with gen := y.gen, savea := y.savea } : Slot).emptied held = match held with
    | none => { Slot.reset with phase := .free, gen := y.gen, savea := y.savea }
    | some h => { Slot.reset with phase := .spilled, gen := y.gen, savea := h.1, held := some h } := by
  cases held <;> rfl

section
variable {s : State} {k : Nat}

theorem preempt_task {c i : Nat} {g : W32} (hjob : (s.slot k).job = .task c i g) :
    s.preempt k = ((((s.modSlot k (fun x => { x with kern := some .resume })).setRecState c i 4).spillTo k (kernelArea c i)).modSlot k (fun y =>
      match (s.slot k).held with
      | none => { Slot.reset with phase := .free, gen := y.gen, savea := y.savea }
      | some h => { Slot.reset with phase := .spilled, gen := y.gen, savea := h.1, held := some h })).rqEnter c i := by
  simp only [State.preempt, hjob, emptied_of_saved]
  rw [← hjob]
  rfl
theorem freeSlot_halted (hphase : (s.slot k).phase = .halted) : s.freeSlot k = s.modSlot k (fun x => match x.held with
    | none => { x with phase := .free, pairOf := none, kern := none }
    | some h => { x with phase := .spilled, pairOf := none, kern := none, savea := h.1 }) := by
  simp only [State.freeSlot, hphase, emptied_of_freed]
  rfl
end

/-! ### Page faults (R444, R445) -/

section
variable {s : State} {d p : Nat}

theorem retryRing_one {r : FaultRec} (hqueue : mget [] (s.die d).faultq p = [r]) (hroom : s.ringRoom d p = true) (hrun : s.paused d p = false) :
    s.retryRing d p 1 = if s.faultLive r then (s.modDie d (fun z => { z with faultq := mput z.faultq p [] })).postFault d p r
      else s.modDie d (fun z => { z with faultq := mput z.faultq p [] }) := by
  simp only [State.retryRing, hqueue, hroom, hrun]
  rfl
theorem retryRing_blocked (n : Nat) (h : s.ringRoom d p = false ∨ mget [] (s.die d).faultq p = []) : s.retryRing d p n = s := by
  cases n with
  | zero => rfl
  | succ n =>
    unfold State.retryRing
    split
    · rfl
    case h_2 r l hqueue =>
      rw [hqueue] at h
      simp [h.resolve_right nofun]
end

/-- Settles O42: each event by what its conditions leave of it. -/
theorem kernelEvents : Obligations.KernelEvents := by
  unfold Obligations.KernelEvents
  refine ⟨fun k => ?preempt, fun k => ?other, fun k => ?freed, fun k => ?busy, fun k => ?lend, ?early, ?exchange, fun d p => ?ring, fun d p => ?full,
    fun d p v => ?reply, fun d p v => ?stale, fun c => ?watchdog, fun c => ?alive, fun c => ?back, fun c => ?out⟩
  case preempt =>
    refine happens_next exec_spill ?_
    rintro s t ⟨c, i, g, hkern, hjob, rfl⟩
    exact (if_pos hkern).trans (preempt_task hjob)
  case other =>
    refine happens_next exec_spill ?_
    rintro s t ⟨hkern, rfl⟩
    exact if_neg hkern
  case freed =>
    refine happens_next exec_slotFreed ?_
    rintro s t ⟨hphase, rfl⟩
    exact freeSlot_halted hphase
  case busy =>
    refine happens_next exec_slotFreed ?_
    rintro s t ⟨hphase, rfl⟩
    exact if_pos hphase
  case lend =>
    refine happens_next exec_longWaitSpill ?_
    rintro s t ⟨hlong, hnative, hready, hfull, rfl⟩
    exact if_pos (by simp [State.lendDue, hlong, hnative, hready, hfull])
  case early =>
    refine happens_next exec_loadBalanceExchange ?_
    rintro s t ⟨hdue, rfl⟩
    exact if_pos (by rw [hdue]; rfl)
  case exchange =>
    refine happens_next exec_loadBalanceExchange ?_
    rintro s t ⟨hdue, rfl⟩
    exact if_neg (by rw [hdue]; decide)
  case ring =>
    refine happens_next exec_faultRingRetry ?_
    rintro s t ⟨r, hqueue, hroom, hrun, hend⟩
    rw [hqueue]
    refine (retryRing_one hqueue hroom hrun).trans ?_
    rcases hend with ⟨hlive, rfl⟩ | ⟨hlive, rfl⟩ <;> rw [hlive] <;> rfl
  case full =>
    refine happens_next exec_faultRingRetry ?_
    rintro s t ⟨h, rfl⟩
    exact retryRing_blocked _ h
  case reply =>
    refine happens_next exec_frreply ?_
    rintro s t ⟨r, hfind, hstatus, hend⟩
    simp only [State.reply, hfind, if_neg hstatus]
    rcases hend with ⟨j, hplace, rfl⟩ | ⟨j, a, hplace, rfl⟩ | ⟨hplace, rfl⟩ <;> rw [hplace] <;> rfl
  case stale =>
    refine happens_next exec_frreply ?_
    rintro s t ⟨hfind | hstatus, rfl⟩
    · rw [State.reply, hfind]
    · unfold State.reply
      dsimp only
      split
      · rfl
      · exact if_pos hstatus
  case watchdog =>
    refine happens_next exec_watchdogExpiry ?_
    rintro s t ⟨hstarted, hdeleg, hserving, hlate, rfl⟩
    exact if_pos (by rw [State.watchdogDue, hstarted, hdeleg, hserving, decide_eq_true hlate]; rfl)
  case alive =>
    refine happens_next exec_watchdogExpiry ?_
    rintro s t ⟨h | h, rfl⟩
    · exact if_neg (by simp [State.watchdogDue, h])
    · exact if_neg (by simp only [State.watchdogDue, decide_eq_false (Nat.not_le.2 h), Bool.and_false, Bool.false_eq_true, not_false_iff])
  case back =>
    refine happens_next exec_coreReturnToService ?_
    rintro s t ⟨hout, hfails, rfl⟩
    exact if_pos (by rw [hout, decide_eq_true hfails]; rfl)
  case out =>
    refine happens_next exec_coreReturnToService ?_
    rintro s t ⟨h | h, rfl⟩
    · exact if_neg (by simp [h])
    · exact if_neg (by simp only [decide_eq_false (Nat.not_lt.2 h), Bool.and_false, Bool.false_eq_true, not_false_iff])

end Sys2Proof.Machine

/-! # Admission, placement and release of gangs (R53, R54, R176, R306, R325 to R330, R423, R424, R475)

What placing a gang leaves, and what each launch event does under its conditions; from these the obligation O44. The numbers of gangs and the mark of a head
that is passed over are the model's choices (log entries 76 and 58). -/

namespace Sys2Proof.Machine
-- One proof at a time: elaborated side by side, the proofs of the whole text need more memory than the check gives.
set_option Elab.async false

/-! ### Placement (R329) -/

/-- The parts of the state that say which gangs stand, with those that placing a gang leaves. -/
def State.standing (s : State) : Nat × List Gang × List Host.Cell × SMap Slot := (s.nextGang, s.gangs, s.mem, s.slots)

section
variable {s : State} {d p : Nat} {g : Gang}

/-- Placing a gang takes its number, and changes only the cores, clusters and arbiter besides. -/
theorem place_standing {pos : Nat} (arb : SMap Nat) (f : State → State) (hpos : s.placeFor d p g.lrec = some pos) : (s.place d p g arb f).standing =
    (gangAfter s.nextGang, s.gangs ++ [{ g with id := s.nextGang, row0 := pos / 24, col0 := pos % 24, live := List.range g.nStrands }], s.mem, s.slots) := by
  simp only [State.place, hpos]
  refine Eq.trans (b := State.standing (if _ then _ else _)) rfl ?_
  split
  · refine (foldl_keeps State.standing (fun _ _ => ?_) _ _).trans (foldl_keeps State.standing (fun _ _ => ?_) _ _)
    · rfl
    · rfl
  · refine foldl_keeps State.standing (fun _ _ => ?_) _ _
    rfl
/-- A gang with a place does not wait as a head that is passed over. -/
theorem place_congr {arb : SMap Nat} (f f' : State → State) (hpos : (s.placeFor d p g.lrec).isSome = true) : s.place d p g arb f = s.place d p g arb f' := by
  obtain ⟨pos, hpos⟩ := Option.isSome_iff_exists.1 hpos
  simp only [State.place, hpos]
theorem place_none {arb : SMap Nat} {f : State → State} (hpos : s.placeFor d p g.lrec = none) : s.place d p g arb f = f s := by
  rw [State.place, hpos]
end

/-! ### Release (R53, R475) -/

section
variable {s : State} {g : Nat} {x : Gang}

theorem releaseGang_waits (hgang : s.gang? g = some x) (h : x.released = true ∨ s.startable x = false) : s.releaseGang g = s := by
  simp only [State.releaseGang, hgang]
  exact if_pos (by rcases h with h | h <;> simp [h])

section
variable (hgang : s.gang? g = some x) (hreleased : x.released = false) (hretired : x.retired = false) (hstart : s.startable x = true)
include hgang hreleased hretired hstart

theorem releaseGang_fails {had : List Nat} {c : Nat} (hlost : s.flitLost x = some (had, c)) : s.releaseGang g = s.launchFails x had c := by
  simp only [State.releaseGang, hgang, hreleased, hretired, hstart, hlost]
  rfl
theorem releaseGang_tray {c : Nat} (hlost : s.flitLost x = none) (hqueue : x.queue = none) (htray : x.tray = some c) : s.releaseGang g =
    let s1 := x.cores.foldl (fun u k => (u.seedCore x (s.codeImage x) [] k).modCore k Core.sent) s
    let s2 := if x.mlease then x.clusters.foldl (fun u k => u.beginLease x k) s1 else s1
    let s3 := s2.modGang g (fun y => { y with released := true, img := 0 })
    let s4 := x.cores.foldl (fun u k => if (u.core k).native then (List.range x.S).foldl (fun v j => (v.startRank (16 * k + 1 + j) j).2) u else u) s3
    s4.modCore c (fun y => { y with tray := y.tray.drop 1 }) := by
  simp only [State.releaseGang, hgang, hreleased, hretired, hstart, hlost, State.takeHead, hqueue, htray]
  rfl
end
end

/-! ### Seed trays (R325, R475) -/

section
variable {s : State} {c : Nat} {e : Tray} {rest : List Tray} {x : Cand} {arb : SMap Nat} (htray : (s.core c).tray = e :: rest)
  (hpick : s.arbPick (dieOfCore c) = some (x, arb)) (hkey : x.key = 4096 + c)
include htray hpick hkey

theorem drainTray_bad (hbad : e.bad = true) :
    s.drainTray c = (s.transportFailed (dieOfCore c) x.part (srcOfCore c) 65535).modCore c (fun y => { y with tray := y.tray.drop 1 }) := by
  simp only [State.drainTray, htray, hpick, hkey, hbad, ne_eq, not_true, if_false, if_true]
theorem drainTray_rejects {r off : Nat} {u : State} (hbad : e.bad = false)
    (hreject : s.admitGang (dieOfCore c) x.part e.lrec e.gtab (fun y => y.trayPtrs (dieOfCore c) x.part e) = .error (r, off, u)) :
    s.drainTray c = (u.rejectRec (dieOfCore c) x.part (srcOfSlot e.slot) (natW e.ls) (some e.lrec) r off).modCore c (fun y => { y with tray := y.tray.drop 1 }) := by
  simp only [State.drainTray, htray, hpick, hkey, hbad, hreject, ne_eq, not_true, if_false, Bool.false_eq_true]
theorem drainTray_places {g : Gang} {u : State} (hbad : e.bad = false)
    (hadmit : s.admitGang (dieOfCore c) x.part e.lrec e.gtab (fun y => y.trayPtrs (dieOfCore c) x.part e) = .ok (g, u))
    (hpos : (u.placeFor (dieOfCore c) x.part g.lrec).isSome = true) (f : State → State) :
    s.drainTray c = u.place (dieOfCore c) x.part { g with prio := x.prio, tray := some c } arb f := by
  simp only [State.drainTray, htray, hpick, hkey, hbad, hadmit, ne_eq, not_true, if_false, Bool.false_eq_true]
  exact place_congr _ _ hpos
end

/-! ### The GANG packet (R326, R327, R424) -/

section
variable {s u t1 : State} {p q d : Nat} {e : Queue} {ws : List W64} {c : Cand} {arb : SMap Nat} {v : Nat} (hhead : s.HeadIs p q 1 d e ws u)
  (hpick : u.arbPick d = some (c, arb)) (hkey : c.key = q) (hpart : c.part = p)
  (hread : u.vread d p (u.qAsid d p q) (accR 1) 0x100 (lrw ws 1).toNat 256 = .ok (v, t1))
include hhead hpick hkey hpart hread

theorem execGang_rejects {r off : Nat} (hbad : recordBad (wordsOfNat v 32) false = some (r, off)) : execGang p q s = .next
    (((t1.rejectRec d p (srcOfFe d) (natW (lrw ws 1).toNat) (some (wordsOfNat v 32)) r off).advanceQ d p q).modQueue d p q (fun y => { y with ranges := [] })) := by
  rw [execGang, hhead.withHead]
  simp only [hpick, hkey, hpart, hread, hbad, ne_eq, not_true, or_self, if_false]
theorem execGang_places {gv : Nat} {t2 t3 : State} {g : Gang} (hgood : recordBad (wordsOfNat v 32) false = none)
    (hgroups : t1.vread d p (wf (lrw (wordsOfNat v 32) 0) 36 12) (accR 1) 0x88 (wf (lrw (wordsOfNat v 32) 17) 0 56) (8 * wf (lrw (wordsOfNat v 32) 17) 56 8) = .ok (gv, t2))
    (hadmit : t2.admitGang d p (wordsOfNat v 32) (wordsOfNat gv (wf (lrw (wordsOfNat v 32) 17) 56 8)) (fun y => y.modulePtrs d p (wordsOfNat v 32)) = .ok (g, t3)) :
    execGang p q s = .next (t3.place d p { g with prio := c.prio, queue := some q, ranges := e.ranges } arb
      (fun u => u.modQueue d p q (fun y => { y with blocked := true }))) := by
  rw [execGang, hhead.withHead]
  simp only [hpick, hkey, hpart, hread, hgood, hgroups, hadmit, ne_eq, not_true, or_self, if_false]
end

/-- Settles O44: the GANG packet, the seed trays, placement, and release. -/
theorem launchEvents : Obligations.LaunchEvents := by
  unfold Obligations.LaunchEvents
  refine ⟨fun p q => ?gang, fun c => ?tray, fun c => ?badTray, fun s d p g arb f pos hpos => ?place, fun g => ?release, fun g => ?lost, fun g => ?waits⟩
  case gang =>
    rintro s t ⟨d, e, ws, u, c, arb, v, t1, hhead, hpick, hkey, hpart, hread, hend⟩
    refine (exec_gang s).trans ?_
    rcases hend with ⟨r, off, hbad, rfl⟩ | ⟨hgood, gv, t2, g, t3, hgroups, hadmit, hplace⟩
    · exact execGang_rejects hhead hpick hkey hpart hread hbad
    · refine (execGang_places hhead hpick hkey hpart hread hgood hgroups hadmit).trans (congrArg _ ?_)
      rcases hplace with ⟨hnone, rfl⟩ | ⟨hsome, rfl⟩
      · exact place_none hnone
      · exact place_congr _ _ hsome
  case tray =>
    refine happens_next exec_seedTrayDrain ?_
    rintro s t ⟨e, rest, x, arb, htray, hpick, hkey, hgood, ⟨r, off, u, hreject, rfl⟩ | ⟨g, u, hadmit, hpos, rfl⟩⟩
    · exact drainTray_rejects htray hpick hkey hgood hreject
    · exact drainTray_places htray hpick hkey hgood hadmit hpos _
  case badTray =>
    refine happens_next exec_seedTrayDrain ?_
    rintro s t ⟨e, rest, x, arb, htray, hpick, hkey, hbad, rfl⟩
    exact drainTray_bad htray hpick hkey hbad
  case place =>
    have h := place_standing arb f hpos
    simp only [State.standing, Prod.mk.injEq] at h
    obtain ⟨hnext, hgangs, hmem, hslots⟩ := h
    exact ⟨hnext, ⟨_, hgangs, rfl, rfl, rfl, rfl, rfl, rfl⟩, hmem, hslots⟩
  case release =>
    refine happens_next exec_gangRelease ?_
    rintro s t ⟨x, c, hgang, hreleased, hretired, hstart, hlost, hqueue, htray, rfl⟩
    exact releaseGang_tray hgang hreleased hretired hstart hlost hqueue htray
  case lost =>
    refine happens_next exec_gangRelease ?_
    rintro s t ⟨x, had, c, hgang, hreleased, hretired, hstart, hlost, rfl⟩
    exact releaseGang_fails hgang hreleased hretired hstart hlost
  case waits =>
    refine happens_next exec_gangRelease ?_
    rintro s t ⟨x, hgang, h, rfl⟩
    exact releaseGang_waits hgang h

end Sys2Proof.Machine

/-! # The canonical form of memory (R5; log entry 2)

Every operation of the model keeps the canonical form of the memory's list: one lemma for each, in the order of the definitions, so that the lemma of an
operation cites those of the operations that it is made of. -/

namespace Sys2Proof.Machine
-- One proof at a time: elaborated side by side, the proofs of the whole text need more memory than the check gives.
set_option Elab.async false

/-! ### The form of a state, of a stop, and of the results of operations -/

/-- The memory's list has its canonical form. -/
def State.Canon (s : State) : Prop := Memory.wf s.mem = true
/-- A stop's state, where it has one, is canonical. -/
def Stop.Canon : Stop → Prop
  | .trapWith t _ => t.Canon
  | .parkWith t _ => t.Canon
  | _ => True
def SeqStop.Canon : SeqStop → Prop
  | .wait t => t.Canon
  | _ => True
def OutCanon : Host.Outcome State Fault Refusal → Prop
  | .next t => t.Canon
  | _ => True
/-- A result has `P`, or an error with `E`. -/
def Kept {ε α : Type} (E : ε → Prop) (P : α → Prop) : Except ε α → Prop
  | .ok a => P a
  | .error e => E e
/-- What the body of an instruction results in. -/
abbrev RCanon {α : Type} (P : α → Prop) (r : Res α) : Prop := Kept Stop.Canon P r
/-- What the body of a matrix instruction results in. -/
abbrev SCanon {α : Type} (P : α → Prop) (r : SRes α) : Prop := Kept SeqStop.Canon P r
/-- What a translation results in. -/
abbrev XCanon {α : Type} (P : α → Prop) (r : XR α) : Prop := Kept (fun e => e.2.Canon) P r
/-- What reading a launch record results in. -/
abbrev ACanon {α : Type} (P : α → Prop) (r : AR α) : Prop := Kept (fun e => e.2.2.Canon) P r

/-- The body of a sown instruction keeps the form. -/
def SowBody.Canon (b : SowBody) : Prop := ∀ e k t, t.Canon → RCanon (fun r => r.2.Canon) (b.run e k t)
/-- A lane instruction's body keeps the form. -/
def LaneBody.Canon (b : LaneBody) : Prop := ∀ e k t, t.Canon → RCanon State.Canon (b.run e k t)

section
variable {ε α β : Type} {E : ε → Prop} {P : α → Prop} {Q : β → Prop}

theorem Kept.bind {m : Except ε α} {f : α → Except ε β} (hm : Kept E P m) (hf : ∀ a, P a → Kept E Q (f a)) : Kept E Q (m >>= f) := by
  cases m with
  | ok a => exact hf a hm
  | error e => exact hm
theorem Kept.ok {m : Except ε α} {a : α} (e : m = .ok a) (h : Kept E P m) : P a := by
  subst e
  exact h
theorem Kept.error {m : Except ε α} {x : ε} (e : m = .error x) (h : Kept E P m) : E x := by
  subst e
  exact h
theorem Kept.ite {c : Prop} [Decidable c] {m n : Except ε α} (hm : Kept E P m) (hn : Kept E P n) : Kept E P (if c then m else n) := by split <;> assumption
theorem Kept.mono {P' : α → Prop} {m : Except ε α} (h : Kept E P m) (hp : ∀ a, P a → P' a) : Kept E P' m := by
  cases m with
  | ok a => exact hp a h
  | error e => exact h
theorem mem_some {P : α → Prop} {a : α} (h : P a) : ∀ x ∈ some a, P x := by
  rintro x ⟨⟩
  exact h
theorem mem_ite {P : α → Prop} {c : Prop} [Decidable c] {o u : Option α} (ho : ∀ x ∈ o, P x) (hu : ∀ x ∈ u, P x) :
    ∀ x ∈ (if c then o else u), P x := by split <;> assumption
theorem mem_orElse {P : α → Prop} {o u : Option α} (ho : ∀ x ∈ o, P x) (hu : ∀ x ∈ u, P x) : ∀ x ∈ (o <|> u), P x := by
  cases o with
  | none => exact hu
  | some a => exact ho
theorem mem_findSome {P : β → Prop} {l : List α} {f : α → Option β} (hf : ∀ a, ∀ x ∈ f a, P x) : ∀ x ∈ l.findSome? f, P x := by
  intro x hx
  obtain ⟨a, -, ha⟩ := List.exists_of_findSome?_eq_some hx
  exact hf a x ha
theorem mem_map {P : α → Prop} {Q : β → Prop} {o : Option α} {f : α → β} (ho : ∀ x ∈ o, P x) (hf : ∀ a, P a → Q (f a)) :
    ∀ x ∈ o.map f, Q x := by
  intro x hx
  obtain ⟨a, ha, rfl⟩ := Option.map_eq_some_iff.mp hx
  exact hf a (ho a ha)
theorem mem_none {P : α → Prop} : ∀ x ∈ (none : Option α), P x := nofun
theorem prop_ite {P : α → Prop} {c : Prop} [Decidable c] {a b : α} (ha : P a) (hb : P b) : P (if c then a else b) := by split <;> assumption
theorem Kept.map {f : α → β} {m : Except ε α} (h : Kept E (fun a => Q (f a)) m) : Kept E Q (m.map f) := by
  cases m with
  | ok a => exact h
  | error e => exact h
theorem mem_bind {P : β → Prop} {o : Option α} {f : α → Option β} (hf : ∀ a, ∀ x ∈ f a, P x) : ∀ x ∈ o.bind f, P x := by
  intro x hx
  obtain ⟨a, -, ha⟩ := Option.bind_eq_some_iff.mp hx
  exact hf a x ha
/-- A left fold keeps what its steps keep. -/
theorem foldl_keeps_prop {P : β → Prop} {f : β → α → β} {l : List α} {b : β} (hb : P b) (hf : ∀ b a, P b → P (f b a)) : P (l.foldl f b) := by
  induction l generalizing b with
  | nil => exact hb
  | cons a l ih => exact ih (hf b a hb)
theorem Kept.foldlM {P : β → Prop} {f : β → α → Except ε β} {l : List α} {b : β} (hb : P b) (hf : ∀ b a, P b → Kept E P (f b a)) :
    Kept E P (l.foldlM f b) := by
  induction l generalizing b with
  | nil => exact hb
  | cons a l ih => exact Kept.bind (hf b a hb) fun b hb => ih hb
end

section
variable {s t : State}

theorem canon_ite {c : Prop} [Decidable c] (hs : s.Canon) (ht : t.Canon) : (if c then s else t).Canon := by split <;> assumption
theorem OutCanon.ite {c : Prop} [Decidable c] {o u : Host.Outcome State Fault Refusal} (ho : OutCanon o) (hu : OutCanon u) : OutCanon (if c then o else u) := by
  split <;> assumption
theorem OutCanon.next {o : Host.Outcome State Fault Refusal} (e : o = .next t) (h : OutCanon o) : t.Canon := by
  subst e
  exact h
theorem canon_foldl {α : Type} {f : State → α → State} {l : List α} (hs : s.Canon) (hf : ∀ t a, t.Canon → (f t a).Canon) : (l.foldl f s).Canon :=
  foldl_keeps_prop hs hf
theorem canon_fst {α : Type} {r : State × α} {a : α} (e : r = (t, a)) (h : r.1.Canon) : t.Canon := by
  subst e
  exact h
theorem canon_snd {α : Type} {r : α × State} {a : α} (e : r = (a, t)) (h : r.2.Canon) : t.Canon := by
  subst e
  exact h
theorem canon_thd {α β : Type} {r : α × β × State} {a : α} {b : β} (e : r = (a, b, t)) (h : r.2.2.Canon) : t.Canon := by
  subst e
  exact h
theorem Calm.canon (c : Calm s t) (h : s.Canon) : t.Canon := c.form h
theorem RCalm.canon {α : Type} {f : α → State} {r : Res α} (c : RCalm s f r) (h : s.Canon) : RCanon (fun a => (f a).Canon) r := by
  cases r with
  | ok a => exact c.form h
  | error e => cases e with
    | trapWith => exact c.form h
    | parkWith => exact c.form h
    | trap => trivial
    | park => trivial
theorem XCalm.canon {α : Type} {f : α → State} {r : XR α} (c : XCalm s f r) (h : s.Canon) : XCanon (fun a => (f a).Canon) r := by
  cases r with
  | ok a => exact c.form h
  | error e => exact c.form h
end

/-! ### Operations with a result of any type -/

section
variable {α : Type} {P : α → Prop} {s : State}

theorem ofX_canon {acc va : Nat} {lanes : Option W64} {r : XR α} (h : XCanon P r) : RCanon P (ofX acc va lanes r) := by
  unfold ofX
  split
  · exact h
  · exact Kept.ite h trivial
theorem fires_canon {o : Host.Outcome State Fault Refusal} (h : s.Canon) (ho : OutCanon o) : ∀ x ∈ s.fires o, OutCanon x := by
  unfold State.fires
  split
  · split
    · nofun
    · split
      · exact mem_some ho
      · exact mem_ite nofun (mem_some ((sendSnoop_calm ..).canon h))
  · exact mem_some ho
theorem firstOf_canon {l : List α} {f : α → State → Host.Outcome State Fault Refusal} (h : s.Canon) (hf : ∀ a t, t.Canon → OutCanon (f a t)) :
    ∀ x ∈ s.firstOf l f, OutCanon x :=
  mem_findSome fun a => fires_canon h (hf a s h)
theorem poisStop_canon {k : Nat} {us : List HwUnit} {t : Trap} (h : s.Canon) : RCanon P (s.poisStop k us t) := by
  unfold State.poisStop
  split
  case h_1 e => exact canon_snd e ((findErr_calm ..).canon h)
  case h_2 => trivial
theorem withTval_canon {code : Nat} {v : W64} {lanes : Option W64} {r : Res α} (h : RCanon P r) : RCanon P (withTval code v lanes r) := by
  unfold withTval
  split
  · trivial
  · exact h
end


/-! ### Deliveries -/

/-- What a delivery leaves is canonical. -/
def Deliv.Canon : Deliv → Prop
  | .accept t => t.Canon
  | .refuse t => t.Canon
  | _ => True
theorem Deliv.canon_ite {c : Prop} [Decidable c] {a b : Deliv} (ha : a.Canon) (hb : b.Canon) : (if c then a else b).Canon := by split <;> assumption
theorem Deliv.accept_canon {a : Deliv} {t : State} (e : a = .accept t) (h : a.Canon) : t.Canon := by
  subst e
  exact h
theorem Deliv.refuse_canon {a : Deliv} {t : State} (e : a = .refuse t) (h : a.Canon) : t.Canon := by
  subst e
  exact h
theorem deliver_canon {s : State} {n : Net} (h : s.Canon) : (s.deliver n).Canon := by
  have box {c : Bool} {t : State} (ht : t.Canon) : (if c then Deliv.accept t else .wait).Canon := Deliv.canon_ite ht trivial
  have dead {d p : Nat} : (Deliv.refuse (s.deadLetter d p)).Canon := (deadLetter_calm ..).canon h
  unfold State.deliver
  refine Deliv.canon_ite (Deliv.canon_ite (box h) h) (Deliv.canon_ite ?_ ?_)
  · dsimp only
    split
    · split
      case h_1 t e => exact (Deliv.accept_canon e (box h) : t.Canon)
      case h_2 => exact box h
    · split
      case h_1 t e => exact (Deliv.accept_canon e (box h) : t.Canon)
      case h_2 => exact box h
    · exact dead
  · dsimp only
    split
    · trivial
    · exact Deliv.canon_ite (Deliv.canon_ite (box h) (box h)) dead

/-! ### Traps, parks and the fetch of clauses -/

section
variable {s : State} {k c d p q cl n b j : Nat}

theorem logTrap_canon {code : Nat} {dlg nest : Bool} {epc : Nat} {tval lanes detail : W64} (h : s.Canon) :
    (s.logTrap k code dlg nest epc tval lanes detail).Canon := (logTo_calm ..).canon h
theorem freePool_canon (h : s.Canon) : (s.freePool c n).Canon := (modCore_calm ..).canon h
theorem spillTo_canon {a : W64} (h : s.Canon) : (s.spillTo k a).Canon := by
  unfold State.spillTo
  refine (modCore_calm ..).canon ?_
  refine canon_ite ?_ ?_
  · dsimp only [State.Canon, State.modSlot, State.setSlot]
    exact freePool_canon h
  · dsimp only [State.Canon, State.setSlot]
    exact freePool_canon h
theorem stopAndSignal_canon {code epc : Nat} {tval lanes detail : W64} (h : s.Canon) : (s.stopAndSignal k code epc tval lanes detail).Canon :=
  spillTo_canon (logTrap_canon h)
theorem takeTrap_canon {code epc : Nat} {tval lanes detail : W64} (h : s.Canon) : (s.takeTrap k code epc tval lanes detail).Canon :=
  canon_ite (stopAndSignal_canon h) (canon_ite (logTrap_canon h) h)
theorem seqStop_canon {code tile : Nat} (h : s.Canon) : (s.seqStop cl code tile).Canon := by
  unfold State.seqStop
  extract_lets _ _ s1 _ s2 s3 _
  have hs1 : s1.Canon := (setCluster_calm ..).canon h
  have hs2 : s2.Canon := by
    unfold s2
    refine canon_foldl hs1 fun _ _ h1 => ?_
    split
    · exact h1
    · split
      · exact h1
      · exact takeTrap_canon ((modCluster_calm ..).canon h1)
      · exact takeTrap_canon h1
    · exact h1
  have hs3 : s3.Canon := hs2
  exact canon_ite ((logTo_calm ..).canon hs3) hs3
theorem doPark_canon {a : Await} {header : Bool} (h : s.Canon) : (s.doPark k a header).Canon := by
  unfold State.doPark
  dsimp only
  split
  · exact takeTrap_canon h
  · exact h
theorem awaitHost_canon {line : Nat} {inv : Bool} (h : s.Canon) : (s.awaitHost line inv).Canon := by
  unfold State.awaitHost
  split
  · exact doPark_canon ((sendSnoop_calm ..).canon h)
  · exact (sendSnoop_calm ..).canon h
theorem hosted_canon {o : Host.Outcome State Fault Refusal} (h : s.Canon) (ho : OutCanon o) : OutCanon (s.hosted o) := by
  unfold State.hosted
  split
  · split
    · exact ho
    · exact awaitHost_canon h
  · exact ho
theorem atHolder_canon {f : Coh → State → State} {m : Coh} {t : State} (hf : ∀ a t, t.Canon → (f a t).Canon) (h : t.Canon) : (State.atHolder f m t).Canon :=
  canon_ite ((sendCoh_calm ..).canon h) (hf _ _ h)
theorem atHome_canon {f : Coh → Txn → State → State} {m : Coh} {t : State} (hf : ∀ a b t, t.Canon → (f a b t).Canon) (h : t.Canon) :
    (State.atHome f m t).Canon := by
  unfold State.atHome
  split
  · exact canon_ite (hf _ _ _ h) ((anomaly_calm ..).canon h)
  · exact (anomaly_calm ..).canon h
theorem cohAdvance_canon {blk : Nat} (h : s.Canon) : ∀ res ∈ (s.cohAdvance blk), res.Canon := by
  unfold State.cohAdvance
  dsimp only
  split
  · exact mem_some ((deliverCoh_calm ..).canon h)
  · split
    · exact mem_ite (mem_some ((pushTxn_calm ..).canon h)) (mem_ite (mem_some ((overdueAct_calm ..).canon h)) (mem_some ((modDie_calm ..).canon h)))
    · split
      · exact mem_ite mem_none (mem_some ((request_calm ..).canon ((modDie_calm ..).canon h)))
      · exact mem_none
theorem settleStep_canon {blk : Nat} (h : s.Canon) : ∀ res ∈ (s.settleStep blk), res.Canon := by
  unfold State.settleStep
  split
  next e1 =>
    have h1 := (cohAdvance_canon h) _ e1
    exact mem_some h1
  · dsimp only
    split
    · split
      · exact cohAdvance_canon h
      · exact mem_some ((goOn_calm ..).canon ((startTxn_calm ..).canon h))
      · exact mem_bind fun _ => cohAdvance_canon h
    · exact mem_none
theorem homeTakes_canon {blk : Nat} (h : s.Canon) : (s.homeTakes blk).Canon := (recallAll_calm ..).canon h
theorem okData_canon {st pa va : Nat} {s' : State} (h : s'.Canon) : RCanon (fun _ => True) (okData st pa va s') := Kept.ite trivial h
theorem resumeAt_canon {t : Int} (h : s.Canon) : RCanon State.Canon (s.resumeAt k t) := by
  unfold State.resumeAt
  extract_lets _ go
  have hgo : RCanon State.Canon (go ()) := by
    unfold go
    refine Kept.bind ((codeWord_calm ..).canon h) fun _ h1 => ?_
    dsimp -zeta only
    refine Kept.ite h1 ?_
    refine Kept.bind ((findHdr_calm ..).canon h1) fun _ h2 => ?_
    split
    · trivial
    · extract_lets _ go2
      have hgo2 : RCanon State.Canon (go2 ()) := by
        unfold go2
        exact Kept.bind ((clauseWords_calm ..).canon h2) fun _ h3 => h3
      exact Kept.ite (Kept.bind (P := fun _ => True) trivial fun _ _ => hgo2) hgo2
  exact Kept.ite (Kept.bind (P := fun _ => True) trivial fun _ _ => hgo) hgo
theorem trapAt_canon {pc : Nat} {word lanes : W64} {t : Trap} (h : s.Canon) : (s.trapAt k pc word lanes t).Canon := takeTrap_canon h
theorem stop_canon {word lanes : W64} {e : Stop} (h : s.Canon) (he : e.Canon) : (s.stop k word lanes e).Canon := by
  unfold State.stop
  split
  · exact trapAt_canon h
  · exact trapAt_canon he
  · exact doPark_canon h
  · exact doPark_canon he
theorem fetchStop_canon {e : Stop} (h : s.Canon) (he : e.Canon) : (s.fetchStop k e).Canon := by
  unfold State.fetchStop
  split
  · exact doPark_canon h
  · exact doPark_canon he
  · exact stop_canon h he
theorem ensureV_canon {b : Bool} {code : Nat} {v : W64} : RCanon (fun _ => True) (ensureV b code v) := Kept.ite trivial trivial
theorem evalWaits_canon {hdr : W64} {ls : List HWait} (h : s.Canon) : RCanon (fun _ => True) (s.evalWaits k hdr ls) := by
  induction ls with
  | nil =>
    unfold State.evalWaits
    trivial
  | cons a l ih =>
    unfold State.evalWaits
    extract_lets _ go _ _
    have hgo : RCanon (fun _ => True) (go ()) := by
      unfold go
      exact ih
    split
    · exact hgo
    · exact Kept.ite hgo (Kept.bind (P := fun _ => True) trivial fun _ _ => hgo)
    · extract_lets go2 go3
      have hgo2 : RCanon (fun _ => True) (go2 ()) := by
        unfold go2
        exact Kept.ite (Kept.bind (P := fun _ => True) (Kept.ite trivial trivial) fun _ _ => hgo)
          (Kept.ite hgo (Kept.bind (P := fun _ => True) trivial fun _ _ => hgo))
      have hgo3 : RCanon (fun _ => True) (go3 ()) := by
        unfold go3
        exact Kept.ite (Kept.bind (P := fun _ => True) (poisStop_canon h) fun _ _ => hgo2) hgo2
      exact Kept.ite (Kept.bind (P := fun _ => True) trivial fun _ _ => hgo3) hgo3
theorem hdrStep_canon {c : Clause} (h : s.Canon) : RCanon State.Canon (s.hdrStep k c) := by
  unfold State.hdrStep
  refine Kept.bind ensureV_canon fun _ _ => ?_
  exact Kept.bind (evalWaits_canon h) fun _ _ => canon_ite h ((acqL1_calm ..).canon h)
theorem fetchClause_canon (h : s.Canon) : RCanon State.Canon (s.fetchClause k) := by
  unfold State.fetchClause
  refine Kept.bind ((codeWord_calm ..).canon h) fun _ h1 => ?_
  refine Kept.bind ensureV_canon fun _ _ => ?_
  refine Kept.bind ensureV_canon fun _ _ => ?_
  exact Kept.bind ensureV_canon fun _ _ => Kept.bind ((clauseWords_calm ..).canon h1) fun _ h2 => h2
theorem strandFetch_canon (h : s.Canon) : (s.strandFetch k).Canon := by
  unfold State.strandFetch
  refine canon_ite h ?_
  refine canon_ite ?_ ?_
  · split
    next e1 => exact (Kept.ok e1 (resumeAt_canon h) :)
    next e2 =>
      have h1 := Kept.error e2 (resumeAt_canon h)
      exact fetchStop_canon h h1
  · split
    · split
      next e3 => exact (Kept.ok e3 (hdrStep_canon h) :)
      next e4 =>
        have h2 := Kept.error e4 (hdrStep_canon h)
        exact fetchStop_canon h h2
    · split
      next e5 =>
        have h3 := Kept.error e5 (fetchClause_canon h)
        exact fetchStop_canon h h3
      next e6 =>
        have h4 := Kept.ok e6 (fetchClause_canon h)
        split
        · exact h4
        · split
          next e7 => exact (Kept.ok e7 (hdrStep_canon h4) :)
          next e8 =>
            have h5 := Kept.error e8 (hdrStep_canon h4)
            exact fetchStop_canon h4 h5
theorem matrixWaits_canon (h : s.Canon) : (s.matrixWaits cl).Canon := by
  unfold State.matrixWaits
  dsimp only
  split
  · exact h
  · exact canon_ite ((setCluster_calm ..).canon h) ((setCluster_calm ..).canon h)
theorem seqWord_canon {g : Gang} {off : Int} (h : s.Canon) : SCanon (fun r => r.2.Canon) (s.seqWord cl g off) := by
  unfold State.seqWord
  refine Kept.ite trivial ?_
  split
  · trivial
  · split
    · trivial
    next e1 =>
      have h1 := Kept.ok e1 ((walk_calm ..).canon h)
      exact Kept.ite ((cread64_calm ..).canon h1) trivial
theorem sEnsure_canon {b : Bool} {code : Nat} : SCanon (fun _ => True) (sEnsure b code) := Kept.ite trivial trivial
theorem seqWords_canon {g : Gang} {off m : Nat} (h : s.Canon) : SCanon (fun r => r.2.Canon) (s.seqWords cl g off m) := by
  induction m generalizing s off with
  | zero =>
    unfold State.seqWords
    exact h
  | succ n ih =>
    unfold State.seqWords
    refine Kept.bind (seqWord_canon h) fun _ h1 => ?_
    exact Kept.bind (ih h1) fun _ h2 => h2
theorem fetchMatrix_canon {g : Gang} (h : s.Canon) : SCanon State.Canon (s.fetchMatrix cl g) := by
  unfold State.fetchMatrix
  refine Kept.bind (seqWord_canon h) fun _ h1 => ?_
  refine Kept.bind sEnsure_canon fun _ _ => ?_
  refine Kept.bind sEnsure_canon fun _ _ => ?_
  refine Kept.bind sEnsure_canon fun _ _ => ?_
  refine Kept.bind sEnsure_canon fun _ _ => ?_
  exact Kept.bind (seqWords_canon h1) fun _ h2 => (modCluster_calm ..).canon h2
theorem seqFetch_canon (h : s.Canon) : (s.seqFetch cl).Canon := by
  unfold State.seqFetch
  refine canon_ite h ?_
  refine canon_ite (matrixWaits_canon h) ?_
  split
  · exact h
  · split
    next e1 =>
      have h1 := Kept.ok e1 (fetchMatrix_canon h)
      exact matrixWaits_canon h1
    · exact seqStop_canon h
    next e2 => exact (Kept.error e2 (fetchMatrix_canon h) :)
theorem takeReport_canon (h : s.Canon) : (s.takeReport k).Canon := by
  unfold State.takeReport
  dsimp only
  split
  · exact takeTrap_canon h
  · exact h
theorem takeIrq_canon {code : Nat} (h : s.Canon) : (s.takeIrq k code).Canon := takeTrap_canon h
theorem enterIrq_canon (h : s.Canon) : (s.enterIrq k).Canon := by
  unfold State.enterIrq
  refine canon_ite h ?_
  split
  · exact takeIrq_canon h
  · exact h
theorem advance_canon (h : s.Canon) : (s.advance k).Canon := canon_ite h h
theorem sendNet_canon {n : Net} (h : s.Canon) : (s.sendNet n).1.Canon := h
theorem sendOut_canon {v : W64} (h : s.Canon) : RCanon State.Canon (sendOut k v s) := by
  unfold sendOut
  dsimp only
  split
  · trivial
  · refine Kept.ite trivial ?_
    split
    · trivial
    · refine Kept.ite ?_ (sendNet_canon h)
      show State.Canon _
      dsimp only [State.Canon, State.modSlot, State.setSlot]
      exact sendNet_canon h
theorem wrSc_canon {v : W64} (h : s.Canon) : RCanon State.Canon (wrSc k n v s) :=
  Kept.ite h (Kept.ite h (Kept.ite (sendOut_canon h) ((modCore_calm ..).canon h)))
theorem resumePark_canon (h : s.Canon) : (s.resumePark k).Canon := by
  unfold State.resumePark
  dsimp only
  split
  · refine canon_ite h ?_
    split
    · exact canon_ite (advance_canon h) (takeTrap_canon h)
    · split
      next e1 =>
        have h1 := Kept.ok e1 (wrSc_canon h)
        exact advance_canon h1
      next e2 =>
        have h2 := Kept.error e2 (wrSc_canon h)
        exact stop_canon h h2
    · exact advance_canon h
    · exact h
  · exact h
end

/-! ### Checkpoints, migration and the registers of management -/

section
variable {s : State} {k c d p q cl n b j : Nat}

theorem execParkResume_canon {slot : Nat} (h : s.Canon) : OutCanon (execParkResume slot s) := resumePark_canon h
theorem newHeader_canon {c : Ckpt} (h : s.Canon) : (s.newHeader d c).Canon :=
  canon_ite ((ckptFail_calm ..).canon h) ((putHeader_calm ..).canon
  ((putHeader_calm ..).canon ((putHeader_calm ..).canon (canon_foldl ((wrN_calm ..).canon h) fun _ _ h1 => (cleanSector_calm ..).canon h1))))
theorem cutDie_canon (h : s.Canon) : (s.cutDie d).Canon := by
  unfold State.cutDie
  refine canon_ite h ?_
  extract_lets s1 s2
  have hs1 : s1.Canon := canon_foldl h fun _ _ h1 => (wbAllL1_calm ..).canon h1
  have hs2 : s2.Canon := hs1
  split
  · exact hs2
  · exact canon_ite (canon_foldl hs2 fun _ _ h2 => canon_ite (newHeader_canon h2) h2) hs2
theorem execCheckpointCut_canon {die : Nat} (h : s.Canon) : OutCanon (execCheckpointCut die s) := cutDie_canon h
theorem changes_canon {o : Host.Outcome State Fault Refusal} (_ : s.Canon) (ho : OutCanon o) : ∀ res ∈ (s.changes o), OutCanon res := by
  unfold State.changes
  split
  · exact mem_ite mem_none (mem_some ho)
  · exact mem_some ho
theorem modSnap_canon {f : W64 → W64} (h : s.Canon) : (s.modSnap d f).Canon := (setMg_calm ..).canon h
theorem releaseSnap_canon {die : Nat} (h : s.Canon) : (s.releaseSnap die).Canon := canon_foldl h fun _ _ h1 => (modDie_calm ..).canon (modSnap_canon h1)
theorem armedNow_canon (h : s.Canon) : (s.armedNow d).Canon := (modDie_calm ..).canon h
theorem arm_canon {die : Nat} (h : s.Canon) : (s.arm die).Canon := canon_foldl h fun _ _ h1 => armedNow_canon (modSnap_canon h1)
theorem disarm_canon (h : s.Canon) : (s.disarm d).Canon := canon_foldl h fun _ _ h1 => modSnap_canon h1
theorem armNow_canon {die : Nat} (h : s.Canon) : (s.armNow die).Canon := canon_foldl h fun _ _ h1 => armedNow_canon ((setMg_calm ..).canon (modSnap_canon h1))
theorem migStatus_canon {st : Nat} {busy : Bool} (h : s.Canon) : (s.migStatus d st busy).Canon := (setMg_calm ..).canon h
theorem clearHot_canon {idx : Nat} (h : s.Canon) : (s.clearHot d idx).Canon := (modDie_calm ..).canon ((ckptHold_calm ..).canon h)
theorem takeFrame_canon {m : Nat} (h : s.Canon) : (s.takeFrame d p m).2.Canon := by
  induction m generalizing s with
  | zero =>
    unfold State.takeFrame
    exact h
  | succ n ih =>
    unfold State.takeFrame
    dsimp only
    split
    · exact h
    · split
      · exact ih ((logPart_calm ..).canon ((modDie_calm ..).canon ((setCfg_calm ..).canon ((cread64_calm ..).canon h))))
      · exact (modDie_calm ..).canon ((setCfg_calm ..).canon ((cread64_calm ..).canon h))
theorem dropFrame_canon {base : Nat} (h : s.Canon) : (s.dropFrame base n).Canon :=
  canon_foldl (canon_foldl h fun _ _ h1 => (modCore_calm ..).canon h1) fun _ _ h2 => (modCluster_calm ..).canon h2
theorem recallRange_canon {lo : Nat} (h : s.Canon) : (s.recallRange lo n).Canon :=
  canon_foldl h fun _ _ h1 => (recallAll_calm ..).canon ((backInval_calm ..).canon h1)
theorem takeWrhh_canon {m : Coh} {t : State} (h : t.Canon) : (State.takeWrhh m t).Canon := (cwriteMask_calm ..).canon h
theorem endWrites_canon {lo : Nat} (h : s.Canon) : (s.endWrites lo n).Canon := by
  unfold State.endWrites
  refine canon_foldl h fun _ _ h1 => ?_
  split
  · exact takeWrhh_canon ((dropCoh_calm ..).canon h1)
  · exact h1
theorem follow_canon {old new : Nat} (h : s.Canon) : (s.follow old new n).Canon :=
  canon_foldl (canon_foldl (canon_foldl (canon_foldl h fun _ _ h1 => (modCore_calm ..).canon h1) fun _ _ h2 => (modCluster_calm ..).canon h2) fun _ _ h3 =>
  h3) fun _ _ h4 => (modDie_calm ..).canon h4
theorem checkRange_canon {pa : Nat} (h : s.Canon) : (s.checkRange pa n).Canon :=
  canon_foldl h fun _ _ h1 => (memEvent_calm ..).canon ((poisonSector_calm ..).canon h1)
theorem movePart_canon {src dst : Nat} (h : s.Canon) : (s.movePart src dst).Canon :=
  canon_ite (clearHot_canon (canon_ite ((modDie_calm ..).canon
  (follow_canon ((copyRange_calm ..).canon
  (checkRange_canon (recallRange_canon (recallRange_canon ((ckptHold_calm ..).canon ((ckptHold_calm ..).canon (endWrites_canon h)))))))))
  (follow_canon ((copyRange_calm ..).canon
  (checkRange_canon (recallRange_canon (recallRange_canon ((ckptHold_calm ..).canon ((ckptHold_calm ..).canon (endWrites_canon h))))))))))
  (canon_ite ((modDie_calm ..).canon (follow_canon
  ((copyRange_calm ..).canon (checkRange_canon
  (recallRange_canon (recallRange_canon ((ckptHold_calm ..).canon ((ckptHold_calm ..).canon (endWrites_canon h)))))))))
  (follow_canon ((copyRange_calm ..).canon
  (checkRange_canon (recallRange_canon (recallRange_canon ((ckptHold_calm ..).canon ((ckptHold_calm ..).canon (endWrites_canon h)))))))))
theorem forceOut_canon {idx : Nat} (h : s.Canon) : (s.forceOut d p idx).Canon := by
  unfold State.forceOut
  split
  · exact (modDie_calm ..).canon (clearHot_canon h)
  · split
    next e1 =>
      have h1 := canon_snd e1 (takeFrame_canon h)
      exact (modDie_calm ..).canon ((cwrite_calm ..).canon (dropFrame_canon (movePart_canon h1)))
    next e2 =>
      have h2 := canon_snd e2 (takeFrame_canon h)
      exact canon_ite h2 ((logPart_calm ..).canon ((modDie_calm ..).canon h2))
theorem migrate_canon {v : W64} (h : s.Canon) : (s.migrate d v).Canon := by
  unfold State.migrate
  refine canon_ite h ?_
  refine canon_ite (migStatus_canon ((cread64_calm ..).canon h)) ?_
  refine canon_ite (migStatus_canon ((cread64_calm ..).canon h)) ?_
  split
  · exact migStatus_canon ((cread64_calm ..).canon h)
  · refine canon_ite (canon_ite (migStatus_canon ((cread64_calm ..).canon h)) (migStatus_canon ((modDie_calm ..).canon ((cread64_calm ..).canon h)))) ?_
    refine canon_ite (migStatus_canon ((cread64_calm ..).canon h)) ?_
    split
    · exact migStatus_canon ((modDie_calm ..).canon ((cread64_calm ..).canon h))
    · exact canon_ite (migStatus_canon ((cread64_calm ..).canon h)) (migStatus_canon (forceOut_canon ((cread64_calm ..).canon h)))
theorem clearViral_canon {die port : Nat} (h : s.Canon) : (s.clearViral die port).Canon :=
  canon_ite h (canon_ite (canon_foldl ((setMg_calm ..).canon h) fun _ _ h1 => (modDie_calm ..).canon h1) ((setMg_calm ..).canon h))
theorem startCkpt_canon {v : W64} (h : s.Canon) : (s.startCkpt v).Canon := by
  unfold State.startCkpt
  extract_lets r s1 s2
  have h1 : s1.Canon := (setMg_calm ..).canon h
  have h2 : s2.Canon := by
    dsimp only [State.Canon, s2]
    exact (setMg_calm ..).canon h1
  clear_value s1 s2
  refine canon_ite h1 ?_
  split
  · exact (ckptFail_calm ..).canon h2
  · exact h2
theorem liveSet_canon (h : s.Canon) : (s.liveSet d p).Canon := canon_ite h ((setCfg_calm ..).canon h)
theorem dropHeld_canon (h : s.Canon) : (s.dropHeld d p).Canon := (modDie_calm ..).canon h
theorem liveClear_canon (h : s.Canon) : (s.liveClear d p).Canon := canon_ite (dropHeld_canon ((setCfg_calm ..).canon h)) h
theorem modAway_canon {a : Await} {f : Slot → Slot} (h : s.Canon) : (s.modAway k a f).Canon := canon_foldl h fun _ _ h1 => (modDie_calm ..).canon h1
theorem modPlace_canon {p : Place} {f : Slot → Slot} (h : s.Canon) : (s.modPlace p f).Canon := by
  unfold State.modPlace
  split <;> exact h
theorem reply_canon {v : W64} (h : s.Canon) : (s.reply d p v).Canon := by
  unfold State.reply
  dsimp only
  split
  · exact h
  · refine canon_ite h ?_
    split
    · exact modAway_canon ((modDie_calm ..).canon h)
    · exact modPlace_canon ((modDie_calm ..).canon h)
theorem writeHhres_canon {die part : Nat} {v : W64} (h : s.Canon) : (s.writeHhres die part v).Canon :=
  canon_foldl ((modDie_calm ..).canon ((setCfg_calm ..).canon h)) fun _ _ h1 => forceOut_canon h1
theorem writeHhfb_canon {die part : Nat} {v : W64} (h : s.Canon) : (s.writeHhfb die part v).Canon :=
  canon_ite ((modDie_calm ..).canon ((setCfg_calm ..).canon h))
  (canon_foldl ((modDie_calm ..).canon ((setCfg_calm ..).canon h)) fun _ _ h1 => forceOut_canon h1)
theorem modCfg_canon {off : Nat} {f : W64 → W64} (h : s.Canon) : (s.modCfg d p off f).Canon := (setCfg_calm ..).canon h
theorem clearDone_canon (h : s.Canon) : (s.clearDone d p).Canon := modCfg_canon h
theorem abortMigr_canon (h : s.Canon) : (s.abortMigr d).Canon := by
  unfold State.abortMigr
  split
  · exact h
  · exact (logDie_calm ..).canon (migStatus_canon ((modDie_calm ..).canon (canon_foldl h fun _ _ h1 => movePart_canon h1)))
end

/-! ### Copies of the engine and the reset of a partition -/

section
variable {s : State} {k c d p q cl n b j : Nat}

theorem clEvent_canon {part code gang : Nat} {tval detail : W64} (h : s.Canon) : (s.clEvent cl part code gang tval detail).Canon := (logTo_calm ..).canon h
theorem discard_canon {p : Cmd → Bool} (h : s.Canon) : (s.discard cl p).Canon := by
  unfold State.discard
  dsimp only
  split
  · exact h
  · exact clEvent_canon ((modCluster_calm ..).canon h)
theorem pulse_canon {src sel : Nat} {o : Owner} (h : s.Canon) : (s.pulse cl src sel n o).Canon := (modCluster_calm ..).canon h
theorem publish_canon {f x : Nat} (h : s.Canon) : (s.publish cl f x).Canon := by
  unfold State.publish
  split
  · exact h
  · exact pulse_canon ((modCluster_calm ..).canon h)
theorem giveBack_canon {f x : Nat} (h : s.Canon) : (s.giveBack cl f x).Canon := by
  unfold State.giveBack
  split
  · exact h
  · exact pulse_canon ((modCluster_calm ..).canon h)
theorem reap_canon {g : Nat} (h : s.Canon) : (s.reap cl g).Canon := discard_canon h
theorem reapAll_canon (h : s.Canon) : (s.reapAll cl).Canon := canon_foldl h fun _ _ h1 => reap_canon h1
theorem finishCmd_canon {c : Cmd} (h : s.Canon) : (s.finishCmd cl c).Canon := by
  unfold State.finishCmd
  extract_lets s1 s2 s3 s4 s5
  have hs1 : s1.Canon := (modCluster_calm ..).canon h
  have hs2 : s2.Canon := by
    unfold s2
    split
    · exact publish_canon hs1
    · exact hs1
  have hs3 : s3.Canon := by
    unfold s3
    split
    · exact giveBack_canon hs2
    · exact hs2
  have hs4 : s4.Canon := canon_ite hs3 (pulse_canon hs3)
  have hs5 : s5.Canon := by
    unfold s5
    split
    · exact clEvent_canon hs4
    · exact hs4
  exact reapAll_canon hs5
theorem onBehalf_canon {c : Cmd} {f : State → State} (h : s.Canon) (hf : ∀ t, t.Canon → (f t).Canon) : (s.onBehalf c f).Canon := by
  unfold State.onBehalf
  split
  · exact canon_ite (hf _ h) (hf _ h)
  · exact hf _ h
  · exact hf _ h
theorem engRead_canon {c : Cmd} {va : Nat} (h : s.Canon) : (s.engRead cl c va).2.2.Canon := by
  unfold State.engRead
  split
  · exact h
  · split
    rename_i e1
    exact (canon_thd e1 ((cread_calm ..).canon h) :)
theorem srcWord_canon {c : Cmd} {i : Nat} (h : s.Canon) : (s.srcWord cl c j i).2.2.Canon := by
  unfold State.srcWord
  split
  · exact engRead_canon h
  · split
    exact (findErr_calm ..).canon h
theorem srcRow_canon {c : Cmd} (h : s.Canon) : (s.srcRow cl c j).2.Canon := by
  unfold State.srcRow
  refine foldl_keeps_prop (β := _ × State) (P := fun r => r.2.Canon) h ?_
  rintro _ _ h1
  split
  rename_i e1
  exact (canon_thd e1 (srcWord_canon h1) :)
theorem fillAt_canon {p : Place} {part : Nat} {f : Slot → Slot} (h : s.Canon) : (s.fillAt p d part f).Canon := by
  unfold State.fillAt
  split
  · exact h
  · exact h
  · exact (deadLetter_calm ..).canon h
theorem engFill_canon {c : Cmd} (h : s.Canon) : (s.engFill cl c).Canon := by
  unfold State.engFill
  dsimp only
  split
  · exact (acqL1_calm ..).canon (fillAt_canon (srcRow_canon h))
  · exact (acqL1_calm ..).canon (fillAt_canon (srcRow_canon h))
  · exact srcRow_canon h
theorem lsPut_canon {core off v m : Nat} (h : s.Canon) : (s.lsPut core off v m).Canon := by
  induction m generalizing s off v with
  | zero =>
    unfold State.lsPut
    exact h
  | succ n ih =>
    unfold State.lsPut
    exact ih h
theorem endLs_canon {core w : Nat} (h : s.Canon) : (s.endLs core w).Canon := canon_foldl h fun _ _ h1 => h1
theorem lsWrite_canon {core off v : Nat} (h : s.Canon) : (s.lsWrite core off n v).Canon :=
  canon_foldl (lsPut_canon h) fun _ _ h1 => canon_ite (endLs_canon h1) (endLs_canon h1)
theorem lsPutWord_canon {core off : Nat} {v : W64} {pois : Bool} (h : s.Canon) : (s.lsPutWord core off v pois).Canon :=
  canon_ite ((acqL1_calm ..).canon (lsWrite_canon h)) (lsWrite_canon h)
theorem putPlanes_canon {core off : Nat} {c : Cmd} {ws : List (W64 × Bool)} (h : s.Canon) : (s.putPlanes core off c j ws).Canon :=
  canon_foldl h fun _ _ h1 => canon_foldl h1 fun _ _ h2 => lsPutWord_canon h2
theorem engWrite_canon {c : Cmd} {va : Nat} {v : W64} {pois : Bool} (h : s.Canon) : (s.engWrite cl c va v pois).Canon := by
  unfold State.engWrite
  split
  · exact h
  · exact canon_ite ((poisonSector_calm ..).canon ((cwrite_calm ..).canon h)) ((cwrite_calm ..).canon h)
theorem putRow_canon {c : Cmd} {ws : List (W64 × Bool)} (h : s.Canon) : (s.putRow cl c j ws).Canon :=
  canon_ite (putPlanes_canon h) (canon_foldl h fun _ _ h1 => canon_ite (engWrite_canon h1) (lsPutWord_canon h1))
theorem moveRows_canon {c : Cmd} {g : List Cmd} (h : s.Canon) : (s.moveRows cl c g).Canon := by
  unfold State.moveRows
  refine canon_foldl h fun _ _ h1 => ?_
  exact canon_foldl (srcRow_canon h1) fun _ _ h2 => putRow_canon h2
theorem moveData_canon {c : Cmd} (h : s.Canon) : (s.moveData cl c).Canon :=
  canon_ite h (canon_ite (onBehalf_canon h (fun _ h1 => engFill_canon h1)) ((modCluster_calm ..).canon (onBehalf_canon h (fun _ h2 => moveRows_canon h2))))
theorem completeCmd_canon {seq : Nat} (h : s.Canon) : (s.completeCmd cl seq).Canon := by
  unfold State.completeCmd
  split
  · exact h
  · exact canon_ite h (finishCmd_canon (moveData_canon h))
theorem drainCl_canon (h : s.Canon) : (s.drainCl cl).Canon := canon_foldl h fun _ _ h1 => completeCmd_canon h1
theorem flushCdc_canon (h : s.Canon) : (s.flushCdc c).Canon := canon_foldl h fun _ _ h1 => (cdcFlush_calm ..).canon h1
theorem endTxns_canon {cs : List Nat} (h : s.Canon) : (s.endTxns cs).Canon := by
  unfold State.endTxns
  refine canon_foldl ?_ fun _ _ h1 => ?_
  · refine canon_foldl h fun _ _ h2 => ?_
    split
    · exact (dropCoh_calm ..).canon (takeWrhh_canon ((dropCoh_calm ..).canon h2))
    · exact h2
  · exact (modDie_calm ..).canon (canon_foldl h1 fun _ _ h3 => (settle_calm ..).canon h3)
theorem dropPart_canon (h : s.Canon) : (s.dropPart p).Canon :=
  canon_foldl (canon_foldl h fun _ _ h1 => (modCore_calm ..).canon h1) fun _ _ h2 => (modCluster_calm ..).canon h2
theorem resetSteps_canon {ds cls : List Nat} (h : s.Canon) : (s.resetSteps p ds cls).Canon :=
  canon_foldl (canon_foldl (canon_foldl (dropPart_canon
  (canon_foldl (endTxns_canon (canon_foldl (canon_foldl h fun _ _ h1 => (modDie_calm ..).canon h1) fun _ _ h2 => discard_canon (drainCl_canon h2)))
  fun _ _ h3 => flushCdc_canon h3)) fun _ _ h4 => (modCore_calm ..).canon h4) fun _ _ h5 => canon_foldl h5 fun _ _ h6 => clearHot_canon
  (recallRange_canon h6)) fun _ _ h7 => (modDie_calm ..).canon ((setCfg_calm ..).canon h7)
theorem startReset_canon (h : s.Canon) : (s.startReset d p).Canon := by
  unfold State.startReset
  extract_lets _ _ _ s1 s2 s3
  have hs1 : s1.Canon := canon_foldl h fun _ _ h1 => (modDie_calm ..).canon (modCfg_canon (modCfg_canon h1))
  have hs2 : s2.Canon := canon_ite ((ckptFail_calm ..).canon hs1) hs1
  have hs3 : s3.Canon := by
    unfold s3
    refine canon_foldl hs2 fun _ _ h2 => ?_
    split
    · exact canon_ite (abortMigr_canon h2) h2
    · exact h2
  exact canon_ite h (resetSteps_canon hs3)
theorem refuseSwap_canon {st need : Nat} (h : s.Canon) : (s.refuseSwap d p st need).Canon := (logDie_calm ..).canon (modCfg_canon h)
theorem loadDie_canon {f : Nat → Nat} {w : Swap} (h : s.Canon) : (s.loadDie d f w).Canon :=
  (modDie_calm ..).canon (canon_foldl (canon_foldl (canon_foldl h fun _ _ h1 => (modCluster_calm ..).canon h1) fun _ _ h2 => (modCore_calm ..).canon h2)
  fun _ _ h3 => h3)
theorem resume_canon (h : s.Canon) : (s.resume d p).Canon := by
  unfold State.resume
  extract_lets _ _ _ s1
  have hs1 : s1.Canon := by
    unfold s1
    refine canon_foldl h fun _ _ h1 => ?_
    split
    · exact modCfg_canon (dropHeld_canon (loadDie_canon h1))
    · exact modCfg_canon (dropHeld_canon h1)
  exact canon_ite h (canon_ite (refuseSwap_canon h) hs1)
theorem endLease_canon {g : Nat} (h : s.Canon) : (s.endLease cl g).Canon := (modCluster_calm ..).canon h
end

/-! ### Launches, gangs, faults and remote writes -/

section
variable {s : State} {k c d p q cl n b j : Nat}

theorem setSignal_canon {idx : Nat} {v : W64} (h : s.Canon) : (s.setSignal p idx v).Canon := by
  unfold State.setSignal
  refine canon_foldl ((modDie_calm ..).canon h) fun _ _ h1 => ?_
  split
  · exact h1
  · exact canon_foldl ((modDie_calm ..).canon h1) fun _ _ h2 => (askQueue_calm ..).canon h2
theorem fillReg_canon {gen r : Nat} {low : Bool} {v : W64} {pois : Bool} (h : s.Canon) : (s.fillReg k gen r low v pois).Canon := fillAt_canon h
theorem countDec_canon {off : Nat} (h : s.Canon) : (s.countDec c off n).Canon :=
  canon_ite ((deadLetter_calm ..).canon h)
  (canon_ite h (canon_ite (lsWrite_canon h) (canon_ite (lsWrite_canon h) (canon_ite (fillReg_canon (lsWrite_canon h)) (sendNet_canon (lsWrite_canon h))))))
theorem complete_canon {lrec : List W64} (h : s.Canon) : (s.complete p d lrec).Canon := by
  unfold State.complete
  refine canon_ite h ?_
  refine canon_ite (setSignal_canon h) ?_
  split
  · exact canon_ite ((acqL1_calm ..).canon (countDec_canon h)) ((deadLetter_calm ..).canon h)
  · exact (deadLetter_calm ..).canon h
theorem gangGone_canon {g : Nat} (h : s.Canon) : (s.gangGone d g).Canon :=
  canon_foldl ((modDie_calm ..).canon (canon_foldl h fun _ _ h1 => (askQueue_calm ..).canon h1)) fun _ _ h2 => (modCore_calm ..).canon h2
theorem retireGang_canon {g : Nat} (h : s.Canon) : (s.retireGang g).Canon := by
  unfold State.retireGang
  split
  · exact h
  · exact canon_ite h (complete_canon (gangGone_canon
      (canon_foldl (canon_foldl h fun _ _ h1 => (modCore_calm ..).canon h1) fun _ _ h2 => reap_canon (endLease_canon h2))))
theorem powerSeg_canon {core : Nat} {on : Bool} (h : s.Canon) : (s.powerSeg core j on).Canon :=
  canon_ite h (canon_ite ((setCore_calm ..).canon h) ((setCore_calm ..).canon h))
theorem powerDown_canon {keep : Nat} (h : s.Canon) : (s.powerDown c keep).Canon := canon_foldl h fun _ _ h1 => canon_ite h1 (powerSeg_canon h1)
theorem modQueue_canon {f : Queue → Queue} (h : s.Canon) : (s.modQueue d p q f).Canon := (modDie_calm ..).canon h
theorem setQWord_canon {v : W64} (h : s.Canon) : (s.setQWord d p q j v).Canon := (cwrite_calm ..).canon h
theorem advanceQ_canon (h : s.Canon) : (s.advanceQ d p q).Canon := by
  unfold State.advanceQ
  dsimp only [State.Canon]
  exact modQueue_canon (canon_ite (setQWord_canon (setQWord_canon h)) (setQWord_canon h))
theorem takeHead_canon {x : Gang} {f : Queue → Queue} (h : s.Canon) : (s.takeHead x f).Canon := by
  unfold State.takeHead
  split
  · exact modQueue_canon (advanceQ_canon h)
  · exact (modCore_calm ..).canon h
  · exact h
theorem transportFailed_canon {who g : Nat} (h : s.Canon) : (s.transportFailed d p who g).Canon := (logPart_calm ..).canon h
theorem launchFails_canon {x : Gang} {had : List Nat} (h : s.Canon) : (s.launchFails x had c).Canon :=
  takeHead_canon (transportFailed_canon (canon_foldl (retireGang_canon (canon_foldl h fun _ _ h1 => (modCore_calm ..).canon h1)) fun _ _ h2 => powerDown_canon
  h2))
theorem rangePas_canon {asid : Nat} {acc : Acc} {va len m : Nat} (h : s.Canon) : XCanon (fun r => r.2.Canon) (s.rangePas d p asid acc va len m) := by
  induction m generalizing s va len with
  | zero =>
    unfold State.rangePas
    exact h
  | succ n ih =>
    unfold State.rangePas
    refine Kept.ite h ?_
    exact Kept.bind ((walk_calm ..).canon h) fun _ h1 => Kept.bind (ih h1) fun _ h2 => h2
theorem rangesPas_canon {asid : Nat} {acc : Acc} {ls : List (Nat × Nat)} (h : s.Canon) : XCanon (fun r => r.2.Canon) (s.rangesPas d p asid acc ls) := by
  induction ls generalizing s with
  | nil =>
    unfold State.rangesPas
    exact h
  | cons a l ih =>
    unfold State.rangesPas
    refine Kept.bind (rangePas_canon h) fun _ h1 => ?_
    exact Kept.bind (ih h1) fun _ h2 => h2
theorem powerSegs_canon {core mask : Nat} (h : s.Canon) : (s.powerSegs core mask).Canon := canon_foldl h fun _ _ h1 => canon_ite (powerSeg_canon h1) h1
theorem seedCore_canon {g : Gang} {code : List (Nat × W64)} {rs : List (Nat × Nat)} (h : s.Canon) : (s.seedCore g code rs c).Canon :=
  canon_foldl ((modCore_calm ..).canon (canon_ite (powerSegs_canon h) (lsWrite_canon (powerSegs_canon h)))) fun _ _ h1 => (invSector_calm ..).canon h1
theorem beginLease_canon {g : Gang} (h : s.Canon) : (s.beginLease g cl).Canon := (modCluster_calm ..).canon h
theorem startStrand_canon {b : Start} (h : s.Canon) : (s.startStrand k b).Canon := by
  unfold State.startStrand
  refine canon_ite ?_ ((modCore_calm ..).canon h)
  dsimp only [State.Canon, State.modSlot, State.setSlot]
  exact (modCore_calm ..).canon h
theorem startRank_canon (h : s.Canon) : (s.startRank k j).2.Canon := by
  unfold State.startRank
  extract_lets _
  split
  · exact h
  · extract_lets _ _
    split
    · exact h
    · split
      · exact h
      · split
        · exact h
        · exact (acqL1_calm ..).canon (startStrand_canon h)
theorem releaseGang_canon {g : Nat} (h : s.Canon) : (s.releaseGang g).Canon := by
  unfold State.releaseGang
  split
  · exact h
  · refine canon_ite h ?_
    split
    · exact launchFails_canon h
    · dsimp -zeta only
      extract_lets _ s1 s2 s3 s4
      have hs1 : s1.Canon := by
        unfold s1
        refine canon_foldl ?_ fun _ _ h1 => ?_
        · split
          · split
            next e1 => exact (Kept.ok e1 (rangesPas_canon h) :)
            next e2 => exact (Kept.error e2 (rangesPas_canon h) :)
          · exact h
        · exact (modCore_calm ..).canon (seedCore_canon h1)
      have hs2 : s2.Canon := canon_ite (canon_foldl hs1 fun _ _ h2 => beginLease_canon h2) hs1
      have hs3 : s3.Canon := hs2
      have hs4 : s4.Canon := canon_foldl hs3 fun _ _ h3 => canon_ite (canon_foldl h3 fun _ _ h4 => startRank_canon h4) h3
      exact takeHead_canon hs4
theorem takeHot_canon {ixs : List Nat} {w : Swap} (h : s.Canon) : (s.takeHot d ixs w).1.Canon :=
  foldl_keeps_prop (β := State × _) (P := fun r => r.1.Canon) h fun _ _ h1 => clearHot_canon (recallRange_canon h1)
theorem saveDie_canon {fits : List Nat} (h : s.Canon) : (s.saveDie d p fits).Canon :=
  (modDie_calm ..).canon (foldl_keeps_prop (β := State × _) (P := fun r => r.1.Canon)
  (canon_foldl (endTxns_canon (canon_foldl h fun _ _ h1 => drainCl_canon h1)) fun _ _ h2 => flushCdc_canon
  ((invAllL1_calm ..).canon ((wbAllL1_calm ..).canon h2))) fun _ _ h3 => clearHot_canon (recallRange_canon h3))
theorem swapOut_canon (h : s.Canon) : (s.swapOut d p).Canon := by
  unfold State.swapOut
  extract_lets _ _ _ _ s1
  have hs1 : s1.Canon := canon_foldl h fun _ _ h1 => releaseGang_canon h1
  refine canon_ite h ?_
  refine canon_ite (refuseSwap_canon h) ?_
  split
  · exact refuseSwap_canon h
  · exact canon_foldl hs1 fun _ _ h2 => modCfg_canon (saveDie_canon (canon_foldl h2 fun _ _ h3 => forceOut_canon h3))
theorem cfgWrite_canon {off : Nat} {v : W64} (h : s.Canon) : (s.cfgWrite d p off v).Canon :=
  canon_ite (canon_ite (liveSet_canon h) (liveClear_canon h))
  (canon_ite (canon_ite h ((setCfg_calm ..).canon (canon_ite ((modDie_calm ..).canon h) h)))
  (canon_ite (reply_canon h) (canon_ite (writeHhres_canon h)
  (canon_ite (writeHhfb_canon h) (canon_ite (canon_ite h ((setCfg_calm ..).canon h))
  (canon_ite (modCfg_canon h) (canon_ite (canon_ite (startReset_canon (canon_ite (clearDone_canon h) h)) (canon_ite (clearDone_canon h) h))
  (canon_ite (canon_ite h (canon_ite (resume_canon h) (swapOut_canon h)))
  (canon_ite (canon_ite h ((setCfg_calm ..).canon h)) (canon_ite h ((setCfg_calm ..).canon h)))))))))))
theorem clearWrap_canon {core : Nat} (h : s.Canon) : (s.clearWrap core).Canon := (modCore_calm ..).canon h
theorem mgmtWrite_canon {off : Nat} {v : W64} (h : s.Canon) : (s.mgmtWrite d off v).Canon :=
  canon_ite h (canon_ite ((setMg_calm ..).canon h)
  (canon_ite ((setMg_calm ..).canon h) (canon_ite
  (canon_ite (armNow_canon (canon_ite (arm_canon (canon_ite (releaseSnap_canon h) h)) (disarm_canon (canon_ite (releaseSnap_canon h) h))))
  (canon_ite (arm_canon (canon_ite (releaseSnap_canon h) h)) (disarm_canon (canon_ite (releaseSnap_canon h) h))))
  (canon_ite (migrate_canon h) (canon_ite ((setMg_calm ..).canon h)
  (canon_ite (canon_ite (clearViral_canon ((setMg_calm ..).canon h)) ((setMg_calm ..).canon h))
  (canon_ite (canon_ite (startCkpt_canon h) h)
  (canon_ite (canon_ite ((setMg_calm ..).canon h) h)
  (canon_ite (cfgWrite_canon h) (canon_ite ((modCluster_calm ..).canon h)
  (canon_ite (canon_ite (canon_ite (clearWrap_canon ((modCore_calm ..).canon h)) ((modCore_calm ..).canon h)) (canon_ite ((modCore_calm ..).canon h) h))
  (canon_ite (armedNow_canon ((setMg_calm ..).canon h)) (canon_ite h ((setMg_calm ..).canon h))))))))))))))
theorem execMgmtRegisterWrite_canon {die off : Nat} {v : W64} (h : s.Canon) : OutCanon (execMgmtRegisterWrite die off v s) := mgmtWrite_canon h
theorem countCorrected_canon {row : Nat} (h : s.Canon) : (s.countCorrected d row).Canon :=
  canon_ite h (canon_ite ((logDie_calm ..).canon ((setMg_calm ..).canon h)) ((setMg_calm ..).canon h))
theorem setRec_canon {i : Nat} {v : W64} (h : s.Canon) : (s.setRec c i j v).Canon := lsWrite_canon h
theorem setRecState_canon {i st : Nat} (h : s.Canon) : (s.setRecState c i st).Canon := setRec_canon h
theorem taskExit_canon {i : Nat} (h : s.Canon) : (s.taskExit c i).Canon := by
  unfold State.taskExit
  refine canon_foldl ((modCore_calm ..).canon (setRecState_canon h)) fun _ _ h1 => ?_
  split
  · exact (modCore_calm ..).canon (setRecState_canon h1)
  · exact h1
theorem orphanBinds_canon {g rank : Nat} (h : s.Canon) : (s.orphanBinds g rank).Canon := by
  unfold State.orphanBinds
  dsimp only
  refine canon_foldl h fun _ _ h1 => ?_
  split
  · exact canon_ite (doPark_canon h1) h1
  · exact h1
theorem retire_canon {keep : Nat} {ab : Bool} (h : s.Canon) : (s.retire k keep ab).Canon := by
  unfold State.retire
  extract_lets _ _ s1 _ _ s2 s3 s4 s5
  have hs1 : s1.Canon := canon_ite h (freePool_canon h)
  have hs2 : s2.Canon := hs1
  have hs3 : s3.Canon := canon_ite hs2 hs2
  have hs4 : s4.Canon := (modCore_calm ..).canon hs3
  have hs5 : s5.Canon := by
    unfold s5
    split
    · exact taskExit_canon hs4
    · exact hs4
  split
  · extract_lets s6 s7
    have hs6 : s6.Canon := powerDown_canon hs5
    have hs7 : s7.Canon := canon_ite hs6 (orphanBinds_canon hs6)
    split
    · exact canon_ite (retireGang_canon ((wbAllL1_calm ..).canon hs7)) hs7
    · exact hs7
  · exact powerDown_canon hs5
theorem abortGang_canon {g : Nat} (h : s.Canon) : (s.abortGang g).Canon := by
  unfold State.abortGang
  split
  · exact h
  · refine canon_ite h ?_
    refine retireGang_canon ?_
    refine canon_foldl (canon_foldl (canon_foldl ((logPart_calm ..).canon h) fun _ _ h1 => discard_canon ((modCluster_calm ..).canon h1)) fun _ _ h2 => h2)
      fun _ _ h3 => ?_
    split
    · exact h3
    · exact h3
    · exact retire_canon h3
theorem kernLog_canon {code dom : Nat} {tval detail : W64} (h : s.Canon) : (kernLog s c code dom tval detail).Canon := (logTo_calm ..).canon h
theorem failCore_canon {reason : Nat} (h : s.Canon) : (s.failCore c reason).Canon := by
  unfold State.failCore
  refine kernLog_canon ?_
  refine (modCore_calm ..).canon ?_
  refine canon_foldl ?_ fun _ _ h1 => ?_
  · refine canon_foldl ?_ fun _ _ h2 => ?_
    · refine canon_foldl ?_ fun _ _ h3 => ?_
      · split
        · exact abortGang_canon ((modCore_calm ..).canon h)
        · exact (modCore_calm ..).canon h
      · split
        · exact h3
        · exact h3
        · exact canon_ite h3 (retire_canon h3)
    · exact setRecState_canon h2
  · exact (deadLetter_calm ..).canon h1
theorem markUnit_canon {y : HwUnit} (h : s.Canon) : (s.markUnit y).Canon := by
  unfold State.markUnit
  split
  · exact h
  · exact (modCore_calm ..).canon h
  · exact h
  · exact h
  · exact (modCore_calm ..).canon h
theorem loseControl_canon (h : s.Canon) : (s.loseControl k).Canon := by
  unfold State.loseControl
  split
  · exact canon_ite (failCore_canon h) (spillTo_canon h)
  · exact canon_ite (failCore_canon h) (spillTo_canon h)
  · exact h
theorem modPort_canon {f : W64 → W64} (h : s.Canon) : (s.modPort d n f).Canon := (setMg_calm ..).canon h
theorem freeLine_canon {line : Nat} {timeout : Bool} (h : s.Canon) : (s.freeLine line timeout).Canon :=
  (serveBlk_calm ..).canon ((tryGrant_calm ..).canon
  (canon_ite ((logDie_calm ..).canon ((modDie_calm ..).canon (canon_ite ((poisonSector_calm ..).canon h) h)))
  ((modDie_calm ..).canon (canon_ite ((poisonSector_calm ..).canon h) h))))
theorem answerAll_canon (h : s.Canon) : s.answerAll.Canon := canon_foldl h fun _ _ h1 => freeLine_canon h1
theorem enterViral_canon {cause : Nat} (h : s.Canon) : (s.enterViral d n cause).Canon :=
  canon_ite (answerAll_canon ((logDie_calm ..).canon (modPort_canon h))) ((logDie_calm ..).canon (modPort_canon h))
theorem faultDevice_canon (h : s.Canon) : s.faultDevice.Canon := by
  unfold State.faultDevice
  exact (emit_calm ..).canon (canon_foldl h fun _ _ h1 => enterViral_canon h1)
theorem strike_canon {y : HwFault} (h : s.Canon) : (s.strike y).Canon := by
  unfold State.strike
  split
  · exact countCorrected_canon h
  · split
    · exact failCore_canon h
    · exact canon_ite (markUnit_canon h) ((invSector_calm ..).canon h)
    · exact canon_ite (markUnit_canon h) h
  · exact loseControl_canon h
  · exact canon_ite h h
  · exact canon_ite h h
  · exact (modCore_calm ..).canon h
  · exact (modCore_calm ..).canon h
  · exact (modCluster_calm ..).canon h
  · exact (modCluster_calm ..).canon h
  · exact canon_ite (faultDevice_canon h) ((logDie_calm ..).canon h)
  · exact (modTreq_calm ..).canon h
  · exact (dropCoh_calm ..).canon h
  · exact (modCore_calm ..).canon h
  · exact (modCore_calm ..).canon h
theorem takeFault_canon {e : Nat × HwFault} (h : s.Canon) : (s.takeFault e).Canon := strike_canon h
theorem internal_canon (h : s.Canon) : ∀ res ∈ s.internal, OutCanon res := by
  unfold State.internal
  refine mem_orElse (mem_findSome fun _ => fires_canon h (execParkResume_canon h)) ?_
  refine mem_orElse ?_ ?_
  · split
    · exact fires_canon h (execCheckpointCut_canon h)
    · exact mem_none
  · refine mem_orElse ?_ ?_
    · split
      · split
        · exact changes_canon h (execMgmtRegisterWrite_canon h)
        · exact fires_canon h (execMgmtRegisterWrite_canon h)
      · exact mem_none
    · split
      · exact changes_canon h (takeFault_canon h)
      · exact mem_none
theorem answer_canon {n : Net} {ok : Bool} (h : s.Canon) : (s.answer n ok).Canon := by
  unfold State.answer
  split <;> exact h
theorem execWithdrawalRequest_canon {id : Nat} (h : s.Canon) : OutCanon (execWithdrawalRequest id s) := by
  unfold execWithdrawalRequest
  show State.Canon _
  split
  · exact canon_ite (answer_canon h) h
  · exact h
theorem waitNet_canon {n : Net} (h : s.Canon) : (s.waitNet n).Canon := canon_ite h h
theorem performed_canon {n : Net} (h : s.Canon) : (s.performed n).Canon := canon_ite (answer_canon h) h
theorem raceLog_canon {src off : Nat} (h : s.Canon) : (s.raceLog c src off).Canon :=
  canon_ite h ((modCore_calm ..).canon ((cwrite_calm ..).canon ((cwrite_calm ..).canon h)))
theorem tryWrite_canon {n : Net} (h : s.Canon) : (s.tryWrite n).Canon := by
  unfold State.tryWrite
  refine canon_ite (waitNet_canon h) ?_
  split
  · exact canon_ite h (canon_ite (performed_canon ((acqFrom_calm ..).canon (fillReg_canon h))) (waitNet_canon h))
  · exact canon_ite (performed_canon ((acqFrom_calm ..).canon (raceLog_canon (lsWrite_canon h)))) (waitNet_canon h)
  · exact h
theorem execRemoteWriteRelease_canon {id : Nat} (h : s.Canon) : OutCanon (execRemoteWriteRelease id s) := by
  unfold execRemoteWriteRelease
  show State.Canon _
  split
  · exact canon_ite (tryWrite_canon h) h
  · exact h
theorem execRputDelivery_canon {id : Nat} (h : s.Canon) : OutCanon (execRputDelivery id s) := by
  unfold execRputDelivery
  show State.Canon _
  split
  · exact canon_ite h (tryWrite_canon h)
  · exact h
theorem execSputfeDelivery_canon {id : Nat} (h : s.Canon) : OutCanon (execSputfeDelivery id s) := by
  unfold execSputfeDelivery
  show State.Canon _
  split
  · exact canon_ite h (tryWrite_canon h)
  · exact h
theorem takeAmsg_canon {n : Net} (h : s.Canon) : (s.takeAmsg n).Canon :=
  canon_ite (performed_canon ((deadLetter_calm ..).canon h)) (canon_ite h (performed_canon ((acqFrom_calm ..).canon ((setCore_calm ..).canon h))))
theorem execAmsgDelivery_canon {id : Nat} (h : s.Canon) : OutCanon (execAmsgDelivery id s) := by
  unfold execAmsgDelivery
  show State.Canon _
  split
  · exact takeAmsg_canon h
  · exact h
theorem execMessageDelivery_canon {id : Nat} (h : s.Canon) : OutCanon (execMessageDelivery id s) := by
  unfold execMessageDelivery
  show State.Canon _
  split
  · exact h
  · refine canon_ite h ?_
    split
    case h_1 e => exact performed_canon (Deliv.accept_canon e (deliver_canon h))
    case h_2 e =>
      have ht := Deliv.refuse_canon e (deliver_canon h)
      exact canon_ite (answer_canon ht) ht
    case h_3 => exact h
    case h_4 => exact h
theorem execCounterDecrement_canon {id : Nat} (h : s.Canon) : OutCanon (execCounterDecrement id s) := by
  unfold execCounterDecrement
  show State.Canon _
  split
  · exact (acqFrom_calm ..).canon (countDec_canon h)
  · exact h
theorem rqEnter_canon {i : Nat} (h : s.Canon) : (s.rqEnter c i).Canon :=
  canon_ite ((modCore_calm ..).canon (setRecState_canon h)) ((modCore_calm ..).canon (setRecState_canon h))
theorem taskDec_canon {i : Nat} {gen : W32} (h : s.Canon) : (s.taskDec c i gen n).Canon :=
  canon_ite (canon_ite (rqEnter_canon (setRec_canon h)) (setRec_canon h)) ((deadLetter_calm ..).canon h)
theorem execTaskDecrement_canon {id : Nat} (h : s.Canon) : OutCanon (execTaskDecrement id s) := by
  unfold execTaskDecrement
  show State.Canon _
  split
  · exact (acqFrom_calm ..).canon (taskDec_canon h)
  · exact h
theorem netEvent_canon {n : Net} (h : s.Canon) : OutCanon (netEvent n s) := by
  unfold netEvent
  refine OutCanon.ite (execWithdrawalRequest_canon h) ?_
  refine OutCanon.ite (execRemoteWriteRelease_canon h) ?_
  split
  · exact execRputDelivery_canon h
  · exact execSputfeDelivery_canon h
  · exact execAmsgDelivery_canon h
  · exact execMessageDelivery_canon h
  · exact execCounterDecrement_canon h
  · exact execTaskDecrement_canon h
end

/-! ### Messages of coherence, and slots -/

section
variable {s : State} {k c d p q cl n b j : Nat}

theorem takeAnswer_canon {a : Ans} (h : s.Canon) : (s.takeAnswer a).Canon := by
  unfold State.takeAnswer
  split
  · refine canon_ite h ?_
    split
    · exact canon_ite (takeReport_canon h) (takeTrap_canon h)
    · exact h
  · exact canon_ite h h
  · exact h
theorem execAcceptanceOrRefusal_canon {id : Nat} (h : s.Canon) : OutCanon (execAcceptanceOrRefusal id s) := by
  unfold execAcceptanceOrRefusal
  show State.Canon _
  split
  · exact takeAnswer_canon h
  · exact h
theorem onCoh_canon {id : Nat} {kd : CohKind} {f : Coh → State → State} (h : s.Canon) (hf : ∀ a t, t.Canon → (f a t).Canon) : (s.onCoh id kd f).Canon := by
  unfold State.onCoh
  split
  · exact hf _ _ ((dropCoh_calm ..).canon h)
  · exact h
theorem execTcoll_canon {id : Nat} (h : s.Canon) : OutCanon (execTcoll id s) := onCoh_canon h (fun _ _ h1 => (takeTcoll_calm ..).canon h1)
theorem execTokdata_canon {id : Nat} (h : s.Canon) : OutCanon (execTokdata id s) := onCoh_canon h (fun _ _ h1 => (takeTok_calm ..).canon h1)
theorem execFwds_canon {id : Nat} (h : s.Canon) : OutCanon (execFwds id s) :=
  onCoh_canon h (fun _ _ h1 => atHolder_canon (fun _ _ h2 => (takeFwds_calm ..).canon h2) h1)
theorem execFwdx_canon {id : Nat} (h : s.Canon) : OutCanon (execFwdx id s) :=
  onCoh_canon h (fun _ _ h1 => atHolder_canon (fun _ _ h2 => (takeFwdx_calm ..).canon h2) h1)
theorem execInv_canon {id : Nat} (h : s.Canon) : OutCanon (execInv id s) :=
  onCoh_canon h (fun _ _ h1 => atHolder_canon (fun _ _ h2 => (takeInv_calm ..).canon h2) h1)
theorem execInvAck_canon {id : Nat} (h : s.Canon) : OutCanon (execInvAck id s) :=
  onCoh_canon h (fun _ _ h1 => atHome_canon (fun _ _ _ h2 => (answered_calm ..).canon h2) h1)
theorem execFwdAck_canon {id : Nat} (h : s.Canon) : OutCanon (execFwdAck id s) :=
  onCoh_canon h (fun _ _ h1 => atHome_canon (fun _ _ _ h2 => (answered_calm ..).canon h2) h1)
theorem execDatas_canon {id : Nat} (h : s.Canon) : OutCanon (execDatas id s) := onCoh_canon h (fun _ _ h1 => (takeData_calm ..).canon h1)
theorem execDatax_canon {id : Nat} (h : s.Canon) : OutCanon (execDatax id s) := onCoh_canon h (fun _ _ h1 => (takeData_calm ..).canon h1)
theorem execUpgack_canon {id : Nat} (h : s.Canon) : OutCanon (execUpgack id s) := onCoh_canon h (fun _ _ h1 => (takeUpgack_calm ..).canon h1)
theorem execCmp_canon {id : Nat} (h : s.Canon) : OutCanon (execCmp id s) := onCoh_canon h (fun _ _ h1 => (takeCmp_calm ..).canon h1)
theorem execNotei_canon {id : Nat} (h : s.Canon) : OutCanon (execNotei id s) := onCoh_canon h (fun _ _ h1 => (takeNote_calm ..).canon h1)
theorem execNotedat_canon {id : Nat} (h : s.Canon) : OutCanon (execNotedat id s) := onCoh_canon h (fun _ _ h1 => (takeNote_calm ..).canon h1)
theorem execNoteack_canon {id : Nat} (h : s.Canon) : OutCanon (execNoteack id s) := onCoh_canon h (fun _ _ h1 => (takeNoteack_calm ..).canon h1)
theorem execGone_canon {id : Nat} (h : s.Canon) : OutCanon (execGone id s) :=
  onCoh_canon h (fun _ _ h1 => atHome_canon (fun _ _ _ h2 => (takeGone_calm ..).canon h2) h1)
theorem execBinv_canon {id : Nat} (h : s.Canon) : OutCanon (execBinv id s) :=
  onCoh_canon h (fun _ _ h1 => atHolder_canon (fun _ _ h2 => (takeBinv_calm ..).canon h2) h1)
theorem execBinvack_canon {id : Nat} (h : s.Canon) : OutCanon (execBinvack id s) :=
  onCoh_canon h (fun _ _ h1 => atHome_canon (fun _ _ _ h2 => (takeBinvack_calm ..).canon h2) h1)
theorem execBinvdata_canon {id : Nat} (h : s.Canon) : OutCanon (execBinvdata id s) :=
  onCoh_canon h (fun _ _ h1 => atHome_canon (fun _ _ _ h2 => (takeBinvdata_calm ..).canon h2) h1)
theorem reqMsg_canon {die blk : Nat} {kd : CohKind} {want : Bool} (h : s.Canon) : (s.reqMsg die blk kd want).Canon := by
  unfold State.reqMsg
  split
  · exact onCoh_canon h (fun _ _ h1 => (takeReq_calm ..).canon h1)
  · exact canon_ite ((sendCoh_calm ..).canon h) h
theorem execRds_canon {die blk : Nat} (h : s.Canon) : OutCanon (execRds die blk s) := reqMsg_canon h
theorem execRdx_canon {die blk : Nat} (h : s.Canon) : OutCanon (execRdx die blk s) := reqMsg_canon h
theorem execUpg_canon {die blk : Nat} (h : s.Canon) : OutCanon (execUpg die blk s) := reqMsg_canon h
theorem execWrhh_canon {id : Nat} (h : s.Canon) : OutCanon (execWrhh id s) := onCoh_canon h (fun _ _ h1 => takeWrhh_canon h1)
theorem execWrack_canon {id : Nat} (h : s.Canon) : OutCanon (execWrack id s) := onCoh_canon h (fun _ _ h1 => h1)
theorem cohEvent_canon {m : Coh} (h : s.Canon) : OutCanon (cohEvent m s) := by
  unfold cohEvent
  split
  · exact execTcoll_canon h
  · exact execTokdata_canon h
  · exact execFwds_canon h
  · exact execFwdx_canon h
  · exact execInv_canon h
  · exact execInvAck_canon h
  · exact execFwdAck_canon h
  · exact execDatas_canon h
  · exact execDatax_canon h
  · exact execUpgack_canon h
  · exact execCmp_canon h
  · exact execNotei_canon h
  · exact execNotedat_canon h
  · exact execNoteack_canon h
  · exact execGone_canon h
  · exact execBinv_canon h
  · exact execBinvack_canon h
  · exact execBinvdata_canon h
  · exact execRds_canon h
  · exact execRdx_canon h
  · exact execUpg_canon h
  · exact execWrhh_canon h
  · exact execWrack_canon h
theorem freeSlot_canon (h : s.Canon) : (s.freeSlot k).Canon := canon_ite h h
theorem execSlotFreed_canon {slot : Nat} (h : s.Canon) : OutCanon (execSlotFreed slot s) := freeSlot_canon h
theorem preempt_canon (h : s.Canon) : (s.preempt k).Canon := by
  unfold State.preempt
  split
  · exact rqEnter_canon (spillTo_canon (setRecState_canon h))
  · exact h
theorem execSpill_canon {slot : Nat} (h : s.Canon) : OutCanon (execSpill slot s) := canon_ite (preempt_canon h) h
theorem endTask_canon (h : s.Canon) : (s.endTask k).Canon := retire_canon (kernLog_canon h)
theorem abortSlot_canon (h : s.Canon) : (s.abortSlot k).Canon := by
  unfold State.abortSlot
  split
  · exact abortGang_canon h
  · exact abortGang_canon h
  · exact endTask_canon h
  · exact canon_ite (failCore_canon h) (retire_canon h)
theorem postFault_canon {r : FaultRec} (h : s.Canon) : (s.postFault d p r).Canon :=
  modPlace_canon ((emit_calm ..).canon ((modDie_calm ..).canon ((cwrite_calm ..).canon h)))
theorem forward_canon {acc : Nat} (h : s.Canon) : (s.forward k acc).Canon := canon_ite (postFault_canon h) ((modDie_calm ..).canon h)
theorem rootStep_canon (h : s.Canon) : (s.rootStep k).Canon := by
  unfold State.rootStep
  refine canon_ite h ?_
  split
  · exact takeIrq_canon h
  · exact h
end

/-! ### Accesses of the lanes and the bodies of lane instructions -/

section
variable {s : State} {k c d p q cl n b j : Nat}

theorem msSet1_canon {i : Nat} {w : W64} (h : s.Canon) : (s.msSet1 k i w).Canon := canon_ite h (lsWrite_canon h)
theorem msSet_canon {e : MsEntry} (h : s.Canon) : (s.msSet k d e).Canon := canon_foldl h fun _ _ h1 => msSet1_canon h1
theorem demote_canon {next : Nat} (h : s.Canon) : (s.demote k next).Canon := by
  unfold State.demote
  refine canon_ite h ?_
  dsimp only [State.Canon, State.modSlot, State.setSlot]
  exact msSet_canon (canon_foldl h fun _ _ ht => msSet_canon ht)
theorem demoteDue_canon {epc : Nat} {dem : Bool} (h : s.Canon) : (s.demoteDue k epc dem).Canon := canon_ite (demote_canon h) h
theorem checkRes_canon {r : State × List Ref × List Bad} {all : Option W64} (hr : r.1.Canon) : RCanon (fun r => r.1.Canon) (checkRes r all) := by
  unfold checkRes
  dsimp only
  split
  · exact hr
  · exact hr
  · split
    · exact hr
    · trivial
theorem checkAll_canon {f : State → Int → Nat → XR (Ref × State)} {ls : List (Nat × Int × W64)} {es : List Ref} {bad : List Bad}
    (hf : ∀ t b c, t.Canon → XCanon (fun r => r.2.Canon) (f t b c)) (h : s.Canon) : (checkAll f ls s es bad).1.Canon := by
  induction ls generalizing s es bad with
  | nil =>
    unfold checkAll
    exact h
  | cons a l ih =>
    unfold checkAll
    split
    next e1 =>
      have h1 := Kept.ok e1 (hf _ _ _ h)
      exact ih h1
    next e2 =>
      have h2 := Kept.error e2 (hf _ _ _ h)
      exact ih (canon_ite h2 h)
theorem memDone_canon {pf bad reg : List Bad} {all : Option W64} {acc : Nat} (h : s.Canon) : RCanon State.Canon (memDone s pf bad reg all acc) :=
  Kept.ite (Kept.ite h h) h
theorem markDem_canon {dem : Bool} (h : s.Canon) : (s.markDem k dem).Canon := canon_ite h h
theorem accessLanes_canon {e : W64} {regs xr : List Nat} {acc : Nat} {all : Option W64} {f : State → Int → Nat → XR (Ref × State)}
    {offs : Slot → W64 → List (Nat × Int × W64)} {perform : List Ref → State → Res (State × List Bad × Bool)}
    (hf : ∀ t b c, t.Canon → XCanon (fun r => r.2.Canon) (f t b c)) (hperform : ∀ a t, t.Canon → RCanon (fun r => r.1.Canon) (perform a t)) (h : s.Canon) :
    RCanon (fun r => r.2.Canon) (accessLanes k e regs xr acc all f offs perform s) := by
  unfold accessLanes
  dsimp only
  split
  · trivial
  · refine Kept.bind (checkRes_canon (checkAll_canon (fun _ _ _ h1 => hf _ _ _ h1) h)) fun _ h2 => ?_
    refine Kept.bind (hperform _ _ h2) fun _ h3 => ?_
    refine Kept.bind (memDone_canon (canon_ite ((findErr_calm ..).canon h3) (markDem_canon ((findErr_calm ..).canon h3)))) fun _ h4 => ?_
    exact h4
theorem refOf_canon {p : BitVec 128} {off : Int} {perm : Nat} {acc : Acc} {lane : Nat} (h : s.Canon) :
    XCanon (fun r => r.2.Canon) (s.refOf k p off n perm acc lane) := by
  unfold State.refOf
  split
  · exact h
  · refine Kept.ite h ?_
    refine Kept.ite h ?_
    split
    next e1 => exact (Kept.error e1 ((xlate_calm ..).canon h) :)
    next e2 => exact (Kept.ok e2 ((xlate_calm ..).canon h) :)
theorem writeRef_canon {r : Ref} {v : Nat} (h : s.Canon) : (s.writeRef k n r v).Canon :=
  canon_ite (lsWrite_canon h) (canon_ite ((uwrite_calm ..).canon h) ((l1Store_calm ..).canon h))
theorem storeAll_canon {get : Nat → Nat} {refs : List Ref} (h : s.Canon) : RCanon (fun r => r.1.Canon) (storeAll k n get refs s) :=
  canon_foldl h fun _ _ h1 => writeRef_canon h1
theorem memVst_canon {o : VStore} {e : W64} (h : s.Canon) : RCanon (fun r => r.2.Canon) (memVst o e k s) :=
  accessLanes_canon (fun _ _ _ h1 => refOf_canon h1) (fun _ _ h2 => storeAll_canon h2) h
theorem rdSc_canon {fm : W64} (h : s.Canon) : RCanon (fun r => r.2.Canon) (rdSc k fm n s) := by
  unfold rdSc
  dsimp only
  refine Kept.ite h ?_
  refine Kept.ite (Kept.ite trivial (Kept.ite (poisStop_canon h) h)) ?_
  refine Kept.ite ?_ ?_
  · split
    · exact (setCore_calm ..).canon h
    · trivial
  · refine Kept.ite ?_ (Kept.ite h (Kept.ite (poisStop_canon h) (Kept.ite h h)))
    split
    · exact Kept.ite h h
    · exact h
theorem lsRef_canon {a : Int} {lane : Nat} (h : s.Canon) : XCanon (fun r => r.2.Canon) (s.lsRef a n lane) := Kept.ite h (Kept.ite h h)
theorem memLst_canon {o : VStore} {e : W64} (h : s.Canon) : RCanon (fun r => r.2.Canon) (memLst o e k s) := by
  unfold memLst
  refine Kept.bind (rdSc_canon h) fun _ h1 => ?_
  exact accessLanes_canon (fun _ _ _ h2 => lsRef_canon h2) (fun _ _ h3 => storeAll_canon h3) h1
theorem releasePart_canon {o : Ord} {sc : Scope} (h : s.Canon) : (s.releasePart k o sc).Canon := canon_ite ((wbAllL1_calm ..).canon h) h
theorem acquirePart_canon {o : Ord} {sc : Scope} (h : s.Canon) : (s.acquirePart k o sc).Canon := canon_ite ((acqL1_calm ..).canon h) h
theorem rmwRepl_canon {q : Ref} {f : Nat → Option Nat} {r : Nat} (h : s.Canon) : (s.rmwRepl k n q f r).Canon := by
  unfold State.rmwRepl
  split
  · exact h
  · exact canon_ite (lsWrite_canon h) ((cwrite_calm ..).canon ((flushSector_calm ..).canon h))
theorem rmwMem_canon {part : Option Nat} {h pa : Nat} {f : Nat → Option Nat} (hs : s.Canon) : (s.rmwMem part d h pa n f).2.2.Canon := by
  unfold State.rmwMem
  dsimp -zeta only
  extract_lets s1 _
  have hs1 : s1.Canon := canon_ite ((touchLine_calm ..).canon ((grabBlk_calm ..).canon hs)) hs
  split
  · exact (readChk_calm ..).canon hs1
  · split
    · exact (commit_calm ..).canon ((readChk_calm ..).canon hs1)
    · exact (readChk_calm ..).canon hs1
theorem rmwRef_canon {r : Ref} {f : Nat → Option Nat} (h : s.Canon) : (s.rmwRef k n r f).2.2.Canon := by
  unfold State.rmwRef
  dsimp only
  split
  · split
    · exact (findErr_calm ..).canon h
    · split
      · exact lsWrite_canon h
      · exact h
  · exact rmwMem_canon ((flushSector_calm ..).canon h)
theorem atomAll_canon {g : Nat → Nat → Option Nat × Nat} {put : Nat → Nat → Slot → Slot} {ls : List Ref} {bad : List Bad} {fl : Bool} (h : s.Canon) :
    (atomAll k n g put ls s bad fl).1.Canon := by
  induction ls generalizing s bad fl with
  | nil =>
    unfold atomAll
    exact h
  | cons a l ih =>
    unfold atomAll
    split
    rename_i e1
    have h1 := canon_thd e1 (rmwRef_canon h)
    split <;> exact ih h1
theorem doAtomic_canon {o : Ord} {sc : Scope} {now : Bool} {g : Nat → Nat → Option Nat × Nat} {put : Nat → Nat → Slot → Slot} {refs : List Ref}
    (h : s.Canon) : RCanon (fun r => r.1.Canon) (doAtomic k n o sc now g put refs s) := by
  unfold doAtomic
  split
  · trivial
  · exact Kept.ite (releasePart_canon h) (acquirePart_canon (atomAll_canon (releasePart_canon h)))
theorem scResume_canon {o : Ord} {sc : Scope} {g : Nat → Nat → Option Nat × Nat} {put : Nat → Nat → Slot → Slot} {op : ScOp} (h : s.Canon) :
    RCanon (fun r => r.1.Canon) (scResume k n o sc g put op s) := Kept.ite trivial (doAtomic_canon h)
theorem memVatom_canon {op : AKind} {o : VAtom} {e : W64} (h : s.Canon) : RCanon (fun r => r.2.Canon) (memVatom op o e k s) := by
  unfold memVatom
  dsimp only
  split
  · refine Kept.bind (scResume_canon h) fun _ h1 => ?_
    refine Kept.bind (memDone_canon (canon_ite ((findErr_calm ..).canon h1) (markDem_canon ((findErr_calm ..).canon h1)))) fun _ h2 => ?_
    exact h2
  · exact accessLanes_canon (fun _ _ _ h3 => refOf_canon h3) (fun _ _ h4 => doAtomic_canon h4) h
theorem fixLanes_canon {i : Instr} {fm : W64} (h : s.Canon) : RCanon (fun r => r.2.Canon) (fixLanes i fm k s) := by
  unfold fixLanes
  extract_lets _
  split
  · exact Kept.bind (memVst_canon h) fun _ h1 => h1
  · exact Kept.bind (memLst_canon h) fun _ h2 => h2
  · split
    · extract_lets _ _ _ _ _ _ _ _ go
      have hgo {r : _ × State} (ht : r.2.Canon) : RCanon (fun r => r.2.Canon) (go r) := by
        unfold go
        refine Kept.ite ht ?_
        refine Kept.bind (checkRes_canon (checkAll_canon (fun _ _ _ h3 => refOf_canon h3) (releasePart_canon ht))) fun _ h4 => ?_
        exact Kept.bind (memDone_canon h4) fun _ h5 => acquirePart_canon (canon_foldl h5 fun _ _ h6 => rmwRepl_canon h6)
      refine Kept.ite ?_ ?_
      · refine Kept.bind (P := fun r => r.2.Canon) ?_ fun ⟨x1, s1⟩ h7 => ?_
        · exact h
        · exact hgo (r := (x1, s1)) h7
      · refine Kept.bind (P := fun r => r.2.Canon) ?_ fun ⟨x2, s2⟩ h8 => ?_
        · refine Kept.bind (memVatom_canon h) fun _ h9 => ?_
          exact h9
        · exact hgo (r := (x2, s2)) h8
    · show State.Canon _
      split <;> exact h
theorem fixSow_canon {a : Nat} {fm : W64} (h : s.Canon) : RCanon State.Canon (fixSow k a fm s) := by
  unfold fixSow
  extract_lets _ _ go
  have hgo {r : _ × State} (ht : r.2.Canon) : RCanon State.Canon (go r) := by
    unfold go
    exact ht
  refine Kept.ite h ?_
  split
  · refine Kept.bind (P := fun r => r.2.Canon) ?_ fun ⟨x1, s1⟩ h1 => ?_
    · split
      · exact fixLanes_canon h
      · exact h
    · exact hgo (r := (x1, s1)) h1
  · refine Kept.bind (P := fun r => r.2.Canon) ?_ fun ⟨x2, s2⟩ h2 => ?_
    · exact h
    · exact hgo (r := (x2, s2)) h2
theorem ofLane_canon {b : LaneBody} (hb : b.Canon) : ∀ x ∈ ofLane b, x.Canon := mem_some fun e k t h => Kept.bind (hb e k t h) fun _ h => h
theorem rdSbs_canon {e : W64} {sbs : Bool} (h : s.Canon) : RCanon (fun r => r.2.Canon) (rdSbs k e sbs b s) := by
  unfold rdSbs
  refine Kept.ite ?_ h
  refine Kept.bind (rdSc_canon h) fun _ h1 => ?_
  exact h1
theorem runLanes_canon {e : W64} {regs : List Nat} {go : W64 → Slot → Slot} (h : s.Canon) : RCanon State.Canon (runLanes k e regs go s) := by
  unfold runLanes
  dsimp only
  split
  · trivial
  · exact Kept.ite h ((findErr_calm ..).canon h)
theorem laneTwo_canon {p : Pred} {w : Bool} {a : Nat} {sbs : Bool} {md : Rnd} {f : (Nat → Nat) → Nat → Nat → Nat × Nat} :
    (laneTwo p w d a b sbs md n f).Canon := by
  unfold laneTwo
  intro _ _ _ h1
  exact Kept.bind (rdSbs_canon h1) fun _ h2 => runLanes_canon h2
theorem laneSat_canon {o : VTS} {f : Int → Int → Int} : (laneSat o f).Canon := laneTwo_canon
theorem laneVadd_canon {o : VTS} : (laneVadd o).Canon := laneSat_canon
theorem laneVsub_canon {o : VTS} : (laneVsub o).Canon := laneSat_canon
theorem laneVmul_canon {o : VTS} : (laneVmul o).Canon := laneSat_canon
theorem laneBin_canon {o : VT} {f : Nat → Nat → Nat} : (laneBin o f).Canon := laneTwo_canon
theorem laneVmulh_canon {o : VT} : (laneVmulh o).Canon := laneBin_canon
theorem laneThree_canon {p : Pred} {w : Bool} {a : Nat} {sbs : Bool} {md : Rnd} {f : (Nat → Nat) → Nat → Nat → Nat → Nat × Nat} :
    (laneThree p w d a b c sbs md n f).Canon := by
  unfold laneThree
  intro _ _ _ h1
  exact Kept.bind (rdSbs_canon h1) fun _ h2 => runLanes_canon h2
theorem laneVmad_canon {o : VMad} : (laneVmad o).Canon := laneThree_canon
theorem laneVand_canon {o : VT} : (laneVand o).Canon := laneBin_canon
theorem laneVor_canon {o : VT} : (laneVor o).Canon := laneBin_canon
theorem laneVxor_canon {o : VT} : (laneVxor o).Canon := laneBin_canon
theorem laneOne_canon {p : Pred} {wd : Bool} {wa : Bool} {a : Nat} {f : Nat → Nat × Nat} : (laneOne p wd d wa a f).Canon := by
  unfold laneOne
  intro _ _ _ h1
  exact runLanes_canon h1
theorem laneUn_canon {o : VT1} {wd : Bool} {f : Nat → Nat} : (laneUn o wd f).Canon := laneOne_canon
theorem laneVnot_canon {o : VT1} : (laneVnot o).Canon := laneUn_canon
theorem laneVshl_canon {o : VT} : (laneVshl o).Canon := laneBin_canon
theorem laneVshr_canon {o : VT} : (laneVshr o).Canon := laneBin_canon
theorem laneVsra_canon {o : VT} : (laneVsra o).Canon := laneBin_canon
theorem laneVmin_canon {o : VT} : (laneVmin o).Canon := laneBin_canon
theorem laneVmax_canon {o : VT} : (laneVmax o).Canon := laneBin_canon
theorem laneVabs_canon {o : VT1S} : (laneVabs o).Canon := laneOne_canon
theorem laneVsel_canon {o : VSel} : (laneVsel o).Canon := by
  unfold laneVsel
  intro _ _ _ h1
  exact runLanes_canon h1
theorem laneVclz_canon {o : VT1} : (laneVclz o).Canon := laneUn_canon
theorem laneVpopc_canon {o : VT1} : (laneVpopc o).Canon := laneUn_canon
theorem laneVsext_canon {o : VTN} : (laneVsext o).Canon := laneOne_canon
theorem laneVzext_canon {o : VTN} : (laneVzext o).Canon := laneOne_canon
theorem laneVbs_canon {o : VT1} : (laneVbs o).Canon := by
  unfold laneVbs
  intro _ _ _ h1
  exact Kept.bind (rdSc_canon h1) fun _ h2 => h2
theorem rdScs_canon {fm : W64} {ls : List Nat} (h : s.Canon) : RCanon (fun r => r.2.Canon) (rdScs k fm ls s) := by
  induction ls generalizing s with
  | nil =>
    unfold rdScs
    exact h
  | cons a l ih =>
    unfold rdScs
    refine Kept.bind (rdSc_canon h) fun _ h1 => ?_
    exact Kept.bind (ih h1) fun _ h2 => h2
theorem laneVins_canon {o : VIns} : (laneVins o).Canon := by
  unfold laneVins
  intro _ _ _ h1
  exact Kept.bind (rdScs_canon h1) fun _ h2 => canon_ite h2 h2
theorem laneF3_canon {o : VF3} {f : Nat → Nat → Nat → Nat × Nat} : (laneF3 o f).Canon := laneTwo_canon
theorem laneVfadd_canon {o : VF3} : (laneVfadd o).Canon := laneF3_canon
theorem laneVfsub_canon {o : VF3} : (laneVfsub o).Canon := laneF3_canon
theorem laneVfmul_canon {o : VF3} : (laneVfmul o).Canon := laneF3_canon
theorem laneVffma_canon {o : VF4} : (laneVffma o).Canon := laneThree_canon
theorem laneVfdiv_canon {o : VF3} : (laneVfdiv o).Canon := laneF3_canon
theorem laneF2_canon {o : VF2} {f : Nat → Nat → Nat × Nat} : (laneF2 o f).Canon := by
  unfold laneF2
  intro _ _ _ h1
  exact runLanes_canon h1
theorem laneVfsqrt_canon {o : VF2} : (laneVfsqrt o).Canon := laneF2_canon
theorem laneVfrcp_canon {o : VF2} : (laneVfrcp o).Canon := laneF2_canon
theorem laneVfrsq_canon {o : VF2} : (laneVfrsq o).Canon := laneF2_canon
theorem laneVfexp2_canon {o : VF2} : (laneVfexp2 o).Canon := laneF2_canon
theorem laneVflog2_canon {o : VF2} : (laneVflog2 o).Canon := laneF2_canon
theorem laneVfmin_canon {o : VT} : (laneVfmin o).Canon := laneTwo_canon
theorem laneVfmax_canon {o : VT} : (laneVfmax o).Canon := laneTwo_canon
theorem laneVfround_canon {o : VF2} : (laneVfround o).Canon := laneF2_canon
theorem laneVfcvt_canon {o : VFCvt} : (laneVfcvt o).Canon := by
  unfold laneVfcvt
  intro _ _ _ h1
  exact runLanes_canon h1
theorem laneVqblkExp_canon {o : VQExp} : (laneVqblkExp o).Canon := by
  unfold laneVqblkExp
  intro _ _ _ h1
  dsimp only
  split
  · trivial
  · exact runLanes_canon h1
theorem laneVqblkMan_canon {o : VQMan} : (laneVqblkMan o).Canon := by
  unfold laneVqblkMan
  intro _ _ _ h1
  dsimp only
  split
  · trivial
  · exact runLanes_canon h1
theorem runCross_canon {e : W64} {regs : List Nat} {go : Slot → Slot} (h : s.Canon) : RCanon State.Canon (runCross k e regs go s) := by
  unfold runCross
  dsimp only
  split
  · trivial
  · exact Kept.ite h (poisStop_canon h)
theorem laneVbpt_canon {o : V2} : (laneVbpt o).Canon := by
  unfold laneVbpt
  intro _ _ _ h1
  exact runCross_canon h1
theorem laneVhadd_canon {o : VF3} : (laneVhadd o).Canon := laneTwo_canon
theorem laneVhmul_canon {o : VF3} : (laneVhmul o).Canon := laneTwo_canon
theorem laneVhfma_canon {o : VF4} : (laneVhfma o).Canon := laneThree_canon
theorem crossBody_canon {p : Pred} {mm : Nat} {live : Bool} {vecs : List Nat} {body : W64 → W64 → Nat → State → Res State}
    (hbody : ∀ a b c t, t.Canon → RCanon State.Canon (body a b c t)) : (crossBody p mm live vecs body).Canon := by
  unfold crossBody
  intro _ _ _ h1
  dsimp -zeta only
  extract_lets _ _ go
  have hgo : RCanon State.Canon (go ()) := by
    unfold go
    exact hbody _ _ _ _ h1
  exact Kept.ite (Kept.bind (P := fun _ => True) trivial fun _ _ => hgo) hgo
theorem laneVshuf_canon {o : VX3} : (laneVshuf o).Canon := by
  unfold laneVshuf
  exact crossBody_canon fun _ _ _ _ h => runCross_canon h
theorem crossScalar_canon {o : VX3} {j : Nat → Nat → Nat → Nat} : (crossScalar o j).Canon := by
  unfold crossScalar
  exact crossBody_canon fun _ _ _ _ h => Kept.bind (rdSc_canon h) fun _ h1 => runCross_canon h1
theorem laneVbcast_canon {o : VX3} : (laneVbcast o).Canon := crossScalar_canon
theorem laneVrot_canon {o : VX3} : (laneVrot o).Canon := crossScalar_canon
theorem laneVred_canon {o : VRed} : (laneVred o).Canon := by
  unfold laneVred
  exact crossBody_canon fun _ _ _ _ h => runCross_canon h
theorem laneVscan_canon {o : VScan} : (laneVscan o).Canon := by
  unfold laneVscan
  exact crossBody_canon fun _ _ _ _ h => runCross_canon h
theorem laneVmatch_canon {o : VX2} : (laneVmatch o).Canon := by
  unfold laneVmatch
  exact crossBody_canon fun _ _ _ _ h => runCross_canon h
theorem readRef_canon {poll : Bool} {r : Ref} (h : s.Canon) : (s.readRef k n poll r).2.2.Canon := by
  unfold State.readRef
  dsimp only
  split
  · split
    · exact (findErr_calm ..).canon h
    · exact h
  · split
    · exact (uread_calm ..).canon h
    · split
      · exact (cread_calm ..).canon ((flushSector_calm ..).canon h)
      · exact (l1Load_calm ..).canon h
theorem loadAll_canon {poll : Bool} {put : Nat → Nat → Slot → Slot} {ls : List Ref} {bad : List Bad} (h : s.Canon) :
    (loadAll k n poll put ls s bad).1.Canon := by
  induction ls generalizing s bad with
  | nil =>
    unfold loadAll
    exact h
  | cons a l ih =>
    unfold loadAll
    split
    rename_i e1
    have h1 := canon_thd e1 (prop_ite (P := fun r : _ × _ × State => r.2.2.Canon) h (readRef_canon h))
    split
    · exact (ih h1)
    · exact (ih h1)
theorem doLoads_canon {poll : Bool} {put : Nat → Nat → Slot → Slot} {refs : List Ref} (h : s.Canon) :
    RCanon (fun r => r.1.Canon) (doLoads k n poll put refs s) := by
  unfold doLoads
  split
  · trivial
  · exact loadAll_canon h
theorem memVld_canon {o : VLoad} {e : W64} (h : s.Canon) : RCanon (fun r => r.2.Canon) (memVld o e k s) :=
  accessLanes_canon (fun _ _ _ h1 => refOf_canon h1) (fun _ _ h2 => doLoads_canon h2) h
theorem memVldu_canon {o : VLoad} {e : W64} (h : s.Canon) : RCanon (fun r => r.2.Canon) (memVldu o e k s) := by
  unfold memVldu
  extract_lets _ go
  have hgo {r : _ × State} (ht : r.2.Canon) : RCanon (fun r => r.2.Canon) (go r) := by
    unfold go
    exact accessLanes_canon (fun _ _ _ h1 => refOf_canon h1) (fun _ _ h2 => doLoads_canon h2) ht
  split
  · exact Kept.bind (rdSc_canon h) fun ⟨x1, s1⟩ h3 => hgo (r := (x1, s1)) h3
  · refine Kept.bind (P := fun r => r.2.Canon) ?_ fun ⟨x2, s2⟩ h4 => ?_
    · exact h
    · exact hgo (r := (x2, s2)) h4
theorem memLld_canon {o : VLoad} {e : W64} (h : s.Canon) : RCanon (fun r => r.2.Canon) (memLld o e k s) := by
  unfold memLld
  refine Kept.bind (rdSc_canon h) fun _ h1 => ?_
  exact accessLanes_canon (fun _ _ _ h2 => lsRef_canon h2) (fun _ _ h3 => doLoads_canon h3) h1
theorem memVldacc_canon {o : VAcc} {e : W64} (h : s.Canon) : RCanon (fun r => r.2.Canon) (memVldacc o e k s) := by
  unfold memVldacc
  extract_lets _ _ _ _ go2
  have hgo2 {r : _ × State} (ht : r.2.Canon) : RCanon (fun r => r.2.Canon) (go2 r) := by
    unfold go2
    dsimp only
    split
    · trivial
    · exact Kept.ite trivial (Kept.ite trivial (Kept.ite trivial (Kept.bind (memDone_canon ((findErr_calm ..).canon ht)) fun _ h1 => h1)))
  refine Kept.ite ?_ (Kept.bind (rdSc_canon h) fun ⟨x1, s1⟩ h2 => hgo2 (r := (x1, s1)) h2)
  refine Kept.bind (P := fun r => r.2.Canon) ?_ fun ⟨x2, s2⟩ h3 => ?_
  · exact h
  · exact hgo2 (r := (x2, s2)) h3
theorem sowBody_canon {i : Instr} : ∀ x ∈ sowBody i, x.Canon := by
  cases i
  case vadd => exact ofLane_canon laneVadd_canon
  case vsub => exact ofLane_canon laneVsub_canon
  case vmul => exact ofLane_canon laneVmul_canon
  case vmulh => exact ofLane_canon laneVmulh_canon
  case vmad => exact ofLane_canon laneVmad_canon
  case vand => exact ofLane_canon laneVand_canon
  case vor => exact ofLane_canon laneVor_canon
  case vxor => exact ofLane_canon laneVxor_canon
  case vnot => exact ofLane_canon laneVnot_canon
  case vshl => exact ofLane_canon laneVshl_canon
  case vshr => exact ofLane_canon laneVshr_canon
  case vsra => exact ofLane_canon laneVsra_canon
  case vmin => exact ofLane_canon laneVmin_canon
  case vmax => exact ofLane_canon laneVmax_canon
  case vabs => exact ofLane_canon laneVabs_canon
  case vsel => exact ofLane_canon laneVsel_canon
  case vclz => exact ofLane_canon laneVclz_canon
  case vpopc => exact ofLane_canon laneVpopc_canon
  case vsext => exact ofLane_canon laneVsext_canon
  case vzext => exact ofLane_canon laneVzext_canon
  case vbs => exact ofLane_canon laneVbs_canon
  case vins => exact ofLane_canon laneVins_canon
  case vfadd => exact ofLane_canon laneVfadd_canon
  case vfsub => exact ofLane_canon laneVfsub_canon
  case vfmul => exact ofLane_canon laneVfmul_canon
  case vffma => exact ofLane_canon laneVffma_canon
  case vfdiv => exact ofLane_canon laneVfdiv_canon
  case vfsqrt => exact ofLane_canon laneVfsqrt_canon
  case vfrcp => exact ofLane_canon laneVfrcp_canon
  case vfrsq => exact ofLane_canon laneVfrsq_canon
  case vfexp2 => exact ofLane_canon laneVfexp2_canon
  case vflog2 => exact ofLane_canon laneVflog2_canon
  case vfmin => exact ofLane_canon laneVfmin_canon
  case vfmax => exact ofLane_canon laneVfmax_canon
  case vfround => exact ofLane_canon laneVfround_canon
  case vfcvt => exact ofLane_canon laneVfcvt_canon
  case vqblkExp => exact ofLane_canon laneVqblkExp_canon
  case vqblkMan => exact ofLane_canon laneVqblkMan_canon
  case vbpt => exact ofLane_canon laneVbpt_canon
  case vhadd => exact ofLane_canon laneVhadd_canon
  case vhmul => exact ofLane_canon laneVhmul_canon
  case vhfma => exact ofLane_canon laneVhfma_canon
  case vshuf => exact ofLane_canon laneVshuf_canon
  case vbcast => exact ofLane_canon laneVbcast_canon
  case vrot => exact ofLane_canon laneVrot_canon
  case vred => exact ofLane_canon laneVred_canon
  case vscan => exact ofLane_canon laneVscan_canon
  case vmatch => exact ofLane_canon laneVmatch_canon
  case vld => exact mem_some fun _ _ _ h => memVld_canon h
  case vst => exact mem_some fun _ _ _ h => memVst_canon h
  case vldu => exact mem_some fun _ _ _ h => memVldu_canon h
  case lld => exact mem_some fun _ _ _ h => memLld_canon h
  case lst => exact mem_some fun _ _ _ h => memLst_canon h
  case vldacc => exact mem_some fun _ _ _ h => memVldacc_canon h
  case vaadd => exact mem_some fun _ _ _ h => memVatom_canon h
  case vamin => exact mem_some fun _ _ _ h => memVatom_canon h
  case vamax => exact mem_some fun _ _ _ h => memVatom_canon h
  case vaand => exact mem_some fun _ _ _ h => memVatom_canon h
  case vaor => exact mem_some fun _ _ _ h => memVatom_canon h
  case vaxor => exact mem_some fun _ _ _ h => memVatom_canon h
  case vaxch => exact mem_some fun _ _ _ h => memVatom_canon h
  case vacas => exact mem_some fun _ _ _ h => memVatom_canon h
  all_goals exact mem_none
end

/-! ### Stores, the return from a trap and the events of a core -/

section
variable {s : State} {k c d p q cl n b j : Nat}

theorem rerunS_canon {regs : List Nat} {run : State → Host.Outcome State Fault Refusal} (hrun : ∀ t, t.Canon → OutCanon (run t)) (h : s.Canon) :
    RCanon State.Canon (rerunS k regs run s) := by
  unfold rerunS
  dsimp only
  split
  next e1 =>
    have h1 := OutCanon.next e1 (hrun _ h)
    split
    · trivial
    · exact h1
  · exact h
theorem strandIf_canon {i : Instr} {refuse : Slot → Option Nat} {p : Pred} {adv : Bool} {body : Nat → State → Res State}
    (hbody : ∀ a t, t.Canon → RCanon State.Canon (body a t)) (h : s.Canon) : OutCanon (strandIf i refuse p adv body s) := by
  unfold strandIf
  split
  · exact seqStop_canon h
  · dsimp only
    split
    · exact takeTrap_canon h
    · split
      next e1 =>
        have h1 := Kept.ok e1 (hbody _ _ h)
        exact canon_ite (advance_canon h1) h1
      next e2 =>
        have h2 := Kept.error e2 (hbody _ _ h)
        exact stop_canon h h2
theorem strandWith_canon {i : Instr} {lvl : Nat} {dsts vecs : List Nat} {p : Pred} {adv : Bool} {body : Nat → State → Res State}
    (hbody : ∀ a t, t.Canon → RCanon State.Canon (body a t)) (h : s.Canon) : OutCanon (strandWith i lvl dsts vecs p adv body s) :=
  strandIf_canon (fun _ _ h1 => hbody _ _ h1) h
theorem scalarI_canon {i : Instr} {dsts : List Nat} {body : Nat → State → Res State} (hbody : ∀ a t, t.Canon → RCanon State.Canon (body a t)) (h : s.Canon) :
    OutCanon (scalarI i dsts body s) := strandWith_canon (fun _ _ h1 => hbody _ _ h1) h
theorem scalarWrite_canon {r : Ref} {v : Nat} (h : s.Canon) : RCanon State.Canon (s.scalarWrite k n r v) :=
  Kept.ite (lsWrite_canon h) (Kept.ite ((uwrite_calm ..).canon h) (Kept.ite h (Kept.ite trivial ((modCore_calm ..).canon ((commit_calm ..).canon h)))))
theorem storeI_canon {i : Instr} {o : Store} {place : Nat → State → Res (Ref × State)} (hplace : ∀ a t, t.Canon → RCanon (fun r => r.2.Canon) (place a t))
    (h : s.Canon) : OutCanon (storeI i o place s) := by
  unfold storeI
  refine scalarI_canon (fun _ _ h1 => ?_) h
  refine Kept.bind (hplace _ _ h1) fun _ h2 => ?_
  exact Kept.bind (rdSc_canon h2) fun _ h3 => scalarWrite_canon h3
theorem ptrRef_canon {p : BitVec 128} {d : Int} {perm : Nat} {acc : Acc} {kind : Nat} (h : s.Canon) :
    RCanon (fun r => r.2.Canon) (s.ptrRef k p d n perm acc kind) := by
  unfold State.ptrRef
  split
  next e1 => exact (Kept.ok e1 (refOf_canon h) :)
  next e2 =>
    have h1 := Kept.error e2 (refOf_canon h)
    exact Kept.ite h1 trivial
theorem execSt_canon {o : Store} (h : s.Canon) : OutCanon (execSt o s) := by
  unfold execSt
  refine storeI_canon (fun _ _ h1 => ?_) h
  refine Kept.bind (rdSc_canon h1) fun _ h2 => ?_
  exact ptrRef_canon h2
theorem lsAddr_canon {a : Int} {al : Nat} : RCanon (fun _ => True) (lsAddr a n al) := by
  unfold lsAddr
  extract_lets go go2
  have hgo : RCanon (fun _ => True) (go ()) := by
    unfold go
    trivial
  have hgo2 : RCanon (fun _ => True) (go2 ()) := by
    unfold go2
    exact Kept.ite (Kept.bind (P := fun _ => True) trivial fun _ _ => hgo) hgo
  exact Kept.ite (Kept.bind (P := fun _ => True) trivial fun _ _ => hgo2) hgo2
theorem lsPlace_canon {b : W64} {off : BitVec 16} : RCanon (fun _ => True) (lsPlace b off n) := Kept.bind lsAddr_canon fun _ _ => trivial
theorem execSts_canon {o : Store} (h : s.Canon) : OutCanon (execSts o s) := by
  unfold execSts
  refine storeI_canon (fun _ _ h1 => ?_) h
  refine Kept.bind (rdSc_canon h1) fun _ h2 => ?_
  exact Kept.bind lsPlace_canon fun _ _ => h2
theorem fePlace_canon {o : FE} {perm : Nat} (h : s.Canon) : RCanon (fun r => r.2.Canon) (fePlace o perm k s) := by
  unfold fePlace
  refine Kept.ite ?_ ?_
  · refine Kept.bind (rdSc_canon h) fun _ h1 => ?_
    exact Kept.bind lsPlace_canon fun _ _ => h1
  · refine Kept.bind (rdSc_canon h) fun _ h2 => ?_
    exact Kept.bind ensureV_canon fun _ _ => Kept.bind (ptrRef_canon h2) fun _ h3 => h3
theorem execStf_canon {o : FE} (h : s.Canon) : OutCanon (execStf o s) := by
  unfold execStf
  refine scalarI_canon (fun _ _ h1 => ?_) h
  refine Kept.bind (fePlace_canon h1) fun _ h2 => ?_
  exact Kept.bind (rdSc_canon h2) fun _ h3 => Kept.ite (lsWrite_canon h3) trivial
theorem sendPark_canon {n : Net} {peer what : Nat} (h : s.Canon) : RCanon State.Canon (s.sendPark k n peer what) := by
  unfold State.sendPark
  dsimp only
  show State.Canon _
  dsimp only [State.Canon, State.modSlot, State.setSlot]
  exact sendNet_canon ((relTo_calm ..).canon h)
theorem execRput_canon {o : RPut} (h : s.Canon) : OutCanon (execRput o s) := by
  unfold execRput
  refine scalarI_canon (fun _ _ h1 => ?_) h
  refine Kept.bind (rdScs_canon h1) fun _ h2 => ?_
  dsimp only
  split
  · trivial
  · exact Kept.bind ensureV_canon fun _ _ => sendPark_canon h2
theorem execSputfe_canon {o : SPutFE} (h : s.Canon) : OutCanon (execSputfe o s) := by
  unfold execSputfe
  refine scalarI_canon (fun _ _ h1 => ?_) h
  refine Kept.bind (rdScs_canon h1) fun _ h2 => ?_
  dsimp only
  split
  · trivial
  · exact Kept.bind ensureV_canon fun _ _ => Kept.bind lsAddr_canon fun _ _ => sendPark_canon h2
theorem execAmsg_canon {o : R3} (h : s.Canon) : OutCanon (execAmsg o s) := by
  unfold execAmsg
  refine scalarI_canon (fun _ _ h1 => ?_) h
  refine Kept.bind (rdScs_canon h1) fun _ h2 => ?_
  dsimp only
  split
  · trivial
  · exact Kept.bind ensureV_canon fun _ _ => sendPark_canon h2
theorem finish_canon {dem : Bool} (h : s.Canon) : (s.finish k dem).Canon :=
  canon_ite (demote_canon (advance_canon (canon_ite h h))) (advance_canon (canon_ite h h))
theorem atomOne_canon {o : Atom} {g : Nat → Option Nat × Nat} {r : Ref} (h : s.Canon) : RCanon State.Canon (s.atomOne k o g r) := by
  unfold State.atomOne
  dsimp -zeta only
  extract_lets _ go
  have hgo : RCanon State.Canon (go ()) := by
    unfold go
    exact Kept.bind (wrSc_canon (acquirePart_canon (rmwRef_canon h))) fun _ h1 => finish_canon h1
  exact Kept.ite (Kept.bind (P := fun _ => True) (rmwRef_canon h) fun _ _ => hgo) hgo
theorem atomI_canon {i : Instr} {op : AKind} {o : Atom} (h : s.Canon) : OutCanon (atomI i op o s) := by
  unfold atomI
  refine strandWith_canon (fun _ _ h1 => ?_) h
  dsimp only
  split
  · exact Kept.ite trivial (atomOne_canon h1)
  · refine Kept.bind (rdScs_canon h1) fun _ h2 => ?_
    refine Kept.bind (ptrRef_canon h2) fun _ h3 => ?_
    split
    · trivial
    · exact Kept.ite (releasePart_canon h3) (atomOne_canon (releasePart_canon h3))
theorem fixScalar_canon {i : Instr} (h : s.Canon) : RCanon (fun r => (∀ res ∈ r.1, res.Canon) ∧ r.2.Canon) (fixScalar i k s) := by
  unfold fixScalar
  extract_lets _ own go
  have hgo {t : State} (ht : t.Canon) : RCanon (fun r => (∀ res ∈ r.1, res.Canon) ∧ r.2.Canon) (go t) := by
    unfold go
    exact ⟨mem_none, ht⟩
  split
  · unfold own
    exact Kept.bind (rerunS_canon (fun _ h1 => execSt_canon h1) h) fun _ h2 => ⟨(mem_some h2), h2⟩
  · unfold own
    exact Kept.bind (rerunS_canon (fun _ h3 => execSts_canon h3) h) fun _ h4 => ⟨(mem_some h4), h4⟩
  · unfold own
    exact Kept.bind (rerunS_canon (fun _ h5 => execStf_canon h5) h) fun _ h6 => ⟨(mem_some h6), h6⟩
  · unfold own
    exact Kept.bind (rerunS_canon (fun _ h7 => execRput_canon h7) h) fun _ h8 => ⟨(mem_some h8), h8⟩
  · unfold own
    exact Kept.bind (rerunS_canon (fun _ h9 => execSputfe_canon h9) h) fun _ h10 => ⟨(mem_some h10), h10⟩
  · unfold own
    exact Kept.bind (rerunS_canon (fun _ h11 => execAmsg_canon h11) h) fun _ h12 => ⟨(mem_some h12), h12⟩
  · refine Kept.bind (fePlace_canon h) fun _ _ => ?_
    exact Kept.bind (wrSc_canon h) fun _ h13 => ⟨mem_none, h13⟩
  · split
    · refine Kept.ite (Kept.bind (rerunS_canon (fun _ h14 => atomI_canon h14) h) fun _ h15 => ⟨(mem_some h15), h15⟩) ?_
      refine Kept.bind (rdScs_canon h) fun _ _ => ?_
      refine Kept.bind (ptrRef_canon h) fun _ h16 => ?_
      refine Kept.bind (wrSc_canon (acquirePart_canon (rmwRepl_canon (releasePart_canon h16)))) fun _ h17 => ?_
      exact ⟨mem_none, (markDem_canon h17)⟩
    · split
      · exact Kept.bind (wrSc_canon h) fun _ h18 => hgo h18
      · refine Kept.bind (P := State.Canon) ?_ fun _ h19 => ?_
        · exact h
        · exact hgo h19
      · refine Kept.bind (P := State.Canon) ?_ fun _ h20 => ?_
        · exact h
        · exact hgo h20
theorem eretStep_canon (h : s.Canon) : RCanon State.Canon (s.eretStep k) := by
  unfold State.eretStep
  extract_lets x code fm s0 p0 epc repl i? finish sow? go
  have h0 : s0.Canon := h
  have hfinish {t : State} {pc : Nat} (ht : t.Canon) : RCanon State.Canon (finish t pc) := Kept.bind (resumeAt_canon ht) fun _ h1 => h1
  have hgo {t : State} (ht : t.Canon) : RCanon State.Canon (go t) :=
    Kept.ite (Kept.bind (hfinish ht) fun _ h1 => demoteDue_canon h1) (Kept.bind (hfinish ht) fun _ h1 => h1)
  clear_value i? sow? finish go
  split
  · exact Kept.ite (Kept.bind (fixSow_canon h0) fun _ => hgo) (Kept.bind (P := State.Canon) h0 fun _ => hgo)
  · refine Kept.ite ?_ (Kept.ite (hfinish h0) (Kept.bind (hfinish h0) fun _ h1 => h1))
    split
    · exact hfinish h0
    · refine Kept.ite ?_ (Kept.ite (hfinish h0) ?_)
      · exact Kept.bind (fixLanes_canon h0) fun _ h1 => Kept.bind (hfinish h1) fun _ h2 => demoteDue_canon h2
      · refine Kept.bind (hfinish h0) fun s1 h1 => Kept.bind (fixScalar_canon h1) fun ⟨own, s2⟩ ⟨hown, h2⟩ => ?_
        dsimp only
        split
        · exact hown _ rfl
        · exact Kept.bind (hfinish h2) fun _ h3 => demoteDue_canon h3
theorem kernReturn_canon (h : s.Canon) : (s.kernReturn k).Canon := by
  unfold State.kernReturn
  split
  next e1 => exact (Kept.ok e1 (eretStep_canon h) :)
  next e2 =>
    have h1 := Kept.error e2 (eretStep_canon h)
    exact stop_canon h h1
theorem kernStep_canon (h : s.Canon) : (s.kernStep k).Canon := by
  unfold State.kernStep
  dsimp only
  split
  · exact h
  · exact abortSlot_canon h
  · exact forward_canon h
  · exact preempt_canon h
  · exact rootStep_canon h
  · exact takeTrap_canon h
  · exact kernReturn_canon h
theorem unhold_canon (h : s.Canon) : (s.unhold k).Canon := (modCore_calm ..).canon h
theorem loadFrom_canon (h : s.Canon) : (s.loadFrom k).2.Canon := by
  unfold State.loadFrom
  extract_lets _ _
  split
  · exact h
  · split
    · exact h
    · split
      · exact h
      · extract_lets _ s1 s2 s3 _
        have hs1 : s1.Canon := (modCore_calm ..).canon h
        have hs2 : s2.Canon := canon_ite hs1 hs1
        have hs3 : s3.Canon := unhold_canon hs2
        split
        · exact takeTrap_canon hs3
        · split
          · exact canon_ite (doPark_canon hs3) hs3
          · exact hs3
theorem unlend_canon (h : s.Canon) : (s.unlend k).Canon := by
  unfold State.unlend
  dsimp only
  split
  · exact h
  · split
    · exact h
    · exact canon_ite (loadFrom_canon h) h
theorem serveLent_canon (h : s.Canon) : (s.serveLent k).Canon := by
  unfold State.serveLent
  dsimp only
  split
  · exact h
  · exact h
  · exact unlend_canon h
  · exact h
theorem unsend_canon {a : Await} (h : s.Canon) : (s.unsend k a).Canon := by
  unfold State.unsend
  split
  · exact (modCluster_calm ..).canon h
  · exact h
theorem expire_canon (h : s.Canon) : (s.expire k).Canon := by
  unfold State.expire
  dsimp only
  split
  · exact h
  · refine canon_ite h ?_
    split
    · exact h
    · exact takeTrap_canon (unsend_canon h)
theorem execWaitLimitExpiry_canon {slot : Nat} (h : s.Canon) : OutCanon (execWaitLimitExpiry slot s) := expire_canon h
theorem lend_canon (h : s.Canon) : (s.lend k).Canon := spillTo_canon h
theorem execLongWaitSpill_canon {slot : Nat} (h : s.Canon) : OutCanon (execLongWaitSpill slot s) := canon_ite (lend_canon h) h
theorem slotEvent_canon (h : s.Canon) : OutCanon (slotEvent k s) :=
  OutCanon.ite (execSlotFreed_canon h) (OutCanon.ite (execSpill_canon h)
  (OutCanon.ite (kernStep_canon h) (OutCanon.ite (serveLent_canon h)
  (OutCanon.ite (execWaitLimitExpiry_canon h) (OutCanon.ite (execLongWaitSpill_canon h) h)))))
theorem startHandler_canon (h : s.Canon) : (s.startHandler c).Canon := by
  unfold State.startHandler
  dsimp only
  split
  · exact canon_ite h (startStrand_canon ((setCore_calm ..).canon h))
  · exact h
theorem execActiveMessageHandlerStart_canon {core : Nat} (h : s.Canon) : OutCanon (execActiveMessageHandlerStart core s) := startHandler_canon h
theorem rqFill_canon (h : s.Canon) : (s.rqFill c p).Canon := by
  unfold State.rqFill
  split
  · exact setRecState_canon ((modCore_calm ..).canon h)
  · exact h
theorem rqPop_canon {sel : Nat} (h : s.Canon) : ∀ res ∈ (s.rqPop c sel), res.2.Canon := by
  unfold State.rqPop
  split
  · exact mem_some (rqFill_canon (setRecState_canon ((modCore_calm ..).canon h)))
  · exact mem_none
theorem reloadTask_canon {v : Save} (h : s.Canon) : (s.reloadTask k v).2.Canon := loadFrom_canon h
theorem startTask_canon {h : W64} (hs : s.Canon) : (s.startTask k h).2.Canon := by
  unfold State.startTask
  dsimp only
  split
  · exact hs
  · split
    · exact hs
    · split
      · exact hs
      · exact unhold_canon (powerSegs_canon (startStrand_canon hs))
theorem dispatch_canon (h : s.Canon) : (s.dispatch c).Canon := by
  unfold State.dispatch
  split
  next e1 =>
    have h1 := (rqPop_canon h) _ e1
    dsimp only
    split
    · exact canon_ite (reloadTask_canon h1) h
    · exact canon_ite (startTask_canon h1) h
  · exact h
theorem execWatchdogExpiry_canon {core : Nat} (h : s.Canon) : OutCanon (execWatchdogExpiry core s) := canon_ite (failCore_canon h) h
theorem startCore_canon (h : s.Canon) : (s.startCore c).Canon := by
  unfold State.startCore
  split
  · dsimp only [State.Canon, State.setSlot]
    exact (modCore_calm ..).canon h
  · refine canon_ite ?_ ?_
    · dsimp only [State.Canon, State.setSlot]
      exact (modCore_calm ..).canon h
    · split
      · refine (logPart_calm ..).canon ?_
        dsimp only [State.Canon, State.setSlot]
        exact (modCore_calm ..).canon h
      · dsimp only [State.Canon, State.setSlot]
        exact (modCore_calm ..).canon ((modCore_calm ..).canon h)
theorem execCoreReturnToService_canon {core : Nat} (h : s.Canon) : OutCanon (execCoreReturnToService core s) :=
  canon_ite (startCore_canon (kernLog_canon ((modCore_calm ..).canon (canon_foldl h fun _ _ h1 => h1)))) h
theorem coreEvent_canon (h : s.Canon) : OutCanon (coreEvent c s) :=
  OutCanon.ite (execActiveMessageHandlerStart_canon h)
  (OutCanon.ite (dispatch_canon h) (OutCanon.ite (execWatchdogExpiry_canon h) (OutCanon.ite (execCoreReturnToService_canon h) h)))
end

/-! ### Events of memory, of queues and of dies, and the passing of time -/

section
variable {s : State} {k c d p q cl n b j : Nat}

theorem miss_canon {blk : Nat} {w : Bool} (h : s.Canon) : (s.miss c blk w).Canon := by
  unfold State.miss
  split
  · exact canon_ite ((serveReq_calm ..).canon h) h
  · exact canon_ite ((modDie_calm ..).canon h) h
theorem execTreqx_canon {core blk : Nat} (h : s.Canon) : OutCanon (execTreqx core blk s) := miss_canon h
theorem execTreq_canon {core blk : Nat} (h : s.Canon) : OutCanon (execTreq core blk s) := miss_canon h
theorem missEvent_canon (h : s.Canon) : OutCanon (missEvent k s) := by
  unfold missEvent
  split
  · exact OutCanon.ite (execTreqx_canon h) (execTreq_canon h)
  · exact h
theorem execDeactivation_canon {core blk : Nat} (h : s.Canon) : OutCanon (execDeactivation core blk s) := by
  unfold execDeactivation
  show State.Canon _
  split
  · exact canon_ite ((dropTreq_calm ..).canon h) h
  · exact h
theorem snoop_canon {line : Nat} {inv : Bool} (h : s.Canon) : (s.snoop line inv).Canon := canon_ite (freeLine_canon h) ((sendSnoop_calm ..).canon h)
theorem execBisnpdata_canon {line : Nat} (h : s.Canon) : OutCanon (execBisnpdata line s) := canon_ite (snoop_canon h) h
theorem execBisnpinv_canon {line : Nat} (h : s.Canon) : OutCanon (execBisnpinv line s) := canon_ite (snoop_canon h) h
theorem activate_canon {blk : Nat} (h : s.Canon) : (s.activate d blk).Canon := by
  unfold State.activate
  refine canon_ite ((serveBlk_calm ..).canon h) ?_
  dsimp only
  split
  · exact canon_ite h ((modDie_calm ..).canon h)
  · exact (serveActive_calm ..).canon ((modTreq_calm ..).canon (canon_ite h ((modDie_calm ..).canon h)))
theorem execPersistentActivation_canon {die blk : Nat} (h : s.Canon) : OutCanon (execPersistentActivation die blk s) := activate_canon h
theorem recount_canon {blk : Nat} (h : s.Canon) : (s.recount d blk).Canon :=
  canon_ite h (canon_foldl ((logTo_calm ..).canon (canon_ite ((poisonBlock_calm ..).canon ((fullSlice_calm ..).canon h)) ((fullSlice_calm ..).canon h)))
  fun _ _ h1 => (serveActive_calm ..).canon ((modTreq_calm ..).canon h1))
theorem execTokenRecount_canon {die blk : Nat} (h : s.Canon) : OutCanon (execTokenRecount die blk s) := recount_canon h
theorem execTransientRequestReissue_canon {core blk : Nat} (h : s.Canon) : OutCanon (execTransientRequestReissue core blk s) := by
  unfold execTransientRequestReissue
  show State.Canon _
  split
  · exact h
  · exact canon_ite ((dropTreq_calm ..).canon h) (canon_ite h ((serveReq_calm ..).canon ((modTreq_calm ..).canon h)))
theorem execPersistentRequest_canon {core blk : Nat} (h : s.Canon) : OutCanon (execPersistentRequest core blk s) := by
  unfold execPersistentRequest
  show State.Canon _
  split
  · exact h
  · exact canon_ite h ((modTreq_calm ..).canon h)
theorem reqEvent_canon {r : TReq} (h : s.Canon) : ∀ res ∈ (s.reqEvent r), OutCanon res := by
  unfold State.reqEvent
  exact mem_orElse (fires_canon h (execDeactivation_canon h))
    (mem_orElse (fires_canon h (execRds_canon h))
    (mem_orElse (fires_canon h (execUpg_canon h))
    (mem_orElse (fires_canon h (execRdx_canon h))
    (mem_orElse (firstOf_canon h (fun _ _ h1 => execBisnpdata_canon h1))
    (mem_orElse (firstOf_canon h (fun _ _ h2 => execBisnpinv_canon h2))
    (mem_orElse (fires_canon h (execPersistentActivation_canon h))
    (mem_orElse (fires_canon h (execTokenRecount_canon h))
    (mem_orElse (fires_canon h (execTransientRequestReissue_canon h)) (fires_canon h (execPersistentRequest_canon h))))))))))
theorem poisonIn_canon {pa : Nat} (h : s.Canon) : (s.poisonIn d n pa).Canon := (logDie_calm ..).canon ((poisonSector_calm ..).canon h)
theorem execHostBlockFill_canon {blk : Nat} {write pois : Bool} (h : s.Canon) : OutCanon (execHostBlockFill blk write pois s) := by
  unfold execHostBlockFill
  show State.Canon _
  dsimp only
  split
  · exact h
  · exact canon_ite h ((tryGrant_calm ..).canon
      (canon_ite (poisonIn_canon (poisonIn_canon ((emit_calm ..).canon ((emit_calm ..).canon ((setTxn_calm ..).canon h)))))
      ((emit_calm ..).canon ((emit_calm ..).canon ((setTxn_calm ..).canon h)))))
theorem execNoticeAnomalyTimeout_canon {blk : Nat} (h : s.Canon) : OutCanon (execNoticeAnomalyTimeout blk s) := by
  unfold execNoticeAnomalyTimeout
  show State.Canon _
  split
  · exact h
  · extract_lets _ s1 s2
    have hs1 : s1.Canon := (regain_calm ..).canon ((setSt_calm ..).canon ((anomaly_calm ..).canon h))
    have hs2 : s2.Canon := (poisonBlock_calm ..).canon hs1
    split
    · exact (goOn_calm ..).canon ((tryGrant_calm ..).canon ((setTxn_calm ..).canon hs2))
    · exact hs2
theorem overdue_canon {blk : Nat} (h : s.Canon) : (s.overdue blk).Canon := by
  unfold State.overdue
  split
  · exact h
  · exact canon_ite h ((overdueAct_calm ..).canon h)
theorem execTransactionOverdue_canon {blk : Nat} (h : s.Canon) : OutCanon (execTransactionOverdue blk s) := overdue_canon h
theorem txnEvent_canon (h : s.Canon) : ∀ res ∈ (s.txnEvent b), OutCanon res := by
  unfold State.txnEvent
  exact mem_orElse (fires_canon h (execHostBlockFill_canon h))
    (mem_orElse (fires_canon h (execHostBlockFill_canon h))
    (mem_orElse (firstOf_canon h (fun _ _ h1 => execBisnpdata_canon h1))
    (mem_orElse (firstOf_canon h (fun _ _ h2 => execBisnpinv_canon h2))
    (mem_orElse (fires_canon h (execNoticeAnomalyTimeout_canon h)) (fires_canon h (execTransactionOverdue_canon h))))))
theorem stopQueue_canon {reason : Nat} (h : s.Canon) : (s.stopQueue d p q reason).Canon := (logPart_calm ..).canon (modQueue_canon (setQWord_canon h))
theorem flushEdge_canon (h : s.Canon) : (s.flushEdge p q).Canon := by
  unfold State.flushEdge
  split
  · exact h
  · split
    · exact h
    · refine canon_ite h ?_
      dsimp only
      split
      next e1 =>
        have h1 := Kept.error e1 (rangesPas_canon h)
        exact stopQueue_canon h1
      next e2 =>
        have h2 := Kept.ok e2 (rangesPas_canon h)
        exact (askQueue_calm ..).canon (modQueue_canon
          (advanceQ_canon (canon_foldl h2 fun _ _ h3 => canon_foldl h3 fun _ _ h4 => (flushSector_calm ..).canon h4)))
theorem execEdgeFlushComplete_canon {part : Nat} (h : s.Canon) : OutCanon (execEdgeFlushComplete part q s) := flushEdge_canon h
theorem mapQueue_canon (h : s.Canon) : (s.mapQueue p q).Canon := by
  unfold State.mapQueue
  split
  · exact h
  · split
    · refine canon_ite h ?_
      refine modQueue_canon ?_
      split
      · exact modQueue_canon h
      · exact h
    · exact h
theorem execQueueMap_canon {part : Nat} (h : s.Canon) : OutCanon (execQueueMap part q s) := mapQueue_canon h
theorem headOf_canon (h : s.Canon) : (s.headOf d p q).2.Canon := by
  unfold State.headOf
  extract_lets w1 n rd
  refine prop_ite (P := fun r : Head × State => r.2.Canon) h (prop_ite (P := fun r : Head × State => r.2.Canon) h
    (prop_ite (P := fun r : Head × State => r.2.Canon) h (prop_ite (P := fun r : Head × State => r.2.Canon) h ?_)))
  split
  next e =>
    have h1 := canon_thd e ((cread_calm ..).canon h)
    refine prop_ite (P := fun r : Head × State => r.2.Canon) h1 ?_
    dsimp only
    split
    · exact h1
    · exact h1
theorem withHead_canon {kind : Nat} {f : Nat → Queue → List W64 → State → State} (h : s.Canon) (hf : ∀ a b c t, t.Canon → (f a b c t).Canon) :
    (s.withHead p q kind f).Canon := by
  unfold State.withHead
  split
  · exact h
  · split
    next e1 =>
      have h1 := canon_snd e1 (headOf_canon h)
      exact stopQueue_canon h1
    next e2 =>
      have h2 := canon_snd e2 (headOf_canon h)
      exact canon_ite (hf _ _ _ _ h2) h
    · exact h
theorem vread_canon {asid : Nat} {acc : Acc} {off va : Nat} (h : s.Canon) : ACanon (fun r => r.2.Canon) (s.vread d p asid acc off va n) := by
  unfold State.vread
  split
  next e1 => exact (Kept.error e1 (rangePas_canon h) :)
  next e2 =>
    have h1 := Kept.ok e2 (rangePas_canon h)
    refine Kept.map ?_
    refine Kept.foldlM (β := _ × State × _) (P := fun r => r.2.1.Canon) h1 fun _ _ h2 => ?_
    exact Kept.ite ((cread_calm ..).canon h2) ((cread_calm ..).canon h2)
theorem rejectRec_canon {src : Nat} {tval : W64} {l : Option (List W64)} {reason off : Nat} (h : s.Canon) :
    (s.rejectRec d p src tval l reason off).Canon := by
  unfold State.rejectRec
  split
  · exact canon_ite ((logPart_calm ..).canon h) (complete_canon ((logPart_calm ..).canon h))
  · exact (logPart_calm ..).canon h
theorem asidOk_canon {asid : Nat} (h : s.Canon) : (s.asidOk d p asid).2.Canon := by
  unfold State.asidOk
  split
  rename_i e1
  exact (canon_thd e1 ((cread64_calm ..).canon h) :)
theorem admitGang_canon {l gt : List W64} {mods : State → AR (List (BitVec 128) × State)} (h : s.Canon)
    (hmods : ∀ t, t.Canon → ACanon (fun r => r.2.Canon) (mods t)) : ACanon (fun r => r.2.Canon) (s.admitGang d p l gt mods) := by
  unfold State.admitGang
  extract_lets _ _
  dsimp -zeta only
  extract_lets go
  have hgo : ACanon (fun r => r.2.Canon) (go ()) := by
    unfold go
    refine Kept.bind (hmods _ (asidOk_canon h)) fun _ h1 => ?_
    extract_lets _ go2 go3
    have hgo2 : ACanon (fun r => r.2.Canon) (go2 ()) := by
      unfold go2
      refine Kept.bind (vread_canon h1) fun _ h2 => ?_
      extract_lets go4
      have hgo4 : ACanon (fun r => r.2.Canon) (go4 ()) := by
        unfold go4
        exact h2
      exact Kept.ite (Kept.bind (P := fun _ => True) h2 fun _ _ => hgo4) hgo4
    have hgo3 : ACanon (fun r => r.2.Canon) (go3 ()) := by
      unfold go3
      exact Kept.ite (Kept.bind (P := fun _ => True) h1 fun _ _ => hgo2) hgo2
    exact Kept.ite (Kept.bind (P := fun _ => True) h1 fun _ _ => hgo3) hgo3
  exact Kept.ite (Kept.bind (P := fun _ => True) (asidOk_canon h) fun _ _ => hgo) hgo
theorem modulePtrs_canon {l : List W64} (h : s.Canon) : ACanon (fun r => r.2.Canon) (s.modulePtrs d p l) := by
  unfold State.modulePtrs
  refine Kept.bind (vread_canon h) fun _ h1 => ?_
  dsimp -zeta only
  extract_lets go
  have hgo : ACanon (fun r => r.2.Canon) (go ()) := by
    unfold go
    exact h1
  exact Kept.ite (Kept.bind (P := fun _ => True) h1 fun _ _ => hgo) hgo
theorem place_canon {g : Gang} {arb : SMap Nat} {blocked : State → State} (h : s.Canon) (hblocked : ∀ t, t.Canon → (blocked t).Canon) :
    (s.place d p g arb blocked).Canon := by
  unfold State.place
  split
  · exact hblocked _ h
  · exact (modDie_calm ..).canon (canon_ite (canon_foldl (canon_foldl h fun _ _ h1 => (modCore_calm ..).canon h1) fun _ _ h2 => (modCluster_calm ..).canon h2)
      (canon_foldl h fun _ _ h3 => (modCore_calm ..).canon h3))
theorem execGang_canon {part : Nat} (h : s.Canon) : OutCanon (execGang part q s) := by
  unfold execGang
  show State.Canon _
  refine withHead_canon h (fun _ _ _ _ h1 => ?_)
  split
  · exact h1
  · refine canon_ite h1 ?_
    dsimp only
    split
    next e1 =>
      have h2 := Kept.error e1 (vread_canon h1)
      exact modQueue_canon (advanceQ_canon (rejectRec_canon h2))
    next e2 =>
      have h3 := Kept.ok e2 (vread_canon h1)
      split
      · exact modQueue_canon (advanceQ_canon (rejectRec_canon h3))
      · split
        next e3 =>
          have h4 := Kept.error e3 (vread_canon h3)
          exact modQueue_canon (advanceQ_canon (rejectRec_canon h4))
        next e4 =>
          have h5 := Kept.ok e4 (vread_canon h3)
          split
          next e5 =>
            have h6 := Kept.error e5 (admitGang_canon h5 (fun _ h7 => modulePtrs_canon h7))
            exact modQueue_canon (advanceQ_canon (rejectRec_canon h6))
          next e6 =>
            have h8 := Kept.ok e6 (admitGang_canon h5 (fun _ h9 => modulePtrs_canon h9))
            exact place_canon h8 (fun _ h10 => modQueue_canon h10)
theorem parkQ_canon {f : Queue → Queue} (h : s.Canon) : (s.parkQ d p q f).Canon := modQueue_canon (setQWord_canon h)
theorem execWait_canon {part : Nat} (h : s.Canon) : OutCanon (execWait part q s) :=
  withHead_canon h (fun _ _ _ _ h1 => canon_ite (stopQueue_canon h1) (canon_ite (advanceQ_canon h1) (parkQ_canon h1)))
theorem execSignal_canon {part : Nat} (h : s.Canon) : OutCanon (execSignal part q s) :=
  withHead_canon h (fun _ _ _ _ h1 => canon_ite (stopQueue_canon h1)
  (canon_ite h1 (advanceQ_canon (canon_ite ((emit_calm ..).canon (setSignal_canon h1)) (setSignal_canon h1)))))
theorem execEdge_canon {part : Nat} (h : s.Canon) : OutCanon (execEdge part q s) := by
  unfold execEdge
  show State.Canon _
  refine withHead_canon h (fun _ _ _ _ h1 => ?_)
  refine canon_ite h1 ?_
  split
  next e1 =>
    have h2 := Kept.error e1 (rangesPas_canon h1)
    exact stopQueue_canon h2
  next e2 =>
    have h3 := Kept.ok e2 (rangesPas_canon h1)
    exact parkQ_canon h3
theorem execMark_canon {part : Nat} (h : s.Canon) : OutCanon (execMark part q s) := by
  unfold execMark
  show State.Canon _
  refine withHead_canon h (fun _ _ _ _ h1 => ?_)
  refine canon_ite h1 ?_
  split
  next e1 =>
    have h2 := Kept.error e1 ((walk_calm ..).canon h1)
    exact stopQueue_canon h2
  next e2 =>
    have h3 := Kept.ok e2 ((walk_calm ..).canon h1)
    exact advanceQ_canon ((cwrite_calm ..).canon h3)
theorem queueEvent_canon {e : Queue} (h : s.Canon) : OutCanon (queueEvent d e s) := by
  unfold queueEvent
  refine OutCanon.ite (execEdgeFlushComplete_canon h) ?_
  refine OutCanon.ite (OutCanon.ite h (execQueueMap_canon h)) ?_
  split
  · exact h
  · exact execGang_canon h
  · exact OutCanon.ite (execGang_canon h)
      (OutCanon.ite (execWait_canon h) (OutCanon.ite (execSignal_canon h) (OutCanon.ite (execEdge_canon h) (execMark_canon h))))
theorem trayPtrs_canon {e : Tray} (h : s.Canon) : ACanon (fun r => r.2.Canon) (s.trayPtrs d p e) := by
  unfold State.trayPtrs
  refine Kept.foldlM (β := _ × State) (P := fun r => r.2.Canon) h fun _ _ h1 => ?_
  split
  · exact h1
  · exact Kept.bind (vread_canon h1) fun _ h2 => h2
theorem drainTray_canon {core : Nat} (h : s.Canon) : (s.drainTray core).Canon := by
  unfold State.drainTray
  dsimp only
  split
  · refine canon_ite h ?_
    refine canon_ite ((modCore_calm ..).canon (transportFailed_canon h)) ?_
    split
    next e1 =>
      have h1 := Kept.error e1 (admitGang_canon h (fun _ h2 => trayPtrs_canon h2))
      exact (modCore_calm ..).canon (rejectRec_canon h1)
    next e2 =>
      have h3 := Kept.ok e2 (admitGang_canon h (fun _ h4 => trayPtrs_canon h4))
      exact place_canon h3 (fun _ h5 => (modCore_calm ..).canon h5)
  · exact h
theorem execSeedTrayDrain_canon {core : Nat} (h : s.Canon) : OutCanon (execSeedTrayDrain core s) := drainTray_canon h
theorem execGangRelease_canon {g : Nat} (h : s.Canon) : OutCanon (execGangRelease g s) := releaseGang_canon h
theorem acceptCmd_canon {c : Cmd} (h : s.Canon) : (s.acceptCmd cl c).2.Canon := modPlace_canon ((setCluster_calm ..).canon h)
theorem execCommandAcceptance_canon (h : s.Canon) : OutCanon (execCommandAcceptance cl s) := by
  unfold execCommandAcceptance
  dsimp only
  split
  · exact h
  · exact OutCanon.ite h (modPlace_canon (acceptCmd_canon ((setCluster_calm ..).canon h)))
theorem execCommandCompletion_canon {seq : Nat} (h : s.Canon) : OutCanon (execCommandCompletion cl seq s) := completeCmd_canon h
theorem queueAt_canon {src : Bool} {f : Nat} {w : Waiter} (h : s.Canon) : (s.queueAt cl src f w).Canon := (modCluster_calm ..).canon h
theorem slotAt_canon {src : Bool} {f : Nat} {w : Waiter} (h : s.Canon) : (s.slotAt cl src f w).2.Canon := by
  unfold State.slotAt
  split <;> exact (modCluster_calm ..).canon h
theorem sideSlot_canon {src : Bool} {w : Waiter} {y : Option Side} (h : s.Canon) : (sideSlot s cl src w y).2.Canon := by
  unfold sideSlot
  split
  · split
    rename_i e1
    exact (canon_snd e1 (slotAt_canon h) :)
  · exact h
theorem startPages_canon {c : Cmd} (h : s.Canon) : (s.startPages cl c).2.Canon := by
  refine foldl_keeps_prop (β := _ × State) (P := fun r => r.2.Canon) h fun ⟨c, t⟩ p ht => ?_
  dsimp only
  split
  · exact ht
  · split
    next e => exact (Kept.ok e ((walk_calm ..).canon ht) :)
    next e => exact (Kept.error e ((walk_calm ..).canon ht) :)
theorem startCmd_canon {c : Cmd} (h : s.Canon) : (s.startCmd cl c).Canon := by
  unfold State.startCmd
  dsimp only
  exact (modCluster_calm ..).canon (startPages_canon (sideSlot_canon (sideSlot_canon h)))
theorem tryStart_canon {seq : Nat} (h : s.Canon) : (s.tryStart cl seq).Canon := by
  unfold State.tryStart
  split
  · exact h
  · extract_lets g s1
    have h1 : s1.Canon := by
      refine canon_foldl h fun t d ht => ?_
      dsimp only
      split
      · split
        · exact queueAt_canon (queueAt_canon ht)
        · exact queueAt_canon ht
      · split
        · exact queueAt_canon ht
        · exact ht
    have ho : ∀ x ∈ g.foldl (fun o d => o.bind fun t => if t.sidesReady cl d then some (t.startCmd cl d) else none) (some s1), x.Canon :=
      foldl_keeps_prop (P := fun o => ∀ x ∈ o, State.Canon x) (mem_some h1) fun o d ho => by
        cases o with
        | none => exact mem_none
        | some t => exact mem_ite (mem_some (startCmd_canon (ho t rfl))) mem_none
    refine canon_ite h ?_
    generalize g.foldl _ (some s1) = o at ho
    cases o with
    | none => exact h1
    | some t => exact ho t rfl
theorem execCommandStart_canon {seq : Nat} (h : s.Canon) : OutCanon (execCommandStart cl seq s) := tryStart_canon h
theorem execCombiningWindowClose_canon (h : s.Canon) : OutCanon (execCombiningWindowClose cl s) := (modCluster_calm ..).canon h
theorem engineEvent_canon (h : s.Canon) : ∀ res ∈ (engineEvent cl s), OutCanon res := by
  unfold engineEvent
  exact mem_orElse (fires_canon h (execCommandAcceptance_canon h))
    (mem_orElse (firstOf_canon h (fun _ _ h1 => execCommandCompletion_canon h1))
    (mem_orElse (firstOf_canon h (fun _ _ h2 => execCommandStart_canon h2)) (mem_ite (fires_canon h (execCombiningWindowClose_canon h)) mem_none)))
theorem extend_canon {x : List Byte} (h : s.Canon) : (s.extend d n x).Canon := (modDie_calm ..).canon h
theorem applyTables_canon {tables : List Byte} (h : s.Canon) : (s.applyTables d tables).Canon := by
  unfold State.applyTables
  extract_lets s1 s2
  have hs1 : s1.Canon := by
    unfold s1
    split <;> exact h
  have hs2 : s2.Canon := by
    unfold s2
    refine canon_foldl hs1 fun _ _ h1 => ?_
    split
    · exact (setMg_calm ..).canon h1
    · exact h1
  split
  · exact (setMg_calm ..).canon hs2
  · exact hs2
theorem boot_canon (h : s.Canon) : (s.boot d).Canon :=
  canon_ite h (canon_ite (canon_ite ((modDie_calm ..).canon
  ((setMg_calm ..).canon (applyTables_canon (canon_foldl (extend_canon h) fun _ _ h1 => extend_canon h1))))
  ((modDie_calm ..).canon ((setMg_calm ..).canon (canon_foldl (extend_canon h) fun _ _ h2 => extend_canon h2))))
  (canon_ite (canon_ite ((modDie_calm ..).canon ((setMg_calm ..).canon (applyTables_canon (canon_foldl (extend_canon h) fun _ _ h3 => extend_canon h3))))
  ((modDie_calm ..).canon ((setMg_calm ..).canon (canon_foldl (extend_canon h) fun _ _ h4 => extend_canon h4))))
  ((modDie_calm ..).canon ((setMg_calm ..).canon (extend_canon h)))))
theorem execBootRom_canon {die : Nat} (h : s.Canon) : OutCanon (execBootRom die s) := boot_canon h
theorem modLink_canon {f : W64 → W64} (h : s.Canon) : (s.modLink d n f).Canon := (setMg_calm ..).canon ((setMg_calm ..).canon h)
theorem forgetDie_canon {h : Nat} (hs : s.Canon) : (s.forgetDie h d).Canon :=
  canon_foldl (canon_foldl hs fun _ _ h1 => canon_ite h1
  (canon_ite ((regain_calm ..).canon ((poisonBlock_calm ..).canon ((setDirSts_calm ..).canon h1))) ((setDirSts_calm ..).canon h1))) fun _ _ h2 => canon_ite
  ((serveBlk_calm ..).canon ((modDie_calm ..).canon h2)) (canon_ite ((goOn_calm ..).canon ((tryGrant_calm ..).canon ((setTxn_calm ..).canon h2))) h2)
theorem isolate_canon (h : s.Canon) : (s.isolate d).Canon := by
  unfold State.isolate
  refine canon_ite h (canon_ite (faultDevice_canon ((modDie_calm ..).canon h)) ?_)
  extract_lets rest ps s1 s2 s3 s4 lines s5 s6 s7 s8 s9 s10
  have h3 : s3.Canon := h
  have h4 : s4.Canon := canon_foldl h3 fun _ _ ht => forgetDie_canon ht
  have h5 : s5.Canon := canon_foldl h4 fun _ _ ht => canon_foldl ht fun _ _ hu => (loseDie_calm ..).canon hu
  have h6 : s6.Canon := canon_foldl h5 fun _ _ ht => canon_ite (abortMigr_canon ht) ht
  have h7 : s7.Canon := canon_foldl h6 fun _ _ ht => ht
  have h8 : s8.Canon := by
    unfold s8
    split
    · exact (ckptFail_calm ..).canon h7
    · exact h7
  have h9 : s9.Canon := by
    refine canon_foldl h8 fun t p ht => ?_
    split
    · exact startReset_canon ht
    · exact ht
  exact (emit_calm ..).canon (canon_foldl (show s10.Canon from h9) fun _ _ ht => (logDie_calm ..).canon ht)
theorem execDieIsolation_canon {die : Nat} (h : s.Canon) : OutCanon (execDieIsolation die s) := isolate_canon h
theorem hostTakes_canon {die line mf : Nat} (h : s.Canon) : (s.hostTakes die line mf).Canon := (modDie_calm ..).canon h
theorem outsideWrite_canon {owned : Bool} {die port pa v mask : Nat} {pois : Bool} (h : s.Canon) : (s.outsideWrite owned die port pa n v mask pois).Canon :=
  canon_ite (canon_foldl ((commitMask_calm ..).canon (canon_ite h (homeTakes_canon h))) fun _ _ h1 => poisonIn_canon h1)
  ((commitMask_calm ..).canon (canon_ite h (homeTakes_canon h)))
theorem outside_canon {r : HReq} (h : s.Canon) : ∀ res ∈ (s.outside r), res.Canon := by
  unfold State.outside
  split
  · exact mem_ite (mem_some ((emit_calm ..).canon h))
      (mem_ite mem_none (mem_some ((emit_calm ..).canon
      (hostTakes_canon ((readChk_calm ..).canon (canon_ite (homeTakes_canon h) ((takeOne_calm ..).canon ((shareDev_calm ..).canon h))))))))
  · exact mem_ite (mem_some h) (mem_ite mem_none (mem_some (hostTakes_canon (outsideWrite_canon h))))
  · exact mem_ite (mem_some ((emit_calm ..).canon h)) (mem_ite mem_none (mem_some ((emit_calm ..).canon ((cread_calm ..).canon h))))
  · exact mem_ite (mem_some h) (mem_ite mem_none (mem_some (outsideWrite_canon ((backInval_calm ..).canon h))))
theorem hostNext_canon {h : Nat} (hs : s.Canon) : ∀ res ∈ (s.hostNext h), res.Canon := by
  unfold State.hostNext
  refine mem_findSome fun _ => ?_
  split
  · exact mem_none
  · exact mem_ite mem_none (outside_canon ((modDie_calm ..).canon hs))
theorem latchSnap_canon (h : s.Canon) : (s.latchSnap d).Canon :=
  canon_ite h (canon_ite ((setMg_calm ..).canon h) ((modDie_calm ..).canon ((setMg_calm ..).canon h)))
theorem execSnapshotLatch_canon {die : Nat} (h : s.Canon) : OutCanon (execSnapshotLatch die s) := latchSnap_canon h
theorem failLink_canon (h : s.Canon) : (s.failLink d n).Canon :=
  canon_ite h (canon_foldl (canon_ite (abortMigr_canon
  (canon_ite (abortMigr_canon ((logDie_calm ..).canon ((logDie_calm ..).canon (modLink_canon h))))
  ((logDie_calm ..).canon ((logDie_calm ..).canon (modLink_canon h)))))
  (canon_ite (abortMigr_canon ((logDie_calm ..).canon ((logDie_calm ..).canon (modLink_canon h))))
  ((logDie_calm ..).canon ((logDie_calm ..).canon (modLink_canon h))))) fun _ _ h1 => canon_ite ((modDie_calm ..).canon h1) h1)
theorem execThermalTrip_canon {die : Nat} (h : s.Canon) : OutCanon (execThermalTrip die s) :=
  canon_ite h (failLink_canon (failLink_canon ((modDie_calm ..).canon ((logDie_calm ..).canon h))))
theorem setClock_canon {clk level : Nat} {down : Bool} (h : s.Canon) : (s.setClock d clk level down).Canon :=
  canon_ite ((setMg_calm ..).canon h) ((logDie_calm ..).canon ((setMg_calm ..).canon h))
theorem execThermalCritical_canon {die : Nat} (h : s.Canon) : OutCanon (execThermalCritical die s) := canon_ite (setClock_canon h) h
theorem thermStep_canon (h : s.Canon) : (s.thermStep d).Canon := canon_ite h ((modDie_calm ..).canon (setClock_canon h))
theorem execThermalClockStep_canon {die : Nat} (h : s.Canon) : OutCanon (execThermalClockStep die s) := thermStep_canon h
theorem execHotRowWindowEnd_canon {die : Nat} (h : s.Canon) : OutCanon (execHotRowWindowEnd die s) := canon_ite ((modDie_calm ..).canon h) h
theorem retireMod_canon {mod : Nat} (h : s.Canon) : (s.retireMod d n mod).Canon :=
  canon_ite h (canon_ite (failLink_canon ((logDie_calm ..).canon ((modDie_calm ..).canon ((modDie_calm ..).canon (modLink_canon h)))))
  ((modDie_calm ..).canon ((modDie_calm ..).canon
  (modLink_canon ((logDie_calm ..).canon ((modDie_calm ..).canon ((modDie_calm ..).canon (modLink_canon h))))))))
theorem execDieLinkModuleRetire_canon {die link mod : Nat} (h : s.Canon) : OutCanon (execDieLinkModuleRetire die link mod s) := retireMod_canon h
theorem execDieLinkRetrainDone_canon {die link : Nat} (h : s.Canon) : OutCanon (execDieLinkRetrainDone die link s) :=
  (modDie_calm ..).canon ((modDie_calm ..).canon h)
theorem migPart_canon (h : s.Canon) : (s.migPart d).Canon := by
  unfold State.migPart
  split
  · exact h
  · exact canon_ite h (canon_ite ((modDie_calm ..).canon (movePart_canon h))
      (migStatus_canon ((modDie_calm ..).canon ((cwrite_calm ..).canon ((modDie_calm ..).canon (movePart_canon h))))))
theorem execMigrationPart_canon {die : Nat} (h : s.Canon) : OutCanon (execMigrationPart die s) := migPart_canon h
theorem execRedirectEntryFree_canon {die idx : Nat} (h : s.Canon) : OutCanon (execRedirectEntryFree die idx s) := by
  unfold execRedirectEntryFree
  show State.Canon _
  split
  · exact h
  · exact canon_ite h ((modDie_calm ..).canon (dropFrame_canon h))
theorem execBackInvalidationTimeout_canon {line : Nat} (h : s.Canon) : OutCanon (execBackInvalidationTimeout line s) :=
  canon_ite (enterViral_canon (freeLine_canon h)) h
theorem retryRing_canon {m : Nat} (h : s.Canon) : (s.retryRing d p m).Canon := by
  induction m generalizing s with
  | zero =>
    unfold State.retryRing
    exact h
  | succ n ih =>
    unfold State.retryRing
    split
    · exact h
    · exact canon_ite h (ih (canon_ite (postFault_canon ((modDie_calm ..).canon h)) ((modDie_calm ..).canon h)))
theorem execFaultRingRetry_canon {die part : Nat} (h : s.Canon) : OutCanon (execFaultRingRetry die part s) := retryRing_canon h
theorem dieEvent_canon (h : s.Canon) : ∀ res ∈ (dieEvent s d), OutCanon res := by
  unfold dieEvent
  refine mem_orElse (fires_canon h (execBootRom_canon h)) ?_
  refine mem_orElse (changes_canon h (execDieIsolation_canon h)) ?_
  refine mem_orElse (mem_map (hostNext_canon h) fun _ h1 => h1) ?_
  refine mem_orElse (firstOf_canon h (fun _ _ h2 => execBisnpdata_canon h2)) ?_
  refine mem_orElse (firstOf_canon h (fun _ _ h3 => execBisnpinv_canon h3)) ?_
  refine mem_orElse (mem_ite mem_none (fires_canon h ((retryWaiting_calm ..).canon h))) ?_
  refine mem_orElse (fires_canon h (execSnapshotLatch_canon h)) ?_
  refine mem_orElse (mem_ite (fires_canon h (execThermalTrip_canon h)) mem_none) ?_
  refine mem_orElse (fires_canon h (execThermalCritical_canon h)) ?_
  refine mem_orElse (mem_ite (mem_orElse (fires_canon h (execThermalClockStep_canon h)) (fires_canon h (execHotRowWindowEnd_canon h))) mem_none) ?_
  refine mem_orElse (firstOf_canon h (fun _ _ h4 => execDieLinkModuleRetire_canon h4)) ?_
  refine mem_orElse (firstOf_canon h (fun _ _ h5 => execDieLinkRetrainDone_canon h5)) ?_
  refine mem_orElse (fires_canon h (execMigrationPart_canon h)) ?_
  refine mem_orElse (mem_ite mem_none (fires_canon h (execRedirectEntryFree_canon h))) ?_
  refine mem_orElse (mem_findSome fun _ => changes_canon h (execBackInvalidationTimeout_canon h)) ?_
  refine mem_orElse ?_ (mem_ite (firstOf_canon h (fun _ _ h6 => execFaultRingRetry_canon h6)) mem_none)
  split
  · exact fires_canon h (execBisnpinv_canon h)
  · exact mem_none
theorem resetDone_canon (h : s.Canon) : (s.resetDone p).Canon :=
  canon_ite h (canon_foldl (canon_foldl h fun _ _ h1 => (logDie_calm ..).canon (modCfg_canon h1)) fun _ _ h2 => startCore_canon h2)
theorem execPartitionResetComplete_canon {part : Nat} (h : s.Canon) : OutCanon (execPartitionResetComplete part s) := resetDone_canon h
theorem swapDone_canon (h : s.Canon) : (s.swapDone p).Canon := canon_foldl h fun _ _ h1 => modCfg_canon (canon_ite h1 (dropHeld_canon h1))
theorem execSwapComplete_canon {part : Nat} (h : s.Canon) : OutCanon (execSwapComplete part s) := swapDone_canon h
theorem partEvent_canon (h : s.Canon) : OutCanon (partEvent p s) :=
  OutCanon.ite (execPartitionResetComplete_canon h) (OutCanon.ite (execSwapComplete_canon h) h)
theorem moveTask_canon (h : s.Canon) : (s.moveTask c n).Canon := by
  unfold State.moveTask
  split
  · exact canon_ite h ((acqL1_calm ..).canon
      ((wbAllL1_calm ..).canon (rqFill_canon
      (rqEnter_canon ((modCore_calm ..).canon (canon_foldl ((modCore_calm ..).canon h) fun _ _ h1 => setRec_canon h1))))))
  · exact h
theorem balance_canon {figs : List (Nat × Nat)} (h : s.Canon) : (s.balance figs c).Canon :=
  canon_foldl h fun _ _ h1 => canon_ite (canon_foldl h1 fun _ _ h2 => moveTask_canon h2) h1
theorem execLoadBalanceExchange_canon (h : s.Canon) : OutCanon (execLoadBalanceExchange s) :=
  canon_ite h (canon_foldl (canon_foldl h fun _ _ h1 => balance_canon h1) fun _ _ h2 => (modCore_calm ..).canon h2)
theorem startGtc_canon (h : s.Canon) : s.startGtc.Canon := canon_ite h h
theorem execGtcStart_canon (h : s.Canon) : OutCanon (execGtcStart s) := startGtc_canon h
theorem enableStep_canon (h : s.Canon) : s.enableStep.Canon :=
  canon_ite h (canon_foldl (canon_foldl h fun _ _ h1 => (modCluster_calm ..).canon h1) fun _ _ h2 => startCore_canon h2)
theorem execClusterEnableStep_canon (h : s.Canon) : OutCanon (execClusterEnableStep s) := enableStep_canon h
theorem event_canon (h : s.Canon) : ∀ res ∈ s.event, OutCanon res := by
  unfold State.event
  exact mem_orElse (firstOf_canon h (fun _ _ h1 => netEvent_canon h1))
    (mem_orElse (firstOf_canon h (fun _ _ h2 => execAcceptanceOrRefusal_canon h2))
    (mem_orElse (firstOf_canon h (fun _ _ h3 => cohEvent_canon h3))
    (mem_orElse (firstOf_canon h (fun _ _ h4 => slotEvent_canon h4))
    (mem_orElse (firstOf_canon h (fun _ _ h5 => coreEvent_canon h5))
    (mem_orElse (firstOf_canon h (fun _ _ h6 => missEvent_canon h6))
    (mem_orElse (mem_findSome fun _ => mem_orElse (mem_findSome fun _ => reqEvent_canon h) (mem_findSome fun _ => txnEvent_canon h))
    (mem_orElse (mem_findSome fun _ => firstOf_canon h (fun _ _ h7 => queueEvent_canon h7))
    (mem_orElse (firstOf_canon h (fun _ _ h8 => execSeedTrayDrain_canon h8))
    (mem_orElse (firstOf_canon h (fun _ _ h9 => execGangRelease_canon h9))
    (mem_orElse (mem_findSome fun _ => engineEvent_canon h)
    (mem_orElse (mem_findSome fun _ => dieEvent_canon h)
    (mem_orElse (firstOf_canon h (fun _ _ h10 => partEvent_canon h10))
    (mem_orElse (mem_ite (fires_canon h (execLoadBalanceExchange_canon h)) mem_none)
    (mem_orElse (fires_canon h (execGtcStart_canon h)) (fires_canon h (execClusterEnableStep_canon h))))))))))))))))
theorem ticks_canon (h : s.Canon) : (s.ticks n).Canon := canon_ite h h
theorem passTicks_canon (h : s.Canon) : s.passTicks.Canon := ticks_canon h
theorem copyPart_canon {u : Nat} (h : s.Canon) : (s.copyPart d u).Canon := by
  unfold State.copyPart
  split
  · exact canon_ite ((copyUnit_calm ..).canon h) h
  · exact h
theorem endCkpt_canon (h : s.Canon) : s.endCkpt.Canon := canon_ite h ((setMg_calm ..).canon (canon_foldl h fun _ _ h1 => (putHeader_calm ..).canon h1))
theorem ckptStep_canon (h : s.Canon) : s.ckptStep.Canon := by
  unfold State.ckptStep
  split
  · exact h
  · split
    · exact copyPart_canon h
    · exact endCkpt_canon h
theorem dropMended_canon (h : s.Canon) : s.dropMended.Canon := canon_ite h h
theorem passTime_canon (h : s.Canon) : s.passTime.Canon := by
  unfold State.passTime
  dsimp only
  split
  · exact canon_ite (passTicks_canon (dropMended_canon h)) (dropMended_canon h)
  · exact canon_ite (dropMended_canon h) (ticks_canon (dropMended_canon h))
theorem hostedRun_canon {i : Instr} {o : Host.Outcome State Fault Refusal} (h : s.Canon) (ho : OutCanon o) : OutCanon (s.hostedRun i o) := by
  unfold State.hostedRun
  refine OutCanon.ite ho ?_
  split
  next e1 =>
    have h1 := OutCanon.next e1 (hosted_canon h ho)
    exact canon_ite h1 h1
  · exact hosted_canon h ho
end

/-! ### Instructions of the control thread -/

section
variable {s : State} {k c d p q cl n b j : Nat}

theorem scOp_canon {i : Instr} {srcs : List Nat} {f : List W64 → W64 × Nat} (h : s.Canon) : OutCanon (scOp i d srcs f s) := by
  unfold scOp
  refine scalarI_canon (fun _ _ h1 => ?_) h
  refine Kept.bind (rdScs_canon h1) fun _ h2 => ?_
  exact wrSc_canon (canon_ite h2 h2)
theorem scSat_canon {i : Instr} {o : RTS} {f : Int → Int → Int} (h : s.Canon) : OutCanon (scSat i o f s) := scOp_canon h
theorem execAdd_canon {o : RTS} (h : s.Canon) : OutCanon (exec (.add o) s) := show OutCanon (execAdd o s) from scSat_canon h
theorem execSub_canon {o : RTS} (h : s.Canon) : OutCanon (exec (.sub o) s) := show OutCanon (execSub o s) from scSat_canon h
theorem execMul_canon {o : RTS} (h : s.Canon) : OutCanon (exec (.mul o) s) := show OutCanon (execMul o s) from scSat_canon h
theorem scTyped_canon {i : Instr} {o : RT} {f : Nat → Nat → Nat} (h : s.Canon) : OutCanon (scTyped i o f s) := scOp_canon h
theorem execMulh_canon {o : RT} (h : s.Canon) : OutCanon (exec (.mulh o) s) := show OutCanon (execMulh o s) from scTyped_canon h
theorem execDiv_canon {o : RT} (h : s.Canon) : OutCanon (exec (.div o) s) := show OutCanon (execDiv o s) from scOp_canon h
theorem execRem_canon {o : RT} (h : s.Canon) : OutCanon (exec (.rem o) s) := show OutCanon (execRem o s) from scOp_canon h
theorem sc64_canon {i : Instr} {srcs : List Nat} {f : List W64 → W64} (h : s.Canon) : OutCanon (sc64 i d srcs f s) := scOp_canon h
theorem execAnd_canon {o : R3} (h : s.Canon) : OutCanon (exec (.and o) s) := show OutCanon (execAnd o s) from sc64_canon h
theorem execOr_canon {o : R3} (h : s.Canon) : OutCanon (exec (.or o) s) := show OutCanon (execOr o s) from sc64_canon h
theorem execXor_canon {o : R3} (h : s.Canon) : OutCanon (exec (.xor o) s) := show OutCanon (execXor o s) from sc64_canon h
theorem execShl_canon {o : RT} (h : s.Canon) : OutCanon (exec (.shl o) s) := show OutCanon (execShl o s) from scTyped_canon h
theorem execShr_canon {o : RT} (h : s.Canon) : OutCanon (exec (.shr o) s) := show OutCanon (execShr o s) from scTyped_canon h
theorem execSra_canon {o : RT} (h : s.Canon) : OutCanon (exec (.sra o) s) := show OutCanon (execSra o s) from scTyped_canon h
theorem execSlt_canon {o : RT} (h : s.Canon) : OutCanon (exec (.slt o) s) := show OutCanon (execSlt o s) from scTyped_canon h
theorem execSltn_canon {o : RT} (h : s.Canon) : OutCanon (exec (.sltn o) s) := show OutCanon (execSltn o s) from scTyped_canon h
theorem execMin_canon {o : RT} (h : s.Canon) : OutCanon (exec (.min o) s) := show OutCanon (execMin o s) from scTyped_canon h
theorem execMax_canon {o : RT} (h : s.Canon) : OutCanon (exec (.max o) s) := show OutCanon (execMax o s) from scTyped_canon h
theorem scOne_canon {i : Instr} {o : RT1} {f : Nat → Nat} (h : s.Canon) : OutCanon (scOne i o f s) := scOp_canon h
theorem execClz_canon {o : RT1} (h : s.Canon) : OutCanon (exec (.clz o) s) := show OutCanon (execClz o s) from scOne_canon h
theorem execCtz_canon {o : RT1} (h : s.Canon) : OutCanon (exec (.ctz o) s) := show OutCanon (execCtz o s) from scOne_canon h
theorem execPopc_canon {o : RT1} (h : s.Canon) : OutCanon (exec (.popc o) s) := show OutCanon (execPopc o s) from scOne_canon h
theorem execBext_canon {o : RT} (h : s.Canon) : OutCanon (exec (.bext o) s) := show OutCanon (execBext o s) from scTyped_canon h
theorem execBdep_canon {o : RT} (h : s.Canon) : OutCanon (exec (.bdep o) s) := show OutCanon (execBdep o s) from scTyped_canon h
theorem execSext_canon {o : R2N} (h : s.Canon) : OutCanon (exec (.sext o) s) := show OutCanon (execSext o s) from sc64_canon h
theorem execZext_canon {o : R2N} (h : s.Canon) : OutCanon (exec (.zext o) s) := show OutCanon (execZext o s) from sc64_canon h
theorem execMov_canon {o : R2} (h : s.Canon) : OutCanon (exec (.mov o) s) := show OutCanon (execMov o s) from sc64_canon h
theorem execAddi_canon {o : ITS} (h : s.Canon) : OutCanon (exec (.addi o) s) := show OutCanon (execAddi o s) from scOp_canon h
theorem execAndi_canon {o : I2} (h : s.Canon) : OutCanon (exec (.andi o) s) := show OutCanon (execAndi o s) from sc64_canon h
theorem execOri_canon {o : I2} (h : s.Canon) : OutCanon (exec (.ori o) s) := show OutCanon (execOri o s) from sc64_canon h
theorem execXori_canon {o : I2} (h : s.Canon) : OutCanon (exec (.xori o) s) := show OutCanon (execXori o s) from sc64_canon h
theorem scShi_canon {i : Instr} {o : IT} {f : Nat → Nat → Nat → Nat} (h : s.Canon) : OutCanon (scShi i o f s) := scOp_canon h
theorem execShli_canon {o : IT} (h : s.Canon) : OutCanon (exec (.shli o) s) := show OutCanon (execShli o s) from scShi_canon h
theorem execShri_canon {o : IT} (h : s.Canon) : OutCanon (exec (.shri o) s) := show OutCanon (execShri o s) from scShi_canon h
theorem execSrai_canon {o : IT} (h : s.Canon) : OutCanon (exec (.srai o) s) := show OutCanon (execSrai o s) from scShi_canon h
theorem execLi_canon {imm : BitVec 28} (h : s.Canon) : OutCanon (exec (.li d imm) s) := show OutCanon (execLi d imm s) from sc64_canon h
theorem execLih_canon {o : IPos} (h : s.Canon) : OutCanon (exec (.lih o) s) := show OutCanon (execLih o s) from sc64_canon h
theorem scFp_canon {i : Instr} {srcs : List Nat} {ty : Ty} {f : List Nat → Nat × Nat} (h : s.Canon) : OutCanon (scFp i d srcs ty f s) := scOp_canon h
theorem execFadd_canon {o : F3} (h : s.Canon) : OutCanon (exec (.fadd o) s) := show OutCanon (execFadd o s) from scFp_canon h
theorem execFsub_canon {o : F3} (h : s.Canon) : OutCanon (exec (.fsub o) s) := show OutCanon (execFsub o s) from scFp_canon h
theorem execFmul_canon {o : F3} (h : s.Canon) : OutCanon (exec (.fmul o) s) := show OutCanon (execFmul o s) from scFp_canon h
theorem execFfma_canon {o : F4} (h : s.Canon) : OutCanon (exec (.ffma o) s) := show OutCanon (execFfma o s) from scFp_canon h
theorem execFdiv_canon {o : F3} (h : s.Canon) : OutCanon (exec (.fdiv o) s) := show OutCanon (execFdiv o s) from scFp_canon h
theorem execFsqrt_canon {o : F2} (h : s.Canon) : OutCanon (exec (.fsqrt o) s) := show OutCanon (execFsqrt o s) from scFp_canon h
theorem execFmin_canon {o : RT} (h : s.Canon) : OutCanon (exec (.fmin o) s) := show OutCanon (execFmin o s) from scFp_canon h
theorem execFmax_canon {o : RT} (h : s.Canon) : OutCanon (exec (.fmax o) s) := show OutCanon (execFmax o s) from scFp_canon h
theorem execFcmp_canon {o : FCmp} (h : s.Canon) : OutCanon (exec (.fcmp o) s) := show OutCanon (execFcmp o s) from scFp_canon h
theorem execFcvt_canon {o : FCvt} (h : s.Canon) : OutCanon (exec (.fcvt o) s) := show OutCanon (execFcvt o s) from scOp_canon h
theorem execFclass_canon {o : RT1} (h : s.Canon) : OutCanon (exec (.fclass o) s) := show OutCanon (execFclass o s) from scFp_canon h
theorem jumpI_canon {i : Instr} {body : Nat → State → Res State} (hbody : ∀ a t, t.Canon → RCanon State.Canon (body a t)) (h : s.Canon) :
    OutCanon (jumpI i body s) := strandWith_canon (fun _ _ h1 => hbody _ _ h1) h
theorem branchIf_canon {i : Instr} {srcs : List Nat} {off : BitVec 32} {c : List W64 → Bool} (h : s.Canon) : OutCanon (branchIf i srcs off c s) := by
  unfold branchIf
  refine jumpI_canon (fun _ _ h1 => ?_) h
  refine Kept.bind (rdScs_canon h1) fun _ h2 => ?_
  exact Kept.ite (Kept.bind (P := State.Canon) ((checkTarget_calm ..).canon h2) fun _ h3 => h3) (advance_canon h2)
theorem execBr_canon {off : BitVec 32} (h : s.Canon) : OutCanon (exec (.br off) s) := show OutCanon (execBr off s) from branchIf_canon h
theorem execBz_canon {o : B1} (h : s.Canon) : OutCanon (exec (.bz o) s) := show OutCanon (execBz o s) from branchIf_canon h
theorem execBnz_canon {o : B1} (h : s.Canon) : OutCanon (exec (.bnz o) s) := show OutCanon (execBnz o s) from branchIf_canon h
theorem execBeq_canon {o : B2} (h : s.Canon) : OutCanon (exec (.beq o) s) := show OutCanon (execBeq o s) from branchIf_canon h
theorem execBne_canon {o : B2} (h : s.Canon) : OutCanon (exec (.bne o) s) := show OutCanon (execBne o s) from branchIf_canon h
theorem execBlt_canon {o : B2} (h : s.Canon) : OutCanon (exec (.blt o) s) := show OutCanon (execBlt o s) from branchIf_canon h
theorem execBge_canon {o : B2} (h : s.Canon) : OutCanon (exec (.bge o) s) := show OutCanon (execBge o s) from branchIf_canon h
theorem execBltn_canon {o : B2} (h : s.Canon) : OutCanon (exec (.bltn o) s) := show OutCanon (execBltn o s) from branchIf_canon h
theorem execBgen_canon {o : B2} (h : s.Canon) : OutCanon (exec (.bgen o) s) := show OutCanon (execBgen o s) from branchIf_canon h
theorem msPush1_canon {w : W64} (h : s.Canon) : (s.msPush1 k w).Canon := canon_ite h (lsWrite_canon h)
theorem msPush_canon {e : MsEntry} (h : s.Canon) : (s.msPush k e).Canon := canon_foldl h fun _ _ h1 => msPush1_canon h1
theorem pushChecked_canon {es : List MsEntry} (h : s.Canon) : RCanon State.Canon (s.pushChecked k es) := by
  unfold State.pushChecked
  exact Kept.bind ensureV_canon fun _ _ => canon_foldl h fun _ _ h1 => msPush_canon h1
theorem execCall_canon {off : BitVec 32} (h : s.Canon) : OutCanon (exec (.call off) s) := by
  show OutCanon (execCall off s)
  unfold execCall
  refine jumpI_canon (fun _ _ h1 => ?_) h
  refine Kept.bind (pushChecked_canon h1) fun _ h2 => ?_
  exact Kept.bind (P := State.Canon) ((checkTarget_calm ..).canon h2) fun _ h3 => h3
theorem enter_canon {v : W64} {e : MsEntry} {lanes : Option W64} (h : s.Canon) : RCanon State.Canon (s.enter k v e lanes) := by
  unfold State.enter
  extract_lets _ _ _ _
  refine Kept.ite ?_ ?_
  · refine Kept.bind (P := State.Canon) ((checkTarget_calm ..).canon h) fun _ h1 => ?_
    exact Kept.bind (pushChecked_canon h1) fun _ h2 => h2
  · refine Kept.bind (withTval_canon ((loadPtr_calm ..).canon h)) fun _ h3 => ?_
    dsimp -zeta only
    refine Kept.bind (withTval_canon ((loadPtr_calm ..).canon h3)) fun _ h4 => ?_
    extract_lets go go2
    have hgo : RCanon State.Canon (go ()) := by
      unfold go
      refine Kept.bind ensureV_canon fun _ _ => ?_
      refine Kept.bind (P := State.Canon) ((checkTarget_calm ..).canon h4) fun _ h5 => ?_
      exact Kept.bind (pushChecked_canon h5) fun _ h6 => h6
    have hgo2 : RCanon State.Canon (go2 ()) := by
      unfold go2
      exact Kept.ite (Kept.bind (P := fun _ => True) trivial fun _ _ => hgo) hgo
    exact Kept.ite (Kept.bind (P := fun _ => True) trivial fun _ _ => hgo2) hgo2
theorem execCallr_canon {a : Nat} (h : s.Canon) : OutCanon (exec (.callr a) s) := by
  show OutCanon (execCallr a s)
  unfold execCallr
  refine jumpI_canon (fun _ _ h1 => ?_) h
  refine Kept.bind (rdSc_canon h1) fun _ h2 => ?_
  dsimp -zeta only
  extract_lets _ _ go
  have hgo : RCanon State.Canon (go ()) := by
    unfold go
    exact enter_canon h2
  exact Kept.ite (Kept.bind (P := fun _ => True) trivial fun _ _ => hgo) hgo
theorem msCheck_canon (h : s.Canon) : RCanon (fun _ => True) (s.msCheck k d) := Kept.ite (poisStop_canon h) trivial
theorem topEntry_canon (h : s.Canon) : RCanon (fun _ => True) (s.topEntry k) :=
  Kept.bind ensureV_canon fun _ _ => Kept.bind (msCheck_canon h) fun _ _ => trivial
theorem vcallStep_canon {off a : Nat} {all run : W64} (h : s.Canon) : RCanon State.Canon (s.vcallStep k off a all run) := by
  unfold State.vcallStep
  extract_lets _ _ _ _ _ go
  have hgo : RCanon State.Canon (go ()) := by
    unfold go
    split
    · trivial
    · exact Kept.bind (enter_canon h) fun _ h1 => h1
  split
  · trivial
  · exact Kept.ite (Kept.bind (P := fun _ => True) (poisStop_canon h) fun _ _ => hgo) hgo
theorem retStep_canon {m : Nat} (h : s.Canon) : RCanon State.Canon (s.retStep k m) := by
  induction m generalizing s with
  | zero =>
    unfold State.retStep
    exact h
  | succ n ih =>
    unfold State.retStep
    refine Kept.bind (topEntry_canon h) fun _ _ => ?_
    refine Kept.ite (Kept.bind (resumeAt_canon h) fun _ h1 => h1) ?_
    refine Kept.ite ?_ trivial
    refine Kept.ite (ih h) ?_
    refine Kept.ite (advance_canon h) ?_
    refine Kept.bind ensureV_canon fun _ _ => ?_
    exact Kept.bind ((codeWord_calm ..).canon h) fun _ h2 => vcallStep_canon h2
theorem execRet_canon (h : s.Canon) : OutCanon (exec .ret s) := show OutCanon (execRet s) from jumpI_canon (fun _ _ h1 => retStep_canon h1) h
theorem execJr_canon {a : Nat} (h : s.Canon) : OutCanon (exec (.jr a) s) := by
  show OutCanon (execJr a s)
  unfold execJr
  refine jumpI_canon (fun _ _ h1 => ?_) h
  refine Kept.bind (rdSc_canon h1) fun _ h2 => ?_
  refine Kept.bind ensureV_canon fun _ _ => ?_
  exact Kept.bind (P := State.Canon) ((checkTarget_calm ..).canon h2) fun _ h3 => h3
theorem pushWords_canon {topFirst : List W64} (h : s.Canon) : (s.pushWords k topFirst).Canon := canon_foldl h fun _ _ h1 => msPush1_canon h1
theorem reconvMismatch_canon (h : s.Canon) : (s.reconvMismatch k).Canon := by
  unfold State.reconvMismatch
  dsimp only
  split
  · exact h
  · exact canon_ite (pushWords_canon h) (msPush_canon (pushWords_canon h))
theorem haltStep_canon {keep : Nat} (h : s.Canon) : RCanon State.Canon (s.haltStep k keep) := by
  unfold State.haltStep
  split
  · exact reconvMismatch_canon h
  · exact retire_canon h
theorem execHalt_canon (h : s.Canon) : OutCanon (exec .halt s) := show OutCanon (execHalt s) from jumpI_canon (fun _ _ h1 => haltStep_canon h1) h
theorem execHaltKeep_canon {a : Nat} (h : s.Canon) : OutCanon (exec (.haltKeep a) s) := by
  show OutCanon (execHaltKeep a s)
  unfold execHaltKeep
  refine jumpI_canon (fun _ _ h1 => ?_) h
  refine Kept.bind (rdSc_canon h1) fun _ h2 => ?_
  exact Kept.bind ensureV_canon fun _ _ => haltStep_canon h2
theorem execNop_canon (h : s.Canon) : OutCanon (exec .nop s) := show OutCanon (execNop s) from scalarI_canon (fun _ _ h1 => h1) h
theorem cmpInto_canon {i : Instr} {o : VCmp} {f : Nat → Nat → Bool × Nat} (h : s.Canon) : OutCanon (cmpInto i o f s) := by
  unfold cmpInto
  dsimp only
  refine strandWith_canon (fun _ _ h1 => ?_) h
  split
  · trivial
  · exact Kept.ite h1 ((findErr_calm ..).canon h1)
theorem execVcmp_canon {o : VCmp} (h : s.Canon) : OutCanon (exec (.vcmp o) s) := show OutCanon (execVcmp o s) from cmpInto_canon h
theorem execVfcmp_canon {o : VCmp} (h : s.Canon) : OutCanon (exec (.vfcmp o) s) := show OutCanon (execVfcmp o s) from cmpInto_canon h
theorem divStep_canon {join : Bool} {o : B1} (h : s.Canon) : RCanon State.Canon (divStep join o k s) := by
  unfold divStep
  extract_lets _ _ _ _ _ go
  have hgo : RCanon State.Canon (go ()) := by
    unfold go
    exact Kept.bind (pushChecked_canon h) fun _ h1 => advance_canon h1
  exact Kept.ite (Kept.bind (resumeAt_canon h) fun _ h2 => Kept.bind (pushChecked_canon h2) fun _ h3 => h3)
    (Kept.ite (Kept.bind (P := fun _ => True) trivial fun _ _ => hgo) hgo)
theorem execMdiv_canon {o : B1} (h : s.Canon) : OutCanon (exec (.mdiv o) s) :=
  show OutCanon (execMdiv o s) from jumpI_canon (fun _ _ h1 => divStep_canon h1) h
theorem execMelse_canon {o : B1} (h : s.Canon) : OutCanon (exec (.melse o) s) :=
  show OutCanon (execMelse o s) from jumpI_canon (fun _ _ h1 => divStep_canon h1) h
theorem reconvNext_canon {m : Nat} (h : s.Canon) : (s.reconvNext k m).Canon := by
  induction m generalizing s with
  | zero =>
    unfold State.reconvNext
    exact h
  | succ n ih =>
    unfold State.reconvNext
    dsimp only
    split
    · exact h
    · split
      · exact pushWords_canon h
      · exact canon_ite (ih h) h
theorem joinFrom_canon {m : Nat} (h : s.Canon) : RCanon State.Canon (joinFrom k s d m) := by
  induction m generalizing d with
  | zero =>
    unfold joinFrom
    trivial
  | succ n ih =>
    unfold joinFrom
    refine Kept.bind (msCheck_canon h) fun _ _ => ?_
    exact Kept.ite (Kept.ite ih (Kept.bind (resumeAt_canon h) fun _ h1 => h1)) (Kept.ite (advance_canon h) trivial)
theorem execMjoin_canon (h : s.Canon) : OutCanon (exec .mjoin s) := by
  show OutCanon (execMjoin s)
  unfold execMjoin
  refine jumpI_canon (fun _ _ h1 => ?_) h
  dsimp only
  split
  · exact Kept.ite (reconvNext_canon h1) (joinFrom_canon h1)
  · exact joinFrom_canon h1
theorem stackI_canon {i : Instr} {dsts : List Nat} {body : Nat → State → Res State} (hbody : ∀ a t, t.Canon → RCanon State.Canon (body a t)) (h : s.Canon) :
    OutCanon (stackI i dsts body s) := by
  unfold stackI
  refine scalarI_canon (fun _ _ h1 => ?_) h
  extract_lets go
  have hgo : RCanon State.Canon (go ()) := by
    unfold go
    exact hbody _ _ h1
  exact Kept.ite (Kept.bind (P := fun _ => True) trivial fun _ _ => hgo) hgo
theorem execMpush_canon {a : Nat} (h : s.Canon) : OutCanon (exec (.mpush a) s) := by
  show OutCanon (execMpush a s)
  unfold execMpush
  refine stackI_canon (fun _ _ h1 => ?_) h
  refine Kept.bind (rdSc_canon h1) fun _ h2 => ?_
  exact Kept.bind ensureV_canon fun _ _ => pushChecked_canon h2
theorem execMpop_canon (h : s.Canon) : OutCanon (exec (.mpop d) s) :=
  show OutCanon (execMpop d s) from stackI_canon (fun _ _ h1 => Kept.bind (topEntry_canon h1) fun _ _ => wrSc_canon h1) h
theorem execMpeek_canon {o : R2} (h : s.Canon) : OutCanon (exec (.mpeek o) s) := by
  show OutCanon (execMpeek o s)
  unfold execMpeek
  refine stackI_canon (fun _ _ h1 => ?_) h
  refine Kept.bind (rdSc_canon h1) fun _ h2 => ?_
  exact Kept.ite (Kept.bind (msCheck_canon h2) fun _ _ => wrSc_canon h2) (wrSc_canon h2)
theorem execMpeekDepth_canon (h : s.Canon) : OutCanon (exec (.mpeekDepth d) s) :=
  show OutCanon (execMpeekDepth d s) from stackI_canon (fun _ _ h1 => wrSc_canon h1) h
theorem execMpoke_canon {a : Nat} (h : s.Canon) : OutCanon (exec (.mpoke a b) s) := by
  show OutCanon (execMpoke a b s)
  unfold execMpoke
  refine stackI_canon (fun _ _ h1 => ?_) h
  refine Kept.bind (rdScs_canon h1) fun _ h2 => ?_
  exact Kept.bind ensureV_canon fun _ _ => Kept.bind ensureV_canon fun _ _ => msSet_canon h2
theorem execMset_canon {o : R2} (h : s.Canon) : OutCanon (exec (.mset o) s) := by
  show OutCanon (execMset o s)
  unfold execMset
  refine scalarI_canon (fun _ _ h1 => ?_) h
  refine Kept.bind (rdSc_canon h1) fun _ h2 => ?_
  exact h2
theorem maskI_canon {i : Instr} {f : Slot → W64} (h : s.Canon) : OutCanon (maskI i d f s) := scalarI_canon (fun _ _ h1 => h1) h
theorem execMand_canon {o : R3} (h : s.Canon) : OutCanon (exec (.mand o) s) := show OutCanon (execMand o s) from maskI_canon h
theorem execMor_canon {o : R3} (h : s.Canon) : OutCanon (exec (.mor o) s) := show OutCanon (execMor o s) from maskI_canon h
theorem execMxor_canon {o : R3} (h : s.Canon) : OutCanon (exec (.mxor o) s) := show OutCanon (execMxor o s) from maskI_canon h
theorem execMnot_canon {o : R2} (h : s.Canon) : OutCanon (exec (.mnot o) s) := show OutCanon (execMnot o s) from maskI_canon h
theorem execMpopc_canon {o : R2} (h : s.Canon) : OutCanon (exec (.mpopc o) s) :=
  show OutCanon (execMpopc o s) from scalarI_canon (fun _ _ h1 => wrSc_canon h1) h
theorem execMpopcBits_canon {o : R2} (h : s.Canon) : OutCanon (exec (.mpopcBits o) s) :=
  show OutCanon (execMpopcBits o s) from scalarI_canon (fun _ _ h1 => wrSc_canon h1) h
theorem execMfirst_canon {o : R2} (h : s.Canon) : OutCanon (exec (.mfirst o) s) :=
  show OutCanon (execMfirst o s) from scalarI_canon (fun _ _ h1 => wrSc_canon h1) h
theorem blockAddr_canon {v : W64} : RCanon (fun _ => True) (blockAddr v) := Kept.bind ensureV_canon fun _ _ => Kept.bind ensureV_canon fun _ _ => trivial
theorem execMspill_canon {a : Nat} (h : s.Canon) : OutCanon (exec (.mspill a) s) := by
  show OutCanon (execMspill a s)
  unfold execMspill
  refine scalarI_canon (fun _ _ h1 => ?_) h
  refine Kept.bind (rdSc_canon h1) fun _ h2 => ?_
  exact Kept.bind blockAddr_canon fun _ _ => canon_foldl h2 fun _ _ h3 => lsWrite_canon h3
theorem lsLoad_canon {off : Nat} (h : s.Canon) : RCanon (fun _ => True) (s.lsLoad k off n) := by
  unfold State.lsLoad
  extract_lets _ go
  have hgo : RCanon (fun _ => True) (go ()) := by
    unfold go
    trivial
  split
  · trivial
  · exact Kept.ite (Kept.bind (P := fun _ => True) (poisStop_canon h) fun _ _ => hgo) hgo
theorem execMfill_canon {a : Nat} (h : s.Canon) : OutCanon (exec (.mfill a) s) := by
  show OutCanon (execMfill a s)
  unfold execMfill
  refine scalarI_canon (fun k s h => ?_) h
  refine Kept.bind (rdSc_canon h) fun ⟨v, s1⟩ h1 => ?_
  have h1 : s1.Canon := h1
  refine Kept.bind blockAddr_canon fun off _ => ?_
  extract_lets word h es
  clear_value h es
  refine Kept.bind (lsLoad_canon h1) fun _ _ => ?_
  refine Kept.bind ensureV_canon fun _ _ => ?_
  split
  · trivial
  · exact h1
theorem exitLanes_canon {e : W64} (h : s.Canon) : (s.exitLanes k e).Canon := freePool_canon h
theorem execLexit_canon {p : Pred} (h : s.Canon) : OutCanon (exec (.lexit p) s) := by
  show OutCanon (execLexit p s)
  unfold execLexit
  refine strandWith_canon (fun _ _ h1 => ?_) h
  extract_lets s1
  have hs1 : s1.Canon := exitLanes_canon h1
  split
  · exact Kept.ite (reconvNext_canon hs1) (advance_canon hs1)
  · exact advance_canon hs1
theorem workPop_canon {g : Gang} (h : s.Canon) : (s.workPop g).2.Canon := by
  unfold State.workPop
  split
  · split <;> exact h
  · exact h
theorem refillLanes_canon {g : Gang} {ls : List Nat} (h : s.Canon) : RCanon State.Canon (refillLanes k g ls s) := by
  induction ls generalizing s with
  | nil =>
    unfold refillLanes
    exact h
  | cons a l ih =>
    unfold refillLanes
    extract_lets _ _ _ s1
    have hs1 : s1.Canon := canon_ite h ((modCore_calm ..).canon h)
    refine Kept.ite (ih h) ?_
    refine Kept.ite h ?_
    exact Kept.ite (Kept.ite (freePool_canon (workPop_canon hs1)) (workPop_canon hs1)) (ih (workPop_canon hs1))
theorem execRefill_canon (h : s.Canon) : OutCanon (exec .refill s) := by
  show OutCanon (execRefill s)
  unfold execRefill
  refine scalarI_canon (fun _ _ h1 => ?_) h
  split
  · exact h1
  · exact Kept.ite h1 (Kept.bind (refillLanes_canon h1) fun _ h2 => h2)
theorem sowDecode_canon {y : Slot} {w : Nat} : ∀ res ∈ sowDecode y w, res.Canon := by
  unfold sowDecode
  refine mem_ite mem_none ?_
  split
  · exact mem_none
  next i _ =>
    refine mem_ite mem_none fun b hb => ?_
    obtain ⟨c, hc, hb⟩ := Option.bind_eq_some_iff.mp hb
    exact mem_ite mem_none (mem_some (sowBody_canon c hc)) b hb
theorem sowStop_canon {w : Nat} {pend g : W64} {st : Stop} (h : s.Canon) (hst : st.Canon) : (sowStop k n w pend g s st).Canon := by
  unfold sowStop
  split
  · split <;> exact h
  · exact hst
  · exact h
  · exact hst
theorem sowStep_canon {a : Nat} {p : Pred} (h : s.Canon) : RCanon State.Canon (sowStep a p k s) := by
  unfold sowStep
  extract_lets x act e n fin ps r words lanesWith late w g
  have hfin {t : State} (ht : t.Canon) : (fin t).Canon := finish_canon ht
  refine Kept.ite (canon_ite (hfin h) (advance_canon h)) ?_
  split
  · trivial
  · refine Kept.ite ?_ (Kept.ite trivial ?_)
    · exact (findErr_calm ..).canon h
    · split
      · exact h
      next b hb =>
        have hrun := sowDecode_canon b hb (lanesWith w) k s h
        split
        next hr => exact sowStop_canon h (Kept.error hr hrun)
        next t hr =>
          have ht : t.Canon := (Kept.ok hr hrun :)
          exact Kept.ite (hfin ht) ht
theorem execSow_canon {a : Nat} {p : Pred} (h : s.Canon) : OutCanon (exec (.sow a p) s) :=
  show OutCanon (execSow a p s) from strandWith_canon (fun _ _ h1 => sowStep_canon h1) h
theorem execVcall_canon {a : Nat} {p : Pred} (h : s.Canon) : OutCanon (exec (.vcall a p) s) := by
  show OutCanon (execVcall a p s)
  unfold execVcall
  refine strandWith_canon (fun _ _ h1 => ?_) h
  exact Kept.ite (advance_canon h1) (Kept.bind ensureV_canon fun _ _ => Kept.bind (pushChecked_canon h1) fun _ h2 => vcallStep_canon h2)
end

/-! ### Instructions of the lanes, of memory and of barriers -/

section
variable {s : State} {k c d p q cl n b j : Nat}

theorem laneRun_canon {p : Pred} {body : W64 → Nat → State → Res State} {t : State} (hbody : ∀ a b t, t.Canon → RCanon State.Canon (body a b t))
    (h : t.Canon) : RCanon State.Canon (laneRun p body k t) := Kept.ite h (hbody _ _ _ h)
theorem laneI_canon {i : Instr} {p : Pred} {vecs : List Nat} {body : W64 → Nat → State → Res State}
    (hbody : ∀ a b t, t.Canon → RCanon State.Canon (body a b t)) (h : s.Canon) : OutCanon (laneI i p vecs body s) :=
  strandWith_canon (fun _ _ h1 => laneRun_canon (fun _ _ _ h2 => hbody _ _ _ h2) h1) h
theorem laneGo_canon {i : Instr} {b : LaneBody} (hb : b.Canon) (h : s.Canon) : OutCanon (laneGo i b s) := laneI_canon hb h
theorem execVadd_canon {o : VTS} (h : s.Canon) : OutCanon (exec (.vadd o) s) := show OutCanon (execVadd o s) from laneGo_canon laneVadd_canon h
theorem execVsub_canon {o : VTS} (h : s.Canon) : OutCanon (exec (.vsub o) s) := show OutCanon (execVsub o s) from laneGo_canon laneVsub_canon h
theorem execVmul_canon {o : VTS} (h : s.Canon) : OutCanon (exec (.vmul o) s) := show OutCanon (execVmul o s) from laneGo_canon laneVmul_canon h
theorem execVmulh_canon {o : VT} (h : s.Canon) : OutCanon (exec (.vmulh o) s) := show OutCanon (execVmulh o s) from laneGo_canon laneVmulh_canon h
theorem execVmad_canon {o : VMad} (h : s.Canon) : OutCanon (exec (.vmad o) s) := show OutCanon (execVmad o s) from laneGo_canon laneVmad_canon h
theorem execVand_canon {o : VT} (h : s.Canon) : OutCanon (exec (.vand o) s) := show OutCanon (execVand o s) from laneGo_canon laneVand_canon h
theorem execVor_canon {o : VT} (h : s.Canon) : OutCanon (exec (.vor o) s) := show OutCanon (execVor o s) from laneGo_canon laneVor_canon h
theorem execVxor_canon {o : VT} (h : s.Canon) : OutCanon (exec (.vxor o) s) := show OutCanon (execVxor o s) from laneGo_canon laneVxor_canon h
theorem execVnot_canon {o : VT1} (h : s.Canon) : OutCanon (exec (.vnot o) s) := show OutCanon (execVnot o s) from laneGo_canon laneVnot_canon h
theorem execVshl_canon {o : VT} (h : s.Canon) : OutCanon (exec (.vshl o) s) := show OutCanon (execVshl o s) from laneGo_canon laneVshl_canon h
theorem execVshr_canon {o : VT} (h : s.Canon) : OutCanon (exec (.vshr o) s) := show OutCanon (execVshr o s) from laneGo_canon laneVshr_canon h
theorem execVsra_canon {o : VT} (h : s.Canon) : OutCanon (exec (.vsra o) s) := show OutCanon (execVsra o s) from laneGo_canon laneVsra_canon h
theorem execVmin_canon {o : VT} (h : s.Canon) : OutCanon (exec (.vmin o) s) := show OutCanon (execVmin o s) from laneGo_canon laneVmin_canon h
theorem execVmax_canon {o : VT} (h : s.Canon) : OutCanon (exec (.vmax o) s) := show OutCanon (execVmax o s) from laneGo_canon laneVmax_canon h
theorem execVabs_canon {o : VT1S} (h : s.Canon) : OutCanon (exec (.vabs o) s) := show OutCanon (execVabs o s) from laneGo_canon laneVabs_canon h
theorem execVsel_canon {o : VSel} (h : s.Canon) : OutCanon (exec (.vsel o) s) := show OutCanon (execVsel o s) from laneGo_canon laneVsel_canon h
theorem execVclz_canon {o : VT1} (h : s.Canon) : OutCanon (exec (.vclz o) s) := show OutCanon (execVclz o s) from laneGo_canon laneVclz_canon h
theorem execVpopc_canon {o : VT1} (h : s.Canon) : OutCanon (exec (.vpopc o) s) := show OutCanon (execVpopc o s) from laneGo_canon laneVpopc_canon h
theorem execVsext_canon {o : VTN} (h : s.Canon) : OutCanon (exec (.vsext o) s) := show OutCanon (execVsext o s) from laneGo_canon laneVsext_canon h
theorem execVzext_canon {o : VTN} (h : s.Canon) : OutCanon (exec (.vzext o) s) := show OutCanon (execVzext o s) from laneGo_canon laneVzext_canon h
theorem execVbs_canon {o : VT1} (h : s.Canon) : OutCanon (exec (.vbs o) s) := show OutCanon (execVbs o s) from laneGo_canon laneVbs_canon h
theorem execVext_canon {o : VExt} (h : s.Canon) : OutCanon (exec (.vext o) s) := by
  show OutCanon (execVext o s)
  unfold execVext
  dsimp only
  refine strandWith_canon (fun _ _ h1 => ?_) h
  refine Kept.bind (rdSc_canon h1) fun _ h2 => ?_
  refine Kept.ite (Kept.ite (wrSc_canon h2) trivial) ?_
  split
  · trivial
  · exact Kept.ite (Kept.bind (P := fun _ => True) (poisStop_canon h1) fun _ _ => wrSc_canon h2) (wrSc_canon h2)
theorem execVins_canon {o : VIns} (h : s.Canon) : OutCanon (exec (.vins o) s) := show OutCanon (execVins o s) from laneGo_canon laneVins_canon h
theorem execVfadd_canon {o : VF3} (h : s.Canon) : OutCanon (exec (.vfadd o) s) := show OutCanon (execVfadd o s) from laneGo_canon laneVfadd_canon h
theorem execVfsub_canon {o : VF3} (h : s.Canon) : OutCanon (exec (.vfsub o) s) := show OutCanon (execVfsub o s) from laneGo_canon laneVfsub_canon h
theorem execVfmul_canon {o : VF3} (h : s.Canon) : OutCanon (exec (.vfmul o) s) := show OutCanon (execVfmul o s) from laneGo_canon laneVfmul_canon h
theorem execVffma_canon {o : VF4} (h : s.Canon) : OutCanon (exec (.vffma o) s) := show OutCanon (execVffma o s) from laneGo_canon laneVffma_canon h
theorem execVfdiv_canon {o : VF3} (h : s.Canon) : OutCanon (exec (.vfdiv o) s) := show OutCanon (execVfdiv o s) from laneGo_canon laneVfdiv_canon h
theorem execVfsqrt_canon {o : VF2} (h : s.Canon) : OutCanon (exec (.vfsqrt o) s) := show OutCanon (execVfsqrt o s) from laneGo_canon laneVfsqrt_canon h
theorem execVfrcp_canon {o : VF2} (h : s.Canon) : OutCanon (exec (.vfrcp o) s) := show OutCanon (execVfrcp o s) from laneGo_canon laneVfrcp_canon h
theorem execVfrsq_canon {o : VF2} (h : s.Canon) : OutCanon (exec (.vfrsq o) s) := show OutCanon (execVfrsq o s) from laneGo_canon laneVfrsq_canon h
theorem execVfexp2_canon {o : VF2} (h : s.Canon) : OutCanon (exec (.vfexp2 o) s) := show OutCanon (execVfexp2 o s) from laneGo_canon laneVfexp2_canon h
theorem execVflog2_canon {o : VF2} (h : s.Canon) : OutCanon (exec (.vflog2 o) s) := show OutCanon (execVflog2 o s) from laneGo_canon laneVflog2_canon h
theorem execVfmin_canon {o : VT} (h : s.Canon) : OutCanon (exec (.vfmin o) s) := show OutCanon (execVfmin o s) from laneGo_canon laneVfmin_canon h
theorem execVfmax_canon {o : VT} (h : s.Canon) : OutCanon (exec (.vfmax o) s) := show OutCanon (execVfmax o s) from laneGo_canon laneVfmax_canon h
theorem execVfround_canon {o : VF2} (h : s.Canon) : OutCanon (exec (.vfround o) s) := show OutCanon (execVfround o s) from laneGo_canon laneVfround_canon h
theorem execVfcvt_canon {o : VFCvt} (h : s.Canon) : OutCanon (exec (.vfcvt o) s) := show OutCanon (execVfcvt o s) from laneGo_canon laneVfcvt_canon h
theorem execVqblkExp_canon {o : VQExp} (h : s.Canon) : OutCanon (exec (.vqblkExp o) s) :=
  show OutCanon (execVqblkExp o s) from laneGo_canon laneVqblkExp_canon h
theorem execVqblkMan_canon {o : VQMan} (h : s.Canon) : OutCanon (exec (.vqblkMan o) s) :=
  show OutCanon (execVqblkMan o s) from laneGo_canon laneVqblkMan_canon h
theorem execVbpt_canon {o : V2} (h : s.Canon) : OutCanon (exec (.vbpt o) s) := show OutCanon (execVbpt o s) from laneGo_canon laneVbpt_canon h
theorem execVhadd_canon {o : VF3} (h : s.Canon) : OutCanon (exec (.vhadd o) s) := show OutCanon (execVhadd o s) from laneGo_canon laneVhadd_canon h
theorem execVhmul_canon {o : VF3} (h : s.Canon) : OutCanon (exec (.vhmul o) s) := show OutCanon (execVhmul o s) from laneGo_canon laneVhmul_canon h
theorem execVhfma_canon {o : VF4} (h : s.Canon) : OutCanon (exec (.vhfma o) s) := show OutCanon (execVhfma o s) from laneGo_canon laneVhfma_canon h
theorem execVshuf_canon {o : VX3} (h : s.Canon) : OutCanon (exec (.vshuf o) s) := show OutCanon (execVshuf o s) from laneGo_canon laneVshuf_canon h
theorem execVbcast_canon {o : VX3} (h : s.Canon) : OutCanon (exec (.vbcast o) s) := show OutCanon (execVbcast o s) from laneGo_canon laneVbcast_canon h
theorem execVrot_canon {o : VX3} (h : s.Canon) : OutCanon (exec (.vrot o) s) := show OutCanon (execVrot o s) from laneGo_canon laneVrot_canon h
theorem execVred_canon {o : VRed} (h : s.Canon) : OutCanon (exec (.vred o) s) := show OutCanon (execVred o s) from laneGo_canon laneVred_canon h
theorem execVscan_canon {o : VScan} (h : s.Canon) : OutCanon (exec (.vscan o) s) := show OutCanon (execVscan o s) from laneGo_canon laneVscan_canon h
theorem execVmatch_canon {o : VX2} (h : s.Canon) : OutCanon (exec (.vmatch o) s) :=
  show OutCanon (execVmatch o s) from strandIf_canon (fun _ _ h1 => laneRun_canon laneVmatch_canon h1) h
theorem memGo_canon {i : Instr} {p : Pred} {vecs : List Nat} {run : W64 → Nat → State → Res (Bool × State)}
    (hrun : ∀ a b t, t.Canon → RCanon (fun r => r.2.Canon) (run a b t)) (h : s.Canon) : OutCanon (memGo i p vecs run s) := by
  unfold memGo
  refine strandWith_canon (fun _ _ h1 => ?_) h
  exact Kept.ite (advance_canon h1) (Kept.bind (hrun _ _ _ h1) fun _ h2 => finish_canon h2)
theorem execVld_canon {o : VLoad} (h : s.Canon) : OutCanon (exec (.vld o) s) :=
  show OutCanon (execVld o s) from memGo_canon (fun _ _ _ h1 => memVld_canon h1) h
theorem execVst_canon {o : VStore} (h : s.Canon) : OutCanon (exec (.vst o) s) :=
  show OutCanon (execVst o s) from memGo_canon (fun _ _ _ h1 => memVst_canon h1) h
theorem execVldu_canon {o : VLoad} (h : s.Canon) : OutCanon (exec (.vldu o) s) :=
  show OutCanon (execVldu o s) from memGo_canon (fun _ _ _ h1 => memVldu_canon h1) h
theorem execLld_canon {o : VLoad} (h : s.Canon) : OutCanon (exec (.lld o) s) :=
  show OutCanon (execLld o s) from memGo_canon (fun _ _ _ h1 => memLld_canon h1) h
theorem execLst_canon {o : VStore} (h : s.Canon) : OutCanon (exec (.lst o) s) :=
  show OutCanon (execLst o s) from memGo_canon (fun _ _ _ h1 => memLst_canon h1) h
theorem execVldacc_canon {o : VAcc} (h : s.Canon) : OutCanon (exec (.vldacc o) s) :=
  show OutCanon (execVldacc o s) from memGo_canon (fun _ _ _ h1 => memVldacc_canon h1) h
theorem execVaadd_canon {o : VAtom} (h : s.Canon) : OutCanon (exec (.vaadd o) s) :=
  show OutCanon (execVaadd o s) from memGo_canon (fun _ _ _ h1 => memVatom_canon h1) h
theorem execVamin_canon {o : VAtom} (h : s.Canon) : OutCanon (exec (.vamin o) s) :=
  show OutCanon (execVamin o s) from memGo_canon (fun _ _ _ h1 => memVatom_canon h1) h
theorem execVamax_canon {o : VAtom} (h : s.Canon) : OutCanon (exec (.vamax o) s) :=
  show OutCanon (execVamax o s) from memGo_canon (fun _ _ _ h1 => memVatom_canon h1) h
theorem execVaand_canon {o : VAtom} (h : s.Canon) : OutCanon (exec (.vaand o) s) :=
  show OutCanon (execVaand o s) from memGo_canon (fun _ _ _ h1 => memVatom_canon h1) h
theorem execVaor_canon {o : VAtom} (h : s.Canon) : OutCanon (exec (.vaor o) s) :=
  show OutCanon (execVaor o s) from memGo_canon (fun _ _ _ h1 => memVatom_canon h1) h
theorem execVaxor_canon {o : VAtom} (h : s.Canon) : OutCanon (exec (.vaxor o) s) :=
  show OutCanon (execVaxor o s) from memGo_canon (fun _ _ _ h1 => memVatom_canon h1) h
theorem execVaxch_canon {o : VAtom} (h : s.Canon) : OutCanon (exec (.vaxch o) s) :=
  show OutCanon (execVaxch o s) from memGo_canon (fun _ _ _ h1 => memVatom_canon h1) h
theorem execVacas_canon {o : VAtom} (h : s.Canon) : OutCanon (exec (.vacas o) s) :=
  show OutCanon (execVacas o s) from memGo_canon (fun _ _ _ h1 => memVatom_canon h1) h
theorem scalarRead_canon {poll : Bool} {r : Ref} (h : s.Canon) : RCanon (fun r => r.2.Canon) (s.scalarRead k n poll r) := by
  unfold State.scalarRead
  refine Kept.ite (Kept.bind (lsLoad_canon h) fun _ _ => h) (Kept.ite trivial ?_)
  dsimp only
  have go {r : Nat × Nat × State} (hr : r.2.2.Canon) {x y : Nat} : RCanon (fun r => r.2.Canon) (do
      okData r.1 x y r.2.2
      pure (r.2.1, r.2.2)) := Kept.bind (okData_canon hr) fun _ _ => hr
  refine go (prop_ite (P := fun r : Nat × Nat × State => r.2.2.Canon) ?_ (prop_ite (P := fun r : Nat × Nat × State => r.2.2.Canon) ?_ ?_))
  · exact (uread_calm ..).canon h
  · exact (cread_calm ..).canon h
  · exact (readChk_calm ..).canon ((touchLine_calm ..).canon h)
theorem loadI_canon {i : Instr} {o : Load} {place : Nat → State → Res (Ref × State)} (hplace : ∀ a t, t.Canon → RCanon (fun r => r.2.Canon) (place a t))
    (h : s.Canon) : OutCanon (loadI i o place s) := by
  unfold loadI
  refine strandWith_canon (fun _ _ h1 => ?_) h
  refine Kept.bind (hplace _ _ h1) fun _ h2 => ?_
  exact Kept.bind (scalarRead_canon h2) fun _ h3 => Kept.bind (wrSc_canon h3) fun _ h4 => finish_canon h4
theorem execLd_canon {o : Load} (h : s.Canon) : OutCanon (exec (.ld o) s) := by
  show OutCanon (execLd o s)
  unfold execLd
  refine loadI_canon (fun _ _ h1 => ?_) h
  refine Kept.bind (rdSc_canon h1) fun _ h2 => ?_
  exact ptrRef_canon h2
theorem execLds_canon {o : Load} (h : s.Canon) : OutCanon (exec (.lds o) s) := by
  show OutCanon (execLds o s)
  unfold execLds
  refine loadI_canon (fun _ _ h1 => ?_) h
  refine Kept.bind (rdSc_canon h1) fun _ h2 => ?_
  exact Kept.bind lsPlace_canon fun _ _ => h2
theorem feLoad_canon {i : Instr} {o : FE} {consume : Bool} (h : s.Canon) : OutCanon (feLoad i o consume s) := by
  unfold feLoad
  refine scalarI_canon (fun _ _ h1 => ?_) h
  refine Kept.bind (fePlace_canon h1) fun _ h2 => ?_
  dsimp -zeta only
  extract_lets go
  have hgo : RCanon State.Canon (go ()) := by
    unfold go
    exact Kept.bind (lsLoad_canon h2) fun _ _ => wrSc_canon (canon_ite h2 h2)
  exact Kept.ite (Kept.bind (P := fun _ => True) trivial fun _ _ => hgo) hgo
theorem execLdf_canon {o : FE} (h : s.Canon) : OutCanon (exec (.ldf o) s) := show OutCanon (execLdf o s) from feLoad_canon h
theorem execLdff_canon {o : FE} (h : s.Canon) : OutCanon (exec (.ldff o) s) := show OutCanon (execLdff o s) from feLoad_canon h
theorem execSte_canon {o : FE} (h : s.Canon) : OutCanon (exec (.ste o) s) := by
  show OutCanon (execSte o s)
  unfold execSte
  refine scalarI_canon (fun _ _ h1 => ?_) h
  refine Kept.bind (fePlace_canon h1) fun _ h2 => ?_
  exact h2
theorem execSteScalar_canon (h : s.Canon) : OutCanon (exec (.steScalar d) s) := show OutCanon (execSteScalar d s) from scalarI_canon (fun _ _ h1 => h1) h
theorem execSteVector_canon (h : s.Canon) : OutCanon (exec (.steVector d) s) := show OutCanon (execSteVector d s) from strandWith_canon (fun _ _ h1 => h1) h
theorem execAadd_canon {o : Atom} (h : s.Canon) : OutCanon (exec (.aadd o) s) := show OutCanon (execAadd o s) from atomI_canon h
theorem execAmin_canon {o : Atom} (h : s.Canon) : OutCanon (exec (.amin o) s) := show OutCanon (execAmin o s) from atomI_canon h
theorem execAmax_canon {o : Atom} (h : s.Canon) : OutCanon (exec (.amax o) s) := show OutCanon (execAmax o s) from atomI_canon h
theorem execAand_canon {o : Atom} (h : s.Canon) : OutCanon (exec (.aand o) s) := show OutCanon (execAand o s) from atomI_canon h
theorem execAor_canon {o : Atom} (h : s.Canon) : OutCanon (exec (.aor o) s) := show OutCanon (execAor o s) from atomI_canon h
theorem execAxor_canon {o : Atom} (h : s.Canon) : OutCanon (exec (.axor o) s) := show OutCanon (execAxor o s) from atomI_canon h
theorem execAxch_canon {o : Atom} (h : s.Canon) : OutCanon (exec (.axch o) s) := show OutCanon (execAxch o s) from atomI_canon h
theorem execAcas_canon {o : Atom} (h : s.Canon) : OutCanon (exec (.acas o) s) := show OutCanon (execAcas o s) from atomI_canon h
theorem ensure_canon {b : Bool} {code : Nat} : RCanon (fun _ => True) (ensure b code) := Kept.ite trivial trivial
theorem execFence_canon {o : FenceOp} (h : s.Canon) : OutCanon (exec (.fence o) s) := by
  show OutCanon (execFence o s)
  unfold execFence
  refine scalarI_canon (fun _ _ h1 => ?_) h
  refine Kept.bind ensure_canon fun _ _ => ?_
  split
  · exact Kept.ite trivial (acquirePart_canon h1)
  · exact Kept.ite (releasePart_canon h1) (acquirePart_canon (releasePart_canon h1))
theorem rangePages_canon {acc : Acc} {kind : Nat} {ok : Xl → Bool} {va fuel : Nat} (h : s.Canon) :
    RCanon (fun r => r.2.Canon) (s.rangePages k acc kind ok va n fuel) := by
  induction fuel generalizing s va n with
  | zero =>
    unfold State.rangePages
    exact h
  | succ n1 ih =>
    unfold State.rangePages
    refine Kept.ite h ?_
    extract_lets _
    refine Kept.bind (ofX_canon ((xlate_calm ..).canon h)) fun _ h1 => ?_
    dsimp -zeta only
    extract_lets go
    have hgo : RCanon (fun r => r.2.Canon) (go ()) := by
      unfold go
      exact Kept.bind (ih h1) fun _ h2 => h2
    exact Kept.ite (Kept.bind (P := fun _ => True) trivial fun _ _ => hgo) hgo
theorem rangeI_canon {i : Instr} {o : R2} {perm : Nat} {w : Bool} {al : Nat} {go : List (Nat × Nat × Xl) → Nat → State → State}
    (hgo : ∀ a b t, t.Canon → (go a b t).Canon) (h : s.Canon) : OutCanon (rangeI i o perm w al go s) := by
  unfold rangeI
  refine scalarI_canon (fun _ _ h1 => ?_) h
  refine Kept.bind (rdSc_canon h1) fun _ h2 => ?_
  dsimp only
  refine Kept.ite h2 ?_
  split
  · trivial
  · refine Kept.bind ensure_canon fun _ _ => ?_
    exact Kept.ite h2 (Kept.bind (rangePages_canon h2) fun _ h3 => hgo _ _ _ h3)
theorem execL1wb_canon {o : R2} (h : s.Canon) : OutCanon (exec (.l1wb o) s) :=
  show OutCanon (execL1wb o s) from rangeI_canon (fun _ _ _ h1 => canon_foldl h1 fun _ _ h2 => (wbSector_calm ..).canon h2) h
theorem execL1inv_canon {o : R2} (h : s.Canon) : OutCanon (exec (.l1inv o) s) :=
  show OutCanon (execL1inv o s) from rangeI_canon (fun _ _ _ h1 => canon_foldl h1 fun _ _ h2 => (invSector_calm ..).canon h2) h
theorem execL1wbi_canon {o : R2} (h : s.Canon) : OutCanon (exec (.l1wbi o) s) :=
  show OutCanon (execL1wbi o s) from rangeI_canon (fun _ _ _ h1 => canon_foldl h1 fun _ _ h2 => (flushSector_calm ..).canon h2) h
theorem execCdcf_canon {o : R2} (h : s.Canon) : OutCanon (exec (.cdcf o) s) :=
  show OutCanon (execCdcf o s) from rangeI_canon (fun _ _ _ h1 => canon_foldl h1 fun _ _ h2 => (cdcFlush_calm ..).canon h2) h
theorem execL1wbAll_canon (h : s.Canon) : OutCanon (exec .l1wbAll s) :=
  show OutCanon (execL1wbAll s) from scalarI_canon (fun _ _ h1 => (wbAllL1_calm ..).canon h1) h
theorem sysI_canon {i : Instr} {dsts : List Nat} {body : Nat → State → Res State} (hbody : ∀ a t, t.Canon → RCanon State.Canon (body a t)) (h : s.Canon) :
    OutCanon (sysI i dsts body s) := strandWith_canon (fun _ _ h1 => hbody _ _ h1) h
theorem execL1invAll_canon (h : s.Canon) : OutCanon (exec .l1invAll s) :=
  show OutCanon (execL1invAll s) from sysI_canon (fun _ _ h1 => (invAllL1_calm ..).canon h1) h
theorem execL1wbiAll_canon (h : s.Canon) : OutCanon (exec .l1wbiAll s) :=
  show OutCanon (execL1wbiAll s) from scalarI_canon (fun _ _ h1 => (invAllL1_calm ..).canon ((wbAllL1_calm ..).canon h1)) h
theorem execCdcfAll_canon (h : s.Canon) : OutCanon (exec .cdcfAll s) :=
  show OutCanon (execCdcfAll s) from sysI_canon (fun _ _ h1 => canon_foldl h1 fun _ _ h2 => (cdcFlush_calm ..).canon h2) h
theorem execFenceI_canon (h : s.Canon) : OutCanon (exec .fenceI s) :=
  show OutCanon (execFenceI s) from strandWith_canon (fun _ _ h1 => (modCore_calm ..).canon (advance_canon h1)) h
theorem execPld_canon {n : BitVec 16} (h : s.Canon) : OutCanon (exec (.pld d b n) s) := by
  show OutCanon (execPld d b n s)
  unfold execPld
  refine scalarI_canon (fun _ _ h1 => ?_) h
  refine Kept.bind (rdSc_canon h1) fun _ h2 => ?_
  exact Kept.bind ((loadPtr_calm ..).canon h2) fun _ h3 => h3
theorem ptrI_canon {i : Instr} {srcs : List Nat} {f : Slot → List W64 → Res (BitVec 128)} (hf : ∀ a b, RCanon (fun _ => True) (f a b)) (h : s.Canon) :
    OutCanon (ptrI i d srcs f s) := by
  unfold ptrI
  refine scalarI_canon (fun _ _ h1 => ?_) h
  refine Kept.bind (rdScs_canon h1) fun _ h2 => ?_
  exact Kept.bind (hf _ _) fun _ _ => h2
theorem execPmov_canon {o : R2} (h : s.Canon) : OutCanon (exec (.pmov o) s) := show OutCanon (execPmov o s) from ptrI_canon (fun _ _ => trivial) h
theorem execPadd_canon {o : R3} (h : s.Canon) : OutCanon (exec (.padd o) s) := show OutCanon (execPadd o s) from ptrI_canon (fun _ _ => trivial) h
theorem execPnarrow_canon {o : R3} (h : s.Canon) : OutCanon (exec (.pnarrow o) s) := by
  show OutCanon (execPnarrow o s)
  unfold execPnarrow
  refine ptrI_canon (fun _ _ => ?_) h
  split <;> trivial
theorem execPperm_canon {o : R3} (h : s.Canon) : OutCanon (exec (.pperm o) s) := show OutCanon (execPperm o s) from ptrI_canon (fun _ _ => trivial) h
theorem execPget_canon {o : R2N} (h : s.Canon) : OutCanon (exec (.pget o) s) :=
  show OutCanon (execPget o s) from scalarI_canon (fun _ _ h1 => wrSc_canon h1) h
theorem execPtest_canon {o : PTest} (h : s.Canon) : OutCanon (exec (.ptest o) s) := by
  show OutCanon (execPtest o s)
  unfold execPtest
  refine scalarI_canon (fun _ _ h1 => ?_) h
  refine Kept.bind (rdSc_canon h1) fun _ h2 => ?_
  exact wrSc_canon h2
theorem barrierPaths_canon {nb : Bool} (h : s.Canon) : ∀ res ∈ (s.barrierPaths k nb), RCanon State.Canon res := by
  unfold State.barrierPaths
  dsimp only
  split
  · exact mem_none
  · split
    · exact mem_ite mem_none (mem_ite (mem_some (reconvNext_canon h)) (mem_some (reconvMismatch_canon h)))
    · exact mem_ite mem_none (mem_some (reconvNext_canon h))
theorem barrierWait_canon {nb : Bool} (h : s.Canon) : RCanon State.Canon (s.barrierWait k nb n) := by
  unfold State.barrierWait
  split
  · exact h
  · exact Kept.ite ((acqL1_calm ..).canon h) h
theorem setNbar_canon {b : NBar} (h : s.Canon) : (s.setNbar cl n b).Canon := (modCluster_calm ..).canon h
theorem arriveNumbered_canon {off : Nat} {v : W64} (h : s.Canon) : RCanon State.Canon (s.arriveNumbered k n off v) := by
  unfold State.arriveNumbered
  refine Kept.ite trivial ?_
  refine Kept.ite trivial ?_
  refine Kept.ite ?_ ?_
  · refine Kept.ite ?_ ?_
    · show State.Canon _
      dsimp only [State.Canon, State.modSlot, State.setSlot]
      exact setNbar_canon ((wbAllL1_calm ..).canon h)
    · refine Kept.ite trivial ?_
      refine Kept.ite trivial ?_
      show State.Canon _
      dsimp only [State.Canon, State.modSlot, State.setSlot]
      exact setNbar_canon ((wbAllL1_calm ..).canon h)
  · refine Kept.ite trivial ?_
    refine Kept.ite trivial ?_
    show State.Canon _
    dsimp only [State.Canon, State.modSlot, State.setSlot]
    exact setNbar_canon ((wbAllL1_calm ..).canon h)
theorem arriveGroup_canon {off : Nat} (h : s.Canon) : RCanon State.Canon (s.arriveGroup k n off) := by
  unfold State.arriveGroup
  split
  · exact Kept.ite trivial ((wbAllL1_calm ..).canon h)
  · trivial
  · trivial
theorem barrierI_canon {i : Instr} {o : Bar} {arrive wait : Bool} (h : s.Canon) : OutCanon (barrierI i o arrive wait s) := by
  refine strandWith_canon (fun k s h => ?_) h
  refine Kept.bind (P := fun _ => True) (Kept.ite trivial trivial) fun _ _ => ?_
  extract_lets x mine s0 last next
  have h0 : s0.Canon := by
    unfold s0
    split
    · exact canon_ite h h
    · exact h
  split
  next e => exact mem_ite mem_none (barrierPaths_canon h0) _ e
  · have hlast {t : State} (ht : t.Canon) : RCanon State.Canon (last t) := advance_canon ht
    have hnext {t : State} (ht : t.Canon) : RCanon State.Canon (next t) := Kept.ite (Kept.bind (barrierWait_canon ht) fun _ => hlast) (hlast ht)
    refine Kept.ite (hnext h0) (Kept.ite ?_ ?_)
    · exact Kept.bind (rdSc_canon h0) fun _ h1 => Kept.bind (arriveNumbered_canon h1) fun _ => hnext
    · exact Kept.bind (arriveGroup_canon h0) fun _ => hnext
theorem execBarArrive_canon {o : Bar} (h : s.Canon) : OutCanon (exec (.barArrive o) s) := show OutCanon (execBarArrive o s) from barrierI_canon h
theorem execBarWait_canon {o : Bar} (h : s.Canon) : OutCanon (exec (.barWait o) s) := show OutCanon (execBarWait o s) from barrierI_canon h
theorem execBarSync_canon {o : Bar} (h : s.Canon) : OutCanon (exec (.barSync o) s) := show OutCanon (execBarSync o s) from barrierI_canon h
theorem execGbar_canon (h : s.Canon) : OutCanon (exec .gbar s) := show OutCanon (execGbar s) from barrierI_canon h
theorem wordAt_canon {v : W64} : RCanon (fun _ => True) (wordAt v) := Kept.bind ensureV_canon fun _ _ => Kept.bind ensureV_canon fun _ _ => trivial
theorem execExpect_canon {o : Expect} (h : s.Canon) : OutCanon (exec (.expect o) s) := by
  show OutCanon (execExpect o s)
  unfold execExpect
  refine scalarI_canon (fun _ _ h1 => ?_) h
  refine Kept.bind (rdScs_canon h1) fun _ h2 => ?_
  dsimp -zeta only
  extract_lets _ go
  have hgo r : RCanon State.Canon (go r) := by
    unfold go
    split
    · trivial
    · exact Kept.bind ensureV_canon fun _ _ => h2
  split
  · exact Kept.bind (P := fun _ => True) trivial fun _ _ => hgo _
  · exact Kept.bind (P := fun _ => True) trivial fun _ _ => hgo _
  · exact Kept.bind (P := fun _ => True) (Kept.bind wordAt_canon fun _ _ => trivial) fun _ _ => hgo _
theorem execCntDec_canon {a : Nat} (h : s.Canon) : OutCanon (exec (.cntDec a b) s) := by
  show OutCanon (execCntDec a b s)
  unfold execCntDec
  refine scalarI_canon (fun _ _ h1 => ?_) h
  refine Kept.bind (rdScs_canon h1) fun _ h2 => ?_
  dsimp -zeta only
  extract_lets _
  split
  · trivial
  · refine Kept.bind ensureV_canon fun _ _ => ?_
    extract_lets go
    have hgo : RCanon State.Canon (go ()) := by
      unfold go
      exact sendNet_canon ((relTo_calm ..).canon h2)
    exact Kept.ite (Kept.bind (P := fun _ => True) trivial fun _ _ => hgo) hgo
theorem execCntWait_canon {o : R2} (h : s.Canon) : OutCanon (exec (.cntWait o) s) := by
  show OutCanon (execCntWait o s)
  unfold execCntWait
  refine scalarI_canon (fun _ _ h1 => ?_) h
  refine Kept.bind (rdSc_canon h1) fun _ h2 => ?_
  refine Kept.bind wordAt_canon fun _ _ => ?_
  extract_lets _ _ _ go
  have hgo : RCanon State.Canon (go ()) := by
    unfold go
    exact Kept.bind ensureV_canon fun _ _ => Kept.ite (wrSc_canon h2) (lsWrite_canon h2)
  exact Kept.ite (Kept.bind (P := fun _ => True) (poisStop_canon h1) fun _ _ => hgo) hgo
end

/-! ### Tasks, slots, control registers, copies and the matrix stream -/

section
variable {s : State} {k c d p q cl n b j : Nat}

theorem recTrap_canon {α : Type} {v : W64} {reason off : Nat} {P : α → Prop} : RCanon P (recTrap v reason off) := trivial
theorem execTsendNew_canon {o : R2} (h : s.Canon) : OutCanon (exec (.tsendNew o) s) := by
  show OutCanon (execTsendNew o s)
  unfold execTsendNew
  refine scalarI_canon (fun _ _ h1 => ?_) h
  refine Kept.bind (rdSc_canon h1) fun _ h2 => ?_
  dsimp -zeta only
  refine Kept.bind ensureV_canon fun _ _ => ?_
  extract_lets _ _ _ _ _ _ go go2 go3 go4
  have hgo {r : _ × State} (ht : r.2.Canon) : RCanon State.Canon (go r) := by
    unfold go
    extract_lets _ _ _ go5
    have hgo5 : RCanon State.Canon (go5 ()) := by
      unfold go5
      refine Kept.bind (wrSc_canon (setRecState_canon (setRec_canon ((modCore_calm ..).canon ht)))) fun _ h3 => ?_
      exact canon_ite (rqEnter_canon h3) h3
    exact Kept.ite (Kept.bind (P := fun _ => True) recTrap_canon fun _ _ => hgo5) hgo5
  have hgo2 : RCanon State.Canon (go2 ()) := by
    unfold go2
    refine Kept.bind ensureV_canon fun _ _ => ?_
    split
    next r e1 =>
      have h4 := Kept.ok e1 ((loadPtr_calm ..).canon h2)
      refine Kept.bind (P := fun r => r.2.Canon) ?_ fun ⟨x1, s1⟩ h5 => ?_
      · exact h4
      · exact hgo (r := (x1, s1)) h5
    next e2 =>
      have h6 := Kept.error e2 ((loadPtr_calm ..).canon h2)
      refine Kept.ite (Kept.bind (P := fun r => r.2.Canon) recTrap_canon fun ⟨x2, s2⟩ h7 => hgo (r := (x2, s2)) h7) ?_
      refine Kept.bind (P := fun r => r.2.Canon) ?_ fun ⟨x3, s3⟩ h8 => ?_
      · exact h6
      · exact hgo (r := (x3, s3)) h8
    next e3 =>
      have h9 := Kept.error e3 ((loadPtr_calm ..).canon h2)
      refine Kept.bind (P := fun r => r.2.Canon) ?_ fun ⟨x4, s4⟩ h10 => ?_
      · exact h9
      · exact hgo (r := (x4, s4)) h10
  have hgo3 : RCanon State.Canon (go3 ()) := by
    unfold go3
    exact Kept.ite (Kept.bind (P := fun _ => True) recTrap_canon fun _ _ => hgo2) hgo2
  have hgo4 : RCanon State.Canon (go4 ()) := by
    unfold go4
    refine Kept.bind (lsLoad_canon h2) fun _ _ => ?_
    exact Kept.ite (Kept.bind (P := fun _ => True) recTrap_canon fun _ _ => hgo3) hgo3
  exact Kept.ite (Kept.bind (P := fun _ => True) recTrap_canon fun _ _ => hgo4) hgo4
theorem execTsend_canon {a : Nat} (h : s.Canon) : OutCanon (exec (.tsend a b) s) := by
  show OutCanon (execTsend a b s)
  unfold execTsend
  refine scalarI_canon (fun _ _ h1 => ?_) h
  refine Kept.bind (rdScs_canon h1) fun _ h2 => ?_
  dsimp -zeta only
  extract_lets _
  split
  · trivial
  · extract_lets go
    have hgo : RCanon State.Canon (go ()) := by
      unfold go
      exact sendNet_canon ((relTo_calm ..).canon h2)
    exact Kept.ite (Kept.bind (P := fun _ => True) trivial fun _ _ => hgo) hgo
theorem execLaunch_canon {a : Nat} (h : s.Canon) : OutCanon (exec (.launch a) s) := by
  show OutCanon (execLaunch a s)
  unfold execLaunch
  refine scalarI_canon (fun _ _ h1 => ?_) h
  refine Kept.bind (rdSc_canon h1) fun _ h2 => ?_
  refine Kept.bind ensureV_canon fun _ _ => ?_
  refine Kept.bind ensureV_canon fun _ _ => ?_
  extract_lets _ _ _ _ _ _ go go2 go3
  have hgo : RCanon State.Canon (go ()) := by
    unfold go
    exact (modCore_calm ..).canon ((wbAllL1_calm ..).canon h2)
  have hgo2 : RCanon State.Canon (go2 ()) := by
    unfold go2
    exact Kept.ite (Kept.bind (P := fun _ => True) trivial fun _ _ => hgo) hgo
  have hgo3 : RCanon State.Canon (go3 ()) := by
    unfold go3
    refine Kept.bind (lsLoad_canon h2) fun _ _ => ?_
    exact Kept.ite (Kept.bind (P := fun _ => True) recTrap_canon fun _ _ => hgo2) hgo2
  refine Kept.bind (lsLoad_canon h2) fun _ _ => ?_
  split
  · exact recTrap_canon
  · exact Kept.ite (Kept.bind (P := fun _ => True) recTrap_canon fun _ _ => hgo3) hgo3
theorem execRqPush_canon {a : Nat} (h : s.Canon) : OutCanon (exec (.rqPush a) s) := by
  show OutCanon (execRqPush a s)
  unfold execRqPush
  refine sysI_canon (fun _ _ h1 => ?_) h
  refine Kept.bind (rdSc_canon h1) fun _ h2 => ?_
  exact Kept.bind ensureV_canon fun _ _ => rqEnter_canon h2
theorem watch_canon (h : s.Canon) : (s.watch k).Canon := canon_ite ((modCore_calm ..).canon h) h
theorem execRqPop_canon {o : R2} (h : s.Canon) : OutCanon (exec (.rqPop o) s) := by
  show OutCanon (execRqPop o s)
  unfold execRqPop
  refine sysI_canon (fun _ _ h1 => ?_) h
  refine Kept.bind (rdSc_canon h1) fun _ h2 => ?_
  refine Kept.bind ensureV_canon fun _ _ => ?_
  split
  next e1 =>
    have h3 := (rqPop_canon h2) _ e1
    exact wrSc_canon (watch_canon h3)
  · exact wrSc_canon (watch_canon h2)
theorem slotI_canon {i : Instr} {srcs : List Nat} {body : Nat → List W64 → State → Res (Nat × State)}
    (hbody : ∀ a b t, t.Canon → RCanon (fun r => r.2.Canon) (body a b t)) (h : s.Canon) : OutCanon (slotI i d srcs body s) := by
  unfold slotI
  refine sysI_canon (fun _ _ h1 => ?_) h
  refine Kept.bind (rdScs_canon h1) fun _ h2 => ?_
  exact Kept.bind (hbody _ _ _ h2) fun _ h3 => wrSc_canon h3
theorem execSlotStart_canon {o : R3} (h : s.Canon) : OutCanon (exec (.slotStart o) s) := by
  show OutCanon (execSlotStart o s)
  unfold execSlotStart
  refine slotI_canon (fun _ _ _ h1 => ?_) h
  split
  · exact watch_canon h1
  · exact startRank_canon (watch_canon h1)
theorem execSlotStartTask_canon {o : R3} (h : s.Canon) : OutCanon (exec (.slotStartTask o) s) := by
  show OutCanon (execSlotStartTask o s)
  unfold execSlotStartTask
  refine slotI_canon (fun _ _ _ h1 => ?_) h
  split
  · exact watch_canon h1
  · exact startTask_canon (watch_canon h1)
theorem execSlotReap_canon {o : R2} (h : s.Canon) : OutCanon (exec (.slotReap o) s) := by
  show OutCanon (execSlotReap o s)
  unfold execSlotReap
  refine slotI_canon (fun _ _ _ h1 => ?_) h
  split
  · exact h1
  · exact canon_ite h1 (retire_canon h1)
theorem execSlotSpill_canon {o : R3} (h : s.Canon) : OutCanon (exec (.slotSpill o) s) := by
  show OutCanon (execSlotSpill o s)
  unfold execSlotSpill
  refine slotI_canon (fun _ _ _ h1 => ?_) h
  split
  · exact h1
  · exact Kept.ite h1 (Kept.ite h1 (Kept.ite trivial (spillTo_canon h1)))
theorem execSlotLoad_canon {o : R2} (h : s.Canon) : OutCanon (exec (.slotLoad o) s) := by
  show OutCanon (execSlotLoad o s)
  unfold execSlotLoad
  refine slotI_canon (fun x1 x2 t h3 => ?_) h
  split
  · exact h3
  · exact (prop_ite (P := fun r : _ × State => r.2.Canon) h3 (loadFrom_canon h3))
theorem execYield_canon (h : s.Canon) : OutCanon (exec .yield s) :=
  show OutCanon (execYield s) from strandWith_canon (fun _ _ h1 => canon_ite (takeIrq_canon (advance_canon h1)) (advance_canon h1)) h
theorem execWfi_canon (h : s.Canon) : OutCanon (exec .wfi s) := by
  show OutCanon (execWfi s)
  unfold execWfi
  refine sysI_canon (fun _ _ h1 => ?_) h
  split
  · exact Kept.ite (watch_canon ((modCore_calm ..).canon h1)) trivial
  · exact Kept.ite (watch_canon ((modCore_calm ..).canon h1)) (watch_canon ((modCore_calm ..).canon h1))
theorem execSys_canon {n : BitVec 16} (h : s.Canon) : OutCanon (exec (.sys n) s) := show OutCanon (execSys n s) from jumpI_canon (fun _ _ _ => trivial) h
theorem execTrap_canon {a : Nat} {n : BitVec 16} (h : s.Canon) : OutCanon (exec (.trap a n) s) := by
  show OutCanon (execTrap a n s)
  unfold execTrap
  refine scalarI_canon (fun _ _ h1 => ?_) h
  refine Kept.bind (rdSc_canon h1) fun _ h2 => ?_
  exact Kept.ite h2 trivial
theorem execEbreak_canon {n : BitVec 16} (h : s.Canon) : OutCanon (exec (.ebreak n) s) :=
  show OutCanon (execEbreak n s) from jumpI_canon (fun _ _ _ => trivial) h
theorem execEret_canon (h : s.Canon) : OutCanon (exec .eret s) := by
  show OutCanon (execEret s)
  unfold execEret
  refine strandWith_canon (fun _ _ h1 => ?_) h
  dsimp only
  refine Kept.bind ensure_canon fun _ _ => ?_
  split
  · exact Kept.ite trivial (eretStep_canon (watch_canon h1))
  · split
    · exact releasePart_canon h1
    · exact eretStep_canon (watch_canon h1)
theorem cgetR_canon {a : Nat} (_ : s.Canon) : RCanon (fun _ => True) (s.cgetR k a) := by
  unfold State.cgetR
  split
  · trivial
  · exact Kept.bind ensure_canon fun _ _ => trivial
theorem seqAcq_canon {a : Nat} (h : s.Canon) : (s.seqAcq k a).Canon := canon_ite ((acqL1_calm ..).canon h) h
theorem execCget_canon {c : BitVec 12} (h : s.Canon) : OutCanon (exec (.cget d c) s) :=
  show OutCanon (execCget d c s) from strandIf_canon (fun _ _ h1 => Kept.bind (cgetR_canon h1) fun _ _ => wrSc_canon (seqAcq_canon h1)) h
theorem cputR_canon {a : Nat} {v : W64} (h : s.Canon) : RCanon State.Canon (s.cputR k a v) := by
  unfold State.cputR
  dsimp only
  split
  · trivial
  · exact Kept.bind ensure_canon fun _ _ => Kept.bind ensure_canon fun _ _ => h
theorem execCput_canon {c : BitVec 12} {a : Nat} (h : s.Canon) : OutCanon (exec (.cput c a) s) := by
  show OutCanon (execCput c a s)
  unfold execCput
  refine strandIf_canon (fun _ _ h1 => ?_) h
  refine Kept.bind (rdSc_canon h1) fun _ h2 => ?_
  exact cputR_canon h2
theorem execCswap_canon {c : BitVec 12} {a : Nat} (h : s.Canon) : OutCanon (exec (.cswap d c a) s) := by
  show OutCanon (execCswap d c a s)
  unfold execCswap
  refine strandIf_canon (fun _ _ h1 => ?_) h
  refine Kept.bind (rdSc_canon h1) fun _ h2 => ?_
  exact Kept.bind (cgetR_canon h2) fun _ _ => Kept.bind (cputR_canon h2) fun _ h3 => wrSc_canon h3
theorem execCfq_canon (h : s.Canon) : OutCanon (exec (.cfq d n) s) := show OutCanon (execCfq d n s) from scalarI_canon (fun _ _ h1 => wrSc_canon h1) h
theorem tlbDrop_canon {hit : Tlb → Bool} (h : s.Canon) : (s.tlbDrop p hit).Canon :=
  canon_foldl (canon_foldl h fun _ _ h1 => (modCore_calm ..).canon h1) fun _ _ h2 => (modCluster_calm ..).canon h2
theorem tlbI_canon {i : Instr} {a : Nat} {bad : W64 → W64 → Bool} {hit : W64 → W64 → Tlb → Bool} (h : s.Canon) : OutCanon (tlbI i a b bad hit s) := by
  unfold tlbI
  refine sysI_canon (fun _ _ h1 => ?_) h
  refine Kept.bind (rdScs_canon h1) fun _ h2 => ?_
  exact Kept.bind ensure_canon fun _ _ => tlbDrop_canon h2
theorem execTlbInvPage_canon {a : Nat} (h : s.Canon) : OutCanon (exec (.tlbInvPage a b) s) := show OutCanon (execTlbInvPage a b s) from tlbI_canon h
theorem execTlbInvSpace_canon {a : Nat} (h : s.Canon) : OutCanon (exec (.tlbInvSpace a b) s) := show OutCanon (execTlbInvSpace a b s) from tlbI_canon h
theorem execTlbInvAll_canon {a : Nat} (h : s.Canon) : OutCanon (exec (.tlbInvAll a b) s) := show OutCanon (execTlbInvAll a b s) from tlbI_canon h
theorem zeroLines_canon {pa : Nat} {present : Bool} (h : s.Canon) : (s.zeroLines k pa n present).Canon :=
  canon_foldl h fun _ _ h1 => canon_ite ((cwrite_calm ..).canon h1) ((modDie_calm ..).canon ((cwrite_calm ..).canon h1))
theorem hotI_canon {i : Instr} {a : Nat} {present : Bool} (h : s.Canon) : OutCanon (hotI i a b present s) := by
  unfold hotI
  refine scalarI_canon (fun _ _ h1 => ?_) h
  refine Kept.bind (rdSc_canon h1) fun _ h2 => ?_
  dsimp -zeta only
  extract_lets _ _ go
  have hgo : RCanon State.Canon (go ()) := by
    unfold go
    split
    · trivial
    · refine Kept.bind ensure_canon fun _ _ => ?_
      refine Kept.bind (rangePages_canon h2) fun _ h3 => ?_
      exact canon_foldl (canon_foldl h3 fun _ _ h4 => (invSector_calm ..).canon h4) fun _ _ h5 => zeroLines_canon h5
  exact Kept.ite (Kept.bind (P := fun _ => True) trivial fun _ _ => hgo) hgo
theorem execHhDsc_canon {a : Nat} (h : s.Canon) : OutCanon (exec (.hhDsc a b) s) := show OutCanon (execHhDsc a b s) from hotI_canon h
theorem execHhZero_canon {a : Nat} (h : s.Canon) : OutCanon (exec (.hhZero a b) s) := show OutCanon (execHhZero a b s) from hotI_canon h
theorem xlatePages_canon {acc : Acc} {kind : Nat} {ls : List Nat} {es : List CPage} (h : s.Canon) :
    RCanon (fun r => r.2.Canon) (s.xlatePages k acc kind ls es) := by
  induction ls generalizing s es with
  | nil =>
    unfold State.xlatePages
    exact h
  | cons a l ih =>
    unfold State.xlatePages
    refine Kept.ite (ih h) ?_
    refine Kept.bind ((xlateS_calm ..).canon h) fun _ h1 => ?_
    exact ih h1
theorem checkSide_canon {v : W64} (_ : s.Canon) : RCanon (fun _ => True) (s.checkSide k n v) := by
  unfold State.checkSide
  dsimp only
  refine Kept.ite ?_ ensureV_canon
  split
  · exact ensureV_canon
  · trivial
theorem cpyCmd_canon {o : Cpy} {dir : Dir} {va vb vc : W64} (h : s.Canon) : RCanon (fun r => r.2.Canon) (s.cpyCmd k o dir va vb vc) := by
  unfold State.cpyCmd
  extract_lets _ _ _ _ _ _ _ _ _ _ _ _ _ _ _ _ go go2 go3 go4
  have hgo : RCanon (fun r => r.2.Canon) (go ()) := by
    unfold go
    refine Kept.bind (xlatePages_canon h) fun _ h1 => ?_
    exact h1
  have hgo2 : RCanon (fun r => r.2.Canon) (go2 ()) := by
    unfold go2
    refine Kept.bind ensureV_canon fun _ _ => ?_
    refine Kept.bind ensureV_canon fun _ _ => ?_
    refine Kept.bind ensureV_canon fun _ _ => ?_
    refine Kept.ite ?_ hgo
    split
    · exact Kept.bind (P := fun _ => True) trivial fun _ _ => hgo
    · exact hgo
  have hgo3 : RCanon (fun r => r.2.Canon) (go3 ()) := by
    unfold go3
    exact Kept.ite (Kept.bind (checkSide_canon h) fun _ _ => hgo2) hgo2
  have hgo4 : RCanon (fun r => r.2.Canon) (go4 ()) := by
    unfold go4
    refine Kept.bind ensureV_canon fun _ _ => ?_
    refine Kept.bind ensureV_canon fun _ _ => ?_
    refine Kept.bind ensureV_canon fun _ _ => ?_
    refine Kept.bind ensureV_canon fun _ _ => ?_
    refine Kept.bind ensureV_canon fun _ _ => ?_
    refine Kept.bind ensureV_canon fun _ _ => ?_
    refine Kept.bind ensureV_canon fun _ _ => ?_
    refine Kept.bind ensureV_canon fun _ _ => ?_
    refine Kept.bind ensureV_canon fun _ _ => ?_
    exact Kept.bind ensure_canon fun _ _ => Kept.ite (Kept.bind (checkSide_canon h) fun _ _ => hgo3) hgo3
  exact Kept.ite (Kept.bind ensureV_canon fun _ _ => hgo4) (Kept.bind ensureV_canon fun _ _ => hgo4)
theorem cpyI_canon {i : Instr} {o : Cpy} {dir : Dir} (h : s.Canon) : OutCanon (cpyI i o dir s) := by
  unfold cpyI
  refine scalarI_canon (fun _ _ h1 => ?_) h
  extract_lets _ go
  have hgo {r : _ × State} (ht : r.2.Canon) : RCanon State.Canon (go r) := by
    unfold go
    refine Kept.bind (rdSc_canon ht) fun _ h2 => ?_
    refine Kept.bind (rdSc_canon h2) fun _ h3 => ?_
    refine Kept.bind (cpyCmd_canon h3) fun _ h4 => ?_
    exact Kept.ite (wrSc_canon (acceptCmd_canon ((wbAllL1_calm ..).canon h4))) ((setCluster_calm ..).canon ((wbAllL1_calm ..).canon h4))
  refine Kept.ite (Kept.bind (rdSc_canon h1) fun ⟨x1, s1⟩ h5 => hgo (r := (x1, s1)) h5) ?_
  refine Kept.bind (P := fun r => r.2.Canon) ?_ fun ⟨x2, s2⟩ h6 => ?_
  · exact h1
  · exact hgo (r := (x2, s2)) h6
theorem execCpyMl_canon {o : Cpy} (h : s.Canon) : OutCanon (exec (.cpyMl o) s) := show OutCanon (execCpyMl o s) from cpyI_canon h
theorem execCpyLm_canon {o : Cpy} (h : s.Canon) : OutCanon (exec (.cpyLm o) s) := show OutCanon (execCpyLm o s) from cpyI_canon h
theorem execCpyLl_canon {o : Cpy} (h : s.Canon) : OutCanon (exec (.cpyLl o) s) := show OutCanon (execCpyLl o s) from cpyI_canon h
theorem execCpyMr_canon {o : Cpy} (h : s.Canon) : OutCanon (exec (.cpyMr o) s) := show OutCanon (execCpyMr o s) from cpyI_canon h
theorem execCpyWait_canon {a : Nat} (h : s.Canon) : OutCanon (exec (.cpyWait a) s) := by
  show OutCanon (execCpyWait a s)
  unfold execCpyWait
  refine scalarI_canon (fun _ _ h1 => ?_) h
  refine Kept.bind (rdSc_canon h1) fun _ h2 => ?_
  exact Kept.ite ((acqL1_calm ..).canon h2) trivial
theorem myFurrow_canon {f : Nat} (_ : s.Canon) : RCanon (fun _ => True) (s.myFurrow k f) := by
  unfold State.myFurrow
  split
  · exact Kept.ite trivial trivial
  · trivial
theorem furrowSlot_canon {i : Instr} {src : Bool} {f : Nat} (h : s.Canon) : OutCanon (furrowSlot i src d f s) := by
  unfold furrowSlot
  refine scalarI_canon (fun _ _ h1 => ?_) h
  refine Kept.bind (myFurrow_canon h1) fun _ _ => ?_
  exact Kept.ite (wrSc_canon ((acqL1_calm ..).canon (slotAt_canon h1))) (queueAt_canon h1)
theorem execFwTake_canon {f : Nat} (h : s.Canon) : OutCanon (exec (.fwTake d f) s) := show OutCanon (execFwTake d f s) from furrowSlot_canon h
theorem execFwGive_canon {f a : Nat} (h : s.Canon) : OutCanon (exec (.fwGive f a) s) := by
  show OutCanon (execFwGive f a s)
  unfold execFwGive
  refine scalarI_canon (fun _ _ h1 => ?_) h
  refine Kept.bind (rdSc_canon h1) fun _ h2 => ?_
  refine Kept.bind ensureV_canon fun _ _ => ?_
  refine Kept.bind (myFurrow_canon h2) fun _ _ => ?_
  split
  · trivial
  · exact giveBack_canon ((wbAllL1_calm ..).canon h2)
theorem execFwRes_canon {f : Nat} (h : s.Canon) : OutCanon (exec (.fwRes d f) s) := show OutCanon (execFwRes d f s) from furrowSlot_canon h
theorem execFwResDef_canon {f a : Nat} (h : s.Canon) : OutCanon (exec (.fwResDef f a) s) := by
  show OutCanon (execFwResDef f a s)
  unfold execFwResDef
  refine scalarI_canon (fun _ _ h1 => ?_) h
  refine Kept.bind (rdSc_canon h1) fun _ h2 => ?_
  refine Kept.ite (Kept.bind ensureV_canon fun _ _ => (modCluster_calm ..).canon h2) ?_
  refine Kept.bind ensureV_canon fun _ _ => ?_
  exact Kept.bind ensureV_canon fun _ _ => Kept.bind ensureV_canon fun _ _ => (modCluster_calm ..).canon h2
theorem execFwPub_canon {f a : Nat} (h : s.Canon) : OutCanon (exec (.fwPub f a) s) := by
  show OutCanon (execFwPub f a s)
  unfold execFwPub
  refine scalarI_canon (fun _ _ h1 => ?_) h
  refine Kept.bind (rdSc_canon h1) fun _ h2 => ?_
  refine Kept.bind ensureV_canon fun _ _ => ?_
  refine Kept.bind (myFurrow_canon h2) fun _ _ => ?_
  split
  · trivial
  · exact publish_canon ((wbAllL1_calm ..).canon h2)
theorem execTrlSetCounter_canon {a : Nat} (h : s.Canon) : OutCanon (exec (.trlSetCounter n a) s) := by
  show OutCanon (execTrlSetCounter n a s)
  unfold execTrlSetCounter
  refine scalarI_canon (fun _ _ h1 => ?_) h
  refine Kept.bind (rdSc_canon h1) fun _ h2 => ?_
  exact Kept.bind ensureV_canon fun _ _ => Kept.bind ensureV_canon fun _ _ => (modCluster_calm ..).canon h2
theorem execTrlSetTerm_canon {a : Nat} (h : s.Canon) : OutCanon (exec (.trlSetTerm n a b) s) := by
  show OutCanon (execTrlSetTerm n a b s)
  unfold execTrlSetTerm
  refine scalarI_canon (fun _ _ h1 => ?_) h
  refine Kept.bind (rdSc_canon h1) fun _ h2 => ?_
  dsimp only
  refine Kept.bind (rdSc_canon h2) fun _ h3 => ?_
  refine Kept.bind ensureV_canon fun _ _ => ?_
  refine Kept.bind ensureV_canon fun _ _ => ?_
  refine Kept.bind ensureV_canon fun _ _ => ?_
  split
  · trivial
  · exact (modCluster_calm ..).canon h3
theorem execTrlClrCounter_canon (h : s.Canon) : OutCanon (exec (.trlClrCounter n) s) := by
  show OutCanon (execTrlClrCounter n s)
  unfold execTrlClrCounter
  refine scalarI_canon (fun _ _ h1 => ?_) h
  exact Kept.bind ensureV_canon fun _ _ => (modCluster_calm ..).canon h1
theorem execTrlClrTerm_canon (h : s.Canon) : OutCanon (exec (.trlClrTerm n) s) := by
  show OutCanon (execTrlClrTerm n s)
  unfold execTrlClrTerm
  refine scalarI_canon (fun _ _ h1 => ?_) h
  exact Kept.bind ensureV_canon fun _ _ => (modCluster_calm ..).canon h1
theorem matrixI_canon {i : Instr} {adv : Bool} {body : Nat → Gang → State → SRes State} (hbody : ∀ a b t, t.Canon → SCanon State.Canon (body a b t))
    (h : s.Canon) : OutCanon (matrixI i adv body s) := by
  unfold matrixI
  split
  · exact takeTrap_canon h
  · split
    next e1 =>
      have h1 := Kept.ok e1 (hbody _ _ _ h)
      exact canon_ite ((modCluster_calm ..).canon h1) h1
    · exact seqStop_canon h
    next e2 => exact (Kept.error e2 (hbody _ _ _ h) :)
theorem matrixHaz_canon {r w : List (Nat × Nat × Nat)} (h : s.Canon) : SCanon State.Canon (s.matrixHaz cl r w) := by
  unfold State.matrixHaz
  dsimp only
  split
  · exact Kept.ite h (Kept.ite ((setCluster_calm ..).canon h) h)
  · exact Kept.ite h ((setCluster_calm ..).canon h)
theorem matLoad_canon {isB : Bool} {o : XLoad} {g : Gang} (h : s.Canon) : SCanon State.Canon (matLoad isB o cl g s) := by
  unfold matLoad
  refine Kept.bind sEnsure_canon fun _ _ => ?_
  refine Kept.bind sEnsure_canon fun _ _ => ?_
  refine Kept.bind (matrixHaz_canon h) fun _ h1 => ?_
  exact (modCluster_calm ..).canon (canon_ite ((findErr_calm ..).canon h1) h1)
theorem execXlda_canon {o : XLoad} (h : s.Canon) : OutCanon (exec (.xlda o) s) :=
  show OutCanon (execXlda o s) from matrixI_canon (fun _ _ _ h1 => matLoad_canon h1) h
theorem execXldb_canon {o : XLoad} (h : s.Canon) : OutCanon (exec (.xldb o) s) :=
  show OutCanon (execXldb o s) from matrixI_canon (fun _ _ _ h1 => matLoad_canon h1) h
theorem matMul_canon {o : XMul} {g : Gang} (h : s.Canon) : SCanon State.Canon (matMul o cl g s) := by
  unfold matMul
  dsimp only
  split
  · exact Kept.bind sEnsure_canon fun _ _ => (setCluster_calm ..).canon h
  · trivial
theorem execXmul_canon {o : XMul} (h : s.Canon) : OutCanon (exec (.xmul o) s) :=
  show OutCanon (execXmul o s) from matrixI_canon (fun _ _ _ h1 => matMul_canon h1) h
theorem matFold_canon {o : XFold} {g : Gang} (h : s.Canon) : SCanon State.Canon (matFold o cl g s) := by
  unfold matFold
  refine Kept.ite trivial ?_
  split
  · exact (setCluster_calm ..).canon h
  · trivial
theorem execXfold_canon {o : XFold} (h : s.Canon) : OutCanon (exec (.xfold o) s) :=
  show OutCanon (execXfold o s) from matrixI_canon (fun _ _ _ h1 => matFold_canon h1) h
theorem matCvt_canon {o : XCvt} {g : Gang} (h : s.Canon) : SCanon State.Canon (matCvt o cl g s) := by
  unfold matCvt
  extract_lets x f d n bySr bySc base soff core score cell ctr md per go
  have hgo : SCanon State.Canon (go ()) := by
    unfold go
    refine Kept.bind (matrixHaz_canon h) fun s1 h1 => ?_
    extract_lets val bad s2
    have h2 : s2.Canon := canon_ite ((findErr_calm ..).canon h1) h1
    refine canon_foldl h2 fun t w ht => ?_
    refine canon_ite ?_ ?_
    · exact canon_ite (lsWrite_canon ht) (canon_foldl ht fun _ _ hu => lsWrite_canon hu)
    · exact canon_ite (lsWrite_canon ht) (canon_foldl ht fun _ _ hu => lsWrite_canon hu)
  refine Kept.bind (P := fun _ => True) sEnsure_canon fun _ _ => ?_
  refine Kept.bind (P := fun _ => True) sEnsure_canon fun _ _ => ?_
  refine Kept.bind (P := fun _ => True) sEnsure_canon fun _ _ => ?_
  generalize (List.range 16384).any _ = b
  exact Kept.ite trivial hgo
theorem execXcvt_canon {o : XCvt} (h : s.Canon) : OutCanon (exec (.xcvt o) s) :=
  show OutCanon (execXcvt o s) from matrixI_canon (fun _ _ _ h1 => matCvt_canon h1) h
theorem execXzero_canon {t : Nat} (h : s.Canon) : OutCanon (exec (.xzero t) s) :=
  show OutCanon (execXzero t s) from matrixI_canon (fun _ _ _ h1 => (modCluster_calm ..).canon h1) h
theorem execXrow_canon {first count : Nat} (h : s.Canon) : OutCanon (exec (.xrow first count) s) :=
  show OutCanon (execXrow first count s) from matrixI_canon (fun _ _ _ h1 => (modCluster_calm ..).canon h1) h
theorem execXcol_canon {first count : Nat} (h : s.Canon) : OutCanon (exec (.xcol first count) s) :=
  show OutCanon (execXcol first count s) from matrixI_canon (fun _ _ _ h1 => (modCluster_calm ..).canon h1) h
theorem execXfmt_canon {ka kb : Nat} (h : s.Canon) : OutCanon (exec (.xfmt ka kb) s) :=
  show OutCanon (execXfmt ka kb s) from matrixI_canon (fun _ _ _ h1 => (modCluster_calm ..).canon h1) h
theorem setSeqPhase_canon {p : SeqPhase} (h : s.Canon) : (s.setSeqPhase cl p).Canon := (modCluster_calm ..).canon h
theorem seqTurn_canon (h : s.Canon) : SCanon (fun _ => True) (s.seqTurn cl n) := Kept.ite (setSeqPhase_canon h) trivial
theorem seqArrive_canon (h : s.Canon) : (s.seqArrive cl n).Canon := setNbar_canon h
theorem execXwait_canon (h : s.Canon) : OutCanon (exec (.xwait n) s) := by
  show OutCanon (execXwait n s)
  unfold execXwait
  refine matrixI_canon (fun _ _ _ h1 => ?_) h
  split
  · exact Kept.ite (setSeqPhase_canon h1) h1
  · refine Kept.bind (seqTurn_canon h1) fun _ _ => ?_
    exact Kept.ite (setSeqPhase_canon (seqArrive_canon h1)) (setSeqPhase_canon (seqArrive_canon h1))
theorem execXpost_canon (h : s.Canon) : OutCanon (exec (.xpost n) s) := by
  show OutCanon (execXpost n s)
  unfold execXpost
  refine matrixI_canon (fun _ _ _ h1 => ?_) h
  refine Kept.bind (seqTurn_canon h1) fun _ _ => ?_
  exact pulse_canon ((modCluster_calm ..).canon (setSeqPhase_canon (seqArrive_canon h1)))
theorem execXloopBegin_canon {count : Nat} (h : s.Canon) : OutCanon (exec (.xloopBegin count) s) :=
  show OutCanon (execXloopBegin count s) from matrixI_canon (fun _ _ _ h1 => Kept.bind sEnsure_canon fun _ _ => (modCluster_calm ..).canon h1) h
end

/-! ### Events that an input brings -/

section
variable {s : State} {k c d p q cl n b j : Nat}

theorem execXloop_canon {off : BitVec 16} (h : s.Canon) : OutCanon (exec (.xloop off) s) := by
  show OutCanon (execXloop off s)
  unfold execXloop
  refine matrixI_canon (fun _ _ _ h1 => ?_) h
  dsimp only
  split
  · trivial
  · refine Kept.ite ?_ ((setCluster_calm ..).canon h1)
    refine Kept.bind sEnsure_canon fun _ _ => ?_
    refine Kept.bind (seqWord_canon h1) fun _ h2 => ?_
    exact Kept.bind sEnsure_canon fun _ _ => (modCluster_calm ..).canon h2
theorem execXend_canon (h : s.Canon) : OutCanon (exec .xend s) :=
  show OutCanon (execXend s) from matrixI_canon (fun _ _ _ h1 => (modCluster_calm ..).canon h1) h
theorem execClauseFetch_canon {a : Agent} (h : s.Canon) : OutCanon (exec (.clauseFetch a) s) := by
  show OutCanon (execClauseFetch a s)
  unfold execClauseFetch
  show State.Canon _
  split
  · exact strandFetch_canon h
  · exact seqFetch_canon h
theorem execTimerPending_canon {m : Nat} (h : s.Canon) : OutCanon (execTimerPending m s) := h
theorem execInterruptEntry_canon {slot : Nat} (h : s.Canon) : OutCanon (exec (.interruptEntry slot) s) :=
  show OutCanon (execInterruptEntry slot s) from enterIrq_canon h
theorem execFrreply_canon {die part : Nat} {v : W64} (h : s.Canon) : OutCanon (exec (.frreply die part v) s) :=
  show OutCanon (execFrreply die part v s) from reply_canon h
theorem execNotifyKick_canon {part : Nat} {v : W64} (h : s.Canon) : OutCanon (exec (.notifyKick part q v) s) := by
  show OutCanon (execNotifyKick part q v s)
  unfold execNotifyKick
  show State.Canon _
  split
  · exact h
  · exact canon_ite h (canon_ite ((unreachEvent_calm ..).canon h)
      ((notifyWrite_calm ..).canon ((touchLine_calm ..).canon ((ckptHold_calm ..).canon ((grabBlk_calm ..).canon h)))))
theorem execQueueRegister_canon {part : Nat} {ring ctl : W64} (h : s.Canon) : OutCanon (exec (.queueRegister part q ring ctl) s) := by
  show OutCanon (execQueueRegister part q ring ctl s)
  unfold execQueueRegister
  show State.Canon _
  split
  · exact h
  · exact setQWord_canon (setQWord_canon (setQWord_canon h))
theorem execSignalWindowSet_canon {part idx : Nat} {v : W64} (h : s.Canon) : OutCanon (exec (.signalWindowSet part idx v) s) :=
  show OutCanon (execSignalWindowSet part idx v s) from canon_ite h (setSignal_canon h)
theorem execSignalWindowAdd_canon {part idx : Nat} {v : W64} (h : s.Canon) : OutCanon (exec (.signalWindowAdd part idx v) s) :=
  show OutCanon (execSignalWindowAdd part idx v s) from canon_ite h (setSignal_canon h)
theorem ring_canon (h : s.Canon) : (s.ring p).Canon := by
  unfold State.ring
  refine canon_ite h ?_
  split
  · exact (modDie_calm ..).canon h
  · split <;> exact h
theorem execDoorbell_canon {part : Nat} (h : s.Canon) : OutCanon (exec (.doorbell part) s) := show OutCanon (execDoorbell part s) from ring_canon h
theorem execEngineStateError_canon (h : s.Canon) : OutCanon (exec (.engineStateError cl) s) :=
  show OutCanon (execEngineStateError cl s) from (logTo_calm ..).canon
  ((modCluster_calm ..).canon ((modCluster_calm ..).canon
  (discard_canon (canon_foldl (canon_foldl h fun _ _ h1 => completeCmd_canon h1) fun _ _ h2 => abortGang_canon h2))))
theorem execPageTableWalk_canon {core part asid va : Nat} {write user fetch : Bool} (h : s.Canon) :
    OutCanon (exec (.pageTableWalk core part asid va write user fetch) s) := by
  show OutCanon (execPageTableWalk core part asid va write user fetch s)
  unfold execPageTableWalk
  show State.Canon _
  dsimp only
  split
  next e1 => exact (Kept.ok e1 ((xlate_calm ..).canon h) :)
  next e2 => exact (Kept.error e2 ((xlate_calm ..).canon h) :)
theorem execL1ReplacementWriteback_canon {core sector : Nat} (h : s.Canon) : OutCanon (exec (.l1ReplacementWriteback core sector) s) :=
  show OutCanon (execL1ReplacementWriteback core sector s) from (flushSector_calm ..).canon h
theorem fillSector_canon {sec : Nat} (h : s.Canon) : (s.fillSector c sec).Canon := canon_ite h ((modCore_calm ..).canon ((l1Room_calm ..).canon h))
theorem execPeek_canon {core blk : Nat} (h : s.Canon) : OutCanon (exec (.peek core blk) s) :=
  show OutCanon (execPeek core blk s) from canon_ite (fillSector_canon (fillSector_canon h)) h
theorem execBirsp_canon {line : Nat} {shared : Bool} (h : s.Canon) : OutCanon (exec (.birsp line shared) s) :=
  show OutCanon (execBirsp line shared s) from canon_ite h ((serveBlk_calm ..).canon ((tryGrant_calm ..).canon ((modDie_calm ..).canon h)))
theorem execBiconflict_canon {line : Nat} (h : s.Canon) : OutCanon (exec (.biconflict line) s) :=
  show OutCanon (execBiconflict line s) from (modDie_calm ..).canon h
theorem arrive_canon {r : HReq} (h : s.Canon) : (s.arrive r).Canon := by
  unfold State.arrive
  refine canon_ite h ?_
  split
  next e1 => exact ((mem_ite mem_none (outside_canon h)) _ e1 :)
  · exact (modDie_calm ..).canon h
theorem execHostMemRead_canon {die port line mf : Nat} (h : s.Canon) : OutCanon (exec (.hostMemRead die port line mf) s) :=
  show OutCanon (execHostMemRead die port line mf s) from canon_ite (arrive_canon h) h
theorem execHostMemWrite_canon {die port line : Nat} {mask : W64} {data : BitVec 512} {md : MemMeta} (h : s.Canon) :
    OutCanon (exec (.hostMemWrite die port line mask data md) s) :=
  show OutCanon (execHostMemWrite die port line mask data md s) from canon_ite (arrive_canon h) h
theorem execH2dSnoop_canon {line : Nat} {invalidate : Bool} (h : s.Canon) : OutCanon (exec (.h2dSnoop line invalidate) s) :=
  show OutCanon (execH2dSnoop line invalidate s) from canon_ite
  (canon_ite ((emit_calm ..).canon ((emit_calm ..).canon
  (canon_ite ((setDirSts_calm ..).canon (canon_foldl ((settle_calm ..).canon h) fun _ _ h1 => (loseDie_calm ..).canon h1))
  ((setDirSts_calm ..).canon (canon_foldl ((settle_calm ..).canon h) fun _ _ h2 => (cleanDie_calm ..).canon ((takeOne_calm ..).canon h2))))))
  ((emit_calm ..).canon (canon_ite ((setDirSts_calm ..).canon (canon_foldl ((settle_calm ..).canon h) fun _ _ h3 => (loseDie_calm ..).canon h3))
  ((setDirSts_calm ..).canon (canon_foldl ((settle_calm ..).canon h) fun _ _ h4 => (cleanDie_calm ..).canon ((takeOne_calm ..).canon h4)))))) h
theorem execPeerUioWrite_canon {die port addr len : Nat} {data : BitVec 512} {pois : Bool} (h : s.Canon) :
    OutCanon (exec (.peerUioWrite die port addr len data pois) s) :=
  show OutCanon (execPeerUioWrite die port addr len data pois s) from canon_ite h (arrive_canon h)
theorem execPeerUioRead_canon {die port addr len : Nat} (h : s.Canon) : OutCanon (exec (.peerUioRead die port addr len) s) :=
  show OutCanon (execPeerUioRead die port addr len s) from canon_ite h (arrive_canon h)
theorem execUioTimeout_canon {a : Agent} (h : s.Canon) : OutCanon (exec (.uioTimeout a) s) := show OutCanon (execUioTimeout a s) from canon_ite h h
theorem execMigctlGo_canon {die : Nat} {v : W64} (h : s.Canon) : OutCanon (exec (.migctlGo die v) s) :=
  show OutCanon (execMigctlGo die v s) from migrate_canon h
theorem execRedirectForward_canon {core pa : Nat} (h : s.Canon) : OutCanon (exec (.redirectForward core pa) s) := by
  show OutCanon (execRedirectForward core pa s)
  unfold execRedirectForward
  show State.Canon _
  split
  · exact h
  · exact (modCluster_calm ..).canon ((modCore_calm ..).canon h)
theorem execHhresWrite_canon {die part : Nat} {v : W64} (h : s.Canon) : OutCanon (exec (.hhresWrite die part v) s) :=
  show OutCanon (execHhresWrite die part v s) from writeHhres_canon h
theorem execHhfbWrite_canon {die part : Nat} {v : W64} (h : s.Canon) : OutCanon (exec (.hhfbWrite die part v) s) :=
  show OutCanon (execHhfbWrite die part v s) from writeHhfb_canon h
theorem execRowCapture_canon {die row : Nat} (h : s.Canon) : OutCanon (exec (.rowCapture die row) s) :=
  show OutCanon (execRowCapture die row s) from canon_ite h
  (canon_ite ((modDie_calm ..).canon ((modDie_calm ..).canon h))
  (canon_ite ((emit_calm ..).canon ((emit_calm ..).canon ((modDie_calm ..).canon h)))
  ((logDie_calm ..).canon ((modDie_calm ..).canon ((emit_calm ..).canon ((emit_calm ..).canon ((modDie_calm ..).canon h)))))))
theorem execHbmScrub_canon {die : Nat} (h : s.Canon) : OutCanon (exec (.hbmScrub die) s) := show OutCanon (execHbmScrub die s) from checkRange_canon h
theorem execCkctlGo_canon {v : W64} (h : s.Canon) : OutCanon (exec (.ckctlGo v) s) := show OutCanon (execCkctlGo v s) from startCkpt_canon h
theorem execCheckpointPartCopy_canon {die unit : Nat} (h : s.Canon) : OutCanon (exec (.checkpointPartCopy die unit) s) :=
  show OutCanon (execCheckpointPartCopy die unit s) from copyPart_canon h
theorem execCheckpointEnd_canon (h : s.Canon) : OutCanon (exec .checkpointEnd s) := show OutCanon (execCheckpointEnd s) from endCkpt_canon h
theorem execSnapctlArm_canon {die : Nat} (h : s.Canon) : OutCanon (exec (.snapctlArm die) s) := show OutCanon (execSnapctlArm die s) from arm_canon h
theorem execSnapctlNow_canon {die : Nat} (h : s.Canon) : OutCanon (exec (.snapctlNow die) s) := show OutCanon (execSnapctlNow die s) from armNow_canon h
theorem execSnapctlDoneClear_canon {die : Nat} (h : s.Canon) : OutCanon (exec (.snapctlDoneClear die) s) :=
  show OutCanon (execSnapctlDoneClear die s) from releaseSnap_canon h
theorem execRlogctlWrapClear_canon {core : Nat} (h : s.Canon) : OutCanon (exec (.rlogctlWrapClear core) s) :=
  show OutCanon (execRlogctlWrapClear core s) from clearWrap_canon h
theorem execPctlLiveSet_canon {die part : Nat} (h : s.Canon) : OutCanon (exec (.pctlLiveSet die part) s) :=
  show OutCanon (execPctlLiveSet die part s) from liveSet_canon h
theorem execPctlLiveClear_canon {die part : Nat} (h : s.Canon) : OutCanon (exec (.pctlLiveClear die part) s) :=
  show OutCanon (execPctlLiveClear die part s) from liveClear_canon h
theorem execPrstctlGo_canon {die part : Nat} (h : s.Canon) : OutCanon (exec (.prstctlGo die part) s) :=
  show OutCanon (execPrstctlGo die part s) from startReset_canon h
theorem execPrstctlDoneClear_canon {die part : Nat} (h : s.Canon) : OutCanon (exec (.prstctlDoneClear die part) s) :=
  show OutCanon (execPrstctlDoneClear die part s) from clearDone_canon h
theorem execPswctlSwapOut_canon {die part : Nat} {v : W64} (h : s.Canon) : OutCanon (exec (.pswctlSwapOut die part v) s) :=
  show OutCanon (execPswctlSwapOut die part v s) from canon_ite (swapOut_canon h) h
theorem execPswctlResume_canon {die part : Nat} {v : W64} (h : s.Canon) : OutCanon (exec (.pswctlResume die part v) s) :=
  show OutCanon (execPswctlResume die part v s) from canon_ite (resume_canon h) h
theorem execDieLinkFailure_canon {die link : Nat} (h : s.Canon) : OutCanon (exec (.dieLinkFailure die link) s) :=
  show OutCanon (execDieLinkFailure die link s) from failLink_canon h
theorem execCxlLinkDown_canon {die port : Nat} (h : s.Canon) : OutCanon (exec (.cxlLinkDown die port) s) :=
  show OutCanon (execCxlLinkDown die port s) from canon_ite h
  (canon_ite (answerAll_canon ((logDie_calm ..).canon ((setMg_calm ..).canon h))) ((logDie_calm ..).canon ((setMg_calm ..).canon h)))
theorem execCxlLinkUp_canon {die port speed width : Nat} (h : s.Canon) : OutCanon (exec (.cxlLinkUp die port speed width) s) :=
  show OutCanon (execCxlLinkUp die port speed width s) from modPort_canon h
theorem execCxlViralEntry_canon {die port : Nat} {err : Bool} (h : s.Canon) : OutCanon (exec (.cxlViralEntry die port err) s) :=
  show OutCanon (execCxlViralEntry die port err s) from canon_ite (enterViral_canon (modPort_canon h)) (enterViral_canon h)
theorem execCxlpsViralClear_canon {die port : Nat} (h : s.Canon) : OutCanon (exec (.cxlpsViralClear die port) s) :=
  show OutCanon (execCxlpsViralClear die port s) from clearViral_canon h
theorem execPowerLimitInput_canon {on : Bool} (h : s.Canon) : OutCanon (exec (.powerLimitInput on) s) :=
  show OutCanon (execPowerLimitInput on s) from canon_ite h
  (canon_foldl h fun _ _ h1 => (logDie_calm ..).canon ((setMg_calm ..).canon ((modDie_calm ..).canon h1)))
theorem reset_canon : State.reset.Canon := rfl
theorem execDeviceReset_canon (h : s.Canon) : OutCanon (exec .deviceReset s) := show OutCanon (execDeviceReset s) from h
theorem tick_canon (h : s.Canon) : s.tick.Canon := ticks_canon h
theorem execGtcTick_canon (h : s.Canon) : OutCanon (exec .gtcTick s) := show OutCanon (execGtcTick s) from tick_canon h
theorem execSpdmMeasurementRequest_canon {die : Nat} {nonce : BitVec 256} (h : s.Canon) : OutCanon (exec (.spdmMeasurementRequest die nonce) s) :=
  show OutCanon (execSpdmMeasurementRequest die nonce s) from canon_ite ((emit_calm ..).canon h) ((emit_calm ..).canon h)
theorem execDieLinkCrcError_canon {die link mod : Nat} (h : s.Canon) : OutCanon (exec (.dieLinkCrcError die link mod) s) :=
  show OutCanon (execDieLinkCrcError die link mod s) from (setMg_calm ..).canon ((modDie_calm ..).canon h)
theorem execLinkLayerRetry_canon {die port : Nat} (h : s.Canon) : OutCanon (exec (.linkLayerRetry die port) s) :=
  show OutCanon (execLinkLayerRetry die port s) from canon_ite h (canon_ite ((logDie_calm ..).canon ((setMg_calm ..).canon h)) ((setMg_calm ..).canon h))
theorem execQueueRemove_canon {part : Nat} (h : s.Canon) : OutCanon (exec (.queueRemove part q) s) := by
  show OutCanon (execQueueRemove part q s)
  unfold execQueueRemove
  show State.Canon _
  split
  · exact h
  · exact canon_ite (setQWord_canon h) h
theorem exec_canon {i : Instr} (h : s.Canon) : OutCanon (exec i s) := by
  cases i
  case add => exact execAdd_canon h
  case sub => exact execSub_canon h
  case mul => exact execMul_canon h
  case mulh => exact execMulh_canon h
  case div => exact execDiv_canon h
  case rem => exact execRem_canon h
  case and => exact execAnd_canon h
  case or => exact execOr_canon h
  case xor => exact execXor_canon h
  case shl => exact execShl_canon h
  case shr => exact execShr_canon h
  case sra => exact execSra_canon h
  case slt => exact execSlt_canon h
  case sltn => exact execSltn_canon h
  case min => exact execMin_canon h
  case max => exact execMax_canon h
  case clz => exact execClz_canon h
  case ctz => exact execCtz_canon h
  case popc => exact execPopc_canon h
  case bext => exact execBext_canon h
  case bdep => exact execBdep_canon h
  case sext => exact execSext_canon h
  case zext => exact execZext_canon h
  case mov => exact execMov_canon h
  case addi => exact execAddi_canon h
  case andi => exact execAndi_canon h
  case ori => exact execOri_canon h
  case xori => exact execXori_canon h
  case shli => exact execShli_canon h
  case shri => exact execShri_canon h
  case srai => exact execSrai_canon h
  case li => exact execLi_canon h
  case lih => exact execLih_canon h
  case fadd => exact execFadd_canon h
  case fsub => exact execFsub_canon h
  case fmul => exact execFmul_canon h
  case ffma => exact execFfma_canon h
  case fdiv => exact execFdiv_canon h
  case fsqrt => exact execFsqrt_canon h
  case fmin => exact execFmin_canon h
  case fmax => exact execFmax_canon h
  case fcmp => exact execFcmp_canon h
  case fcvt => exact execFcvt_canon h
  case fclass => exact execFclass_canon h
  case br => exact execBr_canon h
  case bz => exact execBz_canon h
  case bnz => exact execBnz_canon h
  case beq => exact execBeq_canon h
  case bne => exact execBne_canon h
  case blt => exact execBlt_canon h
  case bge => exact execBge_canon h
  case bltn => exact execBltn_canon h
  case bgen => exact execBgen_canon h
  case call => exact execCall_canon h
  case callr => exact execCallr_canon h
  case ret => exact execRet_canon h
  case jr => exact execJr_canon h
  case halt => exact execHalt_canon h
  case haltKeep => exact execHaltKeep_canon h
  case nop => exact execNop_canon h
  case vcmp => exact execVcmp_canon h
  case vfcmp => exact execVfcmp_canon h
  case mdiv => exact execMdiv_canon h
  case melse => exact execMelse_canon h
  case mjoin => exact execMjoin_canon h
  case mpush => exact execMpush_canon h
  case mpop => exact execMpop_canon h
  case mpeek => exact execMpeek_canon h
  case mpeekDepth => exact execMpeekDepth_canon h
  case mpoke => exact execMpoke_canon h
  case mset => exact execMset_canon h
  case mand => exact execMand_canon h
  case mor => exact execMor_canon h
  case mxor => exact execMxor_canon h
  case mnot => exact execMnot_canon h
  case mpopc => exact execMpopc_canon h
  case mpopcBits => exact execMpopcBits_canon h
  case mfirst => exact execMfirst_canon h
  case mspill => exact execMspill_canon h
  case mfill => exact execMfill_canon h
  case lexit => exact execLexit_canon h
  case refill => exact execRefill_canon h
  case sow => exact execSow_canon h
  case vcall => exact execVcall_canon h
  case vadd => exact execVadd_canon h
  case vsub => exact execVsub_canon h
  case vmul => exact execVmul_canon h
  case vmulh => exact execVmulh_canon h
  case vmad => exact execVmad_canon h
  case vand => exact execVand_canon h
  case vor => exact execVor_canon h
  case vxor => exact execVxor_canon h
  case vnot => exact execVnot_canon h
  case vshl => exact execVshl_canon h
  case vshr => exact execVshr_canon h
  case vsra => exact execVsra_canon h
  case vmin => exact execVmin_canon h
  case vmax => exact execVmax_canon h
  case vabs => exact execVabs_canon h
  case vsel => exact execVsel_canon h
  case vclz => exact execVclz_canon h
  case vpopc => exact execVpopc_canon h
  case vsext => exact execVsext_canon h
  case vzext => exact execVzext_canon h
  case vbs => exact execVbs_canon h
  case vext => exact execVext_canon h
  case vins => exact execVins_canon h
  case vfadd => exact execVfadd_canon h
  case vfsub => exact execVfsub_canon h
  case vfmul => exact execVfmul_canon h
  case vffma => exact execVffma_canon h
  case vfdiv => exact execVfdiv_canon h
  case vfsqrt => exact execVfsqrt_canon h
  case vfrcp => exact execVfrcp_canon h
  case vfrsq => exact execVfrsq_canon h
  case vfexp2 => exact execVfexp2_canon h
  case vflog2 => exact execVflog2_canon h
  case vfmin => exact execVfmin_canon h
  case vfmax => exact execVfmax_canon h
  case vfround => exact execVfround_canon h
  case vfcvt => exact execVfcvt_canon h
  case vqblkExp => exact execVqblkExp_canon h
  case vqblkMan => exact execVqblkMan_canon h
  case vbpt => exact execVbpt_canon h
  case vhadd => exact execVhadd_canon h
  case vhmul => exact execVhmul_canon h
  case vhfma => exact execVhfma_canon h
  case vshuf => exact execVshuf_canon h
  case vbcast => exact execVbcast_canon h
  case vrot => exact execVrot_canon h
  case vred => exact execVred_canon h
  case vscan => exact execVscan_canon h
  case vmatch => exact execVmatch_canon h
  case vld => exact execVld_canon h
  case vst => exact execVst_canon h
  case vldu => exact execVldu_canon h
  case lld => exact execLld_canon h
  case lst => exact execLst_canon h
  case vldacc => exact execVldacc_canon h
  case vaadd => exact execVaadd_canon h
  case vamin => exact execVamin_canon h
  case vamax => exact execVamax_canon h
  case vaand => exact execVaand_canon h
  case vaor => exact execVaor_canon h
  case vaxor => exact execVaxor_canon h
  case vaxch => exact execVaxch_canon h
  case vacas => exact execVacas_canon h
  case ld => exact execLd_canon h
  case st => exact execSt_canon h
  case lds => exact execLds_canon h
  case sts => exact execSts_canon h
  case ldf => exact execLdf_canon h
  case ldff => exact execLdff_canon h
  case stf => exact execStf_canon h
  case ste => exact execSte_canon h
  case steScalar => exact execSteScalar_canon h
  case steVector => exact execSteVector_canon h
  case rput => exact execRput_canon h
  case sputfe => exact execSputfe_canon h
  case amsg => exact execAmsg_canon h
  case aadd => exact execAadd_canon h
  case amin => exact execAmin_canon h
  case amax => exact execAmax_canon h
  case aand => exact execAand_canon h
  case aor => exact execAor_canon h
  case axor => exact execAxor_canon h
  case axch => exact execAxch_canon h
  case acas => exact execAcas_canon h
  case fence => exact execFence_canon h
  case l1wb => exact execL1wb_canon h
  case l1inv => exact execL1inv_canon h
  case l1wbi => exact execL1wbi_canon h
  case cdcf => exact execCdcf_canon h
  case l1wbAll => exact execL1wbAll_canon h
  case l1invAll => exact execL1invAll_canon h
  case l1wbiAll => exact execL1wbiAll_canon h
  case cdcfAll => exact execCdcfAll_canon h
  case fenceI => exact execFenceI_canon h
  case pld => exact execPld_canon h
  case pmov => exact execPmov_canon h
  case padd => exact execPadd_canon h
  case pnarrow => exact execPnarrow_canon h
  case pperm => exact execPperm_canon h
  case pget => exact execPget_canon h
  case ptest => exact execPtest_canon h
  case barArrive => exact execBarArrive_canon h
  case barWait => exact execBarWait_canon h
  case barSync => exact execBarSync_canon h
  case gbar => exact execGbar_canon h
  case expect => exact execExpect_canon h
  case cntDec => exact execCntDec_canon h
  case cntWait => exact execCntWait_canon h
  case tsendNew => exact execTsendNew_canon h
  case tsend => exact execTsend_canon h
  case launch => exact execLaunch_canon h
  case rqPush => exact execRqPush_canon h
  case rqPop => exact execRqPop_canon h
  case slotStart => exact execSlotStart_canon h
  case slotStartTask => exact execSlotStartTask_canon h
  case slotReap => exact execSlotReap_canon h
  case slotSpill => exact execSlotSpill_canon h
  case slotLoad => exact execSlotLoad_canon h
  case yield => exact execYield_canon h
  case wfi => exact execWfi_canon h
  case sys => exact execSys_canon h
  case trap => exact execTrap_canon h
  case ebreak => exact execEbreak_canon h
  case eret => exact execEret_canon h
  case cget => exact execCget_canon h
  case cput => exact execCput_canon h
  case cswap => exact execCswap_canon h
  case cfq => exact execCfq_canon h
  case tlbInvPage => exact execTlbInvPage_canon h
  case tlbInvSpace => exact execTlbInvSpace_canon h
  case tlbInvAll => exact execTlbInvAll_canon h
  case hhDsc => exact execHhDsc_canon h
  case hhZero => exact execHhZero_canon h
  case cpyMl => exact execCpyMl_canon h
  case cpyLm => exact execCpyLm_canon h
  case cpyLl => exact execCpyLl_canon h
  case cpyMr => exact execCpyMr_canon h
  case cpyWait => exact execCpyWait_canon h
  case fwTake => exact execFwTake_canon h
  case fwGive => exact execFwGive_canon h
  case fwRes => exact execFwRes_canon h
  case fwResDef => exact execFwResDef_canon h
  case fwPub => exact execFwPub_canon h
  case trlSetCounter => exact execTrlSetCounter_canon h
  case trlSetTerm => exact execTrlSetTerm_canon h
  case trlClrCounter => exact execTrlClrCounter_canon h
  case trlClrTerm => exact execTrlClrTerm_canon h
  case xlda => exact execXlda_canon h
  case xldb => exact execXldb_canon h
  case xmul => exact execXmul_canon h
  case xfold => exact execXfold_canon h
  case xcvt => exact execXcvt_canon h
  case xzero => exact execXzero_canon h
  case xrow => exact execXrow_canon h
  case xcol => exact execXcol_canon h
  case xfmt => exact execXfmt_canon h
  case xwait => exact execXwait_canon h
  case xpost => exact execXpost_canon h
  case xloopBegin => exact execXloopBegin_canon h
  case xloop => exact execXloop_canon h
  case xend => exact execXend_canon h
  case clauseFetch => exact execClauseFetch_canon h
  case parkResume => exact execParkResume_canon h
  case waitLimitExpiry => exact execWaitLimitExpiry_canon h
  case timerPending slot => exact execTimerPending_canon (m := slot) h
  case interruptEntry => exact execInterruptEntry_canon h
  case spill => exact execSpill_canon h
  case slotFreed => exact execSlotFreed_canon h
  case rputDelivery => exact execRputDelivery_canon h
  case sputfeDelivery => exact execSputfeDelivery_canon h
  case remoteWriteRelease => exact execRemoteWriteRelease_canon h
  case amsgDelivery => exact execAmsgDelivery_canon h
  case activeMessageHandlerStart => exact execActiveMessageHandlerStart_canon h
  case messageDelivery => exact execMessageDelivery_canon h
  case withdrawalRequest => exact execWithdrawalRequest_canon h
  case counterDecrement => exact execCounterDecrement_canon h
  case taskDecrement => exact execTaskDecrement_canon h
  case loadBalanceExchange => exact execLoadBalanceExchange_canon h
  case longWaitSpill => exact execLongWaitSpill_canon h
  case faultRingRetry => exact execFaultRingRetry_canon h
  case frreply => exact execFrreply_canon h
  case watchdogExpiry => exact execWatchdogExpiry_canon h
  case coreReturnToService => exact execCoreReturnToService_canon h
  case notifyKick => exact execNotifyKick_canon h
  case queueRegister => exact execQueueRegister_canon h
  case queueMap => exact execQueueMap_canon h
  case gang => exact execGang_canon h
  case wait => exact execWait_canon h
  case signal => exact execSignal_canon h
  case edge => exact execEdge_canon h
  case mark => exact execMark_canon h
  case edgeFlushComplete => exact execEdgeFlushComplete_canon h
  case seedTrayDrain => exact execSeedTrayDrain_canon h
  case gangRelease => exact execGangRelease_canon h
  case signalWindowSet => exact execSignalWindowSet_canon h
  case signalWindowAdd => exact execSignalWindowAdd_canon h
  case doorbell => exact execDoorbell_canon h
  case commandAcceptance => exact execCommandAcceptance_canon h
  case commandStart => exact execCommandStart_canon h
  case commandCompletion => exact execCommandCompletion_canon h
  case combiningWindowClose => exact execCombiningWindowClose_canon h
  case engineStateError => exact execEngineStateError_canon h
  case pageTableWalk => exact execPageTableWalk_canon h
  case l1ReplacementWriteback => exact execL1ReplacementWriteback_canon h
  case peek => exact execPeek_canon h
  case treq => exact execTreq_canon h
  case treqx => exact execTreqx_canon h
  case tcoll => exact execTcoll_canon h
  case tokdata => exact execTokdata_canon h
  case transientRequestReissue => exact execTransientRequestReissue_canon h
  case persistentRequest => exact execPersistentRequest_canon h
  case persistentActivation => exact execPersistentActivation_canon h
  case deactivation => exact execDeactivation_canon h
  case tokenRecount => exact execTokenRecount_canon h
  case rds => exact execRds_canon h
  case rdx => exact execRdx_canon h
  case upg => exact execUpg_canon h
  case fwds => exact execFwds_canon h
  case fwdx => exact execFwdx_canon h
  case inv => exact execInv_canon h
  case invAck => exact execInvAck_canon h
  case fwdAck => exact execFwdAck_canon h
  case datas => exact execDatas_canon h
  case datax => exact execDatax_canon h
  case upgack => exact execUpgack_canon h
  case cmp => exact execCmp_canon h
  case notei => exact execNotei_canon h
  case notedat => exact execNotedat_canon h
  case noteack => exact execNoteack_canon h
  case gone => exact execGone_canon h
  case binv => exact execBinv_canon h
  case binvack => exact execBinvack_canon h
  case binvdata => exact execBinvdata_canon h
  case wrhh => exact execWrhh_canon h
  case wrack => exact execWrack_canon h
  case noticeAnomalyTimeout => exact execNoticeAnomalyTimeout_canon h
  case transactionOverdue => exact execTransactionOverdue_canon h
  case bisnpdata => exact execBisnpdata_canon h
  case bisnpinv => exact execBisnpinv_canon h
  case birsp => exact execBirsp_canon h
  case biconflict => exact execBiconflict_canon h
  case backInvalidationTimeout => exact execBackInvalidationTimeout_canon h
  case hostMemRead => exact execHostMemRead_canon h
  case hostMemWrite => exact execHostMemWrite_canon h
  case hostBlockFill => exact execHostBlockFill_canon h
  case h2dSnoop => exact execH2dSnoop_canon h
  case peerUioWrite => exact execPeerUioWrite_canon h
  case peerUioRead => exact execPeerUioRead_canon h
  case uioTimeout => exact execUioTimeout_canon h
  case migctlGo => exact execMigctlGo_canon h
  case migrationPart => exact execMigrationPart_canon h
  case redirectForward => exact execRedirectForward_canon h
  case redirectEntryFree => exact execRedirectEntryFree_canon h
  case hhresWrite => exact execHhresWrite_canon h
  case hhfbWrite => exact execHhfbWrite_canon h
  case rowCapture => exact execRowCapture_canon h
  case hotRowWindowEnd => exact execHotRowWindowEnd_canon h
  case hbmScrub => exact execHbmScrub_canon h
  case ckctlGo => exact execCkctlGo_canon h
  case checkpointCut => exact execCheckpointCut_canon h
  case checkpointPartCopy => exact execCheckpointPartCopy_canon h
  case checkpointEnd => exact execCheckpointEnd_canon h
  case snapctlArm => exact execSnapctlArm_canon h
  case snapctlNow => exact execSnapctlNow_canon h
  case snapctlDoneClear => exact execSnapctlDoneClear_canon h
  case snapshotLatch => exact execSnapshotLatch_canon h
  case rlogctlWrapClear => exact execRlogctlWrapClear_canon h
  case pctlLiveSet => exact execPctlLiveSet_canon h
  case pctlLiveClear => exact execPctlLiveClear_canon h
  case prstctlGo => exact execPrstctlGo_canon h
  case prstctlDoneClear => exact execPrstctlDoneClear_canon h
  case partitionResetComplete => exact execPartitionResetComplete_canon h
  case pswctlSwapOut => exact execPswctlSwapOut_canon h
  case pswctlResume => exact execPswctlResume_canon h
  case swapComplete => exact execSwapComplete_canon h
  case mgmtRegisterWrite => exact execMgmtRegisterWrite_canon h
  case dieLinkModuleRetire => exact execDieLinkModuleRetire_canon h
  case dieLinkFailure => exact execDieLinkFailure_canon h
  case dieIsolation => exact execDieIsolation_canon h
  case cxlLinkDown => exact execCxlLinkDown_canon h
  case cxlLinkUp => exact execCxlLinkUp_canon h
  case cxlViralEntry => exact execCxlViralEntry_canon h
  case cxlpsViralClear => exact execCxlpsViralClear_canon h
  case thermalClockStep => exact execThermalClockStep_canon h
  case thermalCritical => exact execThermalCritical_canon h
  case powerLimitInput => exact execPowerLimitInput_canon h
  case thermalTrip => exact execThermalTrip_canon h
  case deviceReset => exact execDeviceReset_canon h
  case bootRom => exact execBootRom_canon h
  case gtcStart => exact execGtcStart_canon h
  case gtcTick => exact execGtcTick_canon h
  case clusterEnableStep => exact execClusterEnableStep_canon h
  case spdmMeasurementRequest => exact execSpdmMeasurementRequest_canon h
  case dieLinkCrcError => exact execDieLinkCrcError_canon h
  case dieLinkRetrainDone => exact execDieLinkRetrainDone_canon h
  case linkLayerRetry => exact execLinkLayerRetry_canon h
  case acceptanceOrRefusal => exact execAcceptanceOrRefusal_canon h
  case queueRemove => exact execQueueRemove_canon h
end

/-! ### The plan of a step, and the step (O60) -/

/-- A plan starts from a canonical state, or ends in one. -/
def Plan.Canon : Plan → Prop
  | .run _ t => t.Canon
  | .done o => OutCanon o
theorem Plan.canon_ite {c : Prop} [Decidable c] {p q : Plan} (hp : p.Canon) (hq : q.Canon) : (if c then p else q).Canon := by split <;> assumption
theorem issue_canon {s : State} {a : Agent} (h : s.Canon) : (s.issue a).Canon := by
  unfold State.issue
  split
  · split
    · exact h
    · show State.Canon _
      split
      · exact takeTrap_canon h
      · exact seqStop_canon h
  · show OutCanon _
    split
    · exact hosted_canon h (strandFetch_canon h)
    · exact hosted_canon h (seqFetch_canon h)
theorem strandStep_canon {s : State} {k : Nat} (h : s.Canon) : (s.strandStep k).Canon :=
  Plan.canon_ite (takeReport_canon h) (Plan.canon_ite (enterIrq_canon h) (issue_canon h))
theorem agentStep_canon {s : State} {key : Nat} (h : s.Canon) : (s.agentStep key).Canon :=
  Plan.canon_ite (hosted_canon h (ckptStep_canon h)) (Plan.canon_ite (issue_canon h) (strandStep_canon h))
theorem timeStep_canon {s : State} (h : s.Canon) : s.timeStep.Canon := by
  refine Plan.canon_ite (passTicks_canon h) ?_
  split
  · exact agentStep_canon h
  · exact passTime_canon h
theorem plan_canon {s : State} (h : s.Canon) : s.plan.Canon := by
  refine Plan.canon_ite (issue_canon h) ?_
  split
  · exact strandStep_canon h
  · split
    · next o e => exact internal_canon (s := s.nobody) h o e
    · split
      · exact h
      · split
        · next o e => exact event_canon (s := s.nobody) h o e
        · exact timeStep_canon h
theorem step_canon {s : State} (h : s.Canon) : OutCanon (step s) := by
  have hp := plan_canon h
  unfold step
  split
  next i t e => exact hostedRun_canon (e ▸ hp : (Plan.run i t).Canon) (exec_canon (e ▸ hp : (Plan.run i t).Canon))
  next o e => exact (e ▸ hp : (Plan.done o).Canon)

/-- Settles O60: one lemma for each operation says that it keeps the form, and the lemma of a step is made of them. -/
theorem memoryFormKept : Obligations.MemoryFormKept := by
  unfold Obligations.MemoryFormKept
  intro s t h e
  exact OutCanon.next e (step_canon h)
end Sys2Proof.Machine
